-- ==== Sys2Proof/Word.lean ====
section
/-! DEFINITION. The widths this block works in, and the index types of its units (R5-R8, Table 01.3). -/

namespace Sys2Proof

/-- An 8-bit value. -/
abbrev Byte := BitVec 8
/-- A 16-bit value. -/
abbrev Half := BitVec 16
/-- A 32-bit value. -/
abbrev Word := BitVec 32
/-- A 64-bit value. -/
abbrev Dword := BitVec 64
/-- A status value, 16 bits wide (R447). -/
abbrev Status := BitVec 16

/-- Engines E0-E5 (R15). -/
abbrev EngId := Fin 6
/-- Courier ports P0-P7 (R237). -/
abbrev PortId := Fin 8
/-- Courier ports P0-P7, and T0 as 8 (Table 10.12). -/
abbrev LinkId := Fin 9
/-- The system partition 0 and compute partitions 1-6 (R22). -/
abbrev PartId := Fin 7
/-- Mailboxes 0-63, and the recovery mailbox as 64 (Table 09.4). -/
abbrev MbxId := Fin 65
/-- Direct windows 0-15 (R219). -/
abbrev WinId := Fin 16
/-- Video units: 0 VDEC0, 1 VDEC1, 2 VENC0 (Table 14.12). -/
abbrev VidId := Fin 3
/-- Check-value units CVU0-CVU3. -/
abbrev CvuId := Fin 4
/-- SMS channels 0-15. -/
abbrev ChanId := Fin 16

end Sys2Proof
end

