-- ==== Sys2Proof/Syntax/Operand.lean ====
section
/-! DEFINITION. The operands that the commands carry, where one is more than a number. -/

namespace Sys2Proof

/-- What hardware faults the environment lets an operation meet: the check mechanisms that fail (codes
of Table 08.5), the DETAIL and DATA_CLASS of the record they give (R198, R454), the memory words read
with correction, the memory word or row found uncorrectable (R98, R99), and the bundle that the record
names. The default is a fault-free operation. -/
structure Flt where
  mechs : List Nat := []
  detail : Word := 0
  dataClass : Byte := 0
  corrected : Nat := 0
  uncorrectable : Option Nat := none
  bundle : Nat := 0xFFFF
  deriving DecidableEq, Repr

/-- A mailbox request as the host driver has written it when its DOORBELL takes effect (Table 09.10).
`reserved` are the 106 reserved bytes of the request half in rising offset, zeros left off at the end; `verdict` is the outcome of a signature
check under a key that is not the module's, or of a reservation read back (R299; log entry 6); `aux` holds the kernels
of TEST_KAT that fail (R393), or tells by 1 that what a firmware command reads back differs (R417, R419); for OWNER_CMD both are those of the
inner command; `extra` holds what the command obtains from outside the module: a mirror window (R207), a package or row that an active forwards with
its command (R309), or one byte of what TWIN_PAIR learns of the twin and its wiring: bit 0 it is active, 1 it reports CLAIM_OUT active,
2 its FW_VERSIONS differ, 3 it runs on the fallback, 4 it is not in DEPLOYED, 5 one of its windows is bound, 6 its plan does not name this
slot or the claims are not cross-wired (R302, R304). -/
structure MbxReq where
  mailbox : MbxId
  doorbell : Word
  argBytes : Half
  env : Half := 0xFFFF
  tag : Word := 0
  respAddr : Dword := 0
  reserved : List Byte := []
  args : List Byte
  verdict : Bool := true
  aux : Nat := 0
  extra : List Byte := []
  deriving DecidableEq, Repr

/-- A Courier packet: the header of Table 10.4 but its OP, the payload, the 16 tag bytes and the CRC-32C
(R241). `payload` are the bytes on the wire: of a SECURE context's packet the ciphertext. `opCode` a reserved OP in place of the row's own (R10, R253), and `flt` what the
memory words that it reads let it meet (R98). -/
structure Packet where
  flags : Byte := 0
  length : Half := 0
  link : Half := 0
  epoch : Half := 0
  pktSeq : Word := 0
  tag : Word := 0
  window : Half := 0
  env : Half := 0xFFFF
  notifyPgh : Half := 0xFFFF
  notifyAdd : Byte := 0
  rsvd23 : Byte := 0
  offset : Dword := 0
  arg : Word := 0
  kvSeq : Half := 0
  rsvd38 : Half := 0
  outputSeq : Dword := 0
  payload : List Byte := []
  gcmTag : BitVec 128 := 0
  crc : Word := 0
  opCode : Option Byte := none
  flt : Flt := {}
  deriving DecidableEq, Repr

/-- The MAT slot (Table 05.12) but V. -/
structure MatSlot where
  reg : Bool := false
  afmt : BitVec 4 := 0
  entry : Fin 64 := 0
  start : Bool := false
  emit : Bool := false
  fp32 : Bool := false
  wr : Bool := false
  dest : BitVec 19 := 0
  deriving DecidableEq, Repr

/-- The VEC slot (Table 05.13) but OP. `len` holds lanes - 1. -/
structure VecSlot where
  rm : BitVec 2 := 0
  sat : Bool := false
  ity : BitVec 5 := 0
  oty : BitVec 5 := 0
  srcA : BitVec 19 := 0
  srcB : BitVec 19 := 0
  dst : BitVec 19 := 0
  len : BitVec 9 := 0
  br : Bool := false
  mo : Bool := false
  deriving DecidableEq, Repr

/-- The sources of SAFE_STOP that carry a minimum time and a CLEAR (R46). -/
inductive StopSrc where
  | deadline | twin | thermal
  deriving DecidableEq, Repr

/-- What begins an EJECT (R410): PRESENT_EB broken, or the input below 44 V. -/
inductive EjectCause where
  | presence | undervoltage
  deriving DecidableEq, Repr

/-- A function that FUNC_RESET can reset (Table 09.13). -/
inductive FuncId where
  | engine (e : EngId)
  | video (u : VidId)
  | cvu (u : CvuId)
  | port (p : PortId)
  | context (p : PartId) (ctx : Nat)
  | kv (p : PartId)
  deriving DecidableEq, Repr

/-- What the input, the presence loop and the EPO loop have read for the last second (R396). -/
structure PowerUpCond where
  vin : Half
  present : Bool
  epo : Bool
  heldOneSecond : Bool
  deriving DecidableEq, Repr

/-- The outcome of the known-answer kernels that a TEST_KAT runs: the kernels that fail (R393). -/
structure KatResult where
  failed : BitVec 7 := 0
  deriving DecidableEq, Repr

/-- The outcome of a BIST slice (R384, R386): pass, a mismatch with its DETAIL, or discarded because
VDD_E left its range; a store march names the rows it found in error. -/
inductive SliceResult where
  | pass
  | fail (badRows : List Nat)
  | discarded
  deriving DecidableEq, Repr

/-- A twin record's header (Table 13.2) and the outcome of its tag check. -/
structure TwinHdr where
  part : PartId := 0
  recordSeq : Dword
  cycle : Dword
  tagOk : Bool := true
  deriving DecidableEq, Repr

/-- The body of a REPORT (Table 13.3). -/
structure ReportBody where
  lastSeq : List (PartId × Nat) := []
  digests : List (PartId × Nat × Dword) := []
  ctxs : List (Half × Word × Word) := []
  deriving DecidableEq, Repr

/-- An item of a COPY record (R325). `setting` is configuration, as the command that makes it; a page list holds (resident, engine, page
or slot). -/
inductive CopyItem where
  | setting (opcode : Half) (r : MbxReq)
  | kvSeq (p : PartId) (num state reason handle length editGen : Nat) (lists : List (Nat × List (Bool × EngId × Nat)))
  | kvPage (p : PartId) (e : EngId) (page lastAppend : Nat)
  | outcome (p : PartId) (handle : Half) (opener : Option Nat) (committed : Bool) (misses staged reason postmark : Nat)
  | storeRow (e : EngId) (row : Nat) (bs : List Byte) (digest : Dword)
  | actPage (e : EngId) (page : Nat) (bs : List Byte)
  | lpddrPage (p : PartId) (page : Nat) (bs : List Byte)
  | pigeonhole (n : Nat) (v : Word)
  | passEnd (remaining : Nat)
  deriving DecidableEq, Repr

/-- Work a video unit does in an owned slot, as its stream's content makes it (R330, R333, R334, R340-R343). `samples` are
reconstructed bytes at an offset of the picture's frame buffer. -/
inductive VidWork where
  | chunkParsed
  | unsupported
  | randomAccess
  | pictureStart (poc : Word) (width height : Nat) (longTerm shortTerm inherited : Bool)
  | conceal (reason : Byte) (ctus : Nat)
  | samples (off : Nat) (bs : List Byte)
  | pictureDone
  | unmark (frame : Nat)
  | outputNext (frame : Nat)
  | encodeTake
  deriving DecidableEq, Repr

/-- What a band is made of (R335, R336): the CTB size, whether it is the picture's last, the source rows that its tensor rows
need, inside the conformance window, as luma and chroma samples, the stream's matrix and range, the reason of its first
concealed CTU, and the statistics records (Table 14.8). -/
structure BandSrc where
  ctb : Nat
  last : Bool := false
  depth10 : Bool := false
  luma : List (List Nat)
  cb : List (List Nat)
  cr : List (List Nat)
  bt601 : Bool := false
  fullRange : Bool := false
  reason : Byte := 0
  stats : List (List Byte) := []
  deriving DecidableEq, Repr

end Sys2Proof
end

