-- ==== Sys2Proof/Syntax.lean ====
section
/-! DEFINITION. The commands the block takes: one constructor for each step that spec/opcode_table.json lists.
Its first operand t is the postmark of the step (log entry 1). -/

namespace Sys2Proof

/-- The steps of the XB6, each whole and indivisible (spec/95_what_each_step_holds.md). -/
inductive Instr where
  /-- ECHO (R231): Mailbox command that returns its argument bytes unchanged with ST_OK. -/
  | echo (t : Nat) (r : MbxReq)
  /-- FUNC_RESET (R233): Mailbox command that fences, quiesces, discards, scrubs and reports one function. -/
  | funcReset (t : Nat) (r : MbxReq)
  /-- FUNC_RESET_QUIESCE (R233): Quiescence of a reset function, when its accepted work ends or at f + 90,000 cycles; discard and scrub follow. -/
  | funcResetQuiesce (t : Nat) (fn : FuncId)
  /-- MODEL_LOAD (R232): Mailbox command that writes store rows through the row staging buffer or activation lines through the side port. -/
  | modelLoad (t : Nat) (r : MbxReq)
  /-- DWIN_BIND (R219): Mailbox command that binds a direct window to a partition and a forwarding engine. -/
  | dwinBind (t : Nat) (r : MbxReq)
  /-- DWIN_RELEASE (R219): Mailbox command that unbinds a direct window once the jobs started through it have ended. -/
  | dwinRelease (t : Nat) (r : MbxReq)
  /-- HISTORY_READ (R199): Mailbox command that returns the history header and records from the ring or the fence table. -/
  | historyRead (t : Nat) (r : MbxReq)
  /-- CKPT_CONFIG (R206): Mailbox command that configures the checkpoint slots, interval and mirror of a partition. -/
  | ckptConfig (t : Nat) (r : MbxReq)
  /-- CKPT_RESTORE (R207): Mailbox command that selects the valid newest checkpoint slot, copying it from the mirror if asked. -/
  | ckptRestore (t : Nat) (r : MbxReq)
  /-- PARTITION_CREATE (R282): Mailbox command that creates a compute partition with its engines, region, slots and keys. -/
  | partitionCreate (t : Nat) (r : MbxReq)
  /-- PARTITION_DISSOLVE (R300): Mailbox command that makes a partition DISSOLVING, ends its work and erases and frees it. -/
  | partitionDissolve (t : Nat) (r : MbxReq)
  /-- PARTITION_LAYOUT (R270): Stageable command that changes a partition's engine set or KV steps at commit. -/
  | partitionLayout (t : Nat) (r : MbxReq)
  /-- KEY_INSTALL (R287): Mailbox command that decapsulates and unwraps a key into a partition key slot under a new epoch. -/
  | keyInstall (t : Nat) (r : MbxReq)
  /-- ATTEST (R296): Mailbox command that returns a signed attestation report for a subject partition. -/
  | attest (t : Nat) (r : MbxReq)
  /-- LIFECYCLE_ADVANCE (R281): Mailbox command that moves the lifecycle one step forward, with authorisation where needed. -/
  | lifecycleAdvance (t : Nat) (r : MbxReq)
  /-- OWNER_CMD (R291): Mailbox command that authenticates and runs an inner command for a confidential partition and seals its response. -/
  | ownerCmd (t : Nat) (r : MbxReq)
  /-- COUNTERS_READ (R292): Owner command that returns a confidential partition's engine and KV registers with rounded cycle values. -/
  | countersRead (t : Nat) (r : MbxReq)
  /-- PARTNER_OPEN (R245): Mailbox command that opens a partner context on a port for a partition. -/
  | partnerOpen (t : Nat) (r : MbxReq)
  /-- PARTNER_CLOSE (R248): Mailbox command that resets and closes a partner context and revokes its windows. -/
  | partnerClose (t : Nat) (r : MbxReq)
  /-- WINDOW_GRANT (R249): Mailbox command that grants or revokes a window descriptor of a context. -/
  | windowGrant (t : Nat) (r : MbxReq)
  /-- PLAN_LOAD (R240): Mailbox command that checks a cabinet plan and writes it to the boot NOR for the next power-up. -/
  | planLoad (t : Nat) (r : MbxReq)
  /-- ENV_OPEN (R262): Mailbox command that opens an envelope for a partition and returns its handle. -/
  | envOpen (t : Nat) (r : MbxReq)
  /-- ENV_COMMIT (R271): Mailbox command that settles an envelope toward commit. -/
  | envCommit (t : Nat) (r : MbxReq)
  /-- ENV_ABORT (R276): Mailbox command that aborts an envelope if accepted before its commit cycle. -/
  | envAbort (t : Nat) (r : MbxReq)
  /-- ENV_STATUS (R277): Mailbox command that returns an envelope's state word and commit postmark. -/
  | envStatus (t : Nat) (r : MbxReq)
  /-- SCHEDULE_ARM (R133): Mailbox command that checks a schedule package, recomputes W and arms the matching variant. -/
  | scheduleArm (t : Nat) (r : MbxReq)
  /-- SCHEDULE_DISARM (R135): Mailbox command that stops a schedule's triggers and frees it after its admitted jobs end. -/
  | scheduleDisarm (t : Nat) (r : MbxReq)
  /-- KV_POOL_CONFIG (R153): Mailbox command that configures and formats a partition's KV pool. -/
  | kvPoolConfig (t : Nat) (r : MbxReq)
  /-- KV_BIND (R162): Mailbox command that binds a logical engine of a schedule to KV layers and checks the image. -/
  | kvBind (t : Nat) (r : MbxReq)
  /-- KV_SEQ_OPEN (R160): Edit command that makes a FREE sequence OPEN and attaches it to a schedule. -/
  | kvSeqOpen (t : Nat) (r : MbxReq)
  /-- KV_SEQ_TRUNCATE (R160): Edit command that shortens a sequence and frees pages beyond the new length. -/
  | kvSeqTruncate (t : Nat) (r : MbxReq)
  /-- KV_SEQ_FREE (R160): Edit command that frees every page of a sequence and makes it FREE. -/
  | kvSeqFree (t : Nat) (r : MbxReq)
  /-- KV_SEQ_QUERY (R160): Command that returns the state, length and page counts of a sequence. -/
  | kvSeqQuery (t : Nat) (r : MbxReq)
  /-- VIDEO_DEC_OPEN (R332): Mailbox command that opens a decode stream on a decoder. -/
  | videoDecOpen (t : Nat) (r : MbxReq)
  /-- VIDEO_ENC_OPEN (R342): Mailbox command that opens an encode stream on VENC0. -/
  | videoEncOpen (t : Nat) (r : MbxReq)
  /-- VIDEO_CLOSE (R346): Mailbox command that stops and closes a video stream. -/
  | videoClose (t : Nat) (r : MbxReq)
  /-- VIDEO_QUERY (R346): Mailbox command that returns the header of a stream area. -/
  | videoQuery (t : Nat) (r : MbxReq)
  /-- STATUS (R362): SMS_QUERY function that returns the SMS fields and the digest of the parameter set in use. -/
  | smsStatus (t : Nat) (r : MbxReq)
  /-- FRANK (R363): SMS_QUERY function that produces a weighing record of the instrument's last values. -/
  | smsFrank (t : Nat) (r : MbxReq)
  /-- ZERO (R360): SMS_QUERY function that sets the zero of an instrument within its range. -/
  | smsZero (t : Nat) (r : MbxReq)
  /-- TARE (R361): SMS_QUERY function that sets the tare to the stable gross value. -/
  | smsTare (t : Nat) (r : MbxReq)
  /-- PRESET_TARE (R361): SMS_QUERY function that sets the tare to a given value. -/
  | smsPresetTare (t : Nat) (r : MbxReq)
  /-- TARE_CLEAR (R361): SMS_QUERY function that clears the tare. -/
  | smsTareClear (t : Nat) (r : MbxReq)
  /-- RECORDS (R362): SMS_QUERY function that returns up to 15 records from a sequence number. -/
  | smsRecords (t : Nat) (r : MbxReq)
  /-- CHECKPOINT (R366): SMS_QUERY function that returns the latest signed SMS checkpoint. -/
  | smsCheckpoint (t : Nat) (r : MbxReq)
  /-- SWID (R368): SMS_QUERY function that returns the software identification row. -/
  | smsSwid (t : Nat) (r : MbxReq)
  /-- PARAM_LOAD (R355): SMS_QUERY function that loads a parameter set and channel keys under ADJ_EN and blows an audit fuse. -/
  | smsParamLoad (t : Nat) (r : MbxReq)
  /-- SM_STAGE (R426): SMS_QUERY function that stages a block of an SM image into the unused SMS NOR slot. -/
  | smStage (t : Nat) (r : MbxReq)
  /-- SM_VERIFY (R426): SMS_QUERY function that verifies a staged SM image's signature and compatibility. -/
  | smVerify (t : Nat) (r : MbxReq)
  /-- SM_ACTIVATE (R426): SMS_QUERY function that activates a verified SM image with an audit fuse and a TYPE 6 record. -/
  | smActivate (t : Nat) (r : MbxReq)
  /-- CVU_SUBMIT (R377): Mailbox command that queues a CRC job on a check-value unit. -/
  | cvuSubmit (t : Nat) (r : MbxReq)
  /-- TEST_KAT (R393): Mailbox command that runs known-answer kernels as jobs on an engine. -/
  | testKat (t : Nat) (r : MbxReq) (res : KatResult)
  /-- BIST_SLICE (R390): Mailbox command that runs named BIST slices on an engine ahead of the rotation. -/
  | bistSlice (t : Nat) (r : MbxReq)
  /-- MARGIN_SWEEP (R394): Mailbox command that runs kernels at a series of supply, clock and temperature points. -/
  | marginSweep (t : Nat) (r : MbxReq)
  /-- SCAN_RUN (R391): Mailbox command that applies verified scan patterns to a granted engine. -/
  | scanRun (t : Nat) (r : MbxReq)
  /-- FENCE_LIFT (R392): Mailbox command that lifts an engine's fence after the required tests have passed. -/
  | fenceLift (t : Nat) (r : MbxReq)
  /-- MAINT_GRANT (R389): Mailbox command that grants maintenance access to engines outside every partition. -/
  | maintGrant (t : Nat) (r : MbxReq)
  /-- TWIN_PAIR (R303): Mailbox command that pairs the module as active or joining standby. -/
  | twinPair (t : Nat) (r : MbxReq)
  /-- TWIN_RESYNC (R325): Mailbox command that copies the pair's state to a standby and brings it into step. -/
  | twinResync (t : Nat) (r : MbxReq)
  /-- TWIN_ADMIT (R305): Owner command that allows a confidential partition's keys to go to a named standby. -/
  | twinPermit (t : Nat) (r : MbxReq)
  /-- TWIN_GIVEUP (R317): Mailbox command that makes the active give up to its standby. -/
  | twinGiveup (t : Nat) (r : MbxReq)
  /-- FW_STAGE (R417): Mailbox command that stages one block of a firmware image into the staging area. -/
  | fwStage (t : Nat) (r : MbxReq)
  /-- FW_VERIFY (R418): Mailbox command that checks a staged image's blocks, signature and compatibility. -/
  | fwVerify (t : Nat) (r : MbxReq)
  /-- FW_ACTIVATE (R419): Mailbox command that overwrites an image slot from the verified staged image. -/
  | fwActivate (t : Nat) (r : MbxReq)
  /-- FW_STATUS (R420): Mailbox command that returns running, installed and staged image versions. -/
  | fwStatus (t : Nat) (r : MbxReq)
  /-- FW_RESTART (R421): Mailbox command that runs EJECT steps 1-4 and restarts the ROM. -/
  | fwRestart (t : Nat) (r : MbxReq)
  /-- SETTINGS_SAVE (R423): Mailbox command that writes the current settings to the unused settings copy. -/
  | settingsSave (t : Nat) (r : MbxReq)
  /-- REC_INFO (R424): Recovery command that returns the firmware status with running fields 0. -/
  | recInfo (t : Nat) (r : MbxReq)
  /-- REC_STAGE (R424): Recovery command that writes a chunk of an image into the staging area. -/
  | recStage (t : Nat) (r : MbxReq)
  /-- REC_INSTALL (R424): Recovery command that verifies and installs a staged image. -/
  | recInstall (t : Nat) (r : MbxReq)
  /-- REC_RESTART (R424): Recovery command that restarts the module from the ROM. -/
  | recRestart (t : Nat) (r : MbxReq)
  /-- COMMAND_WAIT_START (R230): Start of an accepted mailbox command that waited for a free place or for an earlier command of the same partition or function. -/
  | commandWaitStart (t : Nat) (m : MbxId)
  /-- MAILBOX_RESPONSE (R228): Completion of a mailbox command: response data and header become valid and HST_MBX_DONE bit n is set. -/
  | mailboxResponse (t : Nat) (m : MbxId)
  /-- PUT (R243): Courier request that writes its payload into an ACT or LPDDR window, or stages it in an envelope. -/
  | put (t : Nat) (port : PortId) (p : Packet)
  /-- PUT_NOTIFY (R243): Courier request that writes its payload and then adds to a pigeonhole, possibly as a job trigger. -/
  | putNotify (t : Nat) (port : PortId) (p : Packet)
  /-- GET (R243): Courier request that reads bytes from a window and returns them. -/
  | get (t : Nat) (port : PortId) (p : Packet) (f : Flt)
  /-- FETCH_ADD (R243): Courier request that adds to a 64-bit word and returns the old word. -/
  | fetchAdd (t : Nat) (port : PortId) (p : Packet)
  /-- CAS (R243): Courier request that compares and swaps a 64-bit word and returns the old word. -/
  | cas (t : Nat) (port : PortId) (p : Packet)
  /-- NOTIFY (R252): Courier request that adds to a pigeonhole in a PGH window, or triggers a job on a trigger pigeonhole. -/
  | notify (t : Nat) (port : PortId) (p : Packet)
  /-- ENV_OPEN_OP (R262): Courier operation by which a partner opens an envelope. -/
  | envOpenOp (t : Nat) (port : PortId) (p : Packet)
  /-- ENV_COMMIT_OP (R271): Courier operation by which a partner commits an envelope. -/
  | envCommitOp (t : Nat) (port : PortId) (p : Packet)
  /-- ENV_ABORT_OP (R276): Courier operation by which a partner aborts an envelope. -/
  | envAbortOp (t : Nat) (port : PortId) (p : Packet)
  /-- ENV_STATUS_OP (R277): Courier operation by which a partner reads an envelope's state word. -/
  | envStatusOp (t : Nat) (port : PortId) (p : Packet)
  /-- FRAME (R258): Courier packet on a CLEAR context handed to the port's filter program and never answered. -/
  | frame (t : Nat) (port : PortId) (p : Packet)
  /-- RESPONSE (R256): Arrival of a far end's response to an operation the module sent. -/
  | response (t : Nat) (port : PortId) (op : Byte) (p : Packet)
  /-- IDENT (R239): Control block carrying the far end's identity, checked against the cabinet plan to open or fence the port. -/
  | ident (t : Nat) (port : LinkId) (identity : Dword) (farPort : Byte)
  /-- IDLE (R238): Control block received when no other block is due, keeping the port up. -/
  | idle (t : Nat) (port : LinkId)
  /-- CREDIT (R255): Control block returning credit blocks for contexts. -/
  | credit (t : Nat) (port : LinkId) (pairs : List (Half × Half))
  /-- DEPART (R261): Control block from a far end at the start of its EJECT, setting DEPART_SEEN. -/
  | depart (t : Nat) (port : LinkId)
  /-- BLOCK_LOCK_LOSS (R238): Loss of block lock on a lane takes the port down and ends its outstanding operations with ST_LINK_DOWN. -/
  | blockLockLoss (t : Nat) (port : LinkId)
  /-- UNCORRECTABLE_CODEWORD (R30): A codeword the FEC cannot correct is discarded; eight in a row take the port down. -/
  | uncorrectableCodeword (t : Nat) (port : LinkId)
  /-- NO_BLOCK_TIMEOUT (R238): Expiry of 9,000 cycles without an arriving block takes the port down. -/
  | noBlockTimeout (t : Nat) (port : LinkId)
  /-- RETRAIN_COMPLETE (R238): Completion of link training and block lock on a port. -/
  | retrainComplete (t : Nat) (port : LinkId)
  /-- IDENT_SEND (R237): Periodic sending of IDENT every 100 ms. -/
  | identSend (t : Nat) (port : LinkId)
  /-- IDLE_SEND (R237): Sending of IDLE when no block has been due for 5 us. -/
  | idleSend (t : Nat) (port : LinkId)
  /-- EGRESS_PACKET_START (R256): Egress chooses the next packet by priority once the wire is free and credit is held. -/
  | egressPacketStart (t : Nat) (port : PortId)
  /-- REMOTE_TIMEOUT (R256): An outstanding operation without response after REMOTE_TIMEOUT ends with ST_REMOTE_TIMEOUT. -/
  | remoteTimeout (t : Nat) (port : PortId) (tag : Word)
  /-- TOKEN_PERIOD (R257): Start of a 4,096-cycle period adding OPS_RATE and BYTES_RATE to each context's buckets. -/
  | tokenPeriod (t : Nat)
  /-- DWIN_QUOTA_PERIOD (R236): Start of a 65,536-cycle period adding RATE tokens to each direct window's bucket. -/
  | dwinQuotaPeriod (t : Nat)
  /-- REFUSAL_CAP_PERIOD (R405): Start of a 4,096-cycle period renewing each port's allowance of 8 clear responses. -/
  | refusalCapPeriod (t : Nat)
  /-- MODE_REGISTER_WRITE (R209): Host LPDDR5 mode-register write, ignored with HST_ERR.UNSUPPORTED for unsupported options. -/
  | modeRegisterWrite (t : Nat) (ch : Fin 2) (mr v : Byte) (supported : Bool)
  /-- MODE_REGISTER_READ (R210): Host LPDDR5 mode-register read returning the fixed or last written value. -/
  | modeRegisterRead (t : Nat) (ch : Fin 2) (mr : Byte)
  /-- UNSUPPORTED_COMMAND (R209): Host write-X or data-copy command, ignored with HST_ERR.UNSUPPORTED. -/
  | unsupportedCommand (t : Nat) (ch : Fin 2)
  /-- REFRESH (R208): Host refresh, power-down, self-refresh or deep-sleep command, accepted without effect on data. -/
  | refresh (t : Nat) (ch : Fin 2)
  /-- RESET_N (R440): RESET_n low resets the host-port interface of its channel only. -/
  | resetN (t : Nat) (ch : Fin 2)
  /-- HOST_DATA_ROW_WRITE (R220): Host write to a direct-window data row, made valid and forwarded to activation SRAM. -/
  | hostDataRowWrite (t : Nat) (w : WinId) (row : Nat) (off : Nat) (bs : List Byte) (f : Flt)
  /-- TRIGGER_RECORD (R221): Host write of a trigger record that starts admission of a job or is discarded. -/
  | triggerRecord (t : Nat) (w : WinId) (bs : List Byte)
  /-- SEAL_ENTRY (R289): Host seal entry of a sealed window whose tag is checked before its rows are forwarded. -/
  | sealEntry (t : Nat) (w : WinId) (entry : Nat) (bs : List Byte)
  /-- BULK_WRITE (R226): Host write to the bulk area, taking a frame, merging under a mask or being dropped. -/
  | bulkWrite (t : Nat) (a : PartId) (off : Nat) (bs : List Byte)
  /-- BULK_READ (R226): Host read of the bulk area returning bytes or starting a page fetch. -/
  | bulkRead (t : Nat) (a : PartId) (off n : Nat)
  /-- BULK_FETCH_DONE (R226): A fetched bulk page becomes resident in its frame. -/
  | bulkFetchDone (t : Nat) (a : PartId) (page : Nat)
  /-- UNMAPPED_WRITE (R211): Host write to an unmapped or read-only area, ignored with HST_ERR.UNMAPPED_WRITE. -/
  | unmappedWrite (t : Nat) (addr : Word)
  /-- HST_POSTMARK_LO_READ (R40): Read of HST_POSTMARK_LO that latches the upper postmark bits. -/
  | hstPostmarkLoRead (t : Nat)
  /-- RC_FIELD_READ (R214): Read of an RC field returning its value and subtracting exactly that value. -/
  | rcFieldRead (t : Nat) (addr : Word)
  /-- HST_SAFE_STOP_CLEAR (R46): Write of 1 to HST_SAFE_STOP.CLEAR releasing or remembering release of the deadline source. -/
  | hstSafeStopClear (t : Nat) (v : Word)
  /-- TWN_CONTROL_CLEAR_STOP (R316): Write of 1 to TWN_CONTROL.CLEAR_STOP for the twin source of SAFE_STOP. -/
  | twnControlClearStop (t : Nat) (v : Word)
  /-- THM_CONTROL_CLEAR_STOP (R408): Write of 1 to THM_CONTROL.CLEAR_STOP for the thermal source of SAFE_STOP. -/
  | thmControlClearStop (t : Nat) (v : Word)
  /-- HST_UTC_HI_WRITE (R235): Write of HST_UTC_HI that sets the module's UTC from both halves. -/
  | hstUtcHiWrite (t : Nat) (v : Word)
  /-- HST_DWIN_QUOTA_WRITE (R236): Write of HST_DWINn_QUOTA that sets rate and burst and refills the bucket. -/
  | hstDwinQuotaWrite (t : Nat) (w : WinId) (v : Word)
  /-- CRR_DLQ_HEAD_WRITE (R260): Write of a dead-letter ring's HEAD that frees read entries. -/
  | crrDlqHeadWrite (t : Nat) (p : PartId) (v : Word)
  /-- REGISTER_WRITE (R11): Write to any register without a row of its own, by its access type. -/
  | registerWrite (t : Nat) (addr : Word) (v : Dword)
  /-- JOB_START (R105): Bundle 0 of the head job issues on every engine of the variant after its trigger is released and engines are free. -/
  | jobStart (t : Nat) (e : EngId)
  /-- LDV (R115): LOAD operation copying activation lines into the broadcast register. -/
  | ldv (t : Nat) (e : EngId) (vline vlen : Nat) (f : Flt)
  /-- TLD (R90): LOAD operation loading a tile from store rows into a tile register. -/
  | tld (t : Nat) (e : EngId) (row : Nat) (reg : Bool) (shape : Nat) (f : Flt)
  /-- KVT (R168): LOAD operation loading a page tile named by the head descriptor, optionally popping it. -/
  | kvt (t : Nat) (e : EngId) (row : Nat) (reg : Bool) (shape : Nat) (pop : Bool) (f : Flt)
  /-- KVA (R170): LOAD operation writing the append register into the open page slot as a merged row. -/
  | kva (t : Nat) (e : EngId) (reg : Bool) (f : Flt)
  /-- MAT (R116): Matrix operation multiplying the broadcast register by a tile into an accumulator chain, optionally emitting. -/
  | mat (t : Nat) (e : EngId) (m : MatSlot) (f : Flt)
  /-- VPLD (R117): Vector operation copying parameter records into the parameter file. -/
  | vpld (t : Nat) (e : EngId) (v : VecSlot) (f : Flt)
  /-- REQ (R75): Vector operation requantising ACC96 or INT32 lanes with per-channel records. -/
  | req (t : Nat) (e : EngId) (v : VecSlot) (f : Flt)
  /-- VADD (R74): Vector FP32 addition. -/
  | vadd (t : Nat) (e : EngId) (v : VecSlot) (f : Flt)
  /-- VSUB (R74): Vector FP32 subtraction. -/
  | vsub (t : Nat) (e : EngId) (v : VecSlot) (f : Flt)
  /-- VMUL (R74): Vector FP32 multiplication. -/
  | vmul (t : Nat) (e : EngId) (v : VecSlot) (f : Flt)
  /-- VFMA (R74): Vector FP32 fused multiply-add with one rounding. -/
  | vfma (t : Nat) (e : EngId) (v : VecSlot) (f : Flt)
  /-- VMAX (R78): Vector FP32 maximum. -/
  | vmax (t : Nat) (e : EngId) (v : VecSlot) (f : Flt)
  /-- VMIN (R78): Vector FP32 minimum. -/
  | vmin (t : Nat) (e : EngId) (v : VecSlot) (f : Flt)
  /-- VEXP2 (R79): Vector special function 2^x. -/
  | vexp2 (t : Nat) (e : EngId) (v : VecSlot) (f : Flt)
  /-- VLOG2 (R79): Vector special function log2 x. -/
  | vlog2 (t : Nat) (e : EngId) (v : VecSlot) (f : Flt)
  /-- VRCP (R79): Vector special function reciprocal. -/
  | vrcp (t : Nat) (e : EngId) (v : VecSlot) (f : Flt)
  /-- VRSQRT (R79): Vector special function reciprocal square root. -/
  | vrsqrt (t : Nat) (e : EngId) (v : VecSlot) (f : Flt)
  /-- VRSUM (R78): Cross-lane sum by a fixed tree into lane 0. -/
  | vrsum (t : Nat) (e : EngId) (v : VecSlot) (f : Flt)
  /-- VRMAX (R78): Cross-lane maximum by a fixed tree into lane 0. -/
  | vrmax (t : Nat) (e : EngId) (v : VecSlot) (f : Flt)
  /-- VRMIN (R78): Cross-lane minimum by a fixed tree into lane 0. -/
  | vrmin (t : Nat) (e : EngId) (v : VecSlot) (f : Flt)
  /-- VCVT (R76): Vector conversion between non-MX formats. -/
  | vcvt (t : Nat) (e : EngId) (v : VecSlot) (f : Flt)
  /-- VCVTMX (R77): Vector conversion of FP32 blocks to an MX or INT4B format. -/
  | vcvtmx (t : Nat) (e : EngId) (v : VecSlot) (f : Flt)
  /-- VEXT (R117): Vector exact widening of MX, INT4B or narrower formats to FP32. -/
  | vext (t : Nat) (e : EngId) (v : VecSlot) (f : Flt)
  /-- IADD (R80): Vector INT32 addition, saturating with SAT. -/
  | iadd (t : Nat) (e : EngId) (v : VecSlot) (f : Flt)
  /-- ISUB (R80): Vector INT32 subtraction, saturating with SAT. -/
  | isub (t : Nat) (e : EngId) (v : VecSlot) (f : Flt)
  /-- IMUL (R80): Vector INT32 multiplication, saturating with SAT. -/
  | imul (t : Nat) (e : EngId) (v : VecSlot) (f : Flt)
  /-- ISHL (R80): Vector INT32 left shift, saturating with SAT. -/
  | ishl (t : Nat) (e : EngId) (v : VecSlot) (f : Flt)
  /-- ISHR (R80): Vector INT32 logical right shift. -/
  | ishr (t : Nat) (e : EngId) (v : VecSlot) (f : Flt)
  /-- ISRA (R80): Vector INT32 arithmetic right shift. -/
  | isra (t : Nat) (e : EngId) (v : VecSlot) (f : Flt)
  /-- IAND (R80): Vector bitwise AND. -/
  | iand (t : Nat) (e : EngId) (v : VecSlot) (f : Flt)
  /-- IOR (R80): Vector bitwise OR. -/
  | ior (t : Nat) (e : EngId) (v : VecSlot) (f : Flt)
  /-- IXOR (R80): Vector bitwise XOR. -/
  | ixor (t : Nat) (e : EngId) (v : VecSlot) (f : Flt)
  /-- IMIN (R80): Vector INT32 minimum. -/
  | imin (t : Nat) (e : EngId) (v : VecSlot) (f : Flt)
  /-- IMAX (R80): Vector INT32 maximum. -/
  | imax (t : Nat) (e : EngId) (v : VecSlot) (f : Flt)
  /-- ICMP (R80): Vector INT32 comparison writing 1 or 0 per lane. -/
  | icmp (t : Nat) (e : EngId) (v : VecSlot) (f : Flt)
  /-- IADDS (R80): Vector INT32 saturating addition. -/
  | iadds (t : Nat) (e : EngId) (v : VecSlot) (f : Flt)
  /-- ISUBS (R80): Vector INT32 saturating subtraction. -/
  | isubs (t : Nat) (e : EngId) (v : VecSlot) (f : Flt)
  /-- VSEL (R117): Vector lane select by the destination's old value. -/
  | vsel (t : Nat) (e : EngId) (v : VecSlot) (f : Flt)
  /-- VBCAST (R117): Vector broadcast of lane 0 to many lanes. -/
  | vbcast (t : Nat) (e : EngId) (v : VecSlot) (f : Flt)
  /-- VARGMAX (R151): Vector argmax over channels in PACK, FIRST, NEXT or LAST mode. -/
  | vargmax (t : Nat) (e : EngId) (v : VecSlot) (f : Flt)
  /-- VWIN (R145): Vector Winograd input or output transform. -/
  | vwin (t : Nat) (e : EngId) (v : VecSlot) (f : Flt)
  /-- VS2D (R143): Vector space-to-depth, repitch or transpose. -/
  | vs2d (t : Nat) (e : EngId) (v : VecSlot) (f : Flt)
  /-- VD2S (R143): Vector depth-to-space or inverse transpose. -/
  | vd2s (t : Nat) (e : EngId) (v : VecSlot) (f : Flt)
  /-- VKVP (R155): Vector conversion of one record into the append register. -/
  | vkvp (t : Nat) (e : EngId) (v : VecSlot) (f : Flt)
  /-- OUT (R120): MOV operation handing lines to the pass-through port on a route. -/
  | out (t : Nat) (e : EngId) (line len route : Nat) (last : Bool) (f : Flt)
  /-- OUTN (R120): MOV operation like OUT that adds 1 to the route's pigeonhole after the message. -/
  | outn (t : Nat) (e : EngId) (line len route : Nat) (last : Bool) (f : Flt)
  /-- LDR (R120): MOV operation moving LPDDR5X or checkpoint bytes into activation SRAM. -/
  | ldr (t : Nat) (e : EngId) (line route : Nat) (f : Flt)
  /-- LDW (R120): MOV operation moving activation SRAM bytes into LPDDR5X or a checkpoint slot. -/
  | ldw (t : Nat) (e : EngId) (line route : Nat) (f : Flt)
  /-- WAIT (R125): SYNC operation waiting for a pigeonhole count and subtracting it. -/
  | wait (t : Nat) (e : EngId) (handle count : Nat) (f : Flt)
  /-- NOTE (R122): SYNC operation adding COUNT to a pigeonhole. -/
  | note (t : Nat) (e : EngId) (handle count : Nat) (f : Flt)
  /-- WAITL (R125): SYNC operation waiting for the engine's LDR and LDW to complete. -/
  | waitl (t : Nat) (e : EngId) (f : Flt)
  /-- LOOP (R124): CTL operation starting a loop body that repeats COUNT times. -/
  | loop (t : Nat) (e : EngId) (arg : Nat) (f : Flt)
  /-- TEST (R127): CTL operation opening a test window for the BIST controller. -/
  | test (t : Nat) (e : EngId) (arg : Nat) (f : Flt)
  /-- END (R128): CTL operation ending the job on the engine. -/
  | endJob (t : Nat) (e : EngId) (f : Flt)
  /-- WAIT_RELEASE (R125): A waiting sequencer sees the pigeonhole at COUNT and issues the next bundle. -/
  | waitRelease (t : Nat) (e : EngId)
  /-- WAITL_RELEASE (R125): All awaited LDR and LDW complete and the next bundle issues. -/
  | waitlRelease (t : Nat) (e : EngId)
  /-- EGRESS_CREDIT_RELEASE (R125): A bundle held for egress credit issues once the credit arrives. -/
  | egressCreditRelease (t : Nat) (e : EngId)
  /-- WAIT_TIMEOUT (R32): A wait reaching its declared bound ends the job with ST_WAIT_TIMEOUT. -/
  | waitTimeout (t : Nat) (e : EngId)
  /-- LPDDR_SLOT (R452): Start of a 32-cycle LPDDR5X slot, serving LDR and LDW first and other traffic after. -/
  | lpddrSlot (t : Nat) (slot : Fin 32)
  /-- LPDDR_TRANSFER_DONE (R33): Read data arrives or a write is acknowledged for a slot's transfer. -/
  | lpddrTransferDone (t : Nat) (e : EngId) (f : Flt)
  /-- JOB_COMPLETION (R36): A job reaches its completion point when its last output reaches its end. -/
  | jobCompletion (t : Nat) (job : Nat)
  /-- DEADLINE_MISS (R42): The deadline monitor records a miss when the postmark passes the last collection. -/
  | deadlineMiss (t : Nat) (job : Nat)
  /-- SAFE_STOP_MIN_EXPIRY (R46): End of a SAFE_STOP source's 1 ms minimum, releasing it if a CLEAR is remembered. -/
  | safeStopMinExpiry (t : Nat) (src : StopSrc)
  /-- CHECKPOINT_SEAL (R206): After a qualifying job ends, the slot under construction is sealed with a CRC-64 and header. -/
  | checkpointSeal (t : Nat) (p : PartId)
  /-- CHECKPOINT_MIRROR (R207): Copy of a sealed checkpoint to the mirror window once the previous copy has ended. -/
  | checkpointMirror (t : Nat) (p : PartId)
  /-- STORE_SCRUB (R100): The store scrubber reads a row in a free cycle and writes back a corrected row. -/
  | storeScrub (t : Nat) (e : EngId) (row : Nat) (f : Flt)
  /-- ACT_SCRUB (R100): Every 1,024 cycles the activation scrubber reads one line of each bank. -/
  | actScrub (t : Nat) (e : EngId) (f : Flt)
  /-- DIGEST_EPOCH (R203): Every 100 ms a digest epoch ends, row digests are compared and a new epoch begins. -/
  | digestEpoch (t : Nat)
  /-- HISTORY_PROGRAM (R197): A waiting history record is programmed into SPI NAND and given its SEQUENCE. -/
  | historyProgram (t : Nat)
  /-- LOCKSTEP_MISMATCH (R192): The postmaster lockstep pair disagrees, driving SAFE_STOP, giving up and restarting through the ROM. -/
  | lockstepMismatch (t : Nat)
  /-- KV_WALK_START (R163): A walker starts a job's walk, capturing the generation, state and length of its sequence. -/
  | kvWalkStart (t : Nat) (e : EngId)
  /-- KV_DESCRIPTOR_EMIT (R166): The walker places a descriptor at the page queue tail, waiting while the queue is full. -/
  | kvDescriptorEmit (t : Nat) (e : EngId)
  /-- KV_PREFETCH (R175): A spilled page is read into a staging page before its STAGED descriptor is emitted. -/
  | kvPrefetch (t : Nat) (e : EngId)
  /-- KV_SPILL_DONE (R174): A spill copy completes and the page is freed and formatted. -/
  | kvSpillDone (t : Nat) (e : EngId) (f : Flt)
  /-- KV_PAGE_RETURN (R161): A page in transit rejoins the free pages once no older walk is held. -/
  | kvPageReturn (t : Nat) (e : EngId) (page : Nat)
  /-- COMMIT (R271): The commit cycle of an envelope: COMMITTED, generations incremented, staged commands take effect. -/
  | envCommitCycle (t : Nat) (p : PartId) (h : Half)
  /-- ENV_APPLY (R273): Masked activation bytes are applied through the side port once earlier jobs are done. -/
  | envApply (t : Nat) (e : EngId) (f : Flt)
  /-- ENV_COPY_BACK (R273): Masked bytes are copied back from shadow pages and the redirect ends. -/
  | envCopyBack (t : Nat) (p : PartId)
  /-- ENV_LIFETIME_EXPIRY (R279): An envelope whose lifetime ends before its commit is aborted with REASON 3. -/
  | envLifetimeExpiry (t : Nat) (p : PartId) (h : Half)
  /-- ADMIT (R309): Twin record forwarding an admitted operation to the standby. -/
  | twinAdmission (t : Nat) (h : TwinHdr) (port : PortId) (op : Byte) (p : Packet) (last predicted : Dword)
  /-- RELEASE (R309): Twin record forwarding a wait release. -/
  | twinRelease (t : Nat) (h : TwinHdr) (e : EngId) (job bundle : Nat)
  /-- COMMAND (R309): Twin record forwarding a state-changing mailbox command. -/
  | twinCommand (t : Nat) (h : TwinHdr) (opcode : Half) (r : MbxReq)
  /-- PREPARE (R323): Twin record of a settled envelope commit, acknowledged by the standby. -/
  | twinPrepare (t : Nat) (h : TwinHdr) (handle : Half)
  /-- ABORT (R323): Twin record of an envelope aborted after its PREPARE. -/
  | twinAbort (t : Nat) (h : TwinHdr) (handle : Half)
  /-- REPORT (R314): Twin record of output sequences, result digests and packet sequences, compared and acknowledged. -/
  | twinReport (t : Nat) (h : TwinHdr) (b : ReportBody)
  /-- DIGEST (R315): Twin record exchanging engine digests at the end of a digest epoch. -/
  | twinDigest (t : Nat) (h : TwinHdr) (epoch : Nat) (digests : List Dword)
  /-- HEARTBEAT (R308): Twin record carrying claim levels, compared with the receiver's own CLAIM_IN. -/
  | twinHeartbeat (t : Nat) (h : TwinHdr) (claimOut claimIn : Bool)
  /-- GIVEUP (R320): Twin record by which the active gives up, leading the standby to take over. -/
  | twinGiveupRecord (t : Nat) (h : TwinHdr) (cause : Byte) (b : ReportBody)
  /-- ACK (R309): Twin record acknowledging a PREPARE, ABORT or REPORT. -/
  | twinAck (t : Nat) (h : TwinHdr) (seq : Dword)
  /-- COPY (R325): Twin record carrying resync data to the standby. -/
  | twinCopy (t : Nat) (h : TwinHdr) (item : CopyItem)
  /-- STEP_LEFT (R318): Twin record by which the standby reports leaving step. -/
  | twinStepLeft (t : Nat) (h : TwinHdr) (cause : Byte)
  /-- MIRROR_EXECUTE (R311): The standby carries out a forwarded event in its mirror cycle. -/
  | mirrorExecute (t : Nat)
  /-- HEARTBEAT_SEND (R306): Every 256 cycles the active sends a HEARTBEAT and refreshes the claim watchdog. -/
  | heartbeatSend (t : Nat)
  /-- REPORT_SEND (R314): The active sends a REPORT 256 cycles after the last or once 8 messages are unreported. -/
  | reportSend (t : Nat)
  /-- CLAIM_WATCHDOG_EXPIRY (R306): 2,048 cycles without refresh drop CLAIM_OUT. -/
  | claimWatchdogExpiry (t : Nat)
  /-- HEARTBEAT_LOSS (R319): No block from the twin for 4,096 cycles: takeover, leaving step or serving alone. -/
  | heartbeatLoss (t : Nat)
  /-- CLAIM_IN_CHANGE (R307): A change of the CLAIM_IN level read from the twin. -/
  | claimInChange (t : Nat) (level : Bool)
  /-- TAKEOVER (R320): The standby asserts CLAIM_OUT, starts admission and emits held messages with REEMIT. -/
  | takeover (t : Nat)
  /-- RESYNC_CUTOVER (R325): After a copy pass with at most 256 items left, the active chooses a cutover and engines enter step. -/
  | resyncCutover (t : Nat)
  /-- VIDEO_SLOT (R330): Start of a video slot: restore a stream's state and do its CTU work until the slot ends. -/
  | videoSlot (t : Nat) (u : VidId) (work : List (Fin 36 × VidWork))
  /-- BAND_WRITE (R337): A band is written into a free ring slot and BAND_PGH is incremented after its header lands. -/
  | bandWrite (t : Nat) (stream : Fin 36) (b : BandSrc) (f : Flt)
  /-- ACCESS_UNIT_WRITE (R343): An encoded access unit is written once freed space holds CPB_BITS / 8 bytes. -/
  | accessUnitWrite (t : Nat) (stream : Fin 36) (bs : List Byte)
  /-- CVU_SLOT (R375): Start of a check-value unit slot serving its owner or system work. -/
  | cvuSlot (t : Nat) (u : CvuId)
  /-- CVU_JOB_START (R379): A unit starts a partition's head job in an owned run that can hold D. -/
  | cvuJobStart (t : Nat) (u : CvuId)
  /-- CVU_JOB_END (R381): A CRC job ends, writes its result record and increments DONE_PGH. -/
  | cvuJobEnd (t : Nat) (u : CvuId) (f : Flt)
  /-- CVU_OVERRUN (R380): A job still running at the end of its run stops with ST_CVU_OVERRUN. -/
  | cvuOverrun (t : Nat) (u : CvuId) (blocks : Nat)
  /-- SAMPLE_FRAME (R352): The SMS checks an inbox frame and computes channel and instrument values at pacing samples. -/
  | sampleFrame (t : Nat) (c : ChanId)
  /-- CHANNEL_FAULT_TIMEOUT (R353): A channel with no accepted frame for 100 ms enters FAULT. -/
  | channelFaultTimeout (t : Nat) (c : ChanId)
  /-- ZERO_TRACKING (R360): Each 100,000,000 M-cycles a stable unloaded instrument's zero moves toward G = 0. -/
  | zeroTracking (t : Nat) (i : Fin 4)
  /-- RECORD_TOKEN (R365): Every 100,000,000 M-cycles the SMS record bucket gains one token. -/
  | recordToken (t : Nat)
  /-- SMS_CHECKPOINT_SIGN (R366): A checkpoint is signed after 256 records or 100,000,000 M-cycles. -/
  | smsCheckpointSign (t : Nat)
  /-- ADJ_EN (R434): ADJ_EN reads active after 10 ms closed and inactive at the first open M-cycle. -/
  | adjEn (t : Nat) (active : Bool)
  /-- SMS_CLOCK_FAULT (R350): A CLK_M rate or SMS rail fault puts the SMS in STATE 3. -/
  | smsClockFault (t : Nat)
  /-- SMS_START (R369): The SMS's start-up sequence at each power-up. -/
  | smsStart (t : Nat) (ok : Bool)
  /-- SLICE (R383): A BIST slice starts at a window step or back to back on an idle engine. -/
  | slice (t : Nat) (e : EngId)
  /-- SLICE_END (R386): A slice completes, is compared with its golden value and is repeated or fences on failure. -/
  | sliceEnd (t : Nat) (e : EngId) (res : SliceResult)
  /-- MAINT_GRANT_EXPIRY (R389): A maintenance grant ends after SECONDS. -/
  | maintGrantExpiry (t : Nat)
  /-- POWER_UP (R396): The power stage starts after the input has been in range for 1 s with PRESENT_EB made and EPO inactive. -/
  | powerUp (t : Nat) (c : PowerUpCond)
  /-- CLOCK_SOURCE_SELECT (R400): After a 1 ms count the root PLL takes the reference or the fallback oscillator. -/
  | clockSourceSelect (t : Nat) (inRange : Bool)
  /-- ROM_START (R403): ROM running, HP_READY active, ID and status rows valid, epoch fuse blown. -/
  | romStart (t : Nat) (straps : BitVec 12) (par : Bool) (fuseOk : Bool)
  /-- IMAGES_VERIFIED (R403): Images checked and settings applied or defaulted, or recovery mode entered. -/
  | imagesVerified (t : Nat) (bad : List (Fin 5))
  /-- STORE_TESTED (R403): Store MBIST with sparing, zeroing, golden file check and fences loaded. -/
  | storeTested (t : Nat) (res : List (EngId × List Nat)) (goldenOk : Bool)
  /-- MEMORY_TRAINED (R403): LPDDR5X channels trained and the system region filled. -/
  | memoryTrained (t : Nat) (failed : Bool)
  /-- PORTS_LOCKED (R403): Every planned port trained and in block lock. -/
  | portsLocked (t : Nat) (locked : List LinkId)
  /-- SERVICE (R403): Plan and coolant checked, matching ports opened and mailbox commands accepted. -/
  | service (t : Nat) (c : BitVec 12)
  /-- COOLANT_RECHECK (R404): Every 1 s an out-of-range coolant inlet is rechecked before SERVICE. -/
  | coolantRecheck (t : Nat) (c : BitVec 12)
  /-- DOMAIN_RAMP (R399): A power domain finishes ramping and is zeroed before use. -/
  | domainRamp (t : Nat) (d : Fin 162)
  /-- DOMAIN_FAULT (R399): A domain not in regulation within 90,000 cycles stays off and fences or fails its user. -/
  | domainFault (t : Nat) (d : Fin 162)
  /-- UV_WARN (R397): Input below 47 V for 100 us sets PWR_EVENT.UV_WARN. -/
  | uvWarn (t : Nat) (vin : Half)
  /-- EJECT (R410): PRESENT_EB broken for 20 us or input below 44 V starts the irreversible EJECT sequence. -/
  | eject (t : Nat) (c : EjectCause)
  /-- OVERVOLTAGE (R397): Input above 62 V for 1 us opens the power stage with the effects of EPO. -/
  | overvoltage (t : Nat) (vin : Half)
  /-- EPO (R433): An open EPO loop cuts the power stage through the hardware path. -/
  | epo (t : Nat)
  /-- REF_LOST (R401): Loss of the reference in service puts the root PLL in holdover. -/
  | refLost (t : Nat)
  /-- THERMAL_SAMPLE (R406): Every 1 us the sensors are read and thermal levels are entered. -/
  | thermalSample (t : Nat) (sensors : List (BitVec 12))
  /-- THERMAL_LEVEL_EXIT (R406): A level is left after the reading stays 3 degC below entry for 100 ms. -/
  | thermalLevelExit (t : Nat)
  /-- THERMAL_TRIP (R409): A comparator at 115 degC for 1 us opens and latches the power stage. -/
  | thermalTrip (t : Nat)
  /-- KEY_DESTROY (R300): Once no LPDDR5X access of a dissolving partition is pending, its XTS keys are destroyed. -/
  | keyDestroy (t : Nat) (p : PartId)
  /-- SMBUS_READ (R412): SMBus sideband read of FRU data or telemetry. -/
  | smbusRead (t : Nat) (item : Byte)
  /-- SMBUS_WRITE (R438): SMBus write, not acknowledged. -/
  | smbusWrite (t : Nat)
  /-- SMBUS_TIMEOUT (R438): A bus held low for more than 35 ms is released by the sideband. -/
  | smbusTimeout (t : Nat)
  /-- TELEMETRY_REFRESH (R412): Every 250 ms the sideband telemetry is refreshed. -/
  | telemetryRefresh (t : Nat)
  /-- ENGINE_ZEROING_DONE (R270): An engine removed by a partition layout finishes its 8,192-cycle zeroing under R102 and only then becomes free for another partition. -/
  | engineZeroingDone (t : Nat) (e : EngId)
  /-- COOLANT_INLET_RANGE (R442): In service, a coolant inlet reading outside 15-45 degC sets THM_EVENT.COOLANT_RANGE. -/
  | coolantInletRange (t : Nat) (c : BitVec 12)
  /-- HOST_PORT_TRAINING (R208): Host LPDDR5 training commands (command bus training, WCK2CK leveling, read DQ calibration, write FIFO training) are answered on a host-port channel whenever the standard allows. -/
  | hostPortTraining (t : Nat) (ch : Fin 2)
  deriving DecidableEq, Repr

end Sys2Proof
end

