-- ==== Sys2Proof/Machine/Codes.lean ====
section
/-! DEFINITION. Status values (Table 21.4) and mailbox opcodes (Tables 21.1 and 21.2). -/

namespace Sys2Proof.Machine

/-- ST_OK (Table 21.4). -/
def stOk : Status := 0x0000
/-- ST_BUSY (Table 21.4). -/
def stBusy : Status := 0x0001
/-- ST_NOT_READY (Table 21.4). -/
def stNotReady : Status := 0x0002
/-- ST_BAD_ARG (Table 21.4). -/
def stBadArg : Status := 0x0003
/-- ST_DENIED (Table 21.4). -/
def stDenied : Status := 0x0004
/-- ST_FENCED (Table 21.4). -/
def stFenced : Status := 0x0005
/-- ST_WAIT_TIMEOUT (Table 21.4). -/
def stWaitTimeout : Status := 0x0006
/-- ST_MEM_UNCORRECTABLE (Table 21.4). -/
def stMemUncorrectable : Status := 0x0007
/-- ST_NO_WINDOW (Table 21.4). -/
def stNoWindow : Status := 0x0008
/-- ST_OUT_OF_BOUNDS (Table 21.4). -/
def stOutOfBounds : Status := 0x0009
/-- ST_REMOTE_TIMEOUT (Table 21.4). -/
def stRemoteTimeout : Status := 0x000A
/-- ST_LINK_DOWN (Table 21.4). -/
def stLinkDown : Status := 0x000B
/-- ST_CVU_OVERRUN (Table 21.4). -/
def stCvuOverrun : Status := 0x000C
/-- ST_REFUSED_QUOTA (Table 21.4). -/
def stRefusedQuota : Status := 0x0100
/-- ST_REFUSED_DEADLINE (Table 21.4). -/
def stRefusedDeadline : Status := 0x0101
/-- ST_DEADLINE_MISS (Table 21.4). -/
def stDeadlineMiss : Status := 0x0180
/-- ST_ENV_ABORTED (Table 21.4). -/
def stEnvAborted : Status := 0x0200
/-- ST_ENV_ALREADY_COMMITTED (Table 21.4). -/
def stEnvAlreadyCommitted : Status := 0x0201
/-- ST_ENV_LIMIT (Table 21.4). -/
def stEnvLimit : Status := 0x0202
/-- ST_ENV_CONFLICT (Table 21.4). -/
def stEnvConflict : Status := 0x0203
/-- ST_KV_NO_SEQUENCE (Table 21.4). -/
def stKvNoSequence : Status := 0x0300
/-- ST_KV_WINDOW (Table 21.4). -/
def stKvWindow : Status := 0x0301
/-- ST_KV_UNDERRUN (Table 21.4). -/
def stKvUnderrun : Status := 0x0302
/-- ST_KV_FULL (Table 21.4). -/
def stKvFull : Status := 0x0380
/-- ST_KV_FROZEN (Table 21.4). -/
def stKvFrozen : Status := 0x0381
/-- ST_KV_EDITED (Table 21.4). -/
def stKvEdited : Status := 0x0382
/-- ST_KEY_EPOCH_RETIRED (Table 21.4). -/
def stKeyEpochRetired : Status := 0x0400
/-- ST_XMSS_EXHAUSTED (Table 21.4). -/
def stXmssExhausted : Status := 0x0401
/-- ST_FW_BAD_BLOCK (Table 21.4). -/
def stFwBadBlock : Status := 0x0500
/-- ST_FW_BAD_SIGNATURE (Table 21.4). -/
def stFwBadSignature : Status := 0x0501
/-- ST_FW_INCOMPATIBLE (Table 21.4). -/
def stFwIncompatible : Status := 0x0502
/-- ST_CHECK_MISMATCH (Table 21.4). -/
def stCheckMismatch : Status := 0x0600
/-- ST_DIGEST_MISMATCH (Table 21.4). -/
def stDigestMismatch : Status := 0x0601
/-- ST_CKPT_BAD (Table 21.4). -/
def stCkptBad : Status := 0x0602
/-- ST_BIST_FAIL (Table 21.4). -/
def stBistFail : Status := 0x0603
/-- ST_KAT_FAIL (Table 21.4). -/
def stKatFail : Status := 0x0604
/-- ST_STREAM_DAMAGED (Table 21.4). -/
def stStreamDamaged : Status := 0x0780
/-- ST_MTR_LOCKED (Table 21.4). -/
def stMtrLocked : Status := 0x0800
/-- ST_MTR_ADJUSTING (Table 21.4). -/
def stMtrAdjusting : Status := 0x0801
/-- ST_MTR_UNSTABLE (Table 21.4). -/
def stMtrUnstable : Status := 0x0802
/-- ST_MTR_RANGE (Table 21.4). -/
def stMtrRange : Status := 0x0803
/-- ST_MTR_FAULT (Table 21.4). -/
def stMtrFault : Status := 0x0804
/-- ST_MTR_NOT_ZEROED (Table 21.4). -/
def stMtrNotZeroed : Status := 0x0805
/-- ST_MTR_BUSY (Table 21.4). -/
def stMtrBusy : Status := 0x0806
/-- ST_MTR_INTEGRITY (Table 21.4). -/
def stMtrIntegrity : Status := 0x0807
/-- ST_TWIN_RESYNC_LOST (Table 21.4). -/
def stTwinResyncLost : Status := 0x0900
/-- ST_TWIN_STANDBY (Table 21.4). -/
def stTwinStandby : Status := 0x0901
/-- ST_THERMAL_SHED (Table 21.4). -/
def stThermalShed : Status := 0x0A00
/-- ST_EJECTED (Table 21.4). -/
def stEjected : Status := 0x0A01
/-- ST_COOLANT_RANGE (Table 21.4). -/
def stCoolantRange : Status := 0x0A02

/-- The opcodes of the 64 mailboxes (Table 21.1). -/
def opcodes64 : List Nat :=
  [0x0001, 0x0002, 0x0003, 0x0004, 0x0005, 0x0006, 0x0007, 0x0008, 0x0100, 0x0101, 0x0102, 0x0103,
   0x0104, 0x0105, 0x0106, 0x0107, 0x0200, 0x0201, 0x0202, 0x0203, 0x0300, 0x0301, 0x0302, 0x0303,
   0x0400, 0x0401, 0x0500, 0x0501, 0x0502, 0x0503, 0x0504, 0x0505, 0x0600, 0x0601, 0x0602, 0x0603,
   0x0700, 0x0800, 0x0900, 0x0901, 0x0902, 0x0903, 0x0904, 0x0905, 0x0A00, 0x0A01, 0x0A02, 0x0A03,
   0x0B00, 0x0B01, 0x0B02, 0x0B03, 0x0B04, 0x0B05]

/-- The opcodes of the recovery mailbox (Table 21.2). -/
def opcodesRecovery : List Nat := [0x0F00, 0x0F01, 0x0F02, 0x0F03]

end Sys2Proof.Machine
end

