-- ==== Sys2Proof/Config.lean ====
section
/-! DEFINITION. The free values: what the manual leaves open and a step supplies. None has a body. -/

namespace Sys2Proof.Config

/-- Byte `addr` of a register that a test window left undefined, for window number `seed` (R127, R152). -/
opaque freeByte (seed addr : Nat) : Byte
/-- 2^x as VEXP2 computes it, used where it keeps the bound of Table 03.6. -/
opaque vexp2 : Word → Word
/-- log2 x as VLOG2 computes it, used where it keeps the bound of Table 03.6. -/
opaque vlog2 : Word → Word
/-- 1 / x as VRCP computes it, used where it keeps the bound of Table 03.6. -/
opaque vrcp : Word → Word
/-- 1 / sqrt x as VRSQRT computes it, used where it keeps the bound of Table 03.6. -/
opaque vrsqrt : Word → Word
/-- Byte `i` of random draw number `n` of the security block (R285, R299). -/
opaque randomByte (n i : Nat) : Byte
/-- Byte `i` of the shared secret that ML-KEM-768 decapsulates from a ciphertext with key number `key` (R287). -/
opaque decapsByte (key : Nat) (ct : List Byte) (i : Nat) : Byte
/-- Byte `i` of the signature of `message` under the named key with XMSS index `idx` (R296, R364, R366). -/
opaque signByte (key idx : Nat) (message : List Byte) (i : Nat) : Byte
/-- Byte `i` of a value that the manual leaves to the part (a measurement, an identity, a seal), numbered. -/
opaque partByte (what i : Nat) : Byte
/-- A free number, `n` counting the free values drawn. -/
opaque freeNat (n : Nat) : Nat

end Sys2Proof.Config
end

