-- ==== Sys2Proof/Machine/PartsEngine.lean ====
section
/-! DEFINITION. Plain data of an engine: its memories, registers, landings and sequencer (chapters 02-08). -/

namespace Sys2Proof.Machine

/-- A memory: its non-zero bytes, addresses strictly rising (R102: every byte not listed reads zero). -/
abbrev Mem := List Host.Cell

/-- A register file of bytes. `cells` lists what has been written; where `seed` is set, what is not
listed is undefined (R127) and reads as a free value numbered by the seed; otherwise it reads zero. -/
structure RegFile where
  cells : List Host.Cell := []
  seed : Option Nat := none
  deriving DecidableEq, Repr

/-- The shape field of a tile register (R89): format code of Table 05.9, K_t and N_t. -/
structure TileShape where
  fmt : Nat := 0
  kt : Nat := 0
  nt : Nat := 0
  deriving DecidableEq, Repr

/-- Page descriptor (Table 07.6), with the job whose walk emitted it. -/
structure KvDesc where
  job : Nat := 0
  pageRow : Nat := 0
  isOpen : Bool := false
  isNull : Bool := false
  isDiscard : Bool := false
  isStaged : Bool := false
  slot : Nat := 0
  seq : Nat := 0
  layer : Nat := 0
  pageIndex : Nat := 0
  generation : Nat := 0
  deriving DecidableEq, Repr

/-- A tile register (R54, R89): the tile image as its rows landed (R87, R88), its shape, the column sums r_j of the checksum row (R186),
and the descriptor and first row of the last KVT with the KVAs since (R168, R170). -/
structure TileReg where
  image : RegFile := {}
  shape : TileShape := {}
  sums : List Nat := []
  kv : Option KvDesc := none
  kvRow : Nat := 0
  kvaCount : Nat := 0
  deriving DecidableEq, Repr

/-- Chain classes of R55. -/
inductive ChainClass where
  | int | fp8 | block | half
  deriving DecidableEq, Repr

/-- One column of an accumulator entry: 96 value bits and three special flags (R55). -/
structure AccCell where
  val : BitVec 96 := 0
  nan : Bool := false
  pinf : Bool := false
  ninf : Bool := false
  deriving DecidableEq, Repr

/-- An accumulator entry over the 384 columns (R55), with its checksum entry (R182, R185). Columns not
listed hold zero, or a free value where `seed` is set (R127). -/
structure AccEntry where
  cls : Option ChainClass := none
  cols : List AccCell := []
  seed : Option Nat := none
  mats : Nat := 0
  chk : BitVec 96 := 0
  chkT : Word := 0
  chkA : Word := 0
  deriving DecidableEq, Repr

/-- The matrix output register (R116): the most recent emission, in one of the two forms of R72. -/
structure MatOut where
  fp32 : Bool := false
  cells : List AccCell := []
  words : List Word := []
  seed : Option Nat := none
  deriving DecidableEq, Repr

/-- The append register (R155): one record of element codes. -/
structure AppendReg where
  codes : List Byte := []
  seed : Option Nat := none
  deriving DecidableEq, Repr

/-- The argmax pair register (R152). -/
structure ArgPair where
  val : Word := 0
  isFloat : Bool := false
  idx : Half := 0
  seed : Option Nat := none
  deriving DecidableEq, Repr

/-- A check failure or an uncorrectable read that an operation records, with what its history record says
(R187-R191, R454). `zeroFrom` is the landing cycle of a shadow mismatch, whose lines are zeroed (R190). -/
structure FailEvent where
  status : BitVec 16
  unitKind : Nat
  opClass : Nat
  mechs : List Nat
  detail : BitVec 32
  dataClass : BitVec 8
  bundle : Nat
  zeroFrom : Option Nat := none
  deriving DecidableEq, Repr

/-- A geometry record (Table 06.3). -/
structure Geo where
  mode : Nat
  param : Nat
  ch : Nat
  pix : Nat
  base : Nat
  srcPitch : Nat
  dstPitch : Nat
  deriving DecidableEq, Repr

/-- What a vector operation works on: its source bytes, accumulator values, parameter file, geometry record, argmax
pair register and the format, dimension and scales of the KV pool. -/
structure VecIn where
  a : List Byte := []
  b : List Byte := []
  d : List Byte := []
  accs : List Int := []
  params : List Host.Cell := []
  geo : Geo := ⟨0, 0, 0, 0, 0, 0, 0⟩
  arg : ArgPair := {}
  fmt : Nat := 0
  dim : Nat := 0
  sigma : List Byte := []
  deriving DecidableEq, Repr

/-- A vector operation over several issue cycles (R118): what it works on so far, the bytes read, the addresses of those still to be
read, how many of all belong to source a and to source b, its first issue cycle, and the cycle in which its result lands. -/
structure VecOpen where
  op : Nat
  v : VecSlot
  flt : Flt
  x : VecIn
  got : List Byte
  rest : List Nat
  na : Nat
  nb : Nat
  first : Nat
  due : Nat
  deriving DecidableEq, Repr

/-- What an operation writes when it lands (R114); `vecRead` is an issue cycle of a vector operation after its first (R118). -/
inductive LandEff where
  | bcast (bs : List Byte)
  | act (ws : List Host.Cell)
  | tileRow (reg : Bool) (first : Bool) (shape : TileShape) (ws : List Host.Cell)
  | tileMerge (reg : Bool) (ws : List Host.Cell)
  | matOut (m : MatOut)
  | params (ws : List Host.Cell)
  | append (codes : List Byte)
  | argmax (a : ArgPair)
  | arith (flags : BitVec 8) (sats : Nat)
  | beat (route : Nat) (last addNote : Bool) (bs : List Byte)
  | arrive (target : EngId) (addr : Nat) (bs : List Byte) (last : Bool) (part : Fin 7) (notify : Option Nat)
  | note (pigeonhole count : Nat)
  | vecRead (o : VecOpen)
  | fail (ev : FailEvent)
  deriving DecidableEq, Repr

/-- A landing still due: its cycle, the job it belongs to, whether the vector unit lands it (R190), and
its effect. -/
structure Landing where
  due : Nat
  job : Nat
  vec : Bool := false
  eff : LandEff
  deriving DecidableEq, Repr

/-- An LDR or LDW the engine has issued and that is not complete (R120, R452). `units` are the 512-byte
units of the region still to take a slot; `doneAt` is the cycle in which the last of them is in place or acknowledged, and
`moved` tells that this has come about. `zeros` marks an LDR from a checkpoint that was never sealed (R111). -/
structure Xfer where
  id : Nat
  job : Nat
  isRead : Bool
  line : Nat
  regionByte : Nat
  length : Nat
  zeros : Bool := false
  units : List Nat
  doneAt : Option Nat := none
  moved : Bool := false
  deriving DecidableEq, Repr

/-- Where a sequencer stands waiting (Table 05.18), with the cycle of issue and the last cycle of its bound (R32); at an egress with the
context's LINK, the route and the bytes of the held beat. -/
inductive SeqWait where
  | pgh (pigeonhole count : Nat) (issued limit : Nat)
  | xfers (issued limit : Nat)
  | egress (port link route bytes : Nat) (issued limit : Nat)
  deriving DecidableEq, Repr

/-- A message open on a route (R120): the route, the engine's bytes sent so far, its OUTPUT_SEQ, and whether an OUTN is among its
beats. -/
structure OpenMsg where
  route : Nat
  sent : Nat
  payload : List Byte
  outSeq : Nat
  noted : Bool := false
  deriving DecidableEq, Repr

/-- The sequencer (R112, R118, R124, R125, R127, R128). `heldTo` is the last cycle that a released wait still holds, `vecFrom` the first
cycle that the vector operation issued last leaves to another; `granted` is the route whose held beat has been given its credit, with the
blocks. -/
structure Sequencer where
  job : Option Nat := none
  wait : Option SeqWait := none
  loops : List (Nat × Nat) := []
  testUntil : Nat := 0
  heldTo : Nat := 0
  freeFrom : Nat := 0
  vecFrom : Nat := 0
  granted : Option (Nat × Nat) := none
  msgs : List OpenMsg := []
  xfers : List Xfer := []
  sinceWaitl : List Nat := []
  deriving DecidableEq, Repr

/-- A walk held (R163-R165): its job, the generation that it captured, its sequence, the descriptors still to emit
and the number emitted. A STAGED descriptor still to be prefetched has its spill slot plus 8,192 as its row (R175). -/
structure KvWalk where
  job : Nat
  gen : Nat
  seq : Nat
  todo : List KvDesc
  emitted : Nat := 0
  deriving DecidableEq, Repr

/-- Weight digests of an engine (R203, R204, Tables 08.13, 08.14). `abandoned` marks an epoch that a reset check-value unit served
(Table 09.15). -/
structure Digests where
  reference : List (Nat × Dword) := []
  reading : List (Nat × Dword) := []
  stale : List Nat := []
  abandoned : Bool := false
  valid : Bool := false
  mismatch : Bool := false
  mismatchWas : Bool := false
  row : BitVec 13 := 0
  value : Dword := 0
  deriving DecidableEq, Repr

/-- Error state of the store and the activation SRAM (R98-R101, Tables 04.6-04.13). `scrubSeen` are the rows read in the scrub pass that
runs, `scrubAt` the cycle of the latest of them, `scrubPending` a corrected row with the cycle of its write-back; `scrubLine` is the line of
each bank that the activation scrubber reads next, `actScrubAt` the cycle in which it last did. `spared` are the rows that lie in spare rows, and
`keptRows` those that were spared or marked when power was lost (log entry 92). -/
structure MemHealth where
  storeBad : List Nat := []
  storeMarked : List Nat := []
  storeStreak : List (Nat × Nat) := []
  spared : List Nat := []
  keptRows : List Nat := []
  storeCe : Bool := false
  storeCeWas : Bool := false
  storeUe : Bool := false
  storeUeWas : Bool := false
  storeCeCount : Word := 0
  storeCeCountWas : Word := 0
  ueRow : BitVec 13 := 0
  ueRowValid : Bool := false
  actBad : List Nat := []
  actCe : Bool := false
  actCeWas : Bool := false
  actUe : Bool := false
  actUeWas : Bool := false
  actCeCount : Word := 0
  actCeCountWas : Word := 0
  ueAddr : BitVec 25 := 0
  ueAddrValid : Bool := false
  collisions : Word := 0
  collisionsWas : Word := 0
  scrubSeen : BitVec 8192 := 0
  scrubAt : Option Nat := none
  scrubPending : Option (Nat × Nat) := none
  scrubLine : Nat := 0
  actScrubAt : Option Nat := none
  deriving DecidableEq, Repr

/-- A slice that runs (R382): its number in Table 17.1 order, whether BIST_SLICE asked for it, whether it repeats a failed
one, and its first cycle. -/
structure SliceRun where
  idx : Nat
  demand : Bool := false
  again : Bool := false
  startAt : Nat
  deriving DecidableEq, Repr

/-- Self-test of an engine (R382-R386, R390, R392): the slice that runs, the one to be repeated and whether BIST_SLICE asked
for it, those that BIST_SLICE still asks for with its mailbox, and what has passed since a maintenance grant began. -/
structure BistEng where
  position : BitVec 10 := 0
  rotations : Half := 0
  inSlice : Option SliceRun := none
  repeatOf : Option (Nat × Bool) := none
  onDemand : List Nat := []
  demandMbx : Option (Fin 65) := none
  passedSinceGrant : List Nat := []
  scanSinceGrant : Bool := false
  katSinceGrant : BitVec 7 := 0
  deriving DecidableEq, Repr

/-- An engine: store, activation SRAM, matrix and vector registers, sequencer, page queue, deadline monitor and registers. `unitWords` are
the 8-byte words that its unit port wrote in cycle `unitAt`, and `unitOld` what the bytes that it changed held before; `sideOld` is the same
of the side port in cycle `sideAt` (R96). `portFrom` is the first cycle in which the schedule's loads no longer
hold the store port, and `portTaken` the last cycle that another user has taken (R83, R84).
`staging` are the pages of the staging ring in use: index, first row, and the spill slot read (R175). `lastOf` is the partition whose content an engine that leaves it still holds (R293, R295). `vecLanded` and `matLanded` are the lines that the vector unit and MAT
emissions landed, and `zeroed` those zeroed under R190, each with its cycle (R190, R191). `pathMat`, `pathVec` and `pathOut` are the source
bytes of the previous operation of each path (R198). -/
structure Engine where
  store : Mem := []
  act : Mem := []
  rowBuf : Mem := []
  tileA : TileReg := {}
  tileB : TileReg := {}
  bcast : RegFile := {}
  acc : Vector AccEntry 64 := Vector.replicate 64 {}
  matOut : MatOut := {}
  params : Mem := []
  append : AppendReg := {}
  argmax : ArgPair := {}
  landings : List Landing := []
  vecLanded : List (Nat × Nat) := []
  matLanded : List (Nat × Nat) := []
  zeroed : List (Nat × Nat) := []
  pathMat : List Byte := []
  pathVec : List Byte := []
  pathOut : List Byte := []
  unitAt : Nat := 0
  unitWords : List Nat := []
  unitOld : List Host.Cell := []
  sideAt : Nat := 0
  sideOld : List Host.Cell := []
  seq : Sequencer := {}
  portFrom : Nat := 0
  portTaken : Option Nat := none
  busyUntil : Nat := 0
  pageQueue : List KvDesc := []
  walk : Option KvWalk := none
  stagingNext : Nat := 0
  staging : List (Nat × Nat × Nat) := []
  popped : Nat := 0
  dlClass : Vector Word 16 := Vector.replicate 16 0
  dlMiss : Bool := false
  dlMissWas : Bool := false
  dlLastClass : BitVec 4 := 0
  dlMissCount : Word := 0
  dlMissCountWas : Word := 0
  dlLastMiss : Dword := 0
  arithExc : BitVec 8 := 0
  arithExcWas : BitVec 8 := 0
  satCount : Word := 0
  satCountWas : Word := 0
  kvSteps : BitVec 4 := 0
  mem : MemHealth := {}
  chkStatus : BitVec 9 := 0
  chkStatusWas : BitVec 9 := 0
  chkCount : Word := 0
  chkCountWas : Word := 0
  chkLast : Dword := 0
  classification : BitVec 2 := 0
  fenced : Bool := false
  events30 : BitVec 6 := 0
  rerunMask : Half := 0
  digests : Digests := {}
  leaving : Option Nat := none
  lastOf : Option (Fin 7) := none
  clkNominal : Bool := false
  fastClock : Bool := false
  vddE : Nat := 750
  bist : BistEng := {}
  deriving DecidableEq, Repr

end Sys2Proof.Machine
end

