-- ==== Sys2Proof/Machine/Mem.lean ====
section
/-! DEFINITION. Byte memories in canonical form, and little-endian fields (R8). -/

namespace Sys2Proof.Machine

/-- The byte a cell list holds at an address, if it lists one. -/
def cellAt : List Host.Cell → Nat → Option Byte
  | [], _ => none
  | (k, b) :: m, a => if k = a then some b else cellAt m a

/-- A cell list with the byte `v` listed at `a`, addresses rising. -/
def cellPut : List Host.Cell → Nat → Byte → List Host.Cell
  | [], a, v => [(a, v)]
  | (k, b) :: m, a, v =>
    if a < k then (a, v) :: (k, b) :: m
    else if a = k then (a, v) :: m
    else (k, b) :: cellPut m a v

/-- A cell list without an entry at `a`. -/
def cellDrop : List Host.Cell → Nat → List Host.Cell
  | [], _ => []
  | (k, b) :: m, a => if k = a then m else (k, b) :: cellDrop m a

/-- The byte a memory holds at an address: what is not listed reads zero (R102). -/
def memGet (m : Mem) (a : Nat) : Byte := (cellAt m a).getD 0

/-- A memory with byte `v` at `a`, in canonical form. -/
def memSet (m : Mem) (a : Nat) (v : Byte) : Mem := if v = 0 then cellDrop m a else cellPut m a v

/-- What a cell list holds at each of the `n` addresses from `a` on, read by halves: `d` counts the halvings left. -/
def cellsReadBy : Nat → List Host.Cell → Nat → Nat → List (Option Byte)
  | 0, m, a, n => (List.range n).map fun i => cellAt m (a + i)
  | d + 1, m, a, n =>
    cellsReadBy d (m.filter fun c => c.1 < a + n / 2) a (n / 2)
      ++ cellsReadBy d (m.filter fun c => a + n / 2 ≤ c.1) (a + n / 2) (n - n / 2)

/-- What a cell list holds at each of the `n` addresses from `a` on. -/
def cellsRead (m : List Host.Cell) (a n : Nat) : List (Option Byte) :=
  cellsReadBy (Nat.log2 n) (m.filter fun c => a ≤ c.1 && c.1 < a + n) a n

/-- The `n` bytes of a memory from `a` on. -/
def memRead (m : Mem) (a n : Nat) : List Byte := (cellsRead m a n).map fun b => b.getD 0

/-- The runs of rising addresses that a list of addresses is made of, as (first, how many). -/
def addrRuns : List Nat → List (Nat × Nat)
  | [] => []
  | a :: as => match addrRuns as with
    | [] => [(a, 1)]
    | (b, n) :: rs => if b = a + 1 then (a, n + 1) :: rs else (a, 1) :: (b, n) :: rs

/-- The bytes of a memory at the addresses given. -/
def memGets (m : Mem) (as : List Nat) : List Byte := (addrRuns as).flatMap fun r => memRead m r.1 r.2

/-- Bytes paired with rising addresses from `a` on. -/
def cellsFrom (a : Nat) : List Byte → List Host.Cell
  | [] => []
  | b :: bs => (a, b) :: cellsFrom (a + 1) bs

/-- A cell list in which `new` takes the place of what it lists at the `n` addresses from `a` on. -/
def cellsSplice (m : List Host.Cell) (a n : Nat) (new : List Host.Cell) : List Host.Cell :=
  m.filter (fun c => c.1 < a) ++ new ++ m.filter (fun c => a + n ≤ c.1)

/-- A memory with the bytes `bs` stored from `a` on, in canonical form. -/
def memWrite (m : Mem) (a : Nat) (bs : List Byte) : Mem :=
  cellsSplice m a bs.length ((cellsFrom a bs).filter fun c => c.2 ≠ 0)

/-- The runs of rising addresses that a list of cells is made of, as (first, bytes). -/
def cellRuns : List Host.Cell → List (Nat × List Byte)
  | [] => []
  | (a, b) :: ws => match cellRuns ws with
    | [] => [(a, [b])]
    | (k, bs) :: rs => if k = a + 1 then (a, b :: bs) :: rs else (a, [b]) :: (k, bs) :: rs

/-- A memory with each cell of `ws` stored, one after another. -/
def memPut (m : Mem) (ws : List Host.Cell) : Mem := (cellRuns ws).foldl (fun m r => memWrite m r.1 r.2) m

/-- A memory with `n` bytes from `a` on zeroed. -/
def memZero (m : Mem) (a n : Nat) : Mem := m.filter (fun c => c.1 < a || a + n ≤ c.1)

/-- The canonical form of a memory: addresses strictly rising and no zero byte listed. -/
def memWf : Mem → Bool
  | [] => true
  | [(_, b)] => b ≠ 0
  | (a, b) :: (a', b') :: m => b ≠ 0 && a < a' && memWf ((a', b') :: m)

/-- A byte of a register file: what is not listed is zero, or a free value after a test window (R127). -/
def rfGet (f : RegFile) (a : Nat) : Byte :=
  match cellAt f.cells a with
  | some b => b
  | none => match f.seed with
    | none => 0
    | some n => Config.freeByte n a

/-- The `n` bytes of a register file from `a` on. -/
def rfRead (f : RegFile) (a n : Nat) : List Byte := match f.seed with
  | none => memRead f.cells a n
  | some k => (cellsRead f.cells a n).zipIdx.map fun x => x.1.getD (Config.freeByte k (a + x.2))

/-- A register file with the bytes `bs` stored from `a` on. -/
def rfWrite (f : RegFile) (a : Nat) (bs : List Byte) : RegFile := match f.seed with
  | none => { f with cells := memWrite f.cells a bs }
  | some _ => { f with cells := cellsSplice f.cells a bs.length (cellsFrom a bs) }

/-- A register file with each cell of `ws` stored, one after another. -/
def rfPut (f : RegFile) (ws : List Host.Cell) : RegFile := (cellRuns ws).foldl (fun f r => rfWrite f r.1 r.2) f

/-- The number that bytes hold, the lowest address first (R8). -/
def leNat : List Byte → Nat
  | [] => 0
  | b :: bs => b.toNat + 256 * leNat bs

/-- The `n` little-endian bytes of a number (R8). -/
def natLe (v : Nat) : Nat → List Byte
  | 0 => []
  | n + 1 => BitVec.ofNat 8 v :: natLe (v / 256) n

/-- A field of `n` bytes at offset `off` of a block of bytes; bytes past its end read zero. -/
def field (bs : List Byte) (off n : Nat) : Nat := leNat ((bs.drop off).take n)

/-- Byte `i` of a block of bytes. -/
def byteAt (bs : List Byte) (i : Nat) : Byte := (bs.drop i).headD 0

/-- A block of bytes filled with zeros, or cut, to `n` bytes. -/
def padTo (n : Nat) (bs : List Byte) : List Byte := (bs ++ List.replicate (n - bs.length) 0).take n

/-- Bits `hi` to `lo` of a number. -/
def bitsOf (v hi lo : Nat) : Nat := v / 2 ^ lo % 2 ^ (hi + 1 - lo)

/-- The two's-complement value of the low `w` bits of a number. -/
def sgn (w v : Nat) : Int :=
  let u := v % 2 ^ w
  if u < 2 ^ (w - 1) then (u : Int) else (u : Int) - 2 ^ w

/-- The low `w` bits of an integer in two's complement. -/
def wrapInt (w : Nat) (i : Int) : Nat := (i % (2 ^ w : Int)).toNat

/-- Whether every byte is zero. -/
def allZero (bs : List Byte) : Bool := bs.all (· = 0)

/-- `a / b` rounded up. -/
def ceilDiv (a b : Nat) : Nat := (a + b - 1) / b

/-- An element of a list replaced where `p` holds. -/
def updWhere {α : Type} (p : α → Bool) (f : α → α) (l : List α) : List α :=
  l.map (fun x => if p x then f x else x)

/-- A key's value in an association list. -/
def assoc {α β : Type} [DecidableEq α] (k : α) : List (α × β) → Option β
  | [] => none
  | (a, b) :: l => if a = k then some b else assoc k l

/-- An association list with a key's value set. -/
def assocSet {α β : Type} [DecidableEq α] (k : α) (v : β) (l : List (α × β)) : List (α × β) :=
  (k, v) :: l.filter (fun p => p.1 ≠ k)

/-- An association list without a key. -/
def assocDel {α β : Type} [DecidableEq α] (k : α) (l : List (α × β)) : List (α × β) :=
  l.filter (fun p => p.1 ≠ k)

/-- The first number below `n` that satisfies `p`. -/
def firstFree (p : Nat → Bool) (n : Nat) : Option Nat := (List.range n).find? p

end Sys2Proof.Machine
end

