-- ==== Sys2Proof/Machine/Crc.lean ====
section
/-! DEFINITION. The cyclic redundancy checks of R372-R374. -/

namespace Sys2Proof.Machine

/-- The parameters of a CRC (R372). -/
structure CrcParams where
  width : Nat
  poly : Nat
  init : Nat
  refin : Bool
  refout : Bool
  xorout : Nat
  deriving DecidableEq, Repr

/-- The low `w` bits of `v` in reverse order. -/
def reflectBits : Nat → Nat → Nat
  | 0, _ => 0
  | w + 1, v => (v % 2) * 2 ^ w + reflectBits w (v / 2)

/-- `k` shift steps of the register (R372). -/
def crcShift (p : CrcParams) : Nat → Nat → Nat
  | 0, reg => reg
  | k + 1, reg =>
    let sh := 2 * reg
    let nx := if reg / 2 ^ (p.width - 1) % 2 = 1 then sh ^^^ p.poly else sh
    crcShift p k (nx % 2 ^ p.width)

/-- One byte taken into the register (R372). -/
def crcByte (p : CrcParams) (reg : Nat) (b : Byte) : Nat :=
  let v := if p.refin then reflectBits 8 b.toNat else b.toNat
  crcShift p 8 (reg ^^^ (v * 2 ^ (p.width - 8)))

/-- The register after bytes that each carry the fold value of the block they begin, if they begin one. -/
def crcFolded (p : CrcParams) : Nat → List (Option Nat × Byte) → Nat
  | reg, [] => reg
  | reg, (f, b) :: bs =>
    let r := match f with
      | none => reg
      | some v => reg ^^^ (v % 2 ^ p.width)
    crcFolded p (crcByte p r b) bs

/-- The register after a run of bytes without folds. -/
def crcRaw (p : CrcParams) (reg : Nat) (bs : List Byte) : Nat := bs.foldl (crcByte p) reg

/-- The result for a register (R372). -/
def crcResult (p : CrcParams) (raw : Nat) : Nat :=
  (if p.refout then reflectBits p.width raw else raw) ^^^ p.xorout

/-- CRC-32C (Table 16.1). -/
def crc32cParams : CrcParams := ⟨32, 0x1EDC6F41, 0xFFFFFFFF, true, true, 0xFFFFFFFF⟩

/-- CRC-64 ECMA-182 (Table 16.1). -/
def crc64Params : CrcParams := ⟨64, 0x42F0E1EBA9EA3693, 0, false, false, 0⟩

/-- CRC-32C of a run of bytes. -/
def crc32c (bs : List Byte) : Nat := crcResult crc32cParams (crcRaw crc32cParams 0xFFFFFFFF bs)

/-- Each byte with the fold value of its block where it begins a 256-byte block: `fold k` for block `k` (R373). -/
def withFolds (fold : Nat → Nat) : Nat → List Byte → List (Option Nat × Byte)
  | _, [] => []
  | i, b :: bs => (if i % 256 = 0 then some (fold (i / 256)) else none, b) :: withFolds fold (i + 1) bs

/-- CRC-64 ECMA-182 with fold values by block (R203, R206). -/
def crc64Folded (fold : Nat → Nat) (bs : List Byte) : Nat :=
  crcResult crc64Params (crcFolded crc64Params 0 (withFolds fold 0 bs))

end Sys2Proof.Machine
end

