-- ==== Sys2Proof/Machine/Shake.lean ====
section
/-! DEFINITION. SHAKE256 with 256 output bits, which the manual names for its digests (R103, R363) and takes from FIPS 202. -/

namespace Sys2Proof.Machine

/-- The sponge: 25 words of 64 bits, in the order in which a block fills them. Word (x, y) is number x + 5 y, both read modulo 5. -/
abbrev Sponge := List Dword

/-- Word (x, y) of the sponge. -/
def Sponge.at' (a : Sponge) (x y : Nat) : Dword := a.getD (x % 5 + 5 * (y % 5)) 0

/-- What the words of column x sum to. -/
def Sponge.parity (a : Sponge) (x : Nat) : Dword := (List.range 5).foldl (fun v y => v ^^^ a.at' x y) 0

/-- Each word summed with the parities of the column before and, turned by one bit, of the column after. -/
def Sponge.mix (a : Sponge) : Sponge :=
  let ps := (List.range 5).map a.parity
  a.zipIdx.map fun w => w.1 ^^^ ps.getD ((w.2 + 4) % 5) 0 ^^^ (ps.getD ((w.2 + 1) % 5) 0).rotateLeft 1

/-- The words moved along the path that begins at (1, 0): the word at (x, y) goes to (y, 2x + 3y), turned by the k-th triangular
number in step k. `n` counts the steps left of 24. -/
def Sponge.walk (a : Sponge) : Nat → Nat → Nat → Sponge → Sponge
  | 0, _, _, out => out
  | n + 1, x, y, out =>
    let k := 24 - n
    let z := (2 * x + 3 * y) % 5
    a.walk n y z (out.set (y + 5 * z) ((a.at' x y).rotateLeft (k * (k + 1) / 2 % 64)))

/-- Each word combined with the two that follow it in its row. -/
def Sponge.bend (a : Sponge) : Sponge :=
  a.zipIdx.map fun w => w.1 ^^^ (~~~(a.at' (w.2 + 1) (w.2 / 5)) &&& a.at' (w.2 + 2) (w.2 / 5))

/-- The next state of the eight-bit register that makes the round constants. -/
def tapNext (r : Nat) : Nat := if r < 128 then 2 * r else (2 * r - 256) ^^^ 0x71

/-- The constant of a round and the register after it: its next seven bits stand at the places 2^j - 1. -/
def roundConst (r : Nat) : Dword × Nat :=
  (List.range 7).foldl (fun c j => (c.1 ^^^ BitVec.ofNat 64 (c.2 % 2 * 2 ^ (2 ^ j - 1)), tapNext c.2)) (0, r)

/-- `n` rounds. -/
def Sponge.rounds : Nat → Nat → Sponge → Sponge
  | 0, _, a => a
  | n + 1, r, a =>
    let c := roundConst r
    let b := a.mix
    let b := (b.walk 24 1 0 b).bend
    Sponge.rounds n c.2 (b.set 0 (b.at' 0 0 ^^^ c.1))

/-- A block of at most 136 bytes summed into the sponge and the sponge turned over. -/
def Sponge.take (a : Sponge) (bs : List Byte) : Sponge :=
  Sponge.rounds 24 1 (a.zipIdx.map fun w => w.1 ^^^ BitVec.ofNat 64 (field bs (8 * w.2) 8))

/-- The last block: what is left of the message, the suffix 1111 and the padding. -/
def lastBlock (bs : List Byte) : List Byte :=
  if bs.length = 135 then bs ++ [0x9F] else padTo 135 (bs ++ [0x1F]) ++ [0x80]

/-- The sponge after `n` whole blocks and the last one. -/
def Sponge.soak : Nat → List Byte → Sponge → Sponge
  | 0, bs, a => a.take (lastBlock bs)
  | n + 1, bs, a => Sponge.soak n (bs.drop 136) (a.take (bs.take 136))

/-- SHAKE256 over the bytes, 256 output bits, as 32 bytes. -/
def shake256 (bs : List Byte) : List Byte :=
  let a := Sponge.soak (bs.length / 136) bs (List.replicate 25 0)
  (List.range 4).flatMap fun i => natLe (a.at' i 0).toNat 8

end Sys2Proof.Machine
end

