-- ==== Sys2Proof/Machine/PartsJobs.lean ====
section
/-! DEFINITION. Plain data of schedules, images, jobs and the unit history (chapters 02, 05, 07, 08). -/

namespace Sys2Proof.Machine

/-- A loop entry (Table 05.5). The strides, in its order: VLINE, ROW, ENTRY, MDEST, SRCA, SRCB, DST, MLINE. -/
structure LoopEntry where
  first : Nat
  last : Nat
  count : Nat
  strides : List Int
  deriving DecidableEq, Repr

/-- A route entry (Table 05.6). -/
structure RouteEntry where
  kind : Nat
  target : Nat
  window : Nat
  offset : Nat
  notify : Nat
  bound : Nat
  deriving DecidableEq, Repr

/-- A schedule image (Table 05.3) with its tables and its bundles as 256-bit numbers (R112). -/
structure Image where
  logical : Nat := 0
  flags : Nat := 0
  preARow : Nat := 0
  preAShape : Nat := 0
  preBRow : Nat := 0
  preBShape : Nat := 0
  tail : Nat := 0
  wEngine : Nat := 0
  shapes : List TileShape := []
  loops : List LoopEntry := []
  pghs : List (Nat × Nat) := []
  routes : List RouteEntry := []
  windows : List Nat := []
  bundles : List Nat := []
  deriving DecidableEq, Repr

/-- What KV_BIND binds a logical engine to (Table 07.5). -/
structure KvBind where
  logical : Nat
  layers : List Nat
  windowPages : Nat
  slide : Bool
  passes : Nat
  readyPgh : Nat
  deriving DecidableEq, Repr

/-- An armed schedule (R133, R136). `package` is the copy retained in the partition's region. -/
structure Schedule where
  handle : Nat
  part : PartId
  cls : BitVec 4
  trigger : Nat
  budget : Word
  engines : Nat
  w : Nat
  images : List Image
  rerunW : Nat := 0
  rerun : List Image := []
  rerunOk : Bool := false
  package : List Byte := []
  suspended : Bool := false
  disarming : Bool := false
  binds : List KvBind := []
  needsBind : List Nat := []
  deriving DecidableEq, Repr

/-- Where a job's trigger came from, which settles where its end is reported. -/
inductive JobSource where
  | fabric (port : PortId) (link : Half) (tag : Word) (op : Byte) (silent : Bool)
  | window (w : WinId) (row : Nat) (tag : Word)
  | internal
  | kat (mailbox : MbxId) (kernel : Nat)
  deriving DecidableEq, Repr

/-- Where a page of a page list lies: resident on the layer's engine, or in a spill slot (R174). -/
inductive PageRef where
  | resident (e : EngId) (page : Nat)
  | spilled (e : EngId) (slot : Nat)
  deriving DecidableEq, Repr

/-- An admitted job (R41, R42, R49, R50, R128, R131). `counting` are the engines on which it still counts;
`ends` are the cycles of END on each engine; `outEnd` is the latest cycle in which an output of it
reached its end, `rowEnd` that of its outputs to a host row; `early` is the ending cycle and status of an early end.
`kvView` are the page lists of its sequence as its first walk captured them (R163). -/
structure Job where
  id : Nat
  sched : Nat
  part : PartId
  cls : Option (BitVec 4)
  engines : List EngId
  w : Nat
  t0 : Nat
  last : Nat
  finish : Nat
  source : JobSource
  kvSeq : Nat := 0
  counting : List EngId
  released : Option Nat := none
  started : Option Nat := none
  ends : List (EngId × Nat) := []
  outEnd : Nat := 0
  rowEnd : Nat := 0
  delivered : Bool := false
  early : Option (Nat × Status) := none
  missed : Bool := false
  walkGen : Option Nat := none
  walkLen : Nat := 0
  kvView : List (Nat × List PageRef) := []
  alloc : List (EngId × Nat × Nat) := []
  kvStatus : Option Status := none
  isRerun : Bool := false
  failedOn : Option EngId := none
  sealEntry : Nat := 0xFF
  image : List Image := []
  kept : List Byte := []
  keptAct : Option (Option Nat × Nat) := none
  deriving DecidableEq, Repr

/-- A unit history record (Table 08.4) but its CRC. -/
structure HistRec where
  type : Nat
  unit : Byte
  opClass : Nat := 0
  mechanism : Nat := 0
  status : Status := 0
  dataClass : Byte := 0
  classification : Nat := 0
  postmark : Nat := 0
  utc : Nat := 0
  poweredS : Nat := 0
  tj : Int := 0
  vddE : Nat := 0
  part : PartId := 0
  jobClass : Nat := 0
  handle : Nat := 0
  bundle : Nat := 0xFFFF
  rep : Nat := 0
  detail : Word := 0
  sequence : Nat := 0
  deriving DecidableEq, Repr

/-- The unit history (R197, R199): records waiting in I/O-die SRAM, the NAND ring and fence table, and
the fields of Table 08.16. -/
structure History where
  waiting1 : List HistRec := []
  waitingF : List HistRec := []
  ring : List HistRec := []
  fenceTable : List HistRec := []
  displaced : Word := 0
  uncopied : Half := 0
  next : Word := 0
  deriving DecidableEq, Repr

/-- The classification and fence of a unit other than an engine (R455, Table 08.17). -/
structure UnitState where
  unit : Byte
  classification : Nat := 0
  fenced : Bool := false
  deriving DecidableEq, Repr

/-- A KV sequence that is not FREE, or that an edit has touched (R159, Table 07.4). State: 0 FREE, 1 OPEN,
2 FROZEN. -/
structure KvSeq where
  num : Nat
  state : Nat := 0
  reason : Nat := 0
  handle : Nat := 0
  length : Nat := 0
  editGen : Nat := 0
  lists : List (Nat × List PageRef) := []
  deriving DecidableEq, Repr

/-- A page or spill slot that is not free: owned (last append), in transit under a tag (R161), or being
spilled to a slot (R174). -/
inductive PageUse where
  | owned (lastAppend : Nat)
  | taken (job : Nat)
  | transit (tag : Nat)
  | spilling (slot : Nat) (lastAppend : Nat)
  deriving DecidableEq, Repr

/-- A partition's KV pool (Table 07.1, R153, R161) and its registers. -/
structure KvPool where
  valid : Bool := false
  fmt : Nat := 0
  layers : Nat := 0
  reserve : BitVec 7 := 16
  d : Nat := 0
  sequences : Nat := 0
  tableEntries : Nat := 0
  spillPages : Nat := 0
  spillOffset : Nat := 0
  sigma : List Byte := []
  gen : Word := 0
  seqs : List KvSeq := []
  pages : List ((EngId × Nat) × PageUse) := []
  slots : List (Nat × Option Nat) := []
  event : BitVec 7 := 0
  eventWas : BitVec 7 := 0
  fullCount : Word := 0
  fullCountWas : Word := 0
  deriving DecidableEq, Repr

/-- A partition's checkpoints (R206, R207). `sealed` is the last sealed slot; `underB` tells which slot is under
construction, `mirroring` holds the TAGs of the puts of the mirror copy that runs. -/
structure Ckpt where
  cls : BitVec 4
  mirror : Half
  length : Nat
  offA : Nat
  offB : Nat
  interval : Nat
  lastSeal : Nat
  underB : Bool := false
  sealedSlot : Option Bool := none
  nextSeq : Nat := 0
  dueJobs : List Nat := []
  mirrorQueue : List Bool := []
  mirroring : List Word := []
  deriving DecidableEq, Repr

end Sys2Proof.Machine
end

