-- ==== Sys2Proof/Machine/PartsHost.lean ====
section
/-! DEFINITION. Plain data of the host port: mailboxes, direct windows, the bulk area (chapter 09). -/

namespace Sys2Proof.Machine

/-- A command that a mailbox has accepted and that has not been answered (R227, R230). `result` is its
status and response bytes once it has ended. `owner` names the partition and OWNER_SEQ under which its
response is sealed (R291). -/
structure RunCmd where
  opcode : Half
  req : MbxReq
  order : Nat
  waiting : Bool
  part : Option PartId
  func : Option FuncId := none
  result : Option (Status × List Byte) := none
  owner : Option (PartId × Dword) := none
  deriving DecidableEq, Repr

/-- The response half of a mailbox (Table 09.10): not ready, or valid with its fields. -/
structure Response where
  valid : Bool := false
  doneSeq : Word := 0
  status : Status := 0
  respBytes : Half := 0
  tag : Word := 0
  postmark : Dword := 0
  bytes : List Byte := []
  deriving DecidableEq, Repr

/-- A mailbox: its request half as last written, its last accepted DOORBELL, the command that runs or
waits, and the response half. -/
structure Mailbox where
  request : Option (Half × MbxReq) := none
  lastDoorbell : Word := 0
  cmd : Option RunCmd := none
  resp : Response := {}
  deriving DecidableEq, Repr

/-- A direct window (R219-R224, R236). `rows` are its bytes; `notReady` lists the rows
that are not ready, each with the cycle from which the host reads it where that is known (R27, R29). -/
structure DWin where
  bound : Option PartId := none
  engine : EngId := 0
  isSealed : Bool := false
  inputLine : Nat := 0
  inputRows : Nat := 0
  rows : Mem := []
  notReady : List (Nat × Option Nat) := []
  rate : Half := 0
  burst : Byte := 1
  tokens : Byte := 1
  releasing : Option MbxId := none
  sealOutNext : Nat := 32
  failedEntry : Bool := false
  deriving DecidableEq, Repr

/-- A bulk frame (R225, R226): its page, its bytes, the offsets written while the page was not resident,
and whether it is dirty or still being fetched. -/
structure Frame where
  page : Nat
  bytes : Mem := []
  mask : BitVec 4096 := 0
  fetching : Bool := false
  dirtySince : Option Nat := none
  lastUse : Nat := 0
  deriving DecidableEq, Repr

/-- An aperture's 64 frames, those that hold a page listed, and HST_BULKa.DROPS. -/
structure Bulk where
  frames : List Frame := []
  drops : BitVec 14 := 0
  dropsWas : BitVec 14 := 0
  deriving DecidableEq, Repr

/-- A FUNC_RESET or PARTNER_CLOSE in progress (R233, R248): the function, its mailbox, the fence cycle, whether it is a close, and whether
the command runs or still waits under R230. -/
structure ResetRun where
  func : FuncId
  mailbox : MbxId
  fence : Nat
  isClose : Bool := false
  started : Bool := true
  deriving DecidableEq, Repr

/-- A source of SAFE_STOP with a minimum and a CLEAR (R46). -/
structure StopSource where
  active : Bool := false
  minEnd : Nat := 0
  remembered : Bool := false
  deriving DecidableEq, Repr

/-- The host port. `answered` and `rdata` are what the port last returned to a read, `trained` the training state of the two
channels, `quotaAt` the latest quota period that has begun. -/
structure HostPort where
  hpReady : Bool := false
  modeRegs : Vector (List (Byte × Byte)) 2 := Vector.replicate 2 []
  trained : Vector Bool 2 := Vector.replicate 2 false
  answered : Bool := false
  rdata : List Byte := []
  postmarkHi : Word := 0
  utcLo : Word := 0
  utcHi : Word := 0
  utcBase : Option (Nat × Nat) := none
  err : BitVec 5 := 0
  errWas : BitVec 5 := 0
  mbxDone : Dword := 0
  mbx : Vector Mailbox 65 := Vector.replicate 65 {}
  nextOrder : Nat := 0
  quotaAt : Option Nat := none
  resets : List ResetRun := []
  win : Vector DWin 16 := Vector.replicate 16 {}
  bulk : Vector Bulk 7 := Vector.replicate 7 {}
  deriving DecidableEq, Repr

end Sys2Proof.Machine
end

