-- ==== Sys2Proof/Machine/PartsFabric.lean ====
section
/-! DEFINITION. Plain data of the Courier fabric and of envelopes (chapters 10 and 11). -/

namespace Sys2Proof.Machine

/-- A plan port entry (Table 10.3). -/
structure PlanPort where
  mode : Nat := 0
  farPort : Byte := 0
  filterFirst : Nat := 0
  filterLen : Nat := 0
  farId : Dword := 0
  deriving DecidableEq, Repr

/-- A cabinet plan (Table 10.2) with its bytes. -/
structure Plan where
  slot : Half
  twinSlot : Half
  ports : List PlanPort
  filters : List Dword
  bytes : List Byte
  deriving DecidableEq, Repr

/-- STATE of CRR_PORT_STATUSn (Table 10.12). -/
inductive PortState where
  | down | training | locked | openPort | fencedId | unused
  deriving DecidableEq, Repr

/-- The classes among which egress chooses (R256); `clear` responses count as refusals. -/
inductive TxClass where
  | refusal | output | response | other
  deriving DecidableEq, Repr

/-- A packet the module sends: class, OP and header. `job` and `outSeq` name the job output it carries. -/
structure TxPkt where
  cls : TxClass
  op : Byte
  pkt : Packet
  job : Option Nat := none
  ctx : Option Nat := none
  part : PartId := 0
  deriving DecidableEq, Repr

/-- A control block the module sends (Table 10.1). -/
inductive TxBlock where
  | idle
  | ident (identity : Dword) (port : Byte)
  | credit (link blocks : Half)
  | depart
  deriving DecidableEq, Repr

/-- A Courier port, or T0 (R237-R239, R52, R256, Tables 10.12-10.17). `sentBlocks` are the control blocks that left last, in cycle `lastSent`, and
`identAt` the cycle of the last IDENT since block lock. -/
structure Port where
  state : PortState := .down
  lock : Bool := false
  identSeen : Bool := false
  departSeen : Bool := false
  farId : Dword := 0
  farPort : Byte := 0
  serves : Option PartId := none
  fecCorr : Word := 0
  fecCorrWas : Word := 0
  fecUncorr : Word := 0
  fecUncorrWas : Word := 0
  uncorrRun : Nat := 0
  lastBlock : Nat := 0
  lastSent : Nat := 0
  sentBlocks : List TxBlock := []
  identAt : Option Nat := none
  dropCrc : Byte := 0
  dropCrcWas : Byte := 0
  dropAuth : Byte := 0
  dropAuthWas : Byte := 0
  dropReplay : Byte := 0
  dropReplayWas : Byte := 0
  dropOverrun : Byte := 0
  dropOverrunWas : Byte := 0
  refusalDrops : Word := 0
  refusalDropsWas : Word := 0
  clearLeft : Nat := 8
  queue : List TxPkt := []
  blocks : List TxBlock := []
  wire : Option (TxPkt × Nat) := none
  resetting : Bool := false
  deriving DecidableEq, Repr

/-- The epochs of a key slot (R288): installed ones, newest first, and the highest retired one. -/
structure KeySlot where
  installed : List (Nat × List Byte) := []
  retired : Nat := 0
  deriving DecidableEq, Repr

/-- The memory that a staging names: the activation SRAM of a logical engine (an ACT window) or of an engine
(MODEL_LOAD), or the region. -/
inductive EnvSpace where
  | act (logical : Nat)
  | engine (e : EngId)
  | lpddr
  deriving DecidableEq, Repr

/-- An operation that has passed its checks and waits: for a page to be applied, for an LPDDR5X slot, for a commit of its context, or behind
one of its context that waits (R254, R273, R278, R452). It has where the operation goes and the job that it triggers; `ack` where it is
staged and its acknowledgement alone waits; the envelopes of the context whose commit had been asked for before it (`behind`), and the number
of the next apply when it passed its checks (`mark`); and whether it still takes its receive blocks (R255). -/
structure HeldPkt where
  port : PortId
  op : Byte
  pkt : Packet
  space : EnvSpace
  addr : Nat
  job : Option Nat := none
  ack : Bool := false
  behind : List Half := []
  mark : Nat := 0
  credit : Bool := true
  deriving DecidableEq, Repr

/-- A partner context (R245, Table 10.6, R247, R255, R257). `rx` is the last accepted PKT_SEQ per epoch; `held` are its
operations that wait, in order, and `heldBlocks` the receive blocks that they take. `serial` tells it from every other context that the
module has had (R277). -/
structure Ctx where
  part : PartId
  num : Nat
  port : PortId
  clear : Bool
  filter : Bool
  link : Half
  remoteLink : Half
  serial : Nat := 0
  creditBlocks : Nat
  opsBurst : Nat
  opsRate : Nat
  bytesBurst : Nat
  bytesRate : Nat
  timeout : Nat
  opsTok : Nat
  bytesTok : Nat
  key : KeySlot := {}
  rx : List (Nat × Word) := []
  tx : Word := 0
  txEpoch : Nat := 0
  held : List HeldPkt := []
  heldBlocks : Nat := 0
  outCredit : Nat := 0
  deriving DecidableEq, Repr

/-- Kinds of window descriptor (Table 10.7). -/
inductive WinKind where
  | act | lpddr | pgh | remote
  deriving DecidableEq, Repr

/-- A window descriptor (R249). `revoking` is the mailbox of a WINDOW_GRANT accepted to revoke it, from which on it is none (R251). -/
structure Win where
  num : Nat
  part : PartId
  ctx : Nat
  kind : WinKind
  rights : BitVec 3
  logical : Nat
  base : Nat
  length : Nat
  gen : Nat := 0
  revoking : Option MbxId := none
  deriving DecidableEq, Repr

/-- An operation the module has sent and whose response it awaits (R256). -/
structure OutOp where
  port : PortId
  tag : Word
  limit : Nat
  op : Byte
  pkt : Packet
  part : PartId
  deriving DecidableEq, Repr

/-- A dead-letter entry (Table 10.10): 48 header bytes, status, port, direction, postmark. -/
structure DlqEntry where
  header : List Byte
  status : Status
  port : Nat
  sent : Bool
  postmark : Nat
  deriving DecidableEq, Repr

/-- A dead-letter ring (R260, Table 10.18). `slots` lists (index, entry) for the entries written. -/
structure Dlq where
  slots : List (Nat × DlqEntry) := []
  head : BitVec 6 := 0
  tail : BitVec 6 := 0
  full : Bool := false
  drops : Half := 0
  dropsWas : Half := 0
  deriving DecidableEq, Repr

/-- An operation that a Courier port has carried out on memory: the engine of its activation SRAM, none for the region; and the bytes there
before it (R254). -/
structure PortOp where
  port : PortId
  op : Byte
  tag : Word
  engine : Option EngId
  part : PartId
  addr : Nat
  data : List Byte
  before : List Byte
  deriving DecidableEq, Repr

/-- The Courier fabric, the pigeonhole unit and the sorting switch. `pgh` lists the non-zero pigeonholes by module-wide number; `tokenAt`
and `lpSlotAt` are the latest token period and LPDDR5X slot that have begun. `pghFresh` lists what was added to pigeonholes in cycle
`pghFreshAt`, which no sequencer sees in that cycle (R125). `granted` holds for destinations of the switch the first cycle not yet taken
(R34, R453). `lpFree` are the owned LPDDR5X slots of the last frames that began with no LDR or LDW of their partition pending, as the partition and the
slot's first cycle (R452).
`portOps` are the operations on memory that Courier ports carried out in cycle `portOpsAt` (R254), and `nextCtx` is the number of the next context. -/
structure Fabric where
  plan : Option Plan := none
  ports : Vector Port 9 := Vector.replicate 9 {}
  ctxs : List Ctx := []
  wins : List Win := []
  pgh : List (Nat × Word) := []
  pghFresh : List (Nat × Nat) := []
  pghFreshAt : Nat := 0
  pghSat : Bool := false
  pghSatWas : Bool := false
  pghLast : Half := 0
  dlq : Vector Dlq 7 := Vector.replicate 7 {}
  outstanding : List OutOp := []
  nextTag : Word := 0
  tokenAt : Option Nat := none
  lpSlotAt : Option Nat := none
  lpFree : List (PartId × Nat) := []
  portOpsAt : Nat := 0
  portOps : List PortOp := []
  nextCtx : Nat := 1
  granted : List (Nat × Nat) := []
  deriving DecidableEq, Repr

/-- Kinds of staged partner operation (R265). -/
inductive EnvOpKind where
  | put | fetchAdd | cas
  deriving DecidableEq, Repr

/-- A partner operation staged in an envelope (R265, R266, R275). -/
structure EnvOp where
  kind : EnvOpKind
  space : EnvSpace
  addr : Nat
  data : List Byte
  notify : Option (Nat × Packet) := none
  window : Option Nat := none
  port : PortId := 0
  deriving DecidableEq, Repr

/-- One staging of an envelope: an operation, or a command with the number reserved for it and the package that it
copied (Table 11.4). -/
inductive EnvItem where
  | op (o : EnvOp)
  | cmd (opcode : Half) (r : MbxReq) (num : Nat) (package : List Byte)
  deriving DecidableEq, Repr

/-- STATE of an open envelope (Table 11.6). -/
inductive EnvState where
  | opened | doomed | settling
  deriving DecidableEq, Repr

/-- Who asked for the commit that an envelope settles. -/
inductive EnvAsker where
  | mailbox (m : MbxId)
  | packet (port : PortId) (p : Packet)
  deriving DecidableEq, Repr

/-- An abort that has reached an envelope while it settles: its REASON, its cycle, and who asked for it (R276). -/
structure EnvClosing where
  reason : Nat
  at' : Nat
  askers : List EnvAsker := []
  deriving DecidableEq, Repr

/-- An open envelope (R262-R267). `opener` is the serial number of the partner's context, none for the host driver. `closing` is an abort
that reached it while it settled. -/
structure Envelope where
  part : PartId
  handle : Half
  opener : Option Nat
  expiry : Nat
  state : EnvState := .opened
  items : List EnvItem := []
  bytes : Nat := 0
  asker : Option EnvAsker := none
  prepared : Option Dword := none
  acked : Bool := false
  closing : Option EnvClosing := none
  deriving DecidableEq, Repr

/-- The held outcome of a closed envelope (R277). -/
structure EnvOutcome where
  part : PartId
  handle : Half
  opener : Option Nat
  committed : Bool
  casMisses : Nat := 0
  staged : Nat := 0
  reason : Nat := 0
  postmark : Nat := 0
  deriving DecidableEq, Repr

/-- What is still to be done of a committed envelope on one engine (R273-R275): the masked bytes, the atomics, and the jobs that it waits for. `group` numbers the commit. -/
structure EnvApply where
  id : Nat
  group : Nat
  part : PartId
  handle : Half
  engine : EngId
  cells : List Host.Cell
  atomics : List EnvOp
  waitJobs : List Nat
  deriving DecidableEq, Repr

/-- The notifies of a committed envelope that wait for its pages (R275). -/
structure EnvNotes where
  group : Nat
  part : PartId
  ops : List EnvOp
  deriving DecidableEq, Repr

/-- The envelope unit. -/
structure EnvUnit where
  opens : List Envelope := []
  outcomes : List EnvOutcome := []
  nextHandle : Vector Half 7 := Vector.replicate 7 0
  applies : List EnvApply := []
  notes : List EnvNotes := []
  nextApply : Nat := 0
  event : BitVec 5 := 0
  eventWas : BitVec 5 := 0
  abortCount : Word := 0
  abortCountWas : Word := 0
  deriving DecidableEq, Repr

end Sys2Proof.Machine
end

