-- ==== Sys2Proof/Machine/PartsSystem.lean ====
section
/-! DEFINITION. Plain data of partitions and keys, the twin port, video, metrology, check-value units,
self-test, power and firmware (chapters 12 to 19). -/

namespace Sys2Proof.Machine

/-- A PARTITION_DISSOLVE in progress (R300): its acceptance cycle, its mailbox, and whether the XTS keys
have been destroyed. -/
structure Dissolve where
  d : Nat
  mailbox : MbxId
  keysGone : Bool := false
  deriving DecidableEq, Repr

/-- The owner key of a confidential partition (R291, Table 12.9). -/
structure OwnerKey where
  epoch : Nat
  key : List Byte
  lastSeq : Dword := 0
  deriving DecidableEq, Repr

/-- A partition (R22, R282, R283, Table 12.2). `region` is the plaintext of its LPDDR5X region; `shadow` are
the redirected pages of R273 as (page, masked bytes); `series` are the MSG_SEQ values last accepted or sent
by (lane, direction, epoch). -/
structure Partition where
  isThere : Bool := false
  confidential : Bool := false
  dissolving : Option Dissolve := none
  engines : BitVec 6 := 0
  kvSteps : BitVec 4 := 0
  regionBase : Nat := 0
  regionGib : Nat := 0
  pghBase : Nat := 0
  pghCount : Nat := 0
  ctxMax : Nat := 0
  winMax : Nat := 0
  lpSlots : Word := 0
  swCycles : Dword := 0
  vidSlots : Half := 0
  cvuSlots : Half := 0
  createAt : Nat := 0
  xtsKey : Option Nat := none
  kemKey : Option Nat := none
  owner : Option OwnerKey := none
  ownerEpoch : Nat := 0
  host : KeySlot := {}
  series : List ((Nat × Nat × Nat) × Dword) := []
  region : Mem := []
  shadow : List (Nat × List Host.Cell) := []
  kv : KvPool := {}
  ckpt : Option Ckpt := none
  outSeq : Nat := 0
  permitted : Option Dword := none
  lastEngine : Nat := 5
  deriving DecidableEq, Repr

/-- The security block (R280-R299, Tables 12.10-12.15). `seedHeld` tells that the identity's secret seed has not been destroyed (Table 12.1). -/
structure Security where
  lifecycle : BitVec 3 := 3
  debugFused : Bool := false
  identity : Dword := 0
  seedHeld : Bool := true
  serial : List Byte := []
  nonce : Dword := 0
  debug : BitVec 7 := 0
  xmssNext : BitVec 28 := 0
  epoch : BitVec 12 := 0
  exhausted : Bool := false
  reservedTo : Nat := 0
  event : BitVec 4 := 0
  eventWas : BitVec 4 := 0
  draws : Nat := 0
  deriving DecidableEq, Repr

/-- ROLE of TWN_STATUS (Table 13.6). -/
inductive TwinRole where
  | unpaired | active | inStep | joining | outOfStep | gaveUp
  deriving DecidableEq, Repr

/-- An event forwarded to the standby and due in its mirror cycle (R311). -/
inductive FwdEvent where
  | admission (port : PortId) (op : Byte) (p : Packet) (last predicted : Dword)
  | release (e : EngId) (job bundle : Nat)
  | command (opcode : Half) (r : MbxReq)
  | commit (part : PartId) (handle : Half)
  | abort (part : PartId) (handle : Half)
  deriving DecidableEq, Repr

/-- The twin port (R302-R326, Tables 13.6-13.10). What is kept of the pair: `outbox` are the records sent, as (KIND, RECORD_SEQ);
`unreported` and `sentReports` the result digests still to be reported and the reports that await their ACK; `acked` and `reported` the
last OUTPUT_SEQ acknowledged and reported per partition; `expected` the reported digests of messages not yet made, `ownDigests` those of
messages made and not yet reported; `held` the messages held back; `reemit` the last OUTPUT_SEQ that carries REEMIT; `ownEpoch` and
`peerEpoch` the engine digests of the latest epoch with what the references give; `aborts` and `abortAnswers` the ABORT records not yet
acknowledged and the answers that wait for them; `lost` the partitions that R326 leaves to be restored. A mirror cycle is the active's
cycle + 1152 + `skew`; `shift` is the mirror of the active's power-good. -/
structure Twin where
  role : TwinRole := .unpaired
  claimOut : Bool := false
  claimIn : Bool := false
  claimInSince : Nat := 0
  twinClaims : Bool := false
  twinPaired : Bool := false
  peerInStep : Bool := false
  stop : StopSource := {}
  event : BitVec 9 := 0
  eventWas : BitVec 9 := 0
  lastTakeover : Dword := 0
  txSeq : Dword := 1
  rxSeq : Dword := 0
  refreshed : Nat := 0
  wiringRun : Nat := 0
  wiringBad : Bool := false
  gaveUpSeen : Bool := false
  silent : Bool := false
  lastReport : Nat := 0
  unreported : List (PartId × Nat × Dword) := []
  sentReports : List (Dword × List (PartId × Nat)) := []
  acked : Vector Nat 7 := Vector.replicate 7 0
  reported : Vector Nat 7 := Vector.replicate 7 0
  reportedCtx : List (Half × Word × Word) := []
  expected : List (PartId × Nat × Dword) := []
  ownDigests : List (PartId × Nat × Dword) := []
  held : List (PortId × TxPkt) := []
  reemit : Vector Nat 7 := Vector.replicate 7 0
  ownEpoch : Option (Nat × List (Dword × Dword)) := none
  peerEpoch : Option (Nat × List Dword) := none
  forwarded : List (Nat × FwdEvent) := []
  outbox : List (Nat × Dword) := []
  aborts : List (Dword × PartId × Half) := []
  abortAnswers : List (Dword × PortId × Packet) := []
  phase : BitVec 2 := 0
  pass : Byte := 0
  abandoned : BitVec 7 := 0
  pending : BitVec 15 := 0
  resyncMbx : Option MbxId := none
  lost : BitVec 7 := 0
  skew : Int := 0
  shift : Int := 0
  deriving DecidableEq, Repr

/-- The picture in progress of a decode stream: its frame buffer, what its frame table entry will say (Table 14.5), and the
bands of it that have come about (R336). -/
structure Picture where
  frame : Nat
  index : Nat
  poc : Word
  width : Nat
  height : Nat
  inherited : Bool := false
  reason : Byte := 0
  concealed : Nat := 0
  bands : Nat := 0
  deriving DecidableEq, Repr

/-- A decode or encode stream (R332-R346): its arguments and state. STATE: 0 decoding, 1 seeking, 2 waiting, 3 closed;
`forBand` tells that a stream that waits does so for a tensor slot. `consumed` counts the chunks or input entries taken,
`written` the output entries, `marks` is MARK of each frame that is not free (Table 14.5), `numbers` the PICTURE of each frame,
`outList` the frames in output order that the consumer holds, and `unread` the (offset, length) of the access units that it
has not read. -/
structure Stream where
  num : Nat
  unit : VidId
  part : PartId
  args : List Byte
  encoding : Bool := false
  state : Nat := 0
  forBand : Bool := false
  consumed : Nat := 0
  pictures : Nat := 0
  damaged : Word := 0
  lastReason : Byte := 0
  freeBands : Nat := 0
  nextBand : Nat := 0
  current : Option Picture := none
  marks : List (Nat × Byte) := []
  numbers : List (Nat × Nat) := []
  outIndex : Nat := 0
  outList : List Nat := []
  written : Nat := 0
  outPos : Nat := 0
  unread : List (Nat × Nat) := []
  restart : Bool := true
  sinceIdr : Nat := 0
  deriving DecidableEq, Repr

/-- The video units (Tables 14.12-14.15). `working` lists the units in an owned slot with work, with the stream; `lastTurn`
holds the stream of each unit and partition that took its latest turn, `slotAt` the start of each unit's latest slot. -/
structure Video where
  streams : List Stream := []
  event : BitVec 5 := 0
  eventWas : BitVec 5 := 0
  damagedCount : Word := 0
  damagedCountWas : Word := 0
  working : List (VidId × Nat) := []
  lastTurn : List ((VidId × PartId) × Nat) := []
  slotAt : List (VidId × Nat) := []
  deriving DecidableEq, Repr

/-- A sample frame in an SMS inbox (R351) with the port it came through and its postmark. -/
structure InboxFrame where
  port : Nat
  postmark : Nat
  bytes : List Byte
  deriving DecidableEq, Repr

/-- A channel of the SMS (R352, R353, R357, Table 15.19). STATE: 0 disabled, 1 valid, 2 FAULT. `products` are the last F
products, newest first. -/
structure SmsChan where
  state : BitVec 2 := 0
  inbox : List InboxFrame := []
  expected : Option Nat := none
  bad : Byte := 0
  lost : Half := 0
  products : List Int := []
  overload : Bool := false
  lastFrame : Nat := 0
  deriving DecidableEq, Repr

/-- An instrument of the SMS (R357-R361, Table 15.17). Values are in units of 2^-32 e; `window` lists the postmark and X
of the pacing samples in STAB_WINDOW; `breakAt` is the postmark from which they are unbroken; `tried` tells that a stable
value has come since the instrument was marked not zeroed. -/
structure SmsInst where
  zeroed : Bool := false
  tried : Bool := false
  zero : Int := 0
  initialZero : Int := 0
  tare : Option Nat := none
  preset : Bool := false
  x : Option Int := none
  window : List (Nat × Int) := []
  breakAt : Nat := 0
  stable : Bool := false
  trackedAt : Nat := 0
  deriving DecidableEq, Repr

/-- A staged SM image (R426): the blocks staged with their lengths, and whether it has been verified. -/
structure SmStage where
  blocks : List (Nat × Nat) := []
  verified : Bool := false
  deriving DecidableEq, Repr

/-- The metrology die (chapter 15). STATE: 0 starting, 1 running, 2 integrity fault, 3 clock or supply fault. `params` is the
parameter set in use (copy `copyInUse`), `keys` are the channel keys, `nor` holds the image slots (slot B in use where
`slotB`), `records` is the record ring with the oldest first, `head` the chain hash, and `imageDigest` the digest of the
active image once one has been activated. -/
structure Sms where
  state : BitVec 2 := 0
  adjEn : Bool := false
  audit : Nat := 0
  params : List Byte := []
  keys : List (Nat × List Byte) := []
  copyInUse : Nat := 0
  nor : Mem := []
  slotB : Bool := false
  imageDigest : Option (List Byte) := none
  records : List (List Byte) := []
  nextSeq : Nat := 0
  head : List Byte := List.replicate 32 0
  tokens : Nat := 64
  lastCheckpoint : List Byte := []
  uncovered : Nat := 0
  firstUncovered : Option Nat := none
  nextCovered : Nat := 0
  epoch : Nat := 0
  epochOk : Bool := false
  xmssNext : Nat := 0
  reservedTo : Nat := 0
  chans : Vector SmsChan 16 := Vector.replicate 16 {}
  insts : Vector SmsInst 4 := Vector.replicate 4 {}
  stage : SmStage := {}
  deriving DecidableEq, Repr

/-- A CRC job (Table 16.3). `steps` are (SOURCE, LOGICAL_ENGINE, LENGTH, START). -/
structure CvuJob where
  num : Nat
  part : PartId
  width : Nat
  refin : Bool
  refout : Bool
  fold : Nat
  poly : Dword
  init : Dword
  xorout : Dword
  foldBase : Dword
  donePgh : Nat
  resultOff : Nat
  steps : List (Nat × Nat × Nat × Nat)
  duration : Nat
  startedAt : Nat := 0
  deriving DecidableEq, Repr

/-- A check-value unit (Table 16.5): the job it runs and those queued behind it. -/
structure Cvu where
  running : Option CvuJob := none
  queue : List CvuJob := []
  slot : Nat := 0
  deriving DecidableEq, Repr

/-- The check-value units. `digestRows` is the buffer of store rows read for the weight digests (R376), each with the
digest of what was read. -/
structure CvuBlock where
  units : Vector Cvu 4 := Vector.replicate 4 {}
  nextJob : Nat := 0
  event : BitVec 5 := 0
  eventWas : BitVec 5 := 0
  digestRows : List (EngId × Nat × Dword) := []
  deriving DecidableEq, Repr

/-- A TEST_KAT that runs (R393): the kernels still to be offered, in order, and what has come of the others. `failing` are the
kernels whose output digest differs. -/
structure KatRun where
  mailbox : MbxId
  part : PartId
  engine : EngId
  budget : Nat
  dataClass : Byte
  failing : BitVec 7
  todo : List Nat
  runs : Nat := 0
  fails : Nat := 0
  failedSet : BitVec 7 := 0
  firstStatus : Status := 0
  firstAt : Nat := 0
  deriving DecidableEq, Repr

/-- A point of a margin sweep (R394): its VDD_E, and what it meets: the junction temperature and the cycles until it lies in
the band, whether it never does, and the kernels that fail. -/
structure SweepPoint where
  vdd : Nat
  tj : Nat
  failed : BitVec 7
  skipped : Bool
  delay : Nat
  deriving DecidableEq, Repr

/-- A MARGIN_SWEEP that runs (R394): `pointAt` is the cycle in which the supply was set for its first point left. -/
structure Sweep where
  mailbox : MbxId
  part : PartId
  engine : EngId
  set : BitVec 7
  fast : Bool
  dataClass : Byte
  acceptedAt : Nat
  points : List SweepPoint
  pointAt : Option Nat := none
  out : List Byte := []
  deriving DecidableEq, Repr

/-- A SCAN_RUN that runs (R391), with the response it will give. -/
structure ScanRun where
  mailbox : MbxId
  engine : EngId
  full : Bool
  out : List Byte
  deriving DecidableEq, Repr

/-- The BIST controller (R384-R394, Tables 17.7-17.10). -/
structure Bist where
  stagger : Bool := true
  gate : Bool := true
  maxConcurrent : BitVec 3 := 1
  periodic : Bool := true
  goldenValid : Bool := false
  granted : BitVec 6 := 0
  grantEnd : Nat := 0
  failed : Bool := false
  failedWas : Bool := false
  skipped : Word := 0
  skippedWas : Word := 0
  kats : List KatRun := []
  sweeps : List Sweep := []
  scans : List ScanRun := []
  deriving DecidableEq, Repr

/-- PHASE of the status row (Table 09.6), with the tray unpowered and the time before ROM start. -/
inductive Phase where
  | unpowered | starting | rom | imagesVerified | storeTested | memoryTrained | portsLocked | service
  | recovery | ejecting
  deriving DecidableEq, Repr

/-- Power, clocks, heat and start-up (chapter 18). `statusRow` are the fields of the status row as last written, in cycle
`statusRowAt`; `coolSince` holds for levels 1-3 the cycle of the first reading of the last run of readings at least 3 degC below entry; `sensors` are the
latest readings, `windowMax` the highest of them since the latest telemetry refresh, `lastWindow` the highest of the window before that; `rebootFrom` marks an EJECT that ends in
a ROM start (R421). -/
structure Power where
  phase : Phase := .starting
  bootStatus : Status := 0
  settingsDefaulted : Bool := false
  slotId : Half := 0xFFFF
  latchedOpen : Bool := false
  epo : Bool := false
  vin : Half := 0
  watts : BitVec 12 := 0
  event : BitVec 2 := 0
  eventWas : BitVec 2 := 0
  domains : BitVec 162 := 0
  ramping : List Nat := []
  source : Bool := false
  refLost : Bool := false
  refLostWas : Bool := false
  rootLocked : Bool := false
  level : BitVec 2 := 0
  tjMax : BitVec 12 := 0
  coolSince : Vector Nat 3 := Vector.replicate 3 0
  sensors : List (BitVec 12) := []
  windowMax : BitVec 12 := 0
  lastWindow : BitVec 12 := 0
  coolant : BitVec 12 := 0
  thmEvent : BitVec 4 := 0
  thmEventWas : BitVec 4 := 0
  thmStop : StopSource := {}
  startSrc : Bool := true
  ejectAt : Option Nat := none
  deadlineStop : StopSource := {}
  stopEngine : BitVec 3 := 0
  poweredS : Nat := 0
  trained : Bool := false
  loaderBad : Bool := false
  statusRow : List Byte := []
  statusRowAt : Nat := 0
  telemetry : List Byte := []
  smbData : List Byte := []
  smbAck : Bool := false
  rebootFrom : Option Nat := none
  deriving DecidableEq, Repr

/-- Firmware (chapter 19). `nor` is the boot NOR (Table 19.1); `running` are the VERSION and IFACE of the
images that run, `format` the SETTINGS_FORMAT of PM; `staged` are the blocks staged with their lengths, `chunks` the pieces of them that REC_STAGE wrote as
(block, chunk, bytes); `activating` is the mailbox whose FW_ACTIVATE runs; `invalid` lists the types whose slots
are invalid, `torn` those whose overwriting has not been read back as written; `planCopy` and `settingsCopy` are the copies
in use with their WRITE_COUNT. -/
structure Firmware where
  nor : Mem := []
  running : List (Nat × Word × Half) := []
  format : Nat := 0
  stagedType : Nat := 0
  staged : List (Nat × Nat) := []
  chunks : List (Nat × Nat × Nat) := []
  planCopy : Option (Nat × Nat) := none
  settingsCopy : Option (Nat × Nat) := none
  verified : Bool := false
  activating : Option Nat := none
  invalid : List Nat := []
  torn : List Nat := []
  deriving DecidableEq, Repr

end Sys2Proof.Machine
end

