-- ==== Sys2Proof/Machine/State.lean ====
section
/-! DEFINITION. The state of the XB6 module, the reasons a step can stop, and the state after reset. -/

namespace Sys2Proof.Machine

/-- Why the machine stops with a fault. No step of this model raises one: each row of the table has an effect
in every state. -/
inductive Fault where
  /-- Raised by no step; kept so that the type is not empty. Safe. -/
  | none
  deriving DecidableEq, Repr

/-- Why a step is refused. -/
inductive Refusal where
  /-- An instruction without a meaning in this model, named as the table names it. Safe. -/
  | notModelled (mnemonic : String)
  deriving DecidableEq, Repr

/-- The state of the module. `now` is the postmark (R39); `pending` is the queue of commands that wait,
first in, first out; `free` counts the free values drawn (the model's own field); the other fields are the
module's blocks. -/
structure State where
  now : Nat := 0
  eng : Vector Engine 6 := Vector.replicate 6 {}
  scheds : List Schedule := []
  jobs : List Job := []
  nextJob : Nat := 0
  nextXfer : Nat := 0
  hist : History := {}
  units : List UnitState := []
  host : HostPort := {}
  fab : Fabric := {}
  env : EnvUnit := {}
  part : Vector Partition 7 := (Vector.replicate 7 {}).set 0 { isThere := true }
  sec : Security := {}
  twin : Twin := {}
  vid : Video := {}
  sms : Sms := {}
  cvu : CvuBlock := {}
  bist : Bist := {}
  pwr : Power := {}
  fw : Firmware := {}
  free : Nat := 0
  pending : List Instr := []
  deriving DecidableEq, Repr

/-- The module right after reset: the power-good cycle (R39, R396), postmark 0, every register at the
value its table gives, nothing listed in any memory, no command waiting. -/
def State.reset : State := {}

end Sys2Proof.Machine
end

