-- ==== Sys2Proof/Machine/Ops.lean ====
section
/-! DEFINITION. The named operations over the state that every family shares: updates of one unit, time,
SAFE_STOP, pigeonholes, who holds which engine, and the lookup of jobs, schedules, contexts and windows. -/

namespace Sys2Proof.Machine

/-! One unit of the state changed. -/

/-- The state with engine `e` changed. -/
def State.updEng (s : State) (e : EngId) (f : Engine → Engine) : State :=
  { s with eng := s.eng.set e (f s.eng[e]) }

/-- The state with partition `p` changed. -/
def State.updPart (s : State) (p : PartId) (f : Partition → Partition) : State :=
  { s with part := s.part.set p (f s.part[p]) }

/-- The state with the host port changed. -/
def State.updHost (s : State) (f : HostPort → HostPort) : State := { s with host := f s.host }

/-- The state with the fabric changed. -/
def State.updFab (s : State) (f : Fabric → Fabric) : State := { s with fab := f s.fab }

/-- The state with the envelope unit changed. -/
def State.updEnv (s : State) (f : EnvUnit → EnvUnit) : State := { s with env := f s.env }

/-- The state with the security block changed. -/
def State.updSec (s : State) (f : Security → Security) : State := { s with sec := f s.sec }

/-- The state with the twin port changed. -/
def State.updTwin (s : State) (f : Twin → Twin) : State := { s with twin := f s.twin }

/-- The state with the power block changed. -/
def State.updPwr (s : State) (f : Power → Power) : State := { s with pwr := f s.pwr }

/-- The state with the metrology die changed. -/
def State.updSms (s : State) (f : Sms → Sms) : State := { s with sms := f s.sms }

/-- The state with port `n` changed. -/
def State.updPort (s : State) (n : LinkId) (f : Port → Port) : State :=
  s.updFab fun b => { b with ports := b.ports.set n (f b.ports[n]) }

/-- The state with mailbox `m` changed. -/
def State.updMbx (s : State) (m : MbxId) (f : Mailbox → Mailbox) : State :=
  s.updHost fun h => { h with mbx := h.mbx.set m (f h.mbx[m]) }

/-- The state with direct window `w` changed. -/
def State.updWin (s : State) (w : WinId) (f : DWin → DWin) : State :=
  s.updHost fun h => { h with win := h.win.set w (f h.win[w]) }

/-- The state with aperture `a` changed. -/
def State.updBulk (s : State) (a : PartId) (f : Bulk → Bulk) : State :=
  s.updHost fun h => { h with bulk := h.bulk.set a (f h.bulk[a]) }

/-- The state with the KV pool of partition `p` changed. -/
def State.updKv (s : State) (p : PartId) (f : KvPool → KvPool) : State :=
  s.updPart p fun q => { q with kv := f q.kv }

/-- The state with job `id` changed. -/
def State.updJob (s : State) (id : Nat) (f : Job → Job) : State :=
  { s with jobs := updWhere (fun j => j.id = id) f s.jobs }

/-- The state with the schedule of a handle changed. -/
def State.updSched (s : State) (h : Nat) (f : Schedule → Schedule) : State :=
  { s with scheds := updWhere (fun c => c.handle = h) f s.scheds }

/-- The state with a context changed, named by its LINK. -/
def State.updCtx (s : State) (link : Half) (f : Ctx → Ctx) : State :=
  s.updFab fun b => { b with ctxs := updWhere (fun c => c.link = link) f b.ctxs }

/-- A Courier port P0-P7 among the nine links. -/
def portLink (p : PortId) : LinkId := ⟨p.val, by omega⟩

/-- The twin port T0 among the nine links. -/
def twinLink : LinkId := 8

/-- A counter that holds at its greatest value. -/
def bump (w : Nat) (c : BitVec w) (n : Nat) : BitVec w := BitVec.ofNat w (min (c.toNat + n) (2 ^ w - 1))

/-- A bit set in an event register. -/
def setBit {w : Nat} (v : BitVec w) (i : Nat) : BitVec w := v ||| BitVec.ofNat w (2 ^ i)

/-- Whether bit `i` of a register is set. -/
def hasBit {w : Nat} (v : BitVec w) (i : Nat) : Bool := v.getLsbD i

/-! Time (R39, R235, Table 08.4). -/

/-- Cycles in a millisecond. -/
def cycMs : Nat := 900000

/-- UTC in milliseconds: 0 until the host driver has written it (R235). -/
def State.utc (s : State) : Nat := match s.host.utcBase with
  | none => 0
  | some (ms, at') => ms + (s.now - at') / cycMs

/-- The tray's powered seconds since manufacture. -/
def State.powered (s : State) : Nat := s.pwr.poweredS + s.now / (1000 * cycMs)

/-- Whether the module is in SERVICE. -/
def State.inService (s : State) : Bool := s.pwr.phase = .service

/-- A value rounded down to a multiple of 65,536 cycles (R40, R292). -/
def coarse (n : Nat) : Nat := n / 65536 * 65536

/-! SAFE_STOP (R46). -/

/-- The source activated, or its minimum restarted, at `now`: a remembered CLEAR is discarded. -/
def driveStop (_ : StopSource) (now : Nat) : StopSource := { active := true, minEnd := now + cycMs }

/-- A CLEAR written at `now` (R46). -/
def clearStop (c : StopSource) (now : Nat) : StopSource :=
  if ¬ c.active then c else if c.minEnd ≤ now then {} else { c with remembered := true }

/-- The end of a source's minimum at `now` (R46). -/
def expireStop (c : StopSource) (now : Nat) : StopSource :=
  if c.active ∧ c.remembered ∧ c.minEnd ≤ now then {} else c

/-- The level driven on SAFE_STOP: the OR of its sources (R46, R316, R408, R410). -/
def State.safeStop (s : State) : Bool :=
  s.pwr.startSrc || s.pwr.deadlineStop.active || s.twin.stop.active || s.pwr.thmStop.active
    || s.pwr.ejectAt.isSome

/-! Engines and partitions (R22, R105). -/

/-- All engines in order. -/
def engines : List EngId := List.finRange 6

/-- Whether an engine belongs to a partition. -/
def State.owns (s : State) (p : PartId) (e : EngId) : Bool := hasBit s.part[p].engines e.val

/-- The unfenced engines of a partition, in order (R105). -/
def State.live (s : State) (p : PartId) : List EngId :=
  engines.filter fun e => s.owns p e && !s.eng[e].fenced

/-- The compute partition that holds an engine. -/
def State.holder (s : State) (e : EngId) : Option PartId :=
  (List.finRange 7).find? fun p => p ≠ 0 && s.owns p e

/-- The partition that a partition byte names, where it exists. -/
def State.partOf (s : State) (n : Nat) : Option PartId :=
  if h : n < 7 then (if s.part[(⟨n, h⟩ : PartId)].isThere then some ⟨n, h⟩ else none) else none

/-- The compute partition that a byte names, where it exists. -/
def State.compOf (s : State) (n : Nat) : Option PartId := if n = 0 then none else s.partOf n

/-- Rows of an engine's store that hold weights: those below KV_FIRST_ROW (R91). -/
def kvFirstRow (steps : Nat) : Nat := 8192 - 512 * steps

/-- The bytes of a partition's LPDDR5X region. -/
def regionBytes (p : Partition) : Nat := p.regionGib * 2 ^ 30

/-- A byte of the region as an agent reads it, through the redirect of R273. -/
def regionGet (p : Partition) (a : Nat) : Byte :=
  match assoc (a / 4096) p.shadow with
  | none => memGet p.region a
  | some cs => (cellAt cs a).getD (memGet p.region a)

/-- Bytes of the region as an agent reads them. -/
def regionRead (p : Partition) (a n : Nat) : List Byte :=
  if p.shadow.isEmpty then memRead p.region a n else (List.range n).map fun i => regionGet p (a + i)

/-- One byte written by an agent, to the shadow page while a redirect stands (R273). -/
def regionSet (p : Partition) (a : Nat) (v : Byte) : Partition :=
  match assoc (a / 4096) p.shadow with
  | none => { p with region := memSet p.region a v }
  | some cs => { p with shadow := assocSet (a / 4096) (cellPut cs a v) p.shadow }

/-- Bytes written to the region by an agent. -/
def regionWrite (p : Partition) (a : Nat) (bs : List Byte) : Partition :=
  if p.shadow.isEmpty then { p with region := memWrite p.region a bs }
  else (cellsFrom a bs).foldl (fun p c => regionSet p c.1 c.2) p

/-- Whether an LPDDR5X access of a region's range meets a fenced controller (R33, R455): controller of
512-byte unit k is k mod 16. -/
def State.lpFenced (s : State) (a n : Nat) : Bool :=
  s.units.any fun u => u.fenced && u.unit.toNat / 16 = 5 &&
    (List.range (min 16 (ceilDiv (a % 512 + n) 512))).any fun i => (a / 512 + i) % 16 = u.unit.toNat % 16

/-- Whether a partition's LPDDR5X access other than an LDR or LDW can be complete: within the last frame one of its owned slots had none of
those pending, and began at least `lat` cycles ago, 150 for a read and 100 for a write (R33, R452). How many bytes a slot moves is not
counted (log entry 88). -/
def State.lpServed (s : State) (p : PartId) (lat : Nat) : Bool :=
  s.fab.lpFree.any fun x => x.1 = p && decide (x.2 + lat ≤ s.now ∧ s.now < x.2 + lat + 1024)

/-- Whether an owned slot of a partition that goes to other accesses than LDR and LDW runs now (R452). -/
def State.lpNow (s : State) (p : PartId) : Bool :=
  s.fab.lpFree.any fun x => x.1 = p && decide (x.2 ≤ s.now ∧ s.now < x.2 + 32)

/-- Whether a confidential partition exists (R294). -/
def State.anyConfidential (s : State) : Bool := s.part.toList.any fun q => q.isThere && q.confidential

/-- The partition whose content an engine holds: the one that owns it, or the one that it is leaving (R293, R295). -/
def State.keeper (s : State) (e : EngId) : Option PartId := (s.holder e).orElse fun _ => s.eng[e].lastOf

/-- Whether a unit other than an engine is fenced (Table 08.17). -/
def State.unitFenced (s : State) (unit : Nat) : Bool := s.units.any fun u => u.unit.toNat = unit && u.fenced

/-! Jobs, schedules, contexts and windows by name. -/

/-- The job of a number. -/
def State.job? (s : State) (id : Nat) : Option Job := s.jobs.find? fun j => j.id = id

/-- The armed schedule of a handle. -/
def State.sched? (s : State) (h : Nat) : Option Schedule := s.scheds.find? fun c => c.handle = h

/-- The job that runs on an engine. -/
def State.running (s : State) (e : EngId) : Option Job :=
  match s.eng[e].seq.job with
  | none => none
  | some id => s.job? id

/-- The place of an engine among the engines of a job: its logical engine (R105). -/
def logicalOf (j : Job) (e : EngId) : Nat := j.engines.idxOf e

/-- The image that a job runs on an engine. -/
def imageOn (j : Job) (e : EngId) : Image := j.image.getD (logicalOf j e) {}

/-- The jobs that count on an engine, in admission order (R49, R50). -/
def State.queueOf (s : State) (e : EngId) : List Job := s.jobs.filter fun j => j.counting.contains e

/-- The context of a LINK. -/
def State.ctx? (s : State) (link : Half) : Option Ctx := s.fab.ctxs.find? fun c => c.link = link

/-- The context of a partition's CONTEXT number. -/
def State.ctxNum? (s : State) (p : PartId) (n : Nat) : Option Ctx :=
  s.fab.ctxs.find? fun c => c.part = p && c.num = n

/-- The granted window descriptor of a number. -/
def State.win? (s : State) (n : Nat) : Option Win := s.fab.wins.find? fun w => w.num = n && w.revoking.isNone

/-- The schedule of a partition whose trigger is pigeonhole `n` (R133). -/
def State.trigger? (s : State) (p : PartId) (n : Nat) : Option Schedule :=
  s.scheds.find? fun c => c.part = p && c.trigger = n && !c.disarming

/-- The policy of a job class on its home engine (Table 02.9). -/
def State.policy (s : State) (home : Option EngId) (cls : BitVec 4) : Word := match home with
  | none => 0
  | some e => s.eng[e].dlClass[cls.toFin]

/-! Pigeonholes (R252). -/

/-- The module-wide number of a partition's pigeonhole; none where the partition has no such pigeonhole. -/
def State.pghIndex (s : State) (p : PartId) (n : Nat) : Option Nat :=
  if n < s.part[p].pghCount then some (s.part[p].pghBase + n) else none

/-- The count of a pigeonhole by its module-wide number. -/
def State.pghAt (s : State) (g : Nat) : Nat := match assoc g s.fab.pgh with
  | none => 0
  | some v => v.toNat

/-- A pigeonhole's count set. -/
def State.pghSet (s : State) (g v : Nat) : State :=
  s.updFab fun b => { b with pgh := if v = 0 then assocDel g b.pgh else assocSet g (BitVec.ofNat 32 v) b.pgh }

/-- An addition in cycle `at'` to a pigeonhole that is no trigger: it holds at its greatest value (R252). -/
def State.pghAdd (s : State) (g n at' : Nat) : State :=
  let old := s.pghAt g
  let sum := old + n
  let v := min sum 0xFFFFFFFF
  let s := s.pghSet g v
  s.updFab fun b =>
    let fresh := if b.pghFreshAt = at' then b.pghFresh else []
    { b with
      pghFresh := assocSet g ((assoc g fresh).getD 0 + (v - old)) fresh
      pghFreshAt := at'
      pghSat := b.pghSat || decide (0xFFFFFFFF < sum)
      pghLast := if 0xFFFFFFFF < sum then BitVec.ofNat 16 g else b.pghLast }

/-- The count that a sequencer sees in this cycle: without what this cycle added (R125). -/
def State.pghSeen (s : State) (g : Nat) : Nat :=
  s.pghAt g - (if s.fab.pghFreshAt = s.now then (assoc g s.fab.pghFresh).getD 0 else 0)

/-! The twin (chapter 13). -/

/-- Whether this module is an active with a standby in step. -/
def State.hasStandby (s : State) : Bool := s.twin.role = .active && s.twin.peerInStep

/-- Whether this module is a standby in step (R312). -/
def State.isStandby (s : State) : Bool := s.twin.role = .inStep

/-- Whether the module mirrors a standby: in step or joining (R309, R310). -/
def State.forwards (s : State) : Bool := s.twin.role = .active && s.twin.twinPaired

/-- The cycles counted from the power-good that slots, periods and epochs follow: the module's own, or for a module that has
been in step the mirror of its active's (R311). -/
def State.frameTime (s : State) : Nat := ((s.now : Int) - s.twin.shift).toNat

/-- A twin record of a kind sent over T0 (R309): it takes the next RECORD_SEQ. -/
def State.twinSend (s : State) (kind : Nat) : State :=
  s.updTwin fun t => { t with txSeq := t.txSeq + 1, outbox := t.outbox ++ [(kind, t.txSeq)] }

/-- A record that an active forwards to its standby (R309). -/
def State.twinForward (s : State) (kind : Nat) : State := if s.forwards then s.twinSend kind else s

/-- ABORT sent for an envelope whose PREPARE has gone to the standby (R323): it awaits its ACK. -/
def State.forwardAbort (s : State) (p : PartId) (h : Half) : State :=
  if s.forwards then (s.updTwin fun t => { t with aborts := t.aborts ++ [(t.txSeq, p, h)] }).twinSend 5 else s

/-- Whether an ABORT of an envelope awaits its ACK (R323). -/
def State.abortOut (s : State) (p : PartId) (h : Half) : Bool :=
  s.hasStandby && s.twin.aborts.any fun (x : Dword × PartId × Half) => x.2.1 = p && x.2.2 = h

/-- A standby in step leaves step (R318): it sends STEP_LEFT and stays a standby that is out of step. -/
def State.leaveStep (s : State) : State :=
  if s.isStandby then
    (s.twinSend 12).updTwin fun t => { t with role := .outOfStep, event := setBit t.event 5 }
  else s

/-- The cycle in which the span of 8,192 cycles that runs now began, counted from power-good (Table 04.2). -/
def State.spanStart (s : State) : Nat := s.now - s.frameTime % 8192

/-! Free values and random draws. -/

/-- The next free number of the model. -/
def State.fresh (s : State) : Nat × State := (s.free, { s with free := s.free + 1 })

/-- `n` bytes of a random draw of the security block (R285). -/
def State.draw (s : State) (n : Nat) : List Byte × State :=
  ((List.range n).map (Config.randomByte s.sec.draws), s.updSec fun c => { c with draws := c.draws + 1 })

end Sys2Proof.Machine
end

