-- ==== Sys2Proof/Machine/Cycle.lean ====
section
/-! DEFINITION. The events of the cycle that runs, kept apart from those of earlier ones (R13): a W1C bit or an RC count `x` of a register
holds what the events of this cycle have brought, `xWas` what stood before it. A host's clear takes from what stood before alone, a read of
an RC field returns that alone, and as the postmark moves on the one joins the other. -/

namespace Sys2Proof.Machine

/-- The memory events of an engine as its cycle ends. -/
def MemHealth.hold (m : MemHealth) : MemHealth :=
  { m with
    storeCeWas := m.storeCeWas || m.storeCe, storeCe := false, storeUeWas := m.storeUeWas || m.storeUe, storeUe := false
    storeCeCountWas := bump 32 m.storeCeCountWas m.storeCeCount.toNat, storeCeCount := 0
    actCeWas := m.actCeWas || m.actCe, actCe := false, actUeWas := m.actUeWas || m.actUe, actUe := false
    actCeCountWas := bump 32 m.actCeCountWas m.actCeCount.toNat, actCeCount := 0
    collisionsWas := bump 32 m.collisionsWas m.collisions.toNat, collisions := 0 }

/-- The events of an engine as its cycle ends. -/
def Engine.hold (g : Engine) : Engine :=
  { g with
    dlMissWas := g.dlMissWas || g.dlMiss, dlMiss := false
    dlMissCountWas := bump 32 g.dlMissCountWas g.dlMissCount.toNat, dlMissCount := 0
    arithExcWas := g.arithExcWas ||| g.arithExc, arithExc := 0
    satCountWas := bump 32 g.satCountWas g.satCount.toNat, satCount := 0
    chkStatusWas := g.chkStatusWas ||| g.chkStatus, chkStatus := 0
    chkCountWas := bump 32 g.chkCountWas g.chkCount.toNat, chkCount := 0
    digests := { g.digests with mismatchWas := g.digests.mismatchWas || g.digests.mismatch, mismatch := false }
    mem := g.mem.hold }

/-- The events of a port as its cycle ends. -/
def Port.hold (q : Port) : Port :=
  { q with
    fecCorrWas := bump 32 q.fecCorrWas q.fecCorr.toNat, fecCorr := 0
    fecUncorrWas := bump 32 q.fecUncorrWas q.fecUncorr.toNat, fecUncorr := 0
    dropCrcWas := bump 8 q.dropCrcWas q.dropCrc.toNat, dropCrc := 0
    dropAuthWas := bump 8 q.dropAuthWas q.dropAuth.toNat, dropAuth := 0
    dropReplayWas := bump 8 q.dropReplayWas q.dropReplay.toNat, dropReplay := 0
    dropOverrunWas := bump 8 q.dropOverrunWas q.dropOverrun.toNat, dropOverrun := 0
    refusalDropsWas := bump 32 q.refusalDropsWas q.refusalDrops.toNat, refusalDrops := 0 }

/-- The events of the fabric block as its cycle ends. -/
def Fabric.hold (b : Fabric) : Fabric :=
  { b with
    pghSatWas := b.pghSatWas || b.pghSat, pghSat := false
    ports := b.ports.map Port.hold
    dlq := b.dlq.map fun d => { d with dropsWas := bump 16 d.dropsWas d.drops.toNat, drops := 0 } }

/-- The events of a KV pool as its cycle ends. -/
def KvPool.hold (k : KvPool) : KvPool :=
  { k with
    eventWas := k.eventWas ||| k.event, event := 0
    fullCountWas := bump 32 k.fullCountWas k.fullCount.toNat, fullCount := 0 }

/-- The events of the host port as its cycle ends. -/
def HostPort.hold (h : HostPort) : HostPort :=
  { h with
    errWas := h.errWas ||| h.err, err := 0
    bulk := h.bulk.map fun b => { b with dropsWas := bump 14 b.dropsWas b.drops.toNat, drops := 0 } }

/-- The events of the power block as its cycle ends. -/
def Power.hold (p : Power) : Power :=
  { p with
    eventWas := p.eventWas ||| p.event, event := 0, refLostWas := p.refLostWas || p.refLost, refLost := false
    thmEventWas := p.thmEventWas ||| p.thmEvent, thmEvent := 0 }

/-- The events of the cycle that ends, with those before it. -/
def State.hold (s : State) : State :=
  { s with
    eng := s.eng.map Engine.hold, fab := s.fab.hold, host := s.host.hold, pwr := s.pwr.hold
    part := s.part.map fun q => { q with kv := q.kv.hold }
    env := { s.env with
      eventWas := s.env.eventWas ||| s.env.event, event := 0
      abortCountWas := bump 32 s.env.abortCountWas s.env.abortCount.toNat, abortCount := 0 }
    cvu := { s.cvu with eventWas := s.cvu.eventWas ||| s.cvu.event, event := 0 }
    vid := { s.vid with
      eventWas := s.vid.eventWas ||| s.vid.event, event := 0
      damagedCountWas := bump 32 s.vid.damagedCountWas s.vid.damagedCount.toNat, damagedCount := 0 }
    sec := { s.sec with eventWas := s.sec.eventWas ||| s.sec.event, event := 0 }
    bist := { s.bist with
      failedWas := s.bist.failedWas || s.bist.failed, failed := false
      skippedWas := bump 32 s.bist.skippedWas s.bist.skipped.toNat, skipped := 0 }
    twin := { s.twin with eventWas := s.twin.eventWas ||| s.twin.event, event := 0 } }

/-- The postmark moved on to `n`: the cycle before is over. -/
def State.moveTo (s : State) (n : Nat) : State := if s.now < n then { s.hold with now := n } else s

end Sys2Proof.Machine
end

