-- ==== Sys2Proof/Machine/Cipher.lean ====
section
/-! DEFINITION. AES-256 as the manual uses it: GCM for packets and sealed items, CMAC for sample frames (R242, R287, R289-R291, R351). The
manual names the ciphers alone; what they compute is taken from FIPS 197, SP 800-38B and SP 800-38D (log entry 84). -/

namespace Sys2Proof.Machine

/-! The cipher. -/

/-- Twice a byte in the field of AES. -/
def twice (b : Byte) : Byte := if b.msb then (b <<< 1) ^^^ 0x1B else b <<< 1

/-- The product of two bytes in the field of AES; `n` bits of the second are left. -/
def byteMul : Nat → Byte → Byte → Byte
  | 0, _, _ => 0
  | n + 1, a, b => (if b.getLsbD 0 then a else 0) ^^^ byteMul n (twice a) (b >>> 1)

/-- The 254th power of a byte: its inverse, 0 for 0. -/
def byteInv (b : Byte) : Byte :=
  let sq := fun (r : Byte) => byteMul 8 r r
  sq ((List.range 6).foldl (fun r _ => byteMul 8 (sq r) b) b)

/-- The byte substitution. -/
def subByte (b : Byte) : Byte :=
  let i := byteInv b
  (List.range 5).foldl (fun r k => r ^^^ i.rotateLeft k) 0x63

/-- The substitution of every byte, in order. -/
def subTable : List Byte := (List.range 256).map fun i => subByte (BitVec.ofNat 8 i)

/-- The substitution of a byte, from the table. -/
def subbed (b : Byte) : Byte := subTable.getD b.toNat 0

/-- The XOR of two runs of bytes, as long as the shorter. -/
def xorBytes (a b : List Byte) : List Byte := List.zipWith (· ^^^ ·) a b

/-- The `n` words of an expanded key from number `i` on; `back` are the words before them, newest first, and `rc` the round constant. -/
def keyWords : Nat → Nat → Byte → List (List Byte) → List (List Byte)
  | 0, _, _, _ => []
  | n + 1, i, rc, back =>
    let prev := back.headD []
    let t := if i % 8 = 0 then match (prev.drop 1 ++ prev.take 1).map subbed with
        | [] => []
        | b :: bs => (b ^^^ rc) :: bs
      else if i % 8 = 4 then prev.map subbed else prev
    let w := xorBytes (back.getD 7 []) t
    w :: keyWords n (i + 1) (if i % 8 = 0 then twice rc else rc) (w :: back)

/-- Bytes in groups of `k`, `n` groups. -/
def groupsOf (k : Nat) : Nat → List Byte → List (List Byte)
  | 0, _ => []
  | n + 1, bs => bs.take k :: groupsOf k n (bs.drop k)

/-- The fifteen round keys of a 32-byte key. -/
def roundKeys (key : List Byte) : List (List Byte) :=
  let ws := groupsOf 4 8 (padTo 32 key)
  groupsOf 16 15 (ws ++ keyWords 52 8 1 ws.reverse).flatten

/-- The rows of a block shifted: byte 4c + r comes from column c + r. -/
def shiftRows (bs : List Byte) : List Byte := (List.range 16).map fun i => byteAt bs (i % 4 + 4 * ((i / 4 + i % 4) % 4))

/-- The columns of a block mixed. -/
def mixColumns (bs : List Byte) : List Byte :=
  (List.range 16).map fun i =>
    let at' := fun (k : Nat) => byteAt bs (i / 4 * 4 + (i + k) % 4)
    twice (at' 0) ^^^ twice (at' 1) ^^^ at' 1 ^^^ at' 2 ^^^ at' 3

/-- A block through the rounds of the keys given; the last mixes no columns. -/
def cipherRounds : List (List Byte) → List Byte → List Byte
  | [], bs => bs
  | [k], bs => xorBytes (shiftRows (bs.map subbed)) k
  | k :: ks, bs => cipherRounds ks (xorBytes (mixColumns (shiftRows (bs.map subbed))) k)

/-- A block enciphered under the round keys of AES-256. -/
def cipherBlock (ks : List (List Byte)) (bs : List Byte) : List Byte := cipherRounds (ks.drop 1) (xorBytes bs (ks.headD []))

/-! Galois/counter mode. -/

/-- The number that bytes hold, the highest first. -/
def beNat (bs : List Byte) : Nat := bs.foldl (fun v b => 256 * v + b.toNat) 0

/-- The `n` big-endian bytes of a number. -/
def natBe (v n : Nat) : List Byte := (natLe v n).reverse

/-- The product of two blocks in the field of GHASH; bit `n` - 1 of the first is the next one looked at. -/
def blockMul : Nat → Nat → Nat → Nat
  | 0, _, _ => 0
  | n + 1, x, y =>
    (if x.testBit n then y else 0) ^^^ blockMul n x (if y % 2 = 1 then (y / 2) ^^^ (0xE1 * 2 ^ 120) else y / 2)

/-- GHASH under the subkey `h` over whole blocks. -/
def ghash (h : Nat) (bs : List Byte) : Nat :=
  (groupsOf 16 (bs.length / 16) bs).foldl (fun v b => blockMul 128 (v ^^^ beNat b) h) 0

/-- Bytes filled with zeros to whole blocks. -/
def padBlocks (bs : List Byte) : List Byte := padTo (16 * ceilDiv bs.length 16) bs

/-- Bytes combined with the key stream that follows counter 1 of a nonce. -/
def counterMode (ks : List (List Byte)) (nonce bs : List Byte) : List Byte :=
  xorBytes bs ((List.range (ceilDiv bs.length 16)).flatMap fun i => cipherBlock ks (nonce ++ natBe (i + 2) 4))

/-- The tag of a ciphertext with its additional data. -/
def gcmTagOf (ks : List (List Byte)) (nonce aad ct : List Byte) : List Byte :=
  let h := beNat (cipherBlock ks (List.replicate 16 0))
  let s := ghash h (padBlocks aad ++ padBlocks ct ++ natBe (8 * aad.length) 8 ++ natBe (8 * ct.length) 8)
  xorBytes (natBe s 16) (cipherBlock ks (nonce ++ [0, 0, 0, 1]))

/-- The ciphertext and the 16 tag bytes of a plaintext, under a 32-byte key and a 12-byte nonce. -/
def gcmSeal (key nonce aad plain : List Byte) : List Byte × List Byte :=
  let ks := roundKeys key
  let ct := counterMode ks nonce plain
  (ct, gcmTagOf ks nonce aad ct)

/-- The plaintext of a ciphertext whose tag verifies. -/
def gcmOpen (key nonce aad ct tag : List Byte) : Option (List Byte) :=
  let ks := roundKeys key
  if gcmTagOf ks nonce aad ct = tag then some (counterMode ks nonce ct) else none

/-! The message authentication code. -/

/-- Twice a block in the field of CMAC. -/
def blockTwice (v : Nat) : Nat := if v.testBit 127 then (2 * v) % 2 ^ 128 ^^^ 0x87 else 2 * v

/-- AES-256-CMAC of a message. -/
def cmac (key msg : List Byte) : List Byte :=
  let ks := roundKeys key
  let k1 := blockTwice (beNat (cipherBlock ks (List.replicate 16 0)))
  let n := (msg.length - 1) / 16
  let rest := msg.drop (16 * n)
  let last := if rest.length = 16 then beNat rest ^^^ k1 else beNat (padTo 16 (rest ++ [0x80])) ^^^ blockTwice k1
  let v := (groupsOf 16 n msg).foldl (fun v b => cipherBlock ks (xorBytes v b)) (List.replicate 16 0)
  cipherBlock ks (xorBytes v (natBe last 16))

end Sys2Proof.Machine
end

