-- ==== Sys2Proof/Machine/Float.lean ====
section
/-! DEFINITION. Number formats, rounding and lane arithmetic (R59, R62, R74, R76-R80, Tables 03.3, 03.6, 05.9). -/

namespace Sys2Proof.Machine

/-- An exact number: sign, magnitude and power of two; or an infinity; or NaN. -/
inductive Num where
  | fin (neg : Bool) (mag : Nat) (exp : Int)
  | inf (neg : Bool)
  | nan
  deriving DecidableEq, Repr

/-- How a floating-point format encodes specials (Table 03.3): IEEE; NaN only at S.1111.111; none. -/
inductive Specials where
  | ieee | nanOnly | none
  deriving DecidableEq, Repr

/-- A floating-point layout (Table 03.3). -/
structure FFmt where
  ebits : Nat
  mbits : Nat
  bias : Nat
  specials : Specials
  deriving DecidableEq, Repr

/-- FP32 (Table 03.3). -/
def fp32 : FFmt := ⟨8, 23, 127, .ieee⟩
/-- BF16 (Table 03.3). -/
def bf16 : FFmt := ⟨8, 7, 127, .ieee⟩
/-- FP16 (Table 03.3). -/
def fp16 : FFmt := ⟨5, 10, 15, .ieee⟩
/-- FP8 E4M3 (Table 03.3). -/
def e4m3 : FFmt := ⟨4, 3, 7, .nanOnly⟩
/-- FP8 E5M2 (Table 03.3). -/
def e5m2 : FFmt := ⟨5, 2, 15, .ieee⟩
/-- FP6 E3M2 (Table 03.3). -/
def e3m2 : FFmt := ⟨3, 2, 3, .none⟩
/-- FP6 E2M3 (Table 03.3). -/
def e2m3 : FFmt := ⟨2, 3, 1, .none⟩
/-- FP4 E2M1 (Table 03.3). -/
def e2m1 : FFmt := ⟨2, 1, 1, .none⟩

/-- What a lane gives: its code, the flags of ENG_ARITH_EXC it sets (Table 03.7), elements saturated. -/
structure LaneOut where
  code : Nat
  flags : BitVec 8 := 0
  sats : Nat := 0
  deriving DecidableEq, Repr

/-- MX_OVERFLOW (Table 03.7). -/
def fMxOverflow : BitVec 8 := 1
/-- MX_UNDERFLOW. -/
def fMxUnderflow : BitVec 8 := 2
/-- MX_NAN. -/
def fMxNan : BitVec 8 := 4
/-- V_INVALID. -/
def fInvalid : BitVec 8 := 8
/-- V_OVERFLOW. -/
def fOverflow : BitVec 8 := 16
/-- V_UNDERFLOW. -/
def fUnderflow : BitVec 8 := 32
/-- V_DIVZERO. -/
def fDivzero : BitVec 8 := 64
/-- SATURATED. -/
def fSaturated : BitVec 8 := 128

/-- The number of bits of a magnitude. -/
def bitLen (m : Nat) : Nat := if m = 0 then 0 else m.log2 + 1

/-- `m / 2^k` rounded under mode `rm` (Table 05.13) for a value of the sign given, and whether it was inexact. -/
def roundShift (rm : Nat) (neg : Bool) (m k : Nat) : Nat × Bool :=
  let q := m / 2 ^ k
  let r := m % 2 ^ k
  let up : Bool := match rm with
    | 0 => 2 ^ k < 2 * r || (2 ^ k == 2 * r && q % 2 == 1)
    | 1 => false
    | 2 => !neg && r ≠ 0
    | _ => neg && r ≠ 0
  (if up then q + 1 else q, r ≠ 0)

/-- `m * 2^e` as a multiple of `2^q`, rounded. -/
def roundAt (rm : Nat) (neg : Bool) (m : Nat) (e q : Int) : Nat × Bool :=
  if q ≤ e then (m * 2 ^ (e - q).toNat, false) else roundShift rm neg m (q - e).toNat

/-- The sign bit of a format as a number. -/
def signBit (f : FFmt) (neg : Bool) : Nat := if neg then 2 ^ (f.ebits + f.mbits) else 0

/-- The code of the largest finite magnitude (Table 03.3). -/
def maxFinite (f : FFmt) : Nat := match f.specials with
  | .ieee => (2 ^ f.ebits - 1) * 2 ^ f.mbits - 1
  | .nanOnly => 2 ^ (f.ebits + f.mbits) - 2
  | .none => 2 ^ (f.ebits + f.mbits) - 1

/-- The code of NaN (R74). -/
def nanCode (f : FFmt) : Nat := match f.specials with
  | .ieee => (2 ^ f.ebits - 1) * 2 ^ f.mbits + 2 ^ (f.mbits - 1)
  | .nanOnly => 2 ^ (f.ebits + f.mbits) - 1
  | .none => 0

/-- The code of an infinity of an IEEE format. -/
def infCode (f : FFmt) (neg : Bool) : Nat := signBit f neg + (2 ^ f.ebits - 1) * 2 ^ f.mbits

/-- The number that a code stands for (Table 03.3). -/
def decodeFlt (f : FFmt) (code : Nat) : Num :=
  let m := code % 2 ^ f.mbits
  let e := code / 2 ^ f.mbits % 2 ^ f.ebits
  let neg := code / 2 ^ (f.mbits + f.ebits) % 2 == 1
  let value := if e = 0 then Num.fin neg m (1 - f.bias - f.mbits)
    else Num.fin neg (2 ^ f.mbits + m) (e - f.bias - f.mbits)
  match f.specials with
  | .ieee => if e = 2 ^ f.ebits - 1 then (if m = 0 then .inf neg else .nan) else value
  | .nanOnly => if e = 2 ^ f.ebits - 1 ∧ m = 2 ^ f.mbits - 1 then .nan else value
  | .none => value

/-- A finite magnitude in a format, before overflow is looked at: its code without the sign, and whether it
is tiny after rounding and inexact (R74). -/
def magCode (f : FFmt) (rm : Nat) (neg : Bool) (m : Nat) (e : Int) : Nat × Bool :=
  if m = 0 then (0, false) else
  let top : Int := e + bitLen m - 1
  let emin : Int := 1 - f.bias
  let qn : Int := top - f.mbits
  let q : Int := if qn < emin - f.mbits then emin - f.mbits else qn
  let ru := roundAt rm neg m e qn
  let r := roundAt rm neg m e q
  let tiny := top < emin && !(top + 1 == emin && ru.1 == 2 ^ (f.mbits + 1))
  ((q - (emin - f.mbits)).toNat * 2 ^ f.mbits + r.1, tiny && r.2)

/-- Whether an overflow under the mode goes to the infinity of the value's sign (R76). -/
def overflowToInf (rm : Nat) (neg : Bool) : Bool := rm == 0 || (rm == 2 && !neg) || (rm == 3 && neg)

/-- A number converted to a floating-point format (R74, R76). -/
def encodeFlt (f : FFmt) (rm : Nat) (sat : Bool) (x : Num) : LaneOut :=
  match x with
  | .nan => { code := nanCode f }
  | .inf neg => match f.specials with
    | .ieee => { code := infCode f neg }
    | .nanOnly => if sat then { code := signBit f neg + maxFinite f, flags := fSaturated, sats := 1 }
        else { code := nanCode f, flags := fInvalid }
    | .none => { code := signBit f neg + maxFinite f, flags := fSaturated, sats := 1 }
  | .fin neg m e =>
    let (c, under) := magCode f rm neg m e
    if maxFinite f < c then
      if sat ∨ f.specials = .none then
        { code := signBit f neg + maxFinite f, flags := fSaturated, sats := 1 }
      else if overflowToInf rm neg then
        { code := if f.specials = .nanOnly then nanCode f else infCode f neg, flags := fOverflow }
      else { code := signBit f neg + maxFinite f, flags := fOverflow }
    else { code := signBit f neg + c, flags := if under then fUnderflow else 0 }

/-- An integer saturated to a range. -/
def satInt (lo hi i : Int) : Int × Bool :=
  if i < lo then (lo, true) else if hi < i then (hi, true) else (i, false)

/-- A number converted to an integer format of `w` bits and the range given, `2^frac` codes to the unit: it
always saturates, and NaN converts to 0 (R76, R62). -/
def encodeInt (w : Nat) (lo hi : Int) (frac : Int) (rm : Nat) (x : Num) : LaneOut :=
  match x with
  | .nan => { code := 0, flags := fInvalid }
  | .inf neg => { code := wrapInt w (if neg then lo else hi), flags := fSaturated, sats := 1 }
  | .fin neg m e =>
    let r := (roundAt rm neg m (e + frac) 0).1
    let (v, s) := satInt lo hi (if neg then -(r : Int) else r)
    if s then { code := wrapInt w v, flags := fSaturated, sats := 1 } else { code := wrapInt w v }

/-- An integer as an exact number. -/
def numOfInt (i : Int) (e : Int := 0) : Num := .fin (i < 0) i.natAbs e

/-- The element formats that the codes of Table 05.9 use. -/
inductive Elem where
  | int (w : Nat) (signed : Bool) (frac : Nat)
  | flt (f : FFmt)
  deriving DecidableEq, Repr

/-- The element format of a format code (Table 05.9). -/
def elemOf (c : Nat) : Elem := match c with
  | 0 => .int 8 true 0
  | 1 => .int 8 false 0
  | 2 | 4 => .flt e4m3
  | 3 | 5 => .flt e5m2
  | 6 => .flt e3m2
  | 7 => .flt e2m3
  | 8 => .int 8 true 6
  | 9 => .flt e2m1
  | 10 | 16 => .int 4 true 0
  | 11 => .flt bf16
  | 12 => .flt fp16
  | 13 => .flt fp32
  | 14 => .int 32 true 0
  | _ => .int 16 true 0

/-- Whether a format carries E8M0 block scales (Table 05.9). -/
def isBlockFmt (c : Nat) : Bool := 4 ≤ c && c ≤ 10

/-- The bits of an element of a format. -/
def widthOf (c : Nat) : Nat := match elemOf c with
  | .int w _ _ => w
  | .flt f => 1 + f.ebits + f.mbits

/-- The number that an element code stands for, its block scale aside. -/
def numOf (c code : Nat) : Num := match elemOf c with
  | .int w true fr => numOfInt (sgn w code) (-(fr : Int))
  | .int w false fr => numOfInt (code % 2 ^ w : Nat) (-(fr : Int))
  | .flt f => decodeFlt f code

/-- A number converted to an element of a format (R76). MXINT8 keeps off code 0x80 (R62). An INT4B element that rounds to -8 keeps that code:
Table 03.3 gives the format -8 to 7 (log entry 79). -/
def codeOf (c rm : Nat) (sat : Bool) (x : Num) : LaneOut := match elemOf c with
  | .int w true 0 => encodeInt w (-(2 ^ (w - 1) : Int)) (2 ^ (w - 1) - 1) 0 rm x
  | .int w true fr => encodeInt w (-(2 ^ (w - 1) - 1 : Int)) (2 ^ (w - 1) - 1) fr rm x
  | .int w false fr => encodeInt w 0 (2 ^ w - 1) fr rm x
  | .flt f => encodeFlt f rm sat x

/-- Whether a code of a format holds its largest finite magnitude (R198, Table 03.3). -/
def largest (c code : Nat) : Bool := match elemOf c with
  | .int w signed _ => code % 2 ^ w = if signed then 2 ^ (w - 1) else 2 ^ w - 1
  | .flt f => code % 2 ^ (f.ebits + f.mbits) = maxFinite f

/-- A number times a power of two. -/
def scaleNum (x : Num) (k : Int) : Num := match x with
  | .fin n m e => .fin n m (e + k)
  | y => y

/-- The negation of a number. -/
def negNum : Num → Num
  | .fin n m e => .fin (!n) m e
  | .inf n => .inf (!n)
  | .nan => .nan

/-- The exact product of two numbers under IEEE rules. -/
def mulNum : Num → Num → Num
  | .nan, _ => .nan
  | _, .nan => .nan
  | .inf a, .inf b => .inf (a ^^ b)
  | .inf a, .fin b m _ => if m = 0 then .nan else .inf (a ^^ b)
  | .fin a m _, .inf b => if m = 0 then .nan else .inf (a ^^ b)
  | .fin a m e, .fin b n f => .fin (a ^^ b) (m * n) (e + f)

/-- The exact sum of two numbers; an exact zero takes the sign that the mode gives (IEEE 754). -/
def addNum (rm : Nat) : Num → Num → Num
  | .nan, _ => .nan
  | _, .nan => .nan
  | .inf a, .inf b => if a = b then .inf a else .nan
  | .inf a, .fin _ _ _ => .inf a
  | .fin _ _ _, .inf b => .inf b
  | .fin a m e, .fin b n f =>
    let q := if e ≤ f then e else f
    let x : Int := m * 2 ^ (e - q).toNat
    let y : Int := n * 2 ^ (f - q).toNat
    let s := (if a then -x else x) + (if b then -y else y)
    if s = 0 then .fin (if m = 0 ∧ n = 0 ∧ a = b then a else rm == 3) 0 q
    else .fin (s < 0) s.natAbs q

/-- Whether a number is NaN. -/
def Num.isNan : Num → Bool
  | .nan => true
  | _ => false

/-- An FP32 result of an operation on inputs, V_INVALID where it makes NaN from non-NaN inputs (Table 03.7). -/
def fpResult (rm : Nat) (ins : List Num) (r : Num) : LaneOut :=
  let o := encodeFlt fp32 rm false r
  if r.isNan && !(ins.any Num.isNan) then { o with flags := o.flags ||| fInvalid } else o

/-- FP32 addition (R74). -/
def fpAdd (rm : Nat) (a b : Nat) : LaneOut :=
  let x := decodeFlt fp32 a
  let y := decodeFlt fp32 b
  fpResult rm [x, y] (addNum rm x y)

/-- FP32 subtraction (R74). -/
def fpSub (rm : Nat) (a b : Nat) : LaneOut :=
  let x := decodeFlt fp32 a
  let y := decodeFlt fp32 b
  fpResult rm [x, y] (addNum rm x (negNum y))

/-- FP32 multiplication (R74). -/
def fpMul (rm : Nat) (a b : Nat) : LaneOut :=
  let x := decodeFlt fp32 a
  let y := decodeFlt fp32 b
  fpResult rm [x, y] (mulNum x y)

/-- FP32 fused multiply-add, rounded once (R74). -/
def fpFma (rm : Nat) (a b d : Nat) : LaneOut :=
  let x := decodeFlt fp32 a
  let y := decodeFlt fp32 b
  let z := decodeFlt fp32 d
  fpResult rm [x, y, z] (addNum rm (mulNum x y) z)

/-- The order of non-NaN FP32 codes, -0.0 below +0.0 (R78). -/
def fpKey (a : Nat) : Int := if a / 2 ^ 31 % 2 = 1 then -1 - ((a % 2 ^ 31 : Nat) : Int) else a

/-- Whether an FP32 code is NaN. -/
def fpIsNan (a : Nat) : Bool := (decodeFlt fp32 a).isNan

/-- FP32 maximum (R78). -/
def fpMax (a b : Nat) : Nat :=
  if fpIsNan a || fpIsNan b then nanCode fp32 else if fpKey a < fpKey b then b else a

/-- FP32 minimum (R78). -/
def fpMin (a b : Nat) : Nat :=
  if fpIsNan a || fpIsNan b then nanCode fp32 else if fpKey b < fpKey a then b else a

/-- One level of the fixed tree of R78: adjacent pairs combined, an odd last element carried up. -/
def treeLevel {α : Type} (f : α → α → α) : List α → List α
  | a :: b :: l => f a b :: treeLevel f l
  | l => l

/-- The fixed tree of R78, `n` bounding its levels. -/
def treeReduce {α : Type} (f : α → α → α) : Nat → List α → List α
  | 0, l => l
  | n + 1, l => treeReduce f n (treeLevel f l)

/-! The special functions (R79). -/

/-- Fractional bits of the approximations that bound the special functions. -/
def fxBits : Nat := 160

/-- `n` square roots of 2, each of the one before, with `fxBits` fractional bits, rounded down. -/
def sqrtChain : Nat → Nat → List Nat
  | 0, _ => []
  | n + 1, c =>
    let r := Nat.sqrt (c * 2 ^ fxBits)
    r :: sqrtChain n r

/-- 2^f for the fraction of `n` bits `f`, most significant first, with `fxBits` fractional bits. -/
def exp2Frac (f n : Nat) : Nat :=
  ((sqrtChain n (2 * 2 ^ fxBits)).zipIdx).foldl
    (fun acc (c, i) => if f / 2 ^ (n - 1 - i) % 2 = 1 then acc * c / 2 ^ fxBits else acc) (2 ^ fxBits)

/-- `n` bits of the fraction of log2 of `x`, where `x` has `fxBits` fractional bits and lies in [1, 2). -/
def log2Bits : Nat → Nat → Nat → Nat
  | 0, _, acc => acc
  | n + 1, x, acc =>
    let y := x * x / 2 ^ fxBits
    if 2 * 2 ^ fxBits ≤ y then log2Bits n (y / 2) (2 * acc + 1) else log2Bits n y (2 * acc)

/-- 2^x for a finite `x = ± m * 2^e`, to far more places than FP32 holds; magnitudes below 2^-96 count as 0,
and exponents at or beyond 2^20 as 2^20. -/
def exp2Approx (neg : Bool) (m : Nat) (e : Int) : Num :=
  let fx : Int := (if 20 < e + bitLen m then (2 ^ 20 * 2 ^ 96 : Nat) else (roundAt 1 false m e (-96)).1)
  let v : Int := if neg then -fx else fx
  let n := v / 2 ^ 96
  let f := (v - n * 2 ^ 96).toNat
  .fin false (exp2Frac f 96) (n - fxBits)

/-- log2 of the positive `m * 2^e`, to far more places than FP32 holds. -/
def log2Approx (m : Nat) (e : Int) : Num :=
  let top := m.log2
  let x := m * 2 ^ fxBits / 2 ^ top
  let v : Int := (e + top) * 2 ^ 128 + log2Bits 128 x 0
  .fin (v < 0) v.natAbs (-128)

/-- The difference of two finite numbers as a magnitude. -/
def distNum (a b : Num) : Option (Nat × Int) := match addNum 0 a (negNum b) with
  | .fin _ m e => some (m, e)
  | _ => none

/-- Whether `m * 2^e ≤ n * 2^f`. -/
def magLe (m : Nat) (e : Int) (n : Nat) (f : Int) : Bool :=
  let q := if e ≤ f then e else f
  m * 2 ^ (e - q).toNat ≤ n * 2 ^ (f - q).toNat

/-- The weight of the last place of a finite FP32 code, as an exponent. -/
def ulpExp (c : Nat) : Int := match decodeFlt fp32 c with
  | .fin _ _ e => e
  | _ => 0

/-- Whether the finite FP32 code `c` lies within `n * 2^q` of `x`. -/
def within (c : Nat) (x : Num) (n : Nat) (q : Int) : Bool :=
  match distNum (decodeFlt fp32 c) x with
  | some (m, e) => magLe m e n q
  | none => false

/-- A free FP32 value where it keeps the bound, else the nearest value to the function's, with the flags of
the value that the function has. -/
def boundedFree (free : Word) (x : Num) (ok : Nat → Bool) : LaneOut :=
  let near := encodeFlt fp32 0 false x
  if near.flags &&& fOverflow ≠ 0 then near
  else { code := if ok free.toNat then free.toNat else near.code, flags := near.flags }

/-- VEXP2 (Table 03.6). At -2^62 and below the result is +0 (R169, log entry 30). -/
def fpExp2 (a : Nat) : LaneOut := match decodeFlt fp32 a with
  | .nan => { code := nanCode fp32 }
  | .inf neg => { code := if neg then 0 else infCode fp32 false }
  | .fin neg m e =>
    if neg && magLe 1 62 m e then { code := 0, flags := fUnderflow }
    else if !neg && magLe 128 0 m e then { code := infCode fp32 false, flags := fOverflow }
    else
      let x := exp2Approx neg m e
      boundedFree (Config.vexp2 (BitVec.ofNat 32 a)) x (fun c => within c x 2 (ulpExp c))

/-- VLOG2 (Table 03.6). -/
def fpLog2 (a : Nat) : LaneOut := match decodeFlt fp32 a with
  | .nan => { code := nanCode fp32 }
  | .inf neg => if neg then { code := nanCode fp32, flags := fInvalid } else { code := infCode fp32 false }
  | .fin neg m e =>
    if m = 0 then { code := infCode fp32 true, flags := fDivzero }
    else if neg then { code := nanCode fp32, flags := fInvalid }
    else
      let x := log2Approx m e
      let inside := magLe 1 (-1) m e && magLe m e 2 0
      boundedFree (Config.vlog2 (BitVec.ofNat 32 a)) x
        (fun c => if inside then within c x 1 (-22) else within c x 2 (ulpExp c))

/-- 1 / (m * 2^e) to 160 significant bits. -/
def recipApprox (neg : Bool) (m : Nat) (e : Int) : Num :=
  let k := bitLen m + 160
  .fin neg (2 ^ k / m) (-e - k)

/-- VRCP (Table 03.6). -/
def fpRcp (a : Nat) : LaneOut := match decodeFlt fp32 a with
  | .nan => { code := nanCode fp32 }
  | .inf neg => { code := signBit fp32 neg }
  | .fin neg m e =>
    if m = 0 then { code := infCode fp32 neg, flags := fDivzero }
    else
      let x := recipApprox neg m e
      boundedFree (Config.vrcp (BitVec.ofNat 32 a)) x (fun c => within c x 1 (ulpExp c))

/-- 1 / sqrt (m * 2^e) to 160 places. -/
def rsqrtApprox (m : Nat) (e : Int) : Num :=
  -- m * 2^e = (m * 2^(e mod 2)) * 4^h
  let h := e / 2
  let m2 := if e % 2 = 0 then m else 2 * m
  let k := bitLen m2 + 160
  .fin false (Nat.sqrt (4 ^ k / m2)) (-h - k)

/-- VRSQRT (Table 03.6). The table gives no result for -0: a free value (log entry 31). -/
def fpRsqrt (a : Nat) : LaneOut := match decodeFlt fp32 a with
  | .nan => { code := nanCode fp32 }
  | .inf neg => if neg then { code := nanCode fp32, flags := fInvalid } else { code := 0 }
  | .fin neg m e =>
    if m = 0 then
      if neg then
        let free := (Config.vrsqrt (BitVec.ofNat 32 a)).toNat
        if fpIsNan free then { code := nanCode fp32, flags := fDivzero ||| fInvalid }
        else { code := free, flags := fDivzero }
      else { code := infCode fp32 false, flags := fDivzero }
    else if neg then { code := nanCode fp32, flags := fInvalid }
    else
      let x := rsqrtApprox m e
      boundedFree (Config.vrsqrt (BitVec.ofNat 32 a)) x (fun c => within c x 2 (ulpExp c))

/-! Integer lanes (R80). -/

/-- An exact integer result in 32 bits: saturated where `sat`, else wrapped. -/
def intResult (sat : Bool) (i : Int) : LaneOut :=
  if sat then
    let (v, s) := satInt (-(2 ^ 31)) (2 ^ 31 - 1) i
    { code := wrapInt 32 v, flags := if s then fSaturated else 0, sats := if s then 1 else 0 }
  else { code := wrapInt 32 i }

end Sys2Proof.Machine
end

