-- ==== Sys2Proof/Machine/Matrix.lean ====
section
/-! DEFINITION. The matrix unit: tile images, products, chains, emission and the checksum column
(R54-R72, R87, R88, R182-R186). -/

namespace Sys2Proof.Machine

/-- The chain class of a weight and activation format, where Table 03.4 has the pair (R55, R63). -/
def pairClass (w a : Nat) : Option ChainClass :=
  let mx8 := fun c => decide (4 ≤ c ∧ c ≤ 8)
  let four := fun c => decide (c = 9 ∨ c = 10)
  if w = 0 ∧ a ≤ 1 then some .int
  else if (w = 2 ∨ w = 3) ∧ (a = 2 ∨ a = 3) then some .fp8
  else if (mx8 w ∨ four w) ∧ mx8 a ∨ four w ∧ four a then some .block
  else if w = 11 ∧ a = 11 ∨ w = 12 ∧ a = 12 then some .half
  else none

/-- The greatest K of a tile that a pair of formats takes (Table 03.4, R156): 768 for two 4-bit formats, else 384. -/
def pairK (w a : Nat) : Nat := if (w = 9 ∨ w = 10) ∧ (a = 9 ∨ a = 10) then 768 else 384

/-- The depth of an operand class in cycles (Table 03.2). -/
def classDepth : ChainClass → Nat
  | .int => 12
  | .fp8 => 12
  | .block => 14
  | .half => 18

/-- The issue interval of an operand class (Table 03.2). -/
def classInterval : ChainClass → Nat
  | .half => 2
  | _ => 1

/-- The bytes that `n` packed elements of width `w` take (R60). -/
def packedBytes (w n : Nat) : Nat :=
  if w = 4 then (n + 1) / 2 else if w = 6 then 3 * ((n + 3) / 4) else n * (w / 8)

/-- The code of element `i` of a packed run whose bytes are `b` (R60). -/
def packedCode (b : Nat → Nat) (w i : Nat) : Nat :=
  if w = 4 then b (i / 2) / 2 ^ (4 * (i % 2)) % 16
  else if w = 6 then
    let g := 3 * (i / 4)
    (b g + 256 * b (g + 1) + 65536 * b (g + 2)) / 2 ^ (6 * (i % 4)) % 64
  else if w = 8 then b i
  else if w = 16 then b (2 * i) + 256 * b (2 * i + 1)
  else b (4 * i) + 256 * b (4 * i + 1) + 65536 * b (4 * i + 2) + 16777216 * b (4 * i + 3)

/-- The element bytes of a tile (Table 04.3). K_t is taken up to a whole packing group, which the table's division leaves open for other
K_t (log entry 81). -/
def tileElemBytes (t : TileShape) : Nat := packedBytes (widthOf t.fmt) t.kt * t.nt

/-- The bytes of a tile, scales included (Tables 03.4 and 04.3). -/
def tileBytes (t : TileShape) : Nat :=
  tileElemBytes t + if isBlockFmt t.fmt then ceilDiv t.kt 32 * t.nt else 0

/-- The store rows of a tile (R87). -/
def tileRows (t : TileShape) : Nat := ceilDiv (tileBytes t) 16384

/-- The code of weight `W[k][j]` in a tile image (Table 04.3). -/
def tileCode (b : Nat → Nat) (t : TileShape) (k j : Nat) : Nat :=
  match widthOf t.fmt with
  | 4 => b (k / 2 * t.nt + j) / 2 ^ (4 * (k % 2)) % 16
  | 6 =>
    let g := 3 * (k / 4 * t.nt + j)
    (b g + 256 * b (g + 1) + 65536 * b (g + 2)) / 2 ^ (6 * (k % 4)) % 64
  | 16 => b (2 * (k * t.nt + j)) + 256 * b (2 * (k * t.nt + j) + 1)
  | _ => b (k * t.nt + j)

/-- The scale byte of block `k / 32` and column `j` (Table 04.3). -/
def tileScale (b : Nat → Nat) (t : TileShape) (k j : Nat) : Nat := b (tileElemBytes t + k / 32 * t.nt + j)

/-- The weight `W[k][j]`, NaN where its block scale is 0xFF (R61, R70). -/
def tileNum (b : Nat → Nat) (t : TileShape) (k j : Nat) : Num :=
  if isBlockFmt t.fmt && tileScale b t k j == 255 then .nan else numOf t.fmt (tileCode b t k j)

/-- Element `k` of an activation vector of `n` elements in the broadcast register (R60, R61, R70). -/
def vecNum (b : Nat → Nat) (fmt n k : Nat) : Num :=
  if isBlockFmt fmt && b (packedBytes (widthOf fmt) n + k / 32) == 255 then .nan
  else numOf fmt (packedCode b (widthOf fmt) k)

/-- The products of one column: their exact sum in units of 2^-frac, and the specials met (R65, R67, R70). -/
structure ColSum where
  sum : Int := 0
  nan : Bool := false
  pinf : Bool := false
  ninf : Bool := false
  deriving DecidableEq, Repr

/-- One product taken into a column sum: a special product adds zero (R70). -/
def colAdd (frac : Nat) (c : ColSum) : Num → ColSum
  | .nan => { c with nan := true }
  | .inf neg => if neg then { c with ninf := true } else { c with pinf := true }
  | .fin neg m e =>
    let v : Int := (m * 2 ^ (e + frac).toNat : Nat)
    { c with sum := c.sum + if neg then -v else v }

/-- The exact sum of products over a run of K indices. -/
def colSum (frac : Nat) (x w : Nat → Num) (ks : List Nat) : ColSum :=
  ks.foldl (fun c k => colAdd frac c (mulNum (x k) (w k))) {}

/-- The wide-float bits of a number: significand, exponent and sign (R68). -/
def toWide (x : Num) : BitVec 96 := match x with
  | .fin neg m e =>
    if m = 0 then 0 else
    let q : Int := e + bitLen m - 64
    let r := (roundAt 0 neg m e q).1
    let (sig, ex) : Nat × Int := if r = 2 ^ 64 then (2 ^ 63, q + 64) else (r, q + 63)
    BitVec.ofNat 96 (sig + wrapInt 16 ex * 2 ^ 64 + if neg then 2 ^ 80 else 0)
  | _ => 0

/-- The number that wide-float bits hold (R68). -/
def ofWide (v : BitVec 96) : Num :=
  let n := v.toNat
  if n % 2 ^ 64 = 0 then .fin false 0 0
  else .fin (n / 2 ^ 80 % 2 == 1) (n % 2 ^ 64) (sgn 16 (n / 2 ^ 64) - 63)

/-- The sum of two wide-float values, rounded to 64 bits (R68). -/
def wideAdd (a b : BitVec 96) : BitVec 96 := toWide (addNum 0 (ofWide a) (ofWide b))

/-- The total of three partial sums, (u0 + u1) + u2 (R69). -/
def halfTotal : List Nat → Nat
  | [u0, u1, u2] => (fpAdd 0 (fpAdd 0 u0 u1).code u2).code
  | _ => 0

/-- The FP32 sum of 192 products by the fixed tree (R69). -/
def halfTree (ps : List Nat) : Nat :=
  halfTotal (treeReduce (fun a b => (fpAdd 0 a b).code) 6 ps)

/-- The FP32 products of rows `lo` to `lo + 191`, zero outside the tile (R64, R69). -/
def halfProducts (kt lo : Nat) (x w : Nat → Num) : List Nat :=
  (List.range 192).map fun i =>
    if lo + i < kt then (encodeFlt fp32 0 false (mulNum (x (lo + i)) (w (lo + i)))).code else 0

/-- An FP32 code in an accumulator. -/
def ofFp32 (c : Nat) : BitVec 96 := BitVec.ofNat 96 c

/-- Column `j` of an accumulator entry: what is not listed is zero, or a free value after a test window. -/
def accCol (a : AccEntry) (j : Nat) : AccCell := match a.cols[j]? with
  | some c => c
  | none => match a.seed with
    | none => {}
    | some n => { val := BitVec.ofNat 96 (leNat ((List.range 12).map fun i => Config.freeByte n (12 * j + i))) }

/-- The contribution of one block of a block-scaled column in wide-float form (R67). -/
def blockPart (p : ColSum) (ea eb : Nat) : BitVec 96 :=
  toWide (.fin (p.sum < 0) p.sum.natAbs ((ea : Int) - 127 + (eb : Int) - 127 - 32))

/-- One column's accumulation in one MAT: `start` loads, else adds (R55, R65, R67, R69). -/
def accumulate (cls : ChainClass) (start : Bool) (old : AccCell) (kt : Nat) (x w : Nat → Num)
    (ea eb : Nat → Nat) : AccCell :=
  match cls with
  | .int | .fp8 =>
    let s := colSum (if cls = .int then 0 else 32) x w (List.range kt)
    { val := (if start then 0 else old.val) + BitVec.ofInt 96 s.sum
      nan := s.nan || (!start && old.nan)
      pinf := s.pinf || (!start && old.pinf)
      ninf := s.ninf || (!start && old.ninf) }
  | .block =>
    (List.range (ceilDiv kt 32)).foldl (fun (c : AccCell) b =>
      let ks := (List.range 32).map (32 * b + ·) |>.filter (· < kt)
      let p := colSum 32 x w ks
      let part := blockPart p (ea b) (eb b)
      { val := if start && b == 0 then part else wideAdd c.val part
        nan := c.nan || p.nan
        pinf := c.pinf || p.pinf
        ninf := c.ninf || p.ninf })
      (if start then {} else old)
  | .half =>
    let h0 := halfTree (halfProducts kt 0 x w)
    let h1 := halfTree (halfProducts kt 192 x w)
    let acc0 := if start then h0 else (fpAdd 0 (old.val.toNat % 2 ^ 32) h0).code
    { val := ofFp32 (fpAdd 0 acc0 h1).code }

/-- The number that a finished column stands for, its flags included (R70). -/
def cellNum (cls : ChainClass) (c : AccCell) : Num :=
  match cls with
  | .half => decodeFlt fp32 (c.val.toNat % 2 ^ 32)
  | _ =>
    if c.nan || (c.pinf && c.ninf) then .nan
    else if c.pinf then .inf false
    else if c.ninf then .inf true
    else match cls with
      | .int => numOfInt c.val.toInt
      | .fp8 => numOfInt c.val.toInt (-32)
      | _ => ofWide c.val

/-- A column emitted as FP32, with its MX_ flags (R72, Table 03.7). A 16-bit chain that holds an infinity sets MX_OVERFLOW also where an
operand was infinite (log entry 78). -/
def emitFp32 (cls : ChainClass) (c : AccCell) : LaneOut :=
  let x := cellNum cls c
  let o := encodeFlt fp32 0 false x
  -- exact zero becomes +0.0
  let code := match x with
    | .fin _ 0 _ => 0
    | _ => o.code
  let isInf := code % 2 ^ 31 == infCode fp32 false
  let ovf : Bool := match x with
    | .fin _ _ _ => isInf
    | .inf _ => cls == .half
    | .nan => false
  let small : Bool := match x with
    | .fin _ m _ => m ≠ 0 && code % 2 ^ 31 / 2 ^ 23 == 0
    | _ => false
  { code := code
    flags := (if ovf then fMxOverflow else 0) ||| (if small then fMxUnderflow else 0)
      ||| (if x.isNan then fMxNan else 0) }

/-- The value of a weight in the checksum column: a special counts as zero (R182). -/
def finOrZero : Num → Num
  | .fin n m e => .fin n m e
  | _ => .fin false 0 0

/-- The exact sum of numbers. -/
def sumNum (l : List Num) : Num := l.foldl (addNum 0) (.fin false 0 0)

/-- The checksum value `c_i` of a tile row: the exact sum of its weights (R182). -/
def rowSum (t : TileShape) (w : Nat → Nat → Num) (k : Nat) : Num :=
  sumNum ((List.range t.nt).map fun j => finOrZero (w k j))

/-- The magnitude of a number. -/
def absNum : Num → Num
  | .fin _ m e => .fin false m e
  | y => y

/-- `a_i`: the sum of the magnitudes of a tile row in FP32, rounded toward +inf (R185). -/
def rowAbs (t : TileShape) (w : Nat → Nat → Num) (k : Nat) : Nat :=
  (List.range t.nt).foldl (fun a j =>
    (encodeFlt fp32 2 false (addNum 2 (decodeFlt fp32 a) (absNum (finOrZero (w k j))))).code) 0

/-- Whether an FP32 code is an infinity or NaN. -/
def fpSpecial (c : Nat) : Bool := c / 2 ^ 23 % 256 == 255

/-- The checksum entry after a MAT (R182, R183, R185): value bits for the exact classes, those of the unscaled block partials for MX and
INT4B; T and A for the 16-bit ones. -/
def checksumAfter (cls : ChainClass) (start : Bool) (a : AccEntry) (t : TileShape) (x : Nat → Num)
    (w : Nat → Nat → Num) : BitVec 96 × Word × Word :=
  let xz := fun k => finOrZero (x k)
  match cls with
  | .int | .fp8 | .block =>
    let s := colSum (if cls = .int then 0 else 32) xz (rowSum t w) (List.range t.kt)
    ((if start then 0 else a.chk) + BitVec.ofInt 96 s.sum, 0, 0)
  | .half =>
    let h0 := halfTree (halfProducts t.kt 0 xz (rowSum t w))
    let h1 := halfTree (halfProducts t.kt 192 xz (rowSum t w))
    let t0 := if start then h0 else (fpAdd 0 a.chkT.toNat h0).code
    let aa := (List.range t.kt).foldl (fun acc k =>
      (encodeFlt fp32 2 false (addNum 2 (decodeFlt fp32 acc)
        (mulNum (absNum (xz k)) (decodeFlt fp32 (rowAbs t w k))))).code) (if start then 0 else a.chkA.toNat)
    (0, BitVec.ofNat 32 (fpAdd 0 t0 h1).code, BitVec.ofNat 32 aa)

/-- Whether every block partial of a MX or INT4B MAT, before scaling and summed over the columns, equals the checksum partial of its block
(R182, R183). -/
def blocksPass (t : TileShape) (afmt : Nat) (b v : Nat → Nat) : Bool :=
  let w := fun k j => tileNum b t k j
  let x := fun k => vecNum v afmt t.kt k
  (List.range (ceilDiv t.kt 32)).all fun blk =>
    let ks := ((List.range 32).map (32 * blk + ·)).filter (· < t.kt)
    ((List.range t.nt).map fun j => (colSum 32 x (fun k => w k j) ks).sum).sum
      == (colSum 32 (fun k => finOrZero (x k)) (rowSum t w) ks).sum

/-- The sums r_j of the raw codes of each column's weight cells modulo 2^24 (R186). -/
def columnSums (t : TileShape) (b : Nat → Nat) : List Nat :=
  (List.range t.nt).map fun j => ((List.range t.kt).map fun k => tileCode b t k j).sum % 2 ^ 24

/-- The lowest column whose readback differs from the sums formed as the tile's rows landed (R186). -/
def readbackFails (t : TileShape) (b : Nat → Nat) (sums : List Nat) : Option Nat :=
  ((columnSums t b).zip sums).findIdx? fun x => x.1 ≠ x.2

/-- Whether the comparison of the checksum column passes on an entry's new columns (R183, R185); the block partials of MX and INT4B MATs
are compared by `blocksPass`. -/
def checkPasses (cls : ChainClass) (e : AccEntry) : Bool :=
  match cls with
  | .int | .fp8 => (e.cols.foldl (fun s c => s + c.val) 0) == e.chk
  | .block => true
  | .half =>
    let codes := e.cols.map fun c => c.val.toNat % 2 ^ 32
    if codes.any fpSpecial || fpSpecial e.chkT.toNat then true else
    let s := codes.foldl (fun acc c => wideAdd acc (toWide (decodeFlt fp32 c))) 0
    let d := absNum (addNum 0 (ofWide s) (negNum (decodeFlt fp32 e.chkT.toNat)))
    let bound := addNum 0 (scaleNum (mulNum (.fin false (2 * e.mats + 24) 0) (decodeFlt fp32 e.chkA.toNat)) (-24))
      (.fin false e.mats (-140))
    match d, bound with
    | .fin _ m q, .fin _ n r => magLe m q n r
    | _, _ => true

/-- The entry after a MAT over a tile image `b` and a vector `v` (R55, R64-R70, R182). -/
def matEntry (cls : ChainClass) (start : Bool) (old : AccEntry) (t : TileShape) (afmt : Nat)
    (b v : Nat → Nat) : AccEntry :=
  let w := fun k j => tileNum b t k j
  let xs := ((List.range t.kt).map fun k => vecNum v afmt t.kt k).toArray
  let x := fun k => xs.getD k .nan
  let ea := fun blk => v (packedBytes (widthOf afmt) t.kt + blk)
  let width := if start then t.nt else if old.seed.isSome then 384 else max t.nt old.cols.length
  let cols := (List.range width).map fun j =>
    let o := accCol old j
    if j < t.nt then accumulate cls start o t.kt x (fun k => w k j) ea (fun blk => tileScale b t (32 * blk) j)
    else o
  let (chk, tt, aa) := checksumAfter cls start old t x w
  { cls := some cls, cols := cols, seed := none, mats := if start then 1 else old.mats + 1
    chk := chk, chkT := tt, chkA := aa }

end Sys2Proof.Machine
end

