-- ==== Sys2Proof/Machine/Bundle.lean ====
section
/-! DEFINITION. The slots of a bundle and what an image names (R106-R112, R124, Tables 05.7, 05.10-05.17). -/

namespace Sys2Proof.Machine

/-- The fields of a bundle's six slots. -/
structure Slots where
  vop : Nat
  vline : Nat
  vlen : Nat
  sop : Nat
  row : Nat
  reg : Bool
  shape : Nat
  pop : Bool
  isMat : Bool
  mat : MatSlot
  vec : Nat
  vs : VecSlot
  mop : Nat
  line : Nat
  len : Nat
  route : Nat
  last : Bool
  sync : Nat
  handle : Nat
  count : Nat
  cop : Nat
  arg : Nat
  rsvd : Bool
  deriving DecidableEq, Repr

/-- Whether bit `i` of a bundle is set. -/
def bitAt (b i : Nat) : Bool := bitsOf b i i = 1

/-- The slots of a bundle given as one 256-bit number. `rsvd` tells a set reserved bit. -/
def slotsOf (b : Nat) : Slots where
  vop := bitsOf b 1 0
  vline := bitsOf b 20 2
  vlen := bitsOf b 24 21
  sop := bitsOf b 28 26
  row := bitsOf b 41 29
  reg := bitAt b 42
  shape := bitsOf b 48 43
  pop := bitAt b 49
  isMat := bitAt b 52
  mat :=
    { reg := bitAt b 53, afmt := BitVec.ofNat 4 (bitsOf b 57 54)
      entry := ⟨bitsOf b 63 58 % 64, Nat.mod_lt _ (by omega)⟩, start := bitAt b 64, emit := bitAt b 65
      fp32 := bitAt b 66, wr := bitAt b 67, dest := BitVec.ofNat 19 (bitsOf b 86 68) }
  vec := bitsOf b 94 87
  vs :=
    { rm := BitVec.ofNat 2 (bitsOf b 96 95), sat := bitAt b 97, ity := BitVec.ofNat 5 (bitsOf b 102 98)
      oty := BitVec.ofNat 5 (bitsOf b 107 103), srcA := BitVec.ofNat 19 (bitsOf b 126 108)
      srcB := BitVec.ofNat 19 (bitsOf b 145 127), dst := BitVec.ofNat 19 (bitsOf b 164 146)
      len := BitVec.ofNat 9 (bitsOf b 173 165), br := bitAt b 174, mo := bitAt b 175 }
  mop := bitsOf b 178 176
  line := bitsOf b 197 179
  len := bitsOf b 198 198
  route := bitsOf b 208 199
  last := bitAt b 209
  sync := bitsOf b 218 216
  handle := bitsOf b 228 219
  count := bitsOf b 236 229
  cop := bitsOf b 243 240
  arg := bitsOf b 251 244
  rsvd := bitAt b 25 || bitsOf b 51 50 ≠ 0 || bitsOf b 215 210 ≠ 0 || bitsOf b 239 237 ≠ 0
    || bitsOf b 255 252 ≠ 0

/-- The loops that enclose a bundle (R124). -/
def loopsOver (img : Image) (b : Nat) : List LoopEntry := img.loops.filter fun l => l.first ≤ b ∧ b ≤ l.last

/-- Stride `k` of a loop, in the order of Table 05.5. -/
def stride (l : LoopEntry) (k : Nat) : Int := l.strides.getD k 0

/-- Every value that a field takes over the iterations of the loops given (R124). -/
def sweep (k : Nat) : List LoopEntry → Int → List Int
  | [], v => [v]
  | l :: ls, v =>
    if stride l k = 0 then sweep k ls v
    else (List.range l.count).flatMap fun (i : Nat) => sweep k ls (v + (i : Int) * stride l k)

/-- The tile of a shape index in an image. -/
def shapeAt (img : Image) (i : Nat) : TileShape := img.shapes.getD i {}

/-- The (first row, rows) of every tile that an image loads by TLD or declares as a preload. -/
def tileRefs (img : Image) : List (Int × Nat) :=
  let pre := (if img.flags % 2 = 1 then [((img.preARow : Int), tileRows (shapeAt img img.preAShape))] else [])
    ++ (if img.flags / 2 % 2 = 1 then [((img.preBRow : Int), tileRows (shapeAt img img.preBShape))] else [])
  pre ++ img.bundles.zipIdx.flatMap fun (w, b) =>
    let s := slotsOf w
    if s.sop = 1 then (sweep 1 (loopsOver img b) s.row).map fun r => (r, tileRows (shapeAt img s.shape)) else []

/-- Whether an image references a store row (R86, R92, R204). -/
def refsRow (img : Image) (row : Nat) : Bool :=
  (tileRefs img).any fun t => t.1 ≤ row && (row : Int) < t.1 + t.2

/-- Whether an image issues KVT, KVA or VKVP, and so needs KV_BIND (R162). -/
def usesKv (img : Image) : Bool :=
  img.bundles.any fun w => (slotsOf w).sop = 2 || (slotsOf w).sop = 3 || (slotsOf w).vec = 0x48

/-- The images of a schedule that run on an engine of its partition's unfenced engines, the re-run images
among them (R105, R195). `i` is the engine's place among them. -/
def imagesAt (c : Schedule) (i : Nat) : List Image :=
  (c.images.filter fun m => m.logical = i)
    ++ (if c.rerunOk then c.rerun.filter fun m => m.logical = i ∨ m.logical + 1 = i else [])

/-! Time slots (R33, R34, R452). -/

/-- The distance from owned place `i` of a frame of `n` to the next owned one, `n` where it is the only one. -/
def nextOwned (n : Nat) (owned : Nat → Bool) (i : Nat) : Nat :=
  match (List.range n).find? fun d => owned ((i + d + 1) % n) with
  | some d => d + 1
  | none => n

/-- G: the largest cyclic gap between two owned places of a frame (Tables 02.5, R34). -/
def largestGap (n : Nat) (owned : Nat → Bool) : Nat :=
  ((List.range n).filter owned).foldl (fun m i => max m (nextOwned n owned i)) 0

/-- The 512-byte units of a region that a range of bytes touches (R33). -/
def unitsOf (a len : Nat) : List Nat :=
  if len = 0 then [] else (List.range ((a + len - 1) / 512 - a / 512 + 1)).map (a / 512 + ·)

/-- The largest number of units that lie on one controller (R452). -/
def maxOnController (us : List Nat) : Nat :=
  (List.range 16).foldl (fun m c => max m (us.filter fun u => u % 16 = c).length) 0

/-- The bound of a WAITL (R452): G, the engines of the partition, the units awaited, and whether a read is among
the transfers. -/
def lpddrBound (gap engines : Nat) (us : List Nat) (anyRead : Bool) : Nat :=
  if us.isEmpty then 0 else 32 * gap * engines * maxOnController us + (if anyRead then 150 else 100)

end Sys2Proof.Machine
end

