-- ==== Sys2Proof/Machine/Wire.lean ====
section
/-! DEFINITION. What the module puts on a Courier port: packets, responses, refusals, clear responses, credit
blocks, and the dead-letter rings (R51-R53, R241, R250, R255, R256, R260, R405). -/

namespace Sys2Proof.Machine

/-- The 48 header bytes of a packet (Table 10.4). -/
def headerBytes (op : Byte) (p : Packet) : List Byte :=
  [op, p.flags] ++ natLe p.length.toNat 2 ++ natLe p.link.toNat 2 ++ natLe p.epoch.toNat 2
    ++ natLe p.pktSeq.toNat 4 ++ natLe p.tag.toNat 4 ++ natLe p.window.toNat 2 ++ natLe p.env.toNat 2
    ++ natLe p.notifyPgh.toNat 2 ++ [p.notifyAdd, p.rsvd23] ++ natLe p.offset.toNat 8
    ++ natLe p.arg.toNat 4 ++ natLe p.kvSeq.toNat 2 ++ natLe p.rsvd38.toNat 2
    ++ natLe p.outputSeq.toNat 8

/-- The bytes of a packet on the wire: header, payload, tag, CRC-32C, zero padding to 32 bytes (R241). -/
def packetBytes (payload : Nat) : Nat := ceilDiv (48 + payload + 20) 32 * 32

/-- The credit blocks of 64 bytes that a packet takes (R255). -/
def creditBlocks (payload : Nat) : Nat := ceilDiv (packetBytes payload) 64

/-- The CRC-32C over everything of a packet before it (R241). -/
def packetCrc (op : Byte) (p : Packet) : Nat :=
  crc32c (headerBytes op p ++ p.payload ++ natLe p.gcmTag.toNat 16)

/-- The GCM nonce of a packet; `dir` is 0 towards the module, 1 from it (R242). -/
def packetNonce (dir : Byte) (p : Packet) : List Byte :=
  natLe p.link.toNat 2 ++ natLe p.epoch.toNat 2 ++ natLe p.pktSeq.toNat 4 ++ [dir, 0, 0, 0]

/-- The epoch the module sends under: the newest installed one (R288). -/
def sendEpoch (c : Ctx) : Nat := match c.key.installed with
  | [] => 0
  | (e, _) :: _ => e

/-- A packet put in a port's queue. From EJECT on nothing is answered or sent but DEPART (R261, R410). -/
def State.queueTx (s : State) (port : PortId) (x : TxPkt) : State :=
  if s.pwr.ejectAt.isSome then s else s.updPort (portLink port) fun p => { p with queue := p.queue ++ [x] }

/-- A control block put in a port's queue. -/
def State.queueBlock (s : State) (port : LinkId) (b : TxBlock) : State :=
  s.updPort port fun p => { p with blocks := p.blocks ++ [b] }

/-- A refusal: discarded and counted when the response queue already holds 64 of them (R52). -/
def State.queueRefusal (s : State) (port : PortId) (x : TxPkt) : State :=
  if 64 ≤ (s.fab.ports[portLink port].queue.filter fun y => y.cls = .refusal).length then
    s.updPort (portLink port) fun p => { p with refusalDrops := bump 32 p.refusalDrops 1 }
  else s.queueTx port x

/-- The link number that a response carries: the number by which the far end knows the context, or that of the request where there is
none (R245, Table 10.4; log entry 54). -/
def answerLink (c : Ctx) (p : Packet) : Half := if c.remoteLink = 0xFFFF then p.link else c.remoteLink

/-- The response to a request of a context (Table 10.4). -/
def responsePkt (c : Ctx) (p : Packet) (status : Status) (arg : Word) (payload : List Byte) : Packet :=
  { flags := if c.clear then 2 else 0
    length := BitVec.ofNat 16 payload.length, link := answerLink c p, epoch := BitVec.ofNat 16 (sendEpoch c)
    tag := p.tag, env := p.env, arg := arg, kvSeq := status, payload := payload }

/-- The OP of a response. -/
def responseOp (op : Byte) : Byte := op + 0x80

/-- Whether a request asks for an answer to this status: SILENT holds back ST_OK of PUT, PUT_NOTIFY and
NOTIFY only (R243). -/
def answered (op : Byte) (p : Packet) (status : Status) : Bool :=
  !(hasBit p.flags 0 && (op = 1 || op = 2 || op = 6) && status = stOk)

/-- The answer to a request of a context (R243, R253). A standby in step answers nothing that it mirrors (R312). -/
def State.respond (s : State) (port : PortId) (c : Ctx) (op : Byte) (p : Packet) (status : Status)
    (arg : Word := 0) (payload : List Byte := []) : State :=
  if ¬ answered op p status ∨ s.isStandby then s
  else s.queueTx port
    { cls := .response, op := responseOp op, pkt := responsePkt c p status arg payload
      ctx := some c.link.toNat, part := c.part }

/-- The refusal of a request of a context (R51, R253). -/
def State.refuseOp (s : State) (port : PortId) (c : Ctx) (op : Byte) (p : Packet) (status : Status)
    (arg : Word := 0) : State :=
  s.queueRefusal port
    { cls := .refusal, op := responseOp op, pkt := responsePkt c p status arg []
      ctx := some c.link.toNat, part := c.part }

/-- The clear response of check 2 under the refusal rate cap (R53, R253, R405). -/
def State.clearResponse (s : State) (port : PortId) (op : Byte) (p : Packet) (status : Status) : State :=
  if s.fab.ports[portLink port].clearLeft = 0 then
    s.updPort (portLink port) fun q => { q with refusalDrops := bump 32 q.refusalDrops 1 }
  else
    (s.updPort (portLink port) fun q => { q with clearLeft := q.clearLeft - 1 }).queueRefusal port
      { cls := .refusal, op := responseOp op
        pkt := { flags := 2, link := p.link, tag := p.tag, env := p.env, kvSeq := status } }

/-- An entry written to a partition's dead-letter ring, or dropped and counted on a full ring (R260). -/
def State.deadLetter (s : State) (part : PartId) (header : List Byte) (status : Status) (port : Nat)
    (sent : Bool) : State :=
  s.updFab fun b =>
    let d := b.dlq[part]
    let d := if d.full then { d with drops := bump 16 d.drops 1 } else
      { d with
        slots := assocSet d.tail.toNat
          { header := header, status := status, port := port, sent := sent, postmark := s.now } d.slots
        tail := d.tail + 1, full := d.tail + 1 = d.head }
    { b with dlq := b.dlq.set part d }

/-- Credit blocks of a context returned: the CREDIT control block that carries them (R255). -/
def State.returnCredit (s : State) (c : Ctx) (blocks : Nat) : State :=
  s.queueBlock (portLink c.port) (.credit c.link (BitVec.ofNat 16 blocks))

/-- Every operation the module awaits at a port ends with a status, each with a dead-letter entry (R256). -/
def State.endOutstanding (s : State) (port : PortId) (status : Status) : State :=
  let gone := s.fab.outstanding.filter fun o => o.port = port
  let s := s.updFab fun b => { b with outstanding := b.outstanding.filter fun o => o.port ≠ port }
  gone.foldl (fun s o => s.deadLetter o.part (headerBytes o.op o.pkt) status port.val true) s

/-- A context whose link is lost: its credit is full at both ends, and what waits takes none any more (R255). -/
def Ctx.linkLost (c : Ctx) : Ctx :=
  { c with heldBlocks := 0, outCredit := c.creditBlocks, held := c.held.map fun h => { h with credit := false } }

/-- A port taken down (R238): its outstanding operations end with ST_LINK_DOWN, and what is queued on it is
lost. Credits are full again at link-up (R255). -/
def State.portDown (s : State) (port : LinkId) : State :=
  let s := s.updPort port fun q =>
    { q with state := if q.state = .unused ∨ q.state = .fencedId then q.state else .down, lock := false, identSeen := false
             departSeen := false, queue := [], blocks := [], wire := none, uncorrRun := 0 }
  if h : port.val < 8 then
    (s.endOutstanding ⟨port.val, h⟩ stLinkDown).updFab fun b =>
      { b with ctxs := b.ctxs.map fun c => if c.port.val = port.val then c.linkLost else c }
  else s

end Sys2Proof.Machine
end

