-- ==== Sys2Proof/Machine/Admit.lean ====
section
/-! DEFINITION. Admission by prediction, additions to pigeonholes that may be triggers, and the answer of a
mailbox command (R41, R44, R49-R51, R133, R228, R252). -/

namespace Sys2Proof.Machine

/-- A mailbox command's result set, to be delivered by MAILBOX_RESPONSE (R228). -/
def State.mbxAnswer (s : State) (m : MbxId) (st : Status) (bs : List Byte := []) : State :=
  s.updMbx m fun b => { b with cmd := b.cmd.map fun c => if c.result.isNone then { c with result := some (st, bs) } else c }

/-- Whether FUNC_RESET of a function runs (R233). -/
def State.resetting (s : State) (f : FuncId) : Bool := s.host.resets.any fun r => r.func = f

/-- The weight rows of an engine whose digest differs and that await rewriting (R204). -/
def State.staleRef (s : State) (c : Schedule) : Bool :=
  (s.live c.part).zipIdx.any fun (e, i) =>
    s.eng[e].digests.stale.any fun r => (imagesAt c i).any fun m => refsRow m r

/-- Why a schedule takes no trigger now, if it takes none: EJECT (R410), a module that has given up (R317),
dissolving (R300), suspension after a fence (R136), a weight-digest mismatch (R204), KV binds that are
missing (R162), FUNC_RESET of an engine (Table 09.15), and heat (R407, R408). -/
def State.triggerGate (s : State) (c : Schedule) : Option Status :=
  let home := (s.live c.part).head?
  if s.pwr.ejectAt.isSome then some stEjected
  else if s.twin.role = .gaveUp ∨ s.twin.role = .inStep then some stTwinStandby
  else if s.part[c.part].dissolving.isSome then some stNotReady
  else if c.suspended then some stFenced
  else if s.staleRef c then some stDigestMismatch
  else if c.needsBind.any (fun l => !c.binds.any fun b => b.logical = l) then some stNotReady
  else if (s.live c.part).any (fun e => s.resetting (.engine e) || s.bist.sweeps.any fun w => w.engine = e) then some stNotReady
  else if s.pwr.level = 3 then some stThermalShed
  else if s.pwr.level = 2 ∧ hasBit (s.policy home c.cls) 2 then some stThermalShed
  else none

/-- An offer to the admission unit (R49): the job that a trigger asks for. -/
structure Offer where
  sched : Nat
  part : PartId
  cls : Option (BitVec 4)
  engines : List EngId
  w : Nat
  t0 : Nat
  last : Nat
  offset : Nat
  source : JobSource
  kvSeq : Nat := 0
  image : List Image
  kept : List Byte := []
  keptAct : Option (Option Nat × Nat) := none
  isRerun : Bool := false
  deriving DecidableEq, Repr

/-- A job admitted with its predicted finish (R49, R50). -/
def State.placeJob (s : State) (o : Offer) (finish : Nat) (rel : Option Nat) : State × Nat :=
  let j : Job :=
    { id := s.nextJob, sched := o.sched, part := o.part, cls := o.cls, engines := o.engines, w := o.w
      t0 := o.t0, last := o.last, finish := finish, source := o.source, kvSeq := o.kvSeq
      counting := o.engines, released := rel, image := o.image, kept := o.kept, keptAct := o.keptAct
      isRerun := o.isRerun }
  let s := o.engines.foldl (fun s e => s.updEng e fun g => { g with busyUntil := finish }) s
  ({ s with jobs := s.jobs ++ [j], nextJob := s.nextJob + 1 }, j.id)

/-- The admission decision (R49-R51): the refusal's status with what it carries, or the job's number. `rel`
is the cycle in which the trigger's increment is applied, where it is known at once. -/
def State.takeJob (s : State) (o : Offer) (rel : Option Nat) : State × (Status × Nat) ⊕ State × Nat :=
  if o.engines.any fun e => 64 ≤ (s.queueOf e).length then .inl (s, stRefusedDeadline, 0xFFFFFFFF)
  else
    let start := o.engines.foldl (fun m e => max m s.eng[e].busyUntil) (o.t0 + o.offset)
    let finish := start + o.w
    if o.last < finish then .inl (s, stRefusedDeadline, finish - o.t0)
    else .inr (s.placeJob o finish rel)

/-- The offer of a trigger of a schedule (R41, R105): the budget 0 selects the default budget. -/
def State.offerOf (s : State) (c : Schedule) (t0 offset budget kvSeq : Nat) (src : JobSource) : Offer :=
  { sched := c.handle, part := c.part, cls := some c.cls, engines := s.live c.part, w := c.w, t0 := t0
    last := t0 + (if budget = 0 then c.budget.toNat else budget), offset := offset, source := src
    kvSeq := kvSeq, image := c.images }

/-- An addition in cycle `at'` to a partition's pigeonhole by NOTE, an output, the walker or a unit: on a trigger
pigeonhole it is one job trigger with the default budget (R133, R252; log entry 20). A standby in step follows its active in
these, which no record describes. -/
def State.pghNotify (s : State) (p : PartId) (n add at' : Nat) : State :=
  match s.pghIndex p n with
  | none => s
  | some g => match s.trigger? p n with
    | none => s.pghAdd g add at'
    | some c => match if s.isStandby then none else s.triggerGate c with
      | some _ => s
      | none => match s.takeJob (s.offerOf c at' 2 0 0 .internal) (some at') with
        | .inl (s, _) => s
        | .inr (s, _) => s

end Sys2Proof.Machine
end

