-- ==== Sys2Proof/Machine/CvuUnits.lean ====
section
/-! DEFINITION. The byte stream, the result and the end of a check-value job (R372, R373, R378, R380, R381). -/

namespace Sys2Proof.Machine

/-- Bytes with their addresses from `a` on. -/
def withAddr (a : Nat) : List Byte → List (Nat × Byte)
  | [] => []
  | b :: bs => (a, b) :: withAddr (a + 1) bs

/-- The bytes of one step with their source addresses, up to what stops it, and the status that it then ends with (Table 16.2): its engine has no
resolution under R250, its LPDDR5X access needs a fenced controller (Table 08.17), a line has been zeroed under the hold of its read (R191), or a
word is uncorrectable (R99). -/
def State.cvuStep (s : State) (j : CvuJob) (st : Nat × Nat × Nat × Nat) : List (Nat × Byte) × Option Status :=
  let (src, logical, len, start) := st
  if src = 0 then match (s.live j.part)[logical]? with
    | none => ([], some stFenced)
    | some e =>
      let g := s.eng[e]
      let bs := withAddr start (memRead g.act start len)
      if g.vecLanded.any fun x => decide (s.now ≤ x.1 + 2 ∧ start ≤ 64 * x.2 + 63 ∧ 64 * x.2 < start + len) && g.zeroed.contains x then
        ([], some stCheckMismatch)
      else
        let good := bs.takeWhile fun x => !g.mem.actBad.contains (x.1 / 8 * 8)
        (good, if good.length < bs.length then some stMemUncorrectable else none)
  else if src = 1 then
    if s.lpFenced start len then ([], some stFenced) else (withAddr start (regionRead s.part[j.part] start len), none)
  else (withAddr start (memRead s.fw.nor start len), none)

/-- The bytes of a job's steps up to what stops one of them, and the status of that. -/
def State.cvuStream (s : State) (j : CvuJob) : List (Nat × Nat × Nat × Nat) → List (Nat × Byte) × Option Status
  | [] => ([], none)
  | st :: sts => match s.cvuStep j st with
    | (bs, some e) => (bs, some e)
    | (bs, none) =>
      let (rest, e) := s.cvuStream j sts
      (bs ++ rest, e)

/-- The CRC parameters of a job. -/
def CvuJob.params (j : CvuJob) : CrcParams :=
  ⟨j.width, j.poly.toNat, j.init.toNat, j.refin, j.refout, j.xorout.toNat⟩

/-- A stream with the fold value of each block's first byte (R373). -/
def cvuFolds (j : CvuJob) (bs : List (Nat × Byte)) : List (Option Nat × Byte) :=
  bs.zipIdx.map fun ((a, b), i) =>
    (if j.fold = 0 ∨ i % 256 ≠ 0 then none
     else if j.fold = 1 then some a else some (j.foldBase.toNat + i / 256), b)

/-- RAW after a run of a job's stream (R372). -/
def cvuRaw (j : CvuJob) (bs : List (Nat × Byte)) : Nat := crcFolded j.params j.init.toNat (cvuFolds j bs)

/-- The steps that lie wholly in the first `n` bytes of a job's stream. -/
def stepsDone : Nat → List (Nat × Nat × Nat × Nat) → Nat
  | _, [] => 0
  | n, (_, _, len, _) :: sts => if len ≤ n then 1 + stepsDone (n - len) sts else 0

/-- The result record of a job (Table 16.4). -/
def cvuRecord (j : CvuJob) (u : CvuId) (st : Status) (bytes raw now : Nat) : List Byte :=
  let result := if st = stOk then crcResult j.params raw else 0
  let body := natLe j.num 4 ++ natLe st.toNat 2 ++ [BitVec.ofNat 8 u.val, BitVec.ofNat 8 (stepsDone bytes j.steps)]
    ++ natLe result 8 ++ natLe raw 8 ++ natLe bytes 4 ++ natLe 0 4 ++ natLe j.startedAt 8 ++ natLe now 8
    ++ List.replicate 12 0
  body ++ natLe (crc32c body) 4

/-- The event bit of a job's status (Table 16.6). -/
def cvuEvent (st : Status) : Option Nat :=
  if st = stCvuOverrun then some 0 else if st = stCheckMismatch then some 1
  else if st = stMemUncorrectable then some 2 else if st = stFenced then some 3 else none

/-- The event of a status of a job (Table 16.6). -/
def State.cvuNote (s : State) (st : Status) : State :=
  { s with cvu := { s.cvu with event := match cvuEvent st with
    | none => s.cvu.event
    | some i => setBit s.cvu.event i } }

/-- A job ends (R381): the result record is written at RESULT_OFFSET, but where that needs a fenced controller (R455), and DONE_PGH is incremented
in the cycle after. -/
def State.cvuDone (s : State) (u : CvuId) (j : CvuJob) (st : Status) (bytes raw : Nat) : State :=
  let s := s.cvuNote st
  let s := if s.lpFenced (64 * j.resultOff) 64 then s.cvuNote stFenced
    else s.updPart j.part fun p => regionWrite p (64 * j.resultOff) (cvuRecord j u st bytes raw s.now)
  if j.donePgh = 0xFFFF then s else s.pghNotify j.part j.donePgh 1 (s.now + 1)

/-- The running and queued jobs of a unit end with a status (Table 09.15, R455). The count answers DISCARDED. -/
def State.cvuFlush (s : State) (u : CvuId) (st : Status) : State × Nat :=
  let c := s.cvu.units[u]
  let js := c.running.toList ++ c.queue
  let s := { s with cvu := { s.cvu with units := s.cvu.units.set u { c with running := none, queue := [] } } }
  (js.foldl (fun s j => s.cvuDone u j st 0 j.init.toNat) s, js.length)

end Sys2Proof.Machine
end

