-- ==== Sys2Proof/Machine/Flags.lean ====
section
/-! DEFINITION. The flags and counters that operations set, and the access types that clear them (R11, R81,
R214, Tables 03.7, 03.8, 08.8-08.10). -/

namespace Sys2Proof.Machine

/-- The arithmetic flags and the saturation count of an operation, as they land (R81). -/
def Engine.landArith (g : Engine) (flags : BitVec 8) (sats : Nat) : Engine :=
  { g with arithExc := g.arithExc ||| flags, satCount := bump 32 g.satCount sats }

/-- The bit of ENG_CHK_STATUS that a mechanism sets (Tables 08.5 and 08.8). -/
def chkBit (mech : Nat) : Option Nat :=
  match mech with
  | 0 => some 0
  | 1 => some 1
  | 2 => some 2
  | 3 => some 3
  | 4 => some 4
  | 5 => some 5
  | 8 => some 6
  | 9 => some 7
  | _ => none

/-- The bits of every mechanism that failed (R454). -/
def chkBits (mechs : List Nat) : BitVec 9 :=
  mechs.foldl (fun v m => match chkBit m with
    | some i => setBit v i
    | none => v) 0

/-- A check failure noted in the engine's registers at its ending cycle (R454, Tables 08.8-08.10). -/
def Engine.noteCheck (g : Engine) (mechs : List Nat) (at' : Nat) : Engine :=
  { g with chkStatus := g.chkStatus ||| chkBits mechs, chkCount := bump 32 g.chkCount 1
           chkLast := BitVec.ofNat 64 at' }

/-- The mechanism that a record names first (R454). -/
def namedMech (mechs : List Nat) : Nat :=
  match [2, 5, 3, 0, 1].find? (fun m => mechs.contains m) with
  | some m => m
  | none => (List.range 14).find? (fun m => mechs.contains m) |>.getD 0

/-- The mechanisms that guard the MATs of a class (R183-R186, Table 08.3). -/
def matMechs : ChainClass → List Nat
  | .int | .fp8 => [0, 2, 5]
  | .block => [0, 2, 3, 5]
  | .half => [1, 2, 5]

/-- The DETAIL of an event by its named mechanism (Table 08.15): 384 for the checksums, 0 for the sequencer's shadow and the lockstep, else
what the failing unit found. -/
def detailOf (mechs : List Nat) (found : Word) : Word := match namedMech mechs with
  | 0 | 1 => 384
  | 8 | 10 => 0
  | _ => found

/-- The one bits of bytes. -/
def onesIn (bs : List Byte) : Nat := (bs.map fun b => ((List.range 8).filter fun i => hasBit b i).length).sum

/-- `k` of `n` bits in quarters, 3 for 75% or more (R198). -/
def quartile (k n : Nat) : Nat := if n = 0 then 0 else min 3 (4 * k / n)

/-- DATA_CLASS of a word or row outside an operation: its ones quartile alone (R198). -/
def onesClass (bs : List Byte) : Byte := BitVec.ofNat 8 (4 * quartile (onesIn bs) (8 * bs.length))

/-- DATA_CLASS of a failing operation (R198): the fraction of its source bits that differ from those of the previous operation on the
path, bytes that the previous one did not have counting as zero (log entry 73); the ones among its operands; and EXTREME. -/
def dataClassOf (prev cur operands : List Byte) (extreme : Bool) : Byte :=
  let diff := (cur.zipIdx.map fun (b, i) => onesIn [b ^^^ prev.getD i 0]).sum
  BitVec.ofNat 8 (quartile diff (8 * cur.length) + 4 * quartile (onesIn operands) (8 * operands.length) + if extreme then 16 else 0)

/-- A W1C field after a write of `v`: the bits written 1 are cleared (R11). -/
def w1c {w : Nat} (old : BitVec w) (v : Nat) : BitVec w := old &&& ~~~ BitVec.ofNat w v

/-- An RC field after a read that returned `v`: exactly `v` is subtracted (R214). -/
def rcTake {w : Nat} (old : BitVec w) (v : Nat) : BitVec w := BitVec.ofNat w (old.toNat - v)

/-- Words of a memory corrected by an operation (R98, Tables 04.6, 04.7, 04.10, 04.11). -/
def MemHealth.corrected (m : MemHealth) (act : Bool) (n : Nat) : MemHealth :=
  if n = 0 then m
  else if act then { m with actCe := true, actCeCount := bump 32 m.actCeCount n }
  else { m with storeCe := true, storeCeCount := bump 32 m.storeCeCount n }

/-- A store row found uncorrectable: it is marked for sparing (R99, R101). -/
def MemHealth.storeUncorrectable (m : MemHealth) (row : Nat) : MemHealth :=
  { m with storeUe := true, ueRow := BitVec.ofNat 13 row, ueRowValid := true
           storeBad := if m.storeBad.contains row then m.storeBad else row :: m.storeBad
           storeMarked := if m.storeMarked.contains row then m.storeMarked else row :: m.storeMarked }

/-- An activation word found uncorrectable, by its byte address (R99). -/
def MemHealth.actUncorrectable (m : MemHealth) (addr : Nat) : MemHealth :=
  let a := addr / 8 * 8
  { m with actUe := true, ueAddr := BitVec.ofNat 25 a, ueAddrValid := true
           actBad := if m.actBad.contains a then m.actBad else a :: m.actBad }

/-- A full write of activation bytes makes the words that it covers whole good again (R97, R99). -/
def MemHealth.actWritten (m : MemHealth) (a n : Nat) : MemHealth :=
  { m with actBad := m.actBad.filter fun w => !(decide (a ≤ w ∧ w + 8 ≤ a + n)) }

/-- A write of the `n` store rows from `row` on makes them good again (R99); the write-back of a corrected one among them is dropped
(R100). -/
def MemHealth.rowsWritten (m : MemHealth) (row n : Nat) : MemHealth :=
  let mine := fun (r : Nat) => decide (row ≤ r ∧ r < row + n)
  { m with storeBad := m.storeBad.filter fun r => !mine r
           scrubPending := m.scrubPending.filter fun x => !mine x.1 }

/-- A write of a store row. -/
def MemHealth.rowWritten (m : MemHealth) (row : Nat) : MemHealth := m.rowsWritten row 1

/-- Both memories of an engine zeroed, with valid check bits (R102). -/
def MemHealth.zeroed (m : MemHealth) : MemHealth := { m with storeBad := [], actBad := [], scrubPending := none }

/-- Whether a user below the schedule may take the store port in cycle `now`: no load holds it, no test window runs, and no other user has
taken the cycle (R83, R84). -/
def Engine.portFree (g : Engine) (now : Nat) : Bool :=
  decide (g.portFrom ≤ now) && (g.seq.testUntil = 0 || decide (g.seq.testUntil < now)) && g.portTaken.all fun c => decide (c < now)

/-- Whether KV traffic or a model write may take the store port in cycle `now`, `span` being the cycle in which the span of 8,192 cycles
began: the scrubber has had the first free cycle of the span (Table 04.2). -/
def Engine.portShare (g : Engine) (now span : Nat) : Bool := g.portFree now && g.mem.scrubAt.any fun c => decide (span ≤ c)

/-- The store port taken up to cycle `c`. -/
def Engine.takePort (g : Engine) (c : Nat) : Engine := { g with portTaken := some c }

end Sys2Proof.Machine
end

