-- ==== Sys2Proof/Machine/KvPages.lean ====
section
/-! DEFINITION. The geometry of KV pages and the free pages of an engine (R154, R156-R158, R161, R173). -/

namespace Sys2Proof.Machine

/-- A tile of a page (R156): score or value, its first row in the page, the element index of its first row
(score) or column (value), and its shape. -/
structure PageTile where
  isScore : Bool
  first : Nat
  base : Nat
  shape : TileShape
  deriving DecidableEq, Repr

/-- Tiles one after another, each beginning on a row. -/
def placeTiles : Nat → List (Bool × Nat × TileShape) → List PageTile
  | _, [] => []
  | r, (sc, b, t) :: l => ⟨sc, r, b, t⟩ :: placeTiles (r + tileRows t) l

/-- The tiles of a page in the order S0, S1, V0, V1 (R156). -/
def pageTiles (fmt d : Nat) : List PageTile :=
  let k := d + 32
  let s1 := if 384 < k then [(true, 384, (⟨fmt, k - 384, 64⟩ : TileShape))] else []
  let v1 := if 384 < d then [(false, 384, (⟨fmt, 64, d - 384⟩ : TileShape))] else []
  placeTiles 0 ([(true, 0, ⟨fmt, min k 384, 64⟩)] ++ s1 ++ [(false, 0, ⟨fmt, 64, min d 384⟩)] ++ v1)

/-- P, the rows of a page (Table 07.2). -/
def pageRows (fmt d : Nat) : Nat := ((pageTiles fmt d).map fun t => tileRows t.shape).sum

/-- The code for -1.0 in a pool's format (R157). -/
def maskCode (fmt : Nat) : Nat := match fmt with
  | 4 => 0xB8
  | 5 => 0xBC
  | 8 => 0xC0
  | 9 => 0xA
  | _ => 0xF

/-- The byte offset in a tile image of element (k, j), and its place in the byte (Table 04.3). -/
def elemPlace (t : TileShape) (k j : Nat) : Nat × Nat :=
  if widthOf t.fmt = 4 then (k / 2 * t.nt + j, k % 2) else (k * t.nt + j, 0)

/-- A byte with the element code `c` put at place `h` of it. -/
def putElem (fmt h : Nat) (old : Byte) (c : Nat) : Byte :=
  if widthOf fmt = 4 then
    (if h = 0 then BitVec.ofNat 8 (old.toNat / 16 * 16 + c) else BitVec.ofNat 8 (old.toNat % 16 + 16 * c))
  else BitVec.ofNat 8 c

/-- The σ byte of block `b` (R154). -/
def sigmaOf (sigma : List Byte) (b : Nat) : Byte := byteAt sigma b

/-- The non-zero bytes of one tile of a formatted page, from the tile's first byte (R157). -/
def formattedTile (fmt d : Nat) (sigma : List Byte) (t : PageTile) : List Host.Cell :=
  let e := tileElemBytes t.shape
  let marks := if t.isScore ∧ t.base ≤ d ∧ d < t.base + t.shape.kt then
      (List.range 64).map fun j =>
        let (o, h) := elemPlace t.shape (d - t.base) j
        (o, putElem fmt h 0 (maskCode fmt))
    else []
  let scales := (List.range (ceilDiv t.shape.kt 32)).flatMap fun b =>
    (List.range t.shape.nt).map fun j =>
      (e + b * t.shape.nt + j,
        if t.isScore then (if t.base / 32 + b = d / 32 then (0xBF : Byte) else sigmaOf sigma (t.base / 32 + b))
        else sigmaOf sigma ((t.base + j) / 32))
  marks ++ scales

/-- A store with the formatted page written from row `row` on (R157). -/
def formatPage (m : Mem) (fmt d : Nat) (sigma : List Byte) (row : Nat) : Mem :=
  let m := memZero m (16384 * row) (16384 * pageRows fmt d)
  (pageTiles fmt d).foldl (fun m t =>
    memPut m ((formattedTile fmt d sigma t).map fun c => (16384 * (row + t.first) + c.1, c.2))) m

/-- The first row of the KV part of a partition's engines (R91, R158). -/
def State.kvBase (s : State) (p : PartId) : Nat := kvFirstRow s.part[p].kvSteps.toNat

/-- The first row of page `f` (R158). -/
def State.pageRow (s : State) (p : PartId) (f : Nat) : Nat :=
  let n := pageRows s.part[p].kv.fmt s.part[p].kv.d
  s.kvBase p + 9 * n + f * n

/-- The first row of staging page `i` (R158). -/
def State.stageRow (s : State) (p : PartId) (i : Nat) : Nat :=
  let n := pageRows s.part[p].kv.fmt s.part[p].kv.d
  s.kvBase p + n + i * n

/-- The pages that fit an engine's KV part (R158). -/
def pageCount (steps n : Nat) : Nat := if n = 0 ∨ 512 * steps < 9 * n then 0 else (512 * steps - 9 * n) / n

/-- The pages of each engine of a partition's pool. -/
def State.poolPages (s : State) (p : PartId) : Nat :=
  pageCount s.part[p].kvSteps.toNat (pageRows s.part[p].kv.fmt s.part[p].kv.d)

/-- Whether page `f` of engine `e` is free. -/
def KvPool.isFree (k : KvPool) (e : EngId) (f : Nat) : Bool := !k.pages.any fun x => x.1 = (e, f)

/-- The free pages of an engine, lowest first. -/
def State.freePages (s : State) (p : PartId) (e : EngId) : List Nat :=
  if s.part[p].kv.valid ∧ s.owns p e then
    (List.range (s.poolPages p)).filter fun f => s.part[p].kv.isFree e f
  else []

/-- The use of a page set. -/
def KvPool.setPage (k : KvPool) (e : EngId) (f : Nat) (u : PageUse) : KvPool :=
  { k with pages := assocSet (e, f) u k.pages }

/-- The page-table entries in use (R159). -/
def KvPool.entries (k : KvPool) : Nat :=
  (k.seqs.map fun q => (q.lists.map fun l => l.2.length).sum).sum

/-- A sequence's entry; one that nothing has touched is FREE. -/
def KvPool.seq (k : KvPool) (n : Nat) : KvSeq := (k.seqs.find? fun q => q.num = n).getD { num := n }

/-- A sequence's entry set. -/
def KvPool.setSeq (k : KvPool) (q : KvSeq) : KvPool :=
  { k with seqs := q :: k.seqs.filter fun r => r.num ≠ q.num }

/-- Page `f` of engine `e` formatted and free again (R161). -/
def State.freePage (s : State) (p : PartId) (e : EngId) (f : Nat) : State :=
  let k := s.part[p].kv
  (s.updEng e fun g =>
    { g with store := formatPage g.store k.fmt k.d k.sigma (s.pageRow p f)
             mem := g.mem.rowsWritten (s.pageRow p f) (pageRows k.fmt k.d) }).updKv p
    fun k => { k with pages := assocDel (e, f) k.pages }

/-- The pages that a job allocated and that are not recorded return to the free pages (R172). -/
def State.dropAlloc (s : State) (j : Job) : State :=
  j.alloc.foldl (fun s a => s.freePage j.part a.1 a.2.2) s

/-- Every OPEN sequence of a partition becomes FROZEN with a reason, on the event that loses its data
(Table 07.8). -/
def State.freezeSeqs (s : State) (p : PartId) (reason : Nat) (sel : KvSeq → Bool) : State :=
  s.updKv p fun k =>
    if k.seqs.any fun q => q.state = 1 ∧ sel q then
      { k with
        seqs := updWhere (fun q => q.state = 1 ∧ sel q) (fun q => { q with state := 2, reason := reason }) k.seqs
        event := setBit k.event 6 }
    else k

end Sys2Proof.Machine
end

