-- ==== Sys2Proof/Machine/VidCore.lean ====
section
/-! DEFINITION. Video streams: their areas in the partition's region, frames, pigeonholes and the end of a picture (R333, R334,
R343, R345, Tables 14.3-14.5, 14.10). -/

namespace Sys2Proof.Machine

/-- A field of a stream's arguments (Tables 14.3, 14.10). -/
def Stream.arg (v : Stream) (off n : Nat) : Nat := field v.args off n

/-- The region byte at which a stream's area begins. -/
def Stream.base (v : Stream) : Nat := 512 * if v.encoding then v.arg 28 4 else v.arg 8 4

/-- The state with the video units changed. -/
def State.updVid (s : State) (f : Video → Video) : State := { s with vid := f s.vid }

/-- The state with a stream changed, by its number. -/
def State.updStream (s : State) (n : Nat) (f : Stream → Stream) : State :=
  s.updVid fun x => { x with streams := updWhere (fun v => v.num = n) f x.streams }

/-- The open stream of a number. -/
def State.stream? (s : State) (n : Nat) : Option Stream := s.vid.streams.find? fun v => v.num = n

/-- A bit of VID_EVENT set (Table 14.13). -/
def State.vidEvent (s : State) (i : Nat) : State := s.updVid fun x => { x with event := setBit x.event i }

/-- Whether `n` bytes at an offset of a stream's area need a fenced controller: no access then reaches them (R455). -/
def State.vidBarred (s : State) (v : Stream) (off n : Nat) : Bool := s.lpFenced (v.base + off) n

/-- Bytes written at an offset of a stream's area. -/
def State.vidPut (s : State) (v : Stream) (off : Nat) (bs : List Byte) : State :=
  if s.vidBarred v off bs.length then s else s.updPart v.part fun p => regionWrite p (v.base + off) bs

/-- The start of the video slot that runs now: 8,192 V-cycles are 10,240 cycles (R330). -/
def State.vidStart (s : State) : Nat := s.now / 10240 * 10240

/-- Whether a stream's unit works on it in the slot that runs now (R330). -/
def State.vidTurn (s : State) (v : Stream) : Bool :=
  assoc v.unit s.vid.slotAt = some s.vidStart && s.vid.working.contains (v.unit, v.num)

/-- Whether a stream's unit has had its LPDDR5X traffic in its turn (R331): an owned LPDDR5X slot that began in this video slot with no LDR or
LDW of the partition pending, at least the 150 cycles of a read ago and within the last frame. How many bytes a slot moves is not counted
(log entry 88). -/
def State.vidServed (s : State) (v : Stream) : Bool :=
  s.vidTurn v && s.fab.lpFree.any fun x => x.1 = v.part && decide (s.vidStart ≤ x.2 ∧ x.2 + 150 ≤ s.now ∧ s.now < x.2 + 1174)

/-- Bytes read at an offset of a stream's area. -/
def State.vidGet (s : State) (v : Stream) (off n : Nat) : List Byte := regionRead s.part[v.part] (v.base + off) n

/-- The header of a stream's area written as the stream stands (Table 14.4; log entry 41 for an encode stream). -/
def State.vidHeader (s : State) (n : Nat) : State := match s.stream? n with
  | none => s
  | some v => s.vidPut v 0 (natLe v.consumed 8 ++ natLe v.pictures 8 ++ natLe v.damaged.toNat 4
      ++ [v.lastReason, BitVec.ofNat 8 v.state] ++ List.replicate 42 0)

/-- The increments of a partition's pigeonhole that a unit sees now. -/
def State.pghCount (s : State) (p : PartId) (n : Nat) : Nat := match s.pghIndex p n with
  | none => 0
  | some g => s.pghSeen g

/-- Increments of a partition's pigeonhole taken by a unit. -/
def State.pghTake (s : State) (p : PartId) (n k : Nat) : State := match s.pghIndex p n with
  | none => s
  | some g => s.pghSet g (s.pghAt g - k)

/-- The pitch of a row of a decode stream's frame buffers (R332). -/
def Stream.pitch (v : Stream) : Nat := ceilDiv (v.arg 4 2 * (1 + v.arg 17 1)) 512 * 512

/-- FRAME_BYTES of a decode stream (R332). -/
def Stream.frameBytes (v : Stream) : Nat := v.pitch * v.arg 6 2 * 3 / 2

/-- Where frame `k` begins in a decode stream's area (Table 14.4). -/
def Stream.frameAt (v : Stream) (k : Nat) : Nat := 0x2000 + v.arg 12 4 + k * v.frameBytes

/-- MARK of a frame (Table 14.5). -/
def Stream.mark (v : Stream) (k : Nat) : Byte := (assoc k v.marks).getD 0

/-- A stream with MARK of a frame set; a frame marked 0 is free (R334). -/
def Stream.setMark (v : Stream) (k : Nat) (m : Byte) : Stream :=
  { v with marks := if m = 0 then assocDel k v.marks else assocSet k m v.marks }

/-- MARK of a frame changed, and its byte of the frame table (Table 14.5). -/
def State.vidMark (s : State) (n k : Nat) (m : Byte) : State := match s.stream? n with
  | none => s
  | some v => (s.updStream n fun v => v.setMark k m).vidPut v (0x40 + 32 * k) [m]

/-- The frame table entry of the picture in progress (Table 14.5), with a STATUS and a postmark of completion. -/
def State.vidEntry (s : State) (v : Stream) (q : Picture) (st : Status) (at' : Nat) : State :=
  s.vidPut v (0x40 + 32 * q.frame)
    ([v.mark q.frame, q.reason ||| (if q.inherited then 0x80 else 0)] ++ natLe st.toNat 2 ++ natLe q.index 4 ++ natLe q.poc.toNat 4
      ++ natLe q.width 2 ++ natLe q.height 2 ++ natLe q.concealed 4 ++ natLe at' 8 ++ natLe 0 4)

/-- The picture in progress of a decode stream ends without its output: its entry says so and its frame is free. -/
def State.dropPicture (s : State) (n : Nat) (st : Status) : State := match s.stream? n with
  | none => s
  | some v => match v.current with
    | none => s
    | some q =>
      let v := { v.setMark q.frame 0 with current := none }
      (s.updStream n fun _ => v).vidEntry v q st s.now

/-- An encode stream's picture in progress completes with a status: its output entry, its input STATUS, and DONE_PGH in the
next cycle (R343, R345). An access unit of no bytes stands for a picture without output. -/
def State.encodeEnd (s : State) (n : Nat) (st : Status) (off len : Nat) (idr : Bool) : State := match s.stream? n with
  | none => s
  | some v =>
    let i := v.written % 64
    let tag := s.vidGet v (0x40 + 16 * i + 8) 4
    let s := s.vidPut v (0x40 + 16 * i + 12) (natLe st.toNat 2)
    let s := s.vidPut v (0x440 + 16 * i)
      (natLe off 4 ++ natLe len 4 ++ tag ++ [if idr then 1 else 0, 0] ++ natLe st.toNat 2)
    let s := s.updStream n fun v =>
      { v with written := v.written + 1, pictures := v.pictures + 1, unread := v.unread ++ [(off, len)], outPos := off + len
               restart := decide (st ≠ stOk), sinceIdr := if idr then 1 else v.sinceIdr + 1 }
    (s.vidHeader n).pghNotify v.part (v.arg 38 2) 1 (s.now + 1)

/-- What is in progress on a stream ends with a status (R233, R345, R455). -/
def State.endPicture (s : State) (n : Nat) (st : Status) : State := match s.stream? n with
  | none => s
  | some v =>
    if v.encoding then if v.written < v.consumed then s.encodeEnd n st v.outPos 0 false else s
    else s.dropPicture n st

/-- The pictures in progress of a video unit's streams end (Tables 08.17, 09.15), with their number. -/
def State.endPictures (s : State) (u : VidId) (st : Status) : State × Nat :=
  let mine := s.vid.streams.filter fun v => v.unit = u
  let busy := mine.filter fun v => if v.encoding then decide (v.written < v.consumed) else v.current.isSome
  let s := busy.foldl (fun s v => s.endPicture v.num st) s
  (s.updVid fun x => { x with working := x.working.filter fun w => w.1 ≠ u }, busy.length)

/-- The stream state that a reset of its unit clears (Table 09.15): marks and the frame pool; decoding goes on at the next
random-access point, encoding with an IDR picture. -/
def Stream.resetUnit (v : Stream) : Stream :=
  { v with state := if v.encoding then 0 else 1, forBand := false, marks := [], numbers := [], outList := [], restart := true }

/-- The streams of a unit reset: their frame tables show every frame free. -/
def State.resetStreams (s : State) (u : VidId) : State :=
  (s.vid.streams.filter fun v => v.unit = u).foldl (fun s v =>
    let s := v.marks.foldl (fun s m => s.vidMark v.num m.1 0) s
    (s.updStream v.num Stream.resetUnit).vidHeader v.num) s

end Sys2Proof.Machine
end

