-- ==== Sys2Proof/Machine/Hist.lean ====
section
/-! DEFINITION. The early end of a job, envelope aborts, the unit history, classification and fencing (R131, R194,
R197-R202, R276, R279, R454, R455). -/

namespace Sys2Proof.Machine

/-! The early end of a job (R131). -/

/-- The rank of a status among the ends recorded in one cycle: the smaller is reported (R131). -/
def endRank (st : Status) : Nat :=
  if st = stCheckMismatch then 0 else if st = stMemUncorrectable then 1 else if st = stFenced then 2
  else if st = stEjected then 3 else if st = stThermalShed then 4 else 5 + st.toNat

/-- When an engine's admitted-job count is zero, its busy-until is the postmark given (R50). -/
def State.idleEng (s : State) (e : EngId) (at' : Nat) : State :=
  if (s.queueOf e).isEmpty then s.updEng e fun g => { g with busyUntil := at' } else s

/-- An end recorded for a job now: the first cycle with one is its ending cycle, and the status is the first by
rank among those of that cycle (R131). It stops counting on every engine in that cycle (R50). -/
def State.endEarly (s : State) (id : Nat) (st : Status) (failed : Option EngId := none) : State :=
  match s.job? id with
  | none => s
  | some j => match j.early with
    | some (c, old) =>
      if c = s.now ∧ endRank st < endRank old then
        s.updJob id fun j => { j with early := some (c, st), failedOn := failed }
      else s
    | none =>
      let s := s.updJob id fun j =>
        { j with early := some (s.now, st), counting := [], failedOn := failed }
      j.engines.foldl (fun s e => s.idleEng e s.now) s

/-- Ends several jobs with one status. -/
def State.endAll (s : State) (ids : List Nat) (st : Status) : State :=
  ids.foldl (fun s id => s.endEarly id st) s

/-- A miss recorded by the deadline monitor of a job's home engine in cycle `at'` (R42, R45-R47). A standby in step reports it over T0
instead of acting on it, in a record whose KIND Table 13.3 does not give: a free value (log entry 85). The WINDOW of the packet that notifies
a partner, which R45 does not give, is a free value, and the miss of a job that neither a partner nor the host port has triggered notifies
the system partition's pigeonhole (log entry 76). -/
def State.recordMiss (s : State) (j : Job) (at' : Nat) : State :=
  match j.engines.head?, j.cls with
  | some home, some cls =>
    let pol := s.eng[home].dlClass[cls.toFin]
    let s := s.updEng home fun g =>
      { g with dlMiss := true, dlLastClass := cls, dlMissCount := bump 32 g.dlMissCount 1
               dlLastMiss := BitVec.ofNat 64 at' }
    if s.isStandby then
      let (n, s) := s.fresh
      s.twinSend (Config.freeNat n)
    else
      let s := if hasBit pol 0 then
          s.updPwr fun p => { p with deadlineStop := driveStop p.deadlineStop at'
                                     stopEngine := BitVec.ofNat 3 home.val }
        else s
      if ¬ hasBit pol 1 then s else
      let pgh := pol.toNat / 65536
      match j.source with
      | .fabric port link _ _ _ =>
        match s.ctx? link with
        | none => s
        | some c =>
          let (n, s) := s.fresh
          let s := s.updFab fun b => { b with nextTag := b.nextTag + 1 }
          s.queueTx port
            { cls := .other, op := 6, ctx := some link.toNat, part := j.part
              pkt := { link := c.remoteLink, epoch := BitVec.ofNat 16 (sendEpoch c)
                       window := BitVec.ofNat 16 (Config.freeNat n), notifyPgh := BitVec.ofNat 16 pgh
                       notifyAdd := 1, tag := s.fab.nextTag - 1 } }
      | _ => s.pghNotify 0 pgh 1 at'
  | _, _ => s

/-! Envelopes: what names one, refused stagings, and aborts (R262, R267, R276, R277, R279). -/

/-- The open envelope of a partition and handle. -/
def State.env? (s : State) (p : PartId) (h : Half) : Option Envelope :=
  s.env.opens.find? fun v => v.part = p && v.handle = h

/-- The held outcome of a partition and handle. -/
def State.outcome? (s : State) (p : PartId) (h : Half) : Option EnvOutcome :=
  s.env.outcomes.find? fun o => o.part = p && o.handle = h

/-- An open envelope changed. -/
def State.updEnvelope (s : State) (p : PartId) (h : Half) (f : Envelope → Envelope) : State :=
  s.updEnv fun u => { u with opens := updWhere (fun v => decide (v.part = p ∧ v.handle = h)) f u.opens }

/-- A refused staging dooms its envelope (R267). -/
def State.doom (s : State) (p : PartId) (h : Half) (st : Status) : State :=
  let s := s.updEnvelope p h fun v => { v with state := .doomed }
  s.updEnv fun u =>
    let e := setBit u.event 1
    let e := if st = stEnvConflict then setBit e 2 else e
    { u with event := if st = stEnvLimit then setBit e 3 else e }

/-- Why an envelope takes no staging now, if it takes none (R267, R276): unknown to this opener, closed, doomed, or
its commit has been asked for. -/
def State.stageGate (s : State) (p : PartId) (h : Half) (opener : Option Nat) : Option Status :=
  match s.env? p h with
  | some v =>
    if v.opener ≠ opener then some stBadArg
    else if v.state = .doomed then some stEnvAborted
    else if v.asker.isSome then some stEnvAlreadyCommitted
    else none
  | none => match s.outcome? p h with
    | some o => if o.opener ≠ opener then some stBadArg
      else if o.committed then some stEnvAlreadyCommitted else some stEnvAborted
    | none => some stBadArg

/-- A staging that the host driver asked for and that is refused: its envelope, where it still takes stagings, is doomed (R267). -/
def State.doomNamed (s : State) (p : Option PartId) (h : Half) (st : Status) : State :=
  match p with
  | none => s
  | some p => if (s.stageGate p h none).isNone then s.doom p h st else s

/-- The answer that an envelope's closing event owes to whoever asked for its commit. -/
def State.answerAsker (s : State) (a : Option EnvAsker) (st : Status) (bs : List Byte) : State :=
  match a with
  | none => s
  | some (.mailbox m) => s.mbxAnswer m st bs
  | some (.packet port p) =>
    match s.fab.ctxs.find? fun c => c.link = p.link with
    | none => s
    | some c => s.respond port c 0x11 p st

/-- The outcome of a closed envelope kept: the 512 most recent of its partition (R277). -/
def keepOutcome (l : List EnvOutcome) (o : EnvOutcome) : List EnvOutcome :=
  let mine := (l.filter fun x => x.part = o.part).take 511
  let others := l.filter fun x => x.part ≠ o.part
  o :: (mine ++ others)

/-- The answer to an ENV_ABORT; where its ABORT record has to be acknowledged first, a partner's waits for that (R276, R323). -/
def State.answerAbort (s : State) (p : PartId) (h : Half) (a : EnvAsker) (st : Status) : State :=
  match a with
  | .mailbox m => s.mbxAnswer m st
  | .packet port k =>
    if st = stOk ∧ s.abortOut p h then s.updTwin fun t => { t with abortAnswers := t.abortAnswers ++ [(t.txSeq - 1, port, k)] }
    else match s.fab.ctxs.find? fun c => c.link = k.link with
      | none => s
      | some c => if st = stOk then s.respond port c 0x12 k st else s.refuseOp port c 0x12 k st

/-- The answers to the ENV_ABORTs of an envelope that has aborted: the first has asked for it (R276). -/
def State.answerAborters (s : State) (p : PartId) (h : Half) (reason : Nat) : List EnvAsker → State
  | [] => s
  | a :: l =>
    let s := s.answerAbort p h a (if reason = 1 then stOk else stEnvAborted)
    l.foldl (fun s a => s.answerAbort p h a stEnvAborted) s

/-- An open envelope aborted with a REASON (R276, Table 11.6): its shadow pages and reservations are released, and a pending ENV_COMMIT
and the ENV_ABORTs are answered. -/
def State.abortNow (s : State) (p : PartId) (h : Half) (reason : Nat) (askers : List EnvAsker := []) : State :=
  match s.env? p h with
  | none => s
  | some v =>
    let s := s.updEnv fun u =>
      { u with
        opens := u.opens.filter fun x => !(x.part = p && x.handle = h)
        outcomes := keepOutcome u.outcomes
          { part := p, handle := h, opener := v.opener, committed := false, staged := v.items.length
            reason := reason, postmark := s.now }
        abortCount := bump 32 u.abortCount 1
        event := if reason = 3 then setBit u.event 0 else if reason = 8 then setBit u.event 4 else u.event }
    let s := if v.prepared.isSome then s.forwardAbort p h else s
    (s.answerAsker v.asker stEnvAborted []).answerAborters p h reason askers

/-- An abort of an open envelope (R276, R279). One that settles may still reach its commit in this cycle, which the commit then takes: it
aborts with the cycle's end. -/
def State.abortEnv (s : State) (p : PartId) (h : Half) (reason : Nat) (asker : Option EnvAsker := none) : State :=
  match s.env? p h with
  | none => s
  | some v =>
    if v.state = .settling then s.updEnvelope p h fun v =>
      let c := v.closing.getD { reason := reason, at' := s.now }
      { v with closing := some { c with askers := c.askers ++ asker.toList } }
    else s.abortNow p h reason asker.toList

/-- The aborts of settling envelopes whose cycle is over by `t` (R276). -/
def State.finishAborts (s : State) (t : Nat) : State :=
  s.env.opens.foldl (fun s v => match v.closing with
    | none => s
    | some c => if c.at' < t then s.abortNow v.part v.handle c.reason c.askers else s) s

/-- Every open envelope that satisfies `sel` aborted with a REASON (Table 11.7). -/
def State.abortEnvs (s : State) (sel : Envelope → Bool) (reason : Nat) : State :=
  (s.env.opens.filter sel).foldl (fun s v => s.abortEnv v.part v.handle reason) s

/-- Whether an envelope stages a layout that names an engine (Table 11.7). -/
def namesEngine (v : Envelope) (e : EngId) : Bool :=
  v.items.any fun i => match i with
    | .op _ => false
    | .cmd op r _ _ => op = 0x0102 && hasBit (byteAt r.args 1) e.val

/-- Whether an envelope stages activation pages (Table 11.7). -/
def stagesPages (v : Envelope) : Bool :=
  v.items.any fun i => match i with
    | .op o => match o.space with
      | .lpddr => false
      | _ => true
    | .cmd _ _ _ _ => false

/-! The unit history (R197, R454). -/

/-- The highest reading among sensors of a range, in units of 0.25 degC. -/
def maxSensor (l : List (BitVec 12)) (from' n : Nat) : Int :=
  match ((l.drop from').take n).map BitVec.toInt with
  | [] => 0
  | x :: xs => xs.foldl max x

/-- TJ of a record for a unit (Table 08.4). -/
def State.unitTj (s : State) (unit : Nat) : Int :=
  let k := unit / 16
  let n := unit % 16
  if k = 3 then maxSensor s.pwr.sensors (24 + 2 * (n / 3)) 2
  else if k ≤ 4 then maxSensor s.pwr.sensors (4 * n) 4
  else maxSensor s.pwr.sensors 28 8

/-- The engine of a unit of kinds 0-4. -/
def unitEng (unit : Nat) : Option EngId :=
  if h : unit / 16 ≤ 4 ∧ unit % 16 < 6 then some ⟨unit % 16, h.2⟩ else none

/-- A history record of an event now (Table 08.4). -/
def State.record (s : State) (type unit opClass mech : Nat) (st : Status) (j : Option Job) (bundle : Nat)
    (detail : Word) (dc : Byte) : HistRec :=
  { type := type, unit := BitVec.ofNat 8 unit, opClass := opClass, mechanism := mech, status := st
    dataClass := dc, postmark := s.now, utc := s.utc, poweredS := s.powered, tj := s.unitTj unit
    vddE := match unitEng unit with
      | some e => s.eng[e].vddE
      | none => s.eng[(0 : EngId)].vddE
    part := match j with
      | some j => j.part
      | none => match unitEng unit with
        | some e => (s.holder e).getD 0
        | none => 0
    jobClass := match j with
      | some j => (j.cls.getD 0).toNat
      | none => 0
    handle := match j with
      | some j => j.sched
      | none => 0
    bundle := bundle, detail := detail }

/-- The unit that an event counts toward, as an engine number, or 256 plus the UNIT byte (R200, R455). -/
def eventGroup (r : HistRec) : Nat :=
  let u := r.unit.toNat
  if u / 16 ≤ 4 then u % 16
  else if u / 16 = 9 ∧ r.mechanism = 9 then
    let src := r.detail.toNat % 256
    if src ≤ 5 then src
    else if src ≤ 14 then 256 + 16 * 8 + (src - 6)
    else if src ≤ 30 then 256 + 16 * 5 + (src - 15)
    else if 32 ≤ src ∧ src ≤ 34 then 256 + 16 * 6 + (src - 32)
    else if 35 ≤ src ∧ src ≤ 38 then 256 + 16 * 7 + (src - 35)
    else 256 + u
  else 256 + u

/-- Whether record `a` was created after record `b`. -/
def laterRec (a b : HistRec) : Bool := b.poweredS < a.poweredS || (b.poweredS = a.poweredS && b.postmark < a.postmark)

/-- The TYPE 1 records of a unit that count: those since its latest lift (R201, R392). -/
def History.events (h : History) (grp : Nat) : List HistRec :=
  let all := h.ring ++ h.waitingF ++ h.waiting1 ++ h.fenceTable
  let lifts := all.filter fun r => r.type = 3 && eventGroup r = grp
  (h.ring ++ h.waiting1).filter fun r =>
    r.type = 1 && eventGroup r = grp && lifts.all fun l => laterRec r l

/-- Events within 30 days of a record: by UTC if every record involved carries it, else by POWERED_S (R200). -/
def within30 (l : List HistRec) (r : HistRec) : List HistRec :=
  if (r :: l).all fun x => x.utc ≠ 0 then
    l.filter fun x => decide (max x.utc r.utc - min x.utc r.utc ≤ 2592000000)
  else l.filter fun x => decide (max x.poweredS r.poweredS - min x.poweredS r.poweredS ≤ 2592000)

/-- The key of a record: 5 degC and 10 mV bands with DATA_CLASS (R200). -/
def recKey (r : HistRec) : Int × Nat × Byte := (r.tj / 20, r.vddE / 10, r.dataClass)

/-- The number of events of records, merged ones counted (R200). -/
def eventCount (l : List HistRec) : Nat := (l.map fun r => 1 + r.rep).sum

/-- The classification of a unit from its events (R200): 0 transient, 1 conditional, 2 permanent. -/
def classOf (l : List HistRec) : Nat :=
  let n := eventCount l
  let two : Bool := match l.map recKey with
    | [] => false
    | k :: ks => ks.any (· ≠ k)
  if 8 ≤ n ∨ (3 ≤ n ∧ two = true) then 2 else if 3 ≤ n then 1 else 0

/-- A TYPE 2, 3 or 4 record put among those that wait (R197). -/
def State.recordF (s : State) (r : HistRec) : State :=
  { s with hist := { s.hist with waitingF := s.hist.waitingF ++ [r] } }

/-- The waiting TYPE 1 record that a further event displaces: the greatest REPEAT, the oldest of them (R197). -/
def displaceOne : List HistRec → List HistRec
  | [] => []
  | r :: l =>
    let top := l.foldl (fun m x => max m x.rep) r.rep
    (r :: l).eraseP fun x => x.rep = top

/-- A TYPE 1 record created (R197): merged, or waiting, or displacing another. The record as it stands is
answered with the state. -/
def State.recordEvent (s : State) (r : HistRec) : State × HistRec :=
  let h := s.hist
  if h.waiting1.length < 64 then ({ s with hist := { h with waiting1 := h.waiting1 ++ [r] } }, r)
  else match h.waiting1.find? fun x => x.unit = r.unit && x.mechanism = r.mechanism with
    | some x =>
      let y := { x with rep := min 0xFFFF (x.rep + 1) }
      ({ s with hist := { h with waiting1 := (h.waiting1.takeWhile (· ≠ x)) ++ y :: (h.waiting1.dropWhile (· ≠ x)).drop 1 } }, y)
    | none =>
      ({ s with hist := { h with waiting1 := displaceOne h.waiting1 ++ [r], displaced := bump 32 h.displaced 1 } }, r)

/-! Fences (R101, R201, R455, Table 08.17). -/

/-- The status row's FENCED and the standby's copy aside, the effects of a fence of engine `e` (R201, R136,
Tables 07.8 and 11.7), recorded as TYPE 2 under `unit`. -/
def State.fenceEngine (s : State) (e : EngId) (unit : Nat) (base : HistRec) : State :=
  if s.eng[e].fenced then s else
  let s := s.updEng e fun g => { g with fenced := true, classification := 2, bist := { g.bist with inSlice := none } }
  let s := s.recordF { base with type := 2, unit := BitVec.ofNat 8 unit, status := stFenced, classification := 2, rep := 0 }
  let s := (s.twinForward 3).abortEnvs (fun v => namesEngine v e) 7
  match s.holder e with
  | none => s
  | some p =>
    let running := (s.jobs.filter fun j => j.part = p && j.started.isSome && j.engines.contains e).map Job.id
    let queued := (s.jobs.filter fun j => j.part = p && j.started.isNone && j.early.isNone).map Job.id
    let s := (s.endAll running stFenced).endAll queued stFenced
    let s := engines.foldl (fun s x => if s.owns p x then s.updEng x fun g => { g with busyUntil := s.now } else s) s
    let s := { s with scheds := updWhere (fun c => c.part = p) (fun c => { c with suspended := true }) s.scheds }
    let s := s.freezeSeqs p 4 fun _ => true
    let s := s.updKv p fun k => { k with pages := k.pages.filter fun x => x.1.1 ≠ e }
    let s := s.abortEnvs (fun v => v.part = p && stagesPages v) 7
    s.updEnv fun u => { u with applies := u.applies.filter fun a => !(a.engine = e) }

/-- The effects at once of a fence of a unit other than an engine (Table 08.17). -/
def State.fenceUnit (s : State) (unit : Nat) : State :=
  let s := { s with units :=
    { unit := BitVec.ofNat 8 unit, classification := 2, fenced := true } :: s.units.filter fun u => u.unit.toNat ≠ unit }
  let n := unit % 16
  if unit / 16 = 6 then (if h : n < 3 then (s.endPictures ⟨n, h⟩ stFenced).1 else s)
  else if unit / 16 = 7 then (if h : n < 4 then (s.cvuFlush ⟨n, h⟩ stFenced).1 else s)
  else if unit / 16 = 8 then
    if h : n < 8 then (s.endOutstanding ⟨n, h⟩ stFenced).updPort ⟨n, by omega⟩ fun p => { p with state := .fencedId }
    else
      let s := s.updPort twinLink fun p => { p with state := .fencedId }
      s.leaveStep
  else s

/-- Whether a kind of unit can be fenced (Table 08.17). -/
def fenceable (unit : Nat) : Bool := 5 ≤ unit / 16 && unit / 16 ≤ 8

/-- The classification in force of a group (R200, R455). -/
def State.groupClass (s : State) (grp : Nat) : Nat :=
  if h : grp < 6 then s.eng[(⟨grp, h⟩ : EngId)].classification.toNat
  else ((s.units.find? fun u => u.unit.toNat + 256 = grp).map UnitState.classification).getD 0

/-- The classification that a record gives its unit, and what a rise brings (R200-R202, R455): it never goes
down in service. -/
def State.classify (s : State) (r : HistRec) : State :=
  let grp := eventGroup r
  let evs := within30 (s.hist.events grp) r
  let old := s.groupClass grp
  let new := max old (classOf evs)
  let r := { r with classification := new }
  let s := { s with hist := { s.hist with
    waiting1 := updWhere (fun x => decide ({ x with classification := new } = r)) (fun _ => r) s.hist.waiting1 } }
  if h : grp < 6 then
    let e : EngId := ⟨grp, h⟩
    let s := s.updEng e fun g => { g with events30 := BitVec.ofNat 6 (min 63 (eventCount evs)) }
    if new ≤ old then s
    else if new = 2 then
      (s.fenceEngine e (if r.unit.toNat / 16 ≤ 4 then r.unit.toNat else grp) r).leaveStep
    else
      (s.updEng e fun g => { g with classification := BitVec.ofNat 2 new }).recordF { r with type := 4, rep := 0 }
  else if new ≤ old then s
  else
    let unit := grp - 256
    let s := { s with
      units := { unit := BitVec.ofNat 8 unit, classification := new } :: s.units.filter fun u => u.unit.toNat ≠ unit }
    let s := s.recordF { r with type := 4, unit := BitVec.ofNat 8 unit, rep := 0 }
    if new = 2 ∧ fenceable unit then
      (s.recordF { r with type := 2, unit := BitVec.ofNat 8 unit, status := stFenced, rep := 0 }).fenceUnit unit
    else s

/-- An event: its record and the classification it brings (R197, R200). -/
def State.event (s : State) (unit opClass mech : Nat) (st : Status) (j : Option Job) (bundle : Nat)
    (detail : Word) (dc : Byte) : State :=
  let (s, r) := s.recordEvent (s.record 1 unit opClass mech st j bundle detail dc)
  s.classify r

/-! Uncorrectable words (R99). -/

/-- An uncorrectable store row met by a reader or the scrubber: an event when it is first found (R99), with the DATA_CLASS of the row
(R198). -/
def State.storeUe (s : State) (e : EngId) (row : Nat) (j : Option Job) (bundle : Nat) : State :=
  let first := !(s.eng[e].mem.storeBad.contains row)
  let dc := onesClass (memRead s.eng[e].store (16384 * row) 16384)
  let s := s.updEng e fun g => { g with mem := g.mem.storeUncorrectable row }
  if first then s.event (48 + e.val) 7 6 stMemUncorrectable j bundle (BitVec.ofNat 32 row) dc else s

/-- An uncorrectable activation word met by a reader or the scrubber (R99, R198). -/
def State.actUe (s : State) (e : EngId) (addr : Nat) (j : Option Job) (bundle : Nat) : State :=
  let first := !(s.eng[e].mem.actBad.contains (addr / 8 * 8))
  let dc := onesClass (memRead s.eng[e].act (addr / 8 * 8) 8)
  let s := s.updEng e fun g => { g with mem := g.mem.actUncorrectable addr }
  if first then s.event (64 + e.val) 7 6 stMemUncorrectable j bundle (BitVec.ofNat 32 (addr / 8 * 8)) dc else s

end Sys2Proof.Machine
end

