-- ==== Sys2Proof/Machine/Reset.lean ====
section
/-! DEFINITION. The status row, and what a loss of power, a restart and the end of an EJECT leave (R12, R39, R218, R398, R410, R411,
R421, Tables 09.6, 18.2). -/

namespace Sys2Proof.Machine

/-! The status row (Table 09.6). -/

/-- PHASE; 0 before ROM start, when nothing can be read. -/
def Phase.code : Phase → Nat
  | .unpowered => 0
  | .starting => 0
  | .rom => 1
  | .imagesVerified => 2
  | .storeTested => 3
  | .memoryTrained => 4
  | .portsLocked => 5
  | .service => 6
  | .recovery => 7
  | .ejecting => 8

/-- TWIN_ROLE of the status row (R317, R318, Table 09.6). -/
def TwinRole.rowCode : TwinRole → Nat
  | .active => 1
  | .inStep => 2
  | .joining => 2
  | .outOfStep => 2
  | _ => 0

/-- One bit for each engine. -/
def State.engMask (s : State) (f : Engine → Bool) : Nat := (engines.map fun e => if f s.eng[e] then 2 ^ e.val else 0).sum

/-- The fields of the status row but POSTMARK; FENCED counts from PHASE 3 on (R218). -/
def State.statusFields (s : State) : List Byte :=
  [BitVec.ofNat 8 s.pwr.phase.code, if s.pwr.settingsDefaulted then 1 else 0] ++ natLe s.pwr.bootStatus.toNat 2 ++
    [BitVec.ofNat 8 (s.engMask fun g => g.fenced), BitVec.ofNat 8 s.twin.role.rowCode, BitVec.ofNat 8 s.pwr.level.toNat,
     if s.safeStop then 1 else 0]

/-- The status row rewritten where a field has changed (R218). -/
def State.rewriteStatus (s : State) : State :=
  if s.pwr.statusRow = s.statusFields then s
  else s.updPwr fun p => { p with statusRow := s.statusFields, statusRowAt := s.now }

/-- The status row as the host reads it (Table 09.6). -/
def State.statusRow (s : State) : List Byte :=
  let s := s.rewriteStatus
  padTo 64 (s.pwr.statusRow ++ natLe s.pwr.statusRowAt 8)

/-! Power domains (Table 18.2). -/

/-- The domains that are on from power-good to power loss: 123-138 and 142-161 (R399). -/
def alwaysOn : BitVec 162 := BitVec.ofNat 162 ((2 ^ 16 - 1) * 2 ^ 123 + (2 ^ 20 - 1) * 2 ^ 142)

/-- The 19 domains of an engine and its store region. -/
def engineDomains (e : Nat) : BitVec 162 := BitVec.ofNat 162 ((2 ^ 15 - 1) * 2 ^ (15 * e) + 15 * 2 ^ (90 + 4 * e))

/-- The engine of an engine or store domain. -/
def domainEngine (d : Nat) : Option EngId :=
  if h : d < 90 then some ⟨d / 15, by omega⟩ else if h : d < 114 then some ⟨(d - 90) / 4, by omega⟩ else none

/-- The memory of a domain zeroed, with valid check bits (R102, R399): 16 banks of activation SRAM, or 8 banks of the store. -/
def Engine.zeroDomain (g : Engine) (d : Nat) : Engine :=
  if d < 90 then
    let k := d % 15
    if k < 11 then g
    else { g with
      act := g.act.filter fun c => c.1 / 64 % 64 / 16 ≠ k - 11
      mem := { g.mem with actBad := g.mem.actBad.filter fun w => decide (w / 64 % 64 / 16 ≠ k - 11) } }
  else { g with
    store := g.store.filter fun c => c.1 % 16384 / 512 / 8 ≠ (d - 90) % 4
    mem := { g.mem with storeBad := [] } }

/-! Loss of power (R398, R411). -/

/-- What the metrology die keeps without power: its fuses and its NOR. -/
def Sms.unpowered (m : Sms) : Sms :=
  { audit := m.audit, params := m.params, keys := m.keys, copyInUse := m.copyInUse, nor := m.nor, slotB := m.slotB
    imageDigest := m.imageDigest, records := m.records, nextSeq := m.nextSeq, head := m.head, nextCovered := m.nextCovered
    uncovered := m.uncovered, firstUncovered := m.firstUncovered.map fun _ => 0, epoch := m.epoch, stage := { blocks := m.stage.blocks } }

/-- The metrology die through a restart of the rest (R421): it runs on, its intervals counted anew from the postmark 0 (log
entry 49). -/
def Sms.restarted (m : Sms) : Sms :=
  { m with
    firstUncovered := m.firstUncovered.map fun _ => 0
    chans := m.chans.map fun c => { c with lastFrame := 0, inbox := c.inbox.map fun f => { f with postmark := 0 } }
    insts := m.insts.map fun x => { x with window := [], breakAt := 0, trackedAt := 0 } }

/-- What the boot NOR keeps. A slot whose activation was interrupted is invalid; a staged image has to be verified again (R422,
R425). -/
def Firmware.unpowered (f : Firmware) : Firmware :=
  { nor := f.nor, torn := f.torn, stagedType := f.stagedType, staged := f.staged, chunks := f.chunks }

/-- The history in SPI NAND: records that still waited are lost (R411). -/
def History.unpowered (h : History) : History :=
  { ring := h.ring, fenceTable := h.fenceTable, displaced := h.displaced, uncopied := h.uncopied, next := h.next }

/-- The fuses of the security block. -/
def Security.unpowered (c : Security) : Security :=
  { lifecycle := c.lifecycle, debugFused := c.debugFused, identity := c.identity, seedHeld := c.seedHeld, serial := c.serial, epoch := c.epoch, draws := c.draws }

/-- An engine without power: only which of its rows had been spared or marked is kept (R101, log entry 92). -/
def Engine.unpowered (g : Engine) : Engine :=
  { mem := { keptRows := (g.mem.keptRows ++ g.mem.spared ++ g.mem.storeMarked).eraseDups } }

/-- The module with every register at its reset value and only its eFuses, NOR and NAND kept (R12, R398), the power stage as
`pwr`. The queue of commands and the free counter are the model's own. -/
def State.wiped (s : State) (pwr : Power) (sms : Sms) : State :=
  { now := s.now, hist := s.hist.unpowered, sec := s.sec.unpowered, fw := s.fw.unpowered, sms := sms, pwr := pwr
    eng := s.eng.map Engine.unpowered, free := s.free, pending := s.pending }

/-- The power stage open: nothing is powered (R410 step 5, R411). -/
def State.cutPower (s : State) (latched : Bool) : State :=
  if s.pwr.phase = .unpowered then s.updPwr fun p => { p with latchedOpen := p.latchedOpen || latched }
  else s.wiped
    { phase := .unpowered, latchedOpen := s.pwr.latchedOpen || latched, epo := s.pwr.epo, vin := s.pwr.vin, poweredS := s.powered }
    s.sms.unpowered

/-- The module about to start its ROM without a loss of power (R192, R421, R424): the metrology die runs on. The postmark counts
from the ROM start (log entry 49). -/
def State.restart (s : State) : State :=
  { s.wiped { phase := .starting, vin := s.pwr.vin, poweredS := s.powered, source := s.pwr.source, rootLocked := true
              domains := alwaysOn } s.sms.restarted with now := 0 }

/-- What the passing of time does to an EJECT (R410 steps 3 and 5): the domains switch off, and at its end the power stage, but
for a restart. -/
def State.passEject (s : State) : State := match s.pwr.ejectAt with
  | none => s
  | some e =>
    if e + 1800000 ≤ s.now ∧ s.pwr.rebootFrom.isNone then s.cutPower false
    else if e + 9000 ≤ s.now then s.updPwr fun p => { p with domains := p.domains &&& alwaysOn }
    else s

end Sys2Proof.Machine
end

