-- ==== Sys2Proof/Machine/SelfTest.lean ====
section
/-! DEFINITION. Known-answer kernels and margin sweeps as they run (R393, R394, Tables 17.3-17.5). -/

namespace Sys2Proof.Machine

/-- The state with the BIST controller changed. -/
def State.updBist (s : State) (f : Bist → Bist) : State := { s with bist := f s.bist }

/-- The declared cycles of kernel `k` (Table 17.4). -/
def katCycles (k : Nat) : Nat := [2304, 2304, 3456, 4608, 1536, 3072, 1024].getD k 0

/-- The unit whose operations kernel `k` runs: the matrix unit, or the vector unit (Tables 08.5, 17.4). -/
def katUnit (e : EngId) (k : Nat) : Nat := if k ≤ 3 then e.val else 16 + e.val

/-- A count in a field of one byte; one that the byte cannot hold is a free value. -/
def State.countByte (s : State) (n : Nat) : Byte × State :=
  if n ≤ 255 then (BitVec.ofNat 8 n, s) else
    let (k, s) := s.fresh
    (BitVec.ofNat 8 (Config.freeNat k), s)

/-- A TEST_KAT over: its response, and what its passes count for under a grant (Table 17.3, R392). -/
def State.katFinish (s : State) (k : KatRun) : State :=
  let s := s.updBist fun b => { b with kats := b.kats.filter fun x => x.mailbox ≠ k.mailbox }
  let (r, s) := s.countByte k.runs
  let (f, s) := s.countByte k.fails
  s.mbxAnswer k.mailbox (if k.fails = 0 then stOk else stKatFail)
    ([r, f, BitVec.ofNat 8 k.failedSet.toNat, 0] ++ natLe k.firstStatus.toNat 2 ++ [0, 0] ++ natLe k.firstAt 8)

/-- The next kernel of a TEST_KAT offered to the admission unit at `t0`, or the command over (R393). A refused kernel ends it
with the refusal's status. -/
def State.katNext (s : State) (m : MbxId) (t0 : Nat) : State := match s.bist.kats.find? fun k => k.mailbox = m with
  | none => s
  | some k => match k.todo with
    | [] => s.katFinish k
    | i :: rest =>
      let stop := fun (s : State) (st : Status) =>
        (s.updBist fun b => { b with kats := b.kats.filter fun x => x.mailbox ≠ m }).mbxAnswer m st
      let gate : Option Status :=
        if s.pwr.ejectAt.isSome then some stEjected
        else if s.part[k.part].dissolving.isSome ∨ s.resetting (.engine k.engine) then some stNotReady
        else if s.eng[k.engine].fenced ∧ k.part ≠ 0 then some stFenced
        else none
      match gate with
      | some st => stop s st
      | none =>
        let w := katCycles i
        let o : Offer :=
          { sched := 65536, part := k.part, cls := none, engines := [k.engine], w := w, t0 := t0, last := t0 + k.budget, offset := 2
            source := .kat m i, image := [] }
        match s.takeJob o (some t0) with
        | .inl (s, st, _) => stop s st
        | .inr (s, _) => s.updBist fun b => { b with kats := updWhere (fun x => x.mailbox = m) (fun x => { x with todo := rest }) b.kats }

/-- A kernel's job has ended (R393): it passes when its digest agrees and no check has failed. -/
def State.katEnded (s : State) (m : MbxId) (i : Nat) (st : Status) (at' : Nat) : State :=
  match s.bist.kats.find? fun k => k.mailbox = m with
  | none => s
  | some k =>
    let wrong : Bool := (st = stOk ∨ st = stDeadlineMiss) ∧ hasBit k.failing i
    let bad : Bool := wrong || (st ≠ stOk && st ≠ stDeadlineMiss)
    let s := if wrong then s.event (katUnit k.engine i) 10 12 stKatFail none 0xFFFF (BitVec.ofNat 32 i) k.dataClass else s
    let s := s.updBist fun b => { b with kats := updWhere (fun x => x.mailbox = m) (fun x =>
      { x with
        runs := x.runs + 1
        fails := x.fails + if bad then 1 else 0
        failedSet := if bad then setBit x.failedSet i else x.failedSet
        firstStatus := if bad ∧ x.fails = 0 then (if wrong then stKatFail else st) else x.firstStatus
        firstAt := if bad ∧ x.fails = 0 then at' else x.firstAt }) b.kats }
    let s := s.updEng k.engine fun g => { g with bist := { g.bist with
      katSinceGrant := if bad then 0 else setBit g.bist.katSinceGrant i
      scanSinceGrant := g.bist.scanSinceGrant && !bad
      passedSinceGrant := if bad then [] else g.bist.passedSinceGrant } }
    s.katNext m at'

/-- The cycles that the kernels of a set take. -/
def setCycles (set : BitVec 7) : Nat := (((List.range 7).filter fun i => hasBit set i).map katCycles).sum

/-- The cycles of a point of a sweep: the supply settles, the band is reached or given up, and the kernels run (R394). -/
def SweepPoint.cycles (p : SweepPoint) (set : BitVec 7) : Nat :=
  90000 + if p.skipped then 900000000 else p.delay + setCycles set

/-- A sweep's response entry for a point (R394). -/
def SweepPoint.entry (p : SweepPoint) : List Byte :=
  natLe p.vdd 2 ++ natLe p.tj 2 ++ (if p.skipped then [0, 1] else [BitVec.ofNat 8 p.failed.toNat, 0]) ++ [0, 0]

/-- Whether a point lies in the guaranteed range, at less than 95 degC (R394). -/
def SweepPoint.guaranteed (p : SweepPoint) (fast : Bool) : Bool :=
  !fast && decide (728 ≤ p.vdd ∧ p.vdd ≤ 772) && decide (sgn 16 p.tj < 380)

/-- A point of a sweep over: its failures inside the guaranteed range are events (R394). -/
def State.sweepPoint (s : State) (w : Sweep) (p : SweepPoint) : State :=
  if p.skipped ∨ ¬ p.guaranteed w.fast then s
  else ((List.range 7).filter fun i => hasBit (p.failed &&& w.set) i).foldl (fun s i =>
    s.event (katUnit w.engine i) 11 12 stKatFail none 0xFFFF (BitVec.ofNat 32 i) w.dataClass) s

/-- The supply and clock of an engine set for a point of a sweep, or back to nominal. -/
def State.setSupply (s : State) (e : EngId) (vdd : Nat) (fast : Bool) : State :=
  s.updEng e fun g => { g with vddE := vdd, fastClock := fast }

/-- A sweep moved on to the present: `n` bounds the points that come to their end. -/
def State.sweepOn (s : State) (m : MbxId) : Nat → State
  | 0 => s
  | n + 1 => match s.bist.sweeps.find? fun w => w.mailbox = m with
    | none => s
    | some w =>
      let put := fun (s : State) (w : Sweep) => s.updBist fun b => { b with sweeps := updWhere (fun x => x.mailbox = m) (fun _ => w) b.sweeps }
      match w.points, w.pointAt with
      | [], _ =>
        ((s.updBist fun b => { b with sweeps := b.sweeps.filter fun x => x.mailbox ≠ m }).setSupply w.engine 750 false).mbxAnswer m stOk w.out
      | p :: _, none =>
        if ¬ (s.queueOf w.engine).isEmpty then s
        else
          let at' := max w.acceptedAt s.eng[w.engine].busyUntil
          ((put s { w with pointAt := some at' }).setSupply w.engine p.vdd w.fast).sweepOn m n
      | p :: rest, some a =>
        let c := a + p.cycles w.set
        if s.now < c then s
        else
          let s := (s.sweepPoint w p)
          let w := { w with points := rest, pointAt := some c, out := w.out ++ p.entry }
          let s := put s w
          (match rest with
            | [] => s
            | q :: _ => s.setSupply w.engine q.vdd w.fast).sweepOn m n

/-- The sweeps that run, moved on to the present. -/
def State.passSweeps (s : State) : State :=
  s.bist.sweeps.foldl (fun s w => s.sweepOn w.mailbox (w.points.length + 2)) s

/-- The TEST_KATs and MARGIN_SWEEPs of the partitions or engines that satisfy `sel` end with a status (R395); the supply
is nominal again. -/
def State.endTests (s : State) (sel : PartId → Bool) (st : Status) : State :=
  let ks := s.bist.kats.filter fun k => sel k.part
  let ws := s.bist.sweeps.filter fun w => sel w.part
  let s := s.updBist fun b => { b with kats := b.kats.filter fun k => !sel k.part, sweeps := b.sweeps.filter fun w => !sel w.part }
  let s := ks.foldl (fun s k => s.mbxAnswer k.mailbox st) s
  ws.foldl (fun s w => (s.setSupply w.engine 750 false).mbxAnswer w.mailbox st) s

/-- Whether a margin sweep holds an engine (R394). -/
def Bist.sweeping (b : Bist) (e : EngId) : Bool := b.sweeps.any fun w => w.engine = e

/-- Self-test of an engine abandoned without result (R395): the slice is taken again at the same place. -/
def Engine.dropSlice (g : Engine) : Engine := { g with bist := { g.bist with inSlice := none } }

end Sys2Proof.Machine
end

