-- ==== Sys2Proof/Machine/Landing.lean ====
section
/-! DEFINITION. What a landing does: the side port, the output messages, the engine's registers, failures (R96, R97, R114, R120, R186,
R187-R191, R222, R223, R289, R313). -/

namespace Sys2Proof.Machine

/-! The side port (R96, R97). -/

/-- The word addresses that a run of bytes covers only in part. -/
def partWords (a n : Nat) : List Nat :=
  (if a % 8 ≠ 0 then [a / 8 * 8] else []) ++ (if (a + n) % 8 ≠ 0 then [(a + n) / 8 * 8] else [])

/-- What cells held before they are written, under what is already kept of them. -/
def keepOld (m : Mem) (kept cs : List Host.Cell) : List Host.Cell :=
  cs.foldl (fun old c => if (cellAt old c.1).isSome then old else cellPut old c.1 (memGet m c.1)) kept

/-- The bytes of a memory at the addresses given, with what is kept of some of them in its place. -/
def readOver (m : Mem) (old : List Host.Cell) (as : List Nat) : List Byte :=
  if old.isEmpty then memGets m as else as.map fun a => (cellAt old a).getD (memGet m a)

/-- Bytes of activation SRAM as a unit reads them in cycle `now`: from before a write of the side port in that cycle (R96). -/
def Engine.unitGets (g : Engine) (now : Nat) (as : List Nat) : List Byte :=
  readOver g.act (if g.sideAt = now then g.sideOld else []) as

/-- Bytes of activation SRAM as the side port reads them in cycle `now`: from before a write of a unit in that cycle (R96). -/
def Engine.sideGets (g : Engine) (now : Nat) (as : List Nat) : List Byte :=
  readOver g.act (if g.unitAt = now then g.unitOld else []) as

/-- Cells of activation SRAM that the side port writes in cycle `now`; `kept` are those whose words count as written whole. -/
def Engine.sidePut (g : Engine) (now : Nat) (cs : List Host.Cell) : Engine :=
  { g with act := memPut g.act cs, sideAt := now, sideOld := keepOld g.act (if g.sideAt = now then g.sideOld else []) cs }

/-- Whether a side-port read of `n` bytes from `a` on returns ST_CHECK_MISMATCH (R191): it meets the hold of a line that the vector unit landed in
cycle `now` or one of the two before it, and the line has been zeroed, or is zeroed by the end of the hold. -/
def Engine.shadowHold (g : Engine) (now a n : Nat) : Bool :=
  (g.vecLanded.filter fun x => decide (now ≤ x.1 + 2 ∧ 64 * x.2 < a + n ∧ a < 64 * x.2 + 64)).any fun x =>
    g.zeroed.contains x || g.landings.any fun l => match l.eff with
      | .fail ev => ev.zeroFrom.any fun z => decide (z ≤ x.1 ∧ x.1 ≤ z + 2)
      | _ => false

/-- A side-port write of bytes (R96, R97): words that are uncorrectable and only partly covered are not
written, and then the answer is false; words that the unit port wrote in the same cycle count as collisions. The words that a merge reads
are corrected, or found uncorrectable, as the environment has it (R98, R99). -/
def State.sideWrite (s : State) (e : EngId) (a : Nat) (bs : List Byte) (f : Flt := {}) : State × Bool :=
  let parts := partWords a bs.length
  let found := match f.uncorrectable with
    | none => none
    | some w => if parts.contains (w / 8 * 8) then some (w / 8 * 8) else none
  let s : State := match found with
    | none => if parts.isEmpty then s else s.updEng e fun g => { g with mem := g.mem.corrected true f.corrected }
    | some w => s.actUe e w none 0xFFFF
  let g := s.eng[e]
  let bad := parts.filter fun w => g.mem.actBad.contains w
  let cs := (cellsFrom a bs).filter fun c => !bad.contains (c.1 / 8 * 8)
  let hits := if g.unitAt = s.now then
      (g.unitWords.filter fun w => decide (a < w + 8 ∧ w < a + bs.length)).length else 0
  (s.updEng e fun g =>
    { g.sidePut s.now cs with
      mem := { g.mem.actWritten a bs.length with collisions := bump 32 g.mem.collisions hits } }, bad.isEmpty)

/-! Sealed items (R289, R290). -/

/-- The nonce of a sealed item: direction, lane, two zero bytes and MSG_SEQ. -/
def sealNonce (dir lane seq : Nat) : List Byte :=
  [BitVec.ofNat 8 dir, BitVec.ofNat 8 lane, 0, 0] ++ natLe seq 8

/-- The ciphertext and the 16 tag bytes of a sealed item under a key. -/
def sealBytes (key nonce aad plain : List Byte) : List Byte :=
  let x := gcmSeal key nonce aad plain
  x.1 ++ x.2

/-- The newest epoch of a key slot with its key (R288). -/
def KeySlot.newest (k : KeySlot) : Nat × List Byte := k.installed.headD (0, [])

/-- The next MSG_SEQ that the module uses in a series, and the state with it taken. -/
def State.msgSeq (s : State) (p : PartId) (lane epoch : Nat) : Nat × State :=
  let n := ((assoc (lane, 1, epoch) s.part[p].series).getD 0).toNat + 1
  (n, s.updPart p fun q => { q with series := assocSet (lane, 1, epoch) (BitVec.ofNat 64 n) q.series })

/-! Rows of direct windows (R222, R223). -/

/-- Bytes stored in a window's rows. -/
def DWin.store (w : DWin) (a : Nat) (bs : List Byte) : DWin := { w with rows := memWrite w.rows a bs }

/-- Rows of a window made not ready, until the cycle given where it is known. -/
def DWin.unready (w : DWin) (rs : List Nat) (until' : Option Nat := none) : DWin :=
  { w with notReady := rs.map (fun r => (r, until')) ++ w.notReady.filter fun x => !rs.contains x.1 }

/-- Rows of a window made valid. -/
def DWin.ready (w : DWin) (rs : List Nat) : DWin := { w with notReady := w.notReady.filter fun x => !rs.contains x.1 }

/-- Whether the host reads the not-ready pattern of a row in cycle `now`. -/
def DWin.hides (w : DWin) (row now : Nat) : Bool := match assoc row w.notReady with
  | none => false
  | some none => true
  | some (some c) => decide (now < c)

/-- The plain status row of a job (Table 09.9), 32 bytes. -/
def statusPlain (st : Status) (tag : Word) (postmark predicted : Nat) : List Byte :=
  natLe st.toNat 2 ++ natLe 0 2 ++ natLe tag.toNat 4 ++ natLe postmark 8 ++ natLe predicted 4 ++ List.replicate 12 0

/-- A status row written and made valid (R222), sealed where the window is (R289). The host reads it from cycle `seen` on. -/
def State.jobRow (s : State) (w : WinId) (row : Nat) (st : Status) (tag : Word) (postmark predicted entry seen : Nat) :
    State :=
  let plain := statusPlain st tag postmark predicted
  let d := s.host.win[w]
  match d.isSealed, d.bound with
  | true, some p =>
    let (ep, key) := s.part[p].host.newest
    let (n, s) := s.msgSeq p w.val ep
    let aad := natLe n 8 ++ [BitVec.ofNat 8 entry] ++ List.replicate 7 0
    let c := sealBytes key (sealNonce 1 w.val n) aad plain
    let bs := c.take 32 ++ aad ++ c.drop 32
    s.updWin w fun d => (d.store (64 * row) bs).unready [row] (some seen)
  | _, _ => s.updWin w fun d => (d.store (64 * row) (padTo 64 plain)).unready [row] (some seen)

/-! Output messages (R120, R223, R313, R315). -/

/-- The CRC-64 of a message's payload with its OUTPUT_SEQ folded in (R315). -/
def resultDigest (seq : Nat) (bs : List Byte) : Nat := crc64Folded (fun k => seq + k) bs

/-- A message's payload cut into packets of at most 4,096 bytes, with the offset of each. -/
def chopPayload : Nat → Nat → List Byte → List (Nat × List Byte)
  | 0, _, _ => []
  | n + 1, off, bs =>
    if bs.length ≤ 4096 then [(off, bs)] else (off, bs.take 4096) :: chopPayload n (off + 4096) (bs.drop 4096)

/-- The packets of a finished message on a FABRIC route queued at its port (R120, R313), or held back by a standby in step (R312). What
an active has taken over carries REEMIT as far as R321 tells. What a job sends after its last collection is marked ST_DEADLINE_MISS in the
STATUS bytes of its header (R43; log entry 86). -/
def State.emitMessage (s : State) (j : Job) (r : RouteEntry) (w : Win) (c : Ctx) (note : Bool) (seq : Nat)
    (bs : List Byte) : State :=
  let cut := chopPayload (bs.length / 4096 + 1) r.offset bs
  let again := if seq ≤ s.twin.reemit[j.part] then 4 else 0
  cut.zipIdx.foldl (fun s ((off, body), i) =>
    let noted := note && i + 1 = cut.length && r.notify ≠ 0xFFFF
    let s := s.updFab fun b => { b with nextTag := b.nextTag + 1 }
    let x : TxPkt :=
      { cls := .output, op := if noted then 2 else 1, job := some j.id, ctx := some c.link.toNat, part := j.part
        pkt :=
          { flags := BitVec.ofNat 8 ((if c.clear then 2 else 0) + again), length := BitVec.ofNat 16 body.length, link := c.remoteLink
            epoch := BitVec.ofNat 16 (sendEpoch c), tag := s.fab.nextTag, window := BitVec.ofNat 16 w.base
            notifyPgh := if noted then BitVec.ofNat 16 r.notify else 0xFFFF, notifyAdd := if noted then 1 else 0
            offset := BitVec.ofNat 64 off, outputSeq := BitVec.ofNat 64 seq, payload := body
            kvSeq := if j.missed ∨ j.last < s.now then stDeadlineMiss else 0 } }
    if s.isStandby then s.updTwin fun t => { t with held := t.held ++ [(c.port, x)] } else s.queueTx c.port x) s

/-- What the twin keeps of a finished message: the digest that the active reports, or that a standby in step compares (R314-R316). -/
def State.noteDigest (s : State) (p : PartId) (seq : Nat) (bs : List Byte) : State :=
  let d := BitVec.ofNat 64 (resultDigest seq bs)
  if s.hasStandby then s.updTwin fun t => { t with unreported := t.unreported ++ [(p, seq, d)] }
  else if ¬ s.isStandby then s
  else match s.twin.expected.find? fun (x : PartId × Nat × Dword) => x.1 = p && x.2.1 = seq with
    | none => s.updTwin fun t => { t with ownDigests := t.ownDigests ++ [(p, seq, d)] }
    | some x =>
      let s := s.updTwin fun t => { t with expected := t.expected.filter fun y => decide (y ≠ x) }
      if x.2.2 = d then s else s.leaveStep

/-- Every cycle of a frame of 64, as a destination of one partition gives them (R34, R453). -/
def allCycles : Dword := 0xFFFFFFFFFFFFFFFF

/-- The first cycle from `c` on that a frame of 64 cycles gives to its owner (R34). -/
def ownedFrom (mask : Dword) (c : Nat) : Nat := c + ((List.range 64).find? fun i => hasBit mask ((c + i) % 64)).getD 0

/-- The cycle after `n` beats have entered a destination from cycle `c` on, one in each owned cycle (R34). -/
def enterBeats (mask : Dword) : Nat → Nat → Nat
  | 0, c => c
  | n + 1, c => enterBeats mask n (ownedFrom mask c + 1)

/-- The cycle after a transfer of `n` beats, handed over in cycle `d`, has entered a destination of the sorting switch: one cycle of
traversal, and then in order of arrival after what the destination has taken before (R34, R453, Tables 02.1 and 02.2). `dest` numbers the
destinations, one for each partition at the host port; `mask` are the cycles that the partition owns there. -/
def State.grant (s : State) (dest : Nat) (mask : Dword) (d n : Nat) : Nat × State :=
  let c := max (d + 1) ((assoc dest s.fab.granted).getD 0)
  let base := wrapInt 6 (-s.twin.shift)
  let at' := enterBeats mask n (c + base) - base
  (at', s.updFab fun b => { b with granted := assocSet dest at' b.granted })

/-- The cycles from a row's having entered the host port to its being readable: Table 02.2, cycles 72 to 87; through a sealed window
20 more (R28). -/
def hostRowTail (isSealed : Bool) : Nat := if isSealed then 35 else 15

/-- A beat of OUT or OUTN that the engine hands to its pass-through port in cycle `d` (R120, R251). -/
def State.landBeat (s : State) (e : EngId) (j : Job) (d route : Nat) (last note : Bool) (bs : List Byte) : State :=
  let r := (imageOn j e).routes.getD route ⟨0, 0, 0, 0, 0, 0⟩
  let old := s.eng[e].seq.msgs.find? fun m => m.route = route
  let sent := (old.map OpenMsg.sent).getD 0
  let payload := (old.map OpenMsg.payload).getD [] ++ bs
  let note := note || old.any OpenMsg.noted
  let keep := fun (s : State) (seq : Nat) => s.updEng e fun g => { g with seq := { g.seq with
    msgs := (if last then [] else [⟨route, sent + bs.length, payload, seq, note⟩]) ++ g.seq.msgs.filter fun m => m.route ≠ route } }
  let done := fun (s : State) (c : Nat) => s.updJob j.id fun j => { j with outEnd := max j.outEnd c, delivered := true }
  let doneRow := fun (s : State) (c : Nat) => (done s c).updJob j.id fun j => { j with rowEnd := max j.rowEnd c }
  match r.kind with
  | 1 =>
    match s.win? r.window with
    | none => s.endEarly j.id stNoWindow
    | some w =>
      if w.part ≠ j.part ∨ w.kind ≠ .remote then s.endEarly j.id stNoWindow else
      let seq := match old with
        | some m => m.outSeq
        | none => s.part[j.part].outSeq + 1
      let s := if old.isNone then s.updPart j.part fun p => { p with outSeq := seq } else s
      let s := keep s seq
      if ¬ last then s else
      let held := s.isStandby
      let s := s.noteDigest j.part seq payload
      match s.ctxNum? w.part w.ctx with
      | none => s.endEarly j.id stNoWindow
      | some c =>
        let s := s.emitMessage j r w c note seq payload
        if held then done s (d + 17) else s.updJob j.id fun j => { j with delivered := true }
  | 2 =>
    if h : r.window < 16 then
      let w : WinId := ⟨r.window, h⟩
      if s.host.win[w].bound ≠ some j.part then keep s 0 else
      let s := keep s 0
      let (c, s) := s.grant (64 + j.part.val) s.part[j.part].swCycles d (ceilDiv bs.length 32)
      let seen := c + hostRowTail s.host.win[w].isSealed
      let a := r.offset + sent
      let rows := (List.range (ceilDiv (sent + bs.length) 64)).map fun i => r.offset / 64 + i
      if ¬ s.host.win[w].isSealed then
        let s := s.updWin w fun x => x.store a bs
        if last then doneRow (s.updWin w fun x => x.unready rows (some seen)) seen
        else s.updWin w fun x => x.unready rows
      else if ¬ last then s.updWin w fun x => x.unready rows
      else
        let (ep, key) := s.part[j.part].host.newest
        let (n, s) := s.msgSeq j.part w.val ep
        let k := s.host.win[w].sealOutNext
        let aad := natLe n 8 ++ natLe (r.offset / 64) 2 ++ natLe rows.length 2 ++ natLe ep 2 ++ [1, 0]
        let c := sealBytes key (sealNonce 1 w.val n) aad payload
        let entry := aad ++ c.drop payload.length
        let s := s.updWin w fun x =>
          { ((x.store r.offset (c.take payload.length)).store (64 * 928 + 32 * k) entry).unready
              ((928 + k / 2) :: rows) (some seen) with sealOutNext := if k = 63 then 32 else k + 1 }
        (doneRow s seen).updJob j.id fun j => { j with sealEntry := k }
    else keep s 0
  | 3 =>
    match j.engines[r.target]? with
    | none => keep s 0
    | some t =>
      let s := keep s 0
      let (c, s) := s.grant t.val allCycles d (ceilDiv bs.length 128)
      let s := if last then s.updJob j.id fun j => { j with delivered := true } else s
      s.updEng e fun g => { g with landings := g.landings ++
        [{ due := c, job := j.id
           eff := .arrive t (r.offset + sent) bs last j.part (if last ∧ note ∧ r.notify ≠ 0xFFFF then some r.notify else none) }] }
  | _ => keep s 0

/-! Landings (R114). -/

/-- The lines that a list of cells touches. -/
def cellLines (cs : List Host.Cell) : List Nat := (cs.map fun c => c.1 / 64).eraseDups

/-- A landing of the unit port in activation SRAM in cycle `d`. -/
def Engine.unitWrite (g : Engine) (d : Nat) (vec : Bool) (cs : List Host.Cell) : Engine :=
  let ws := (cs.map fun c => c.1 / 8 * 8).eraseDups
  { g with
    act := memPut g.act cs
    unitOld := keepOld g.act (if g.unitAt = d then g.unitOld else []) cs
    unitAt := d
    unitWords := if g.unitAt = d then ws ++ g.unitWords else ws
    vecLanded := (if vec then (cellLines cs).map fun l => (d, l) else []) ++ g.vecLanded.filter fun x => decide (d ≤ x.1 + 3)
    matLanded := (if vec then [] else (cellLines cs).map fun l => (d, l)) ++ g.matLanded.filter fun x => decide (d ≤ x.1 + 3)
    mem := { g.mem with actBad := g.mem.actBad.filter fun w =>
      !((List.range 8).all fun i => cs.any fun c => c.1 = w + i) } }

/-- The tile register that REG names. -/
def Engine.tile (g : Engine) (b : Bool) : TileReg := if b then g.tileB else g.tileA

/-- The tile register that REG names, set. -/
def Engine.setTile (g : Engine) (b : Bool) (t : TileReg) : Engine :=
  if b then { g with tileB := t } else { g with tileA := t }

/-- A tile register with the column sums that the load path forms as rows land (R186). -/
def TileReg.summed (t : TileReg) : TileReg :=
  let image := ((rfRead t.image 0 (tileBytes t.shape)).map BitVec.toNat).toArray
  { t with sums := columnSums t.shape fun a => image.getD a 0 }

/-- Effects of a landing on the engine's own registers and activation SRAM. -/
def Engine.land (g : Engine) (d : Nat) (vec : Bool) : LandEff → Engine
  | .bcast bs => { g with bcast := rfPut g.bcast (cellsFrom 0 bs) }
  | .act ws => g.unitWrite d vec ws
  | .tileRow b first sh ws =>
    let t := g.tile b
    g.setTile b ({ t with image := rfPut t.image ws, shape := if first then sh else t.shape } : TileReg).summed
  | .tileMerge b ws => g.setTile b ({ g.tile b with image := rfPut (g.tile b).image ws } : TileReg).summed
  | .matOut m => { g with matOut := m }
  | .params ws => { g with params := memPut g.params ws }
  | .append codes => { g with append := { codes := codes } }
  | .argmax a => { g with argmax := a }
  | .arith f n => g.landArith f n
  | _ => g

/-- The lines of R190 zeroed: those that the job's operations landed in the three cycles from `z` on. -/
def Engine.zeroLines (g : Engine) (z : Nat) : Engine :=
  let ls := (g.vecLanded ++ g.matLanded).filter fun x => decide (z ≤ x.1 ∧ x.1 ≤ z + 2)
  { g with
    act := ls.foldl (fun m l => memZero m (64 * l.2) 64) g.act, zeroed := ls
    mem := ls.foldl (fun m l => m.actWritten (64 * l.2) 64) g.mem }

/-- The sequence that owns a KV page that a KVT found uncorrectable becomes FROZEN with reason 5 (Table 07.8): the page in the KV part that the
row belongs to, recorded or newly taken by the job, or the home in the spill area of the one that its staging page holds. -/
def State.kvLost (s : State) (e : EngId) (j : Job) (row : Nat) : State :=
  let n := pageRows s.part[j.part].kv.fmt s.part[j.part].kv.d
  let base := s.pageRow j.part 0
  let stage := s.stageRow j.part 0
  if n = 0 ∨ row < stage then s
  else if row < base then
    match s.eng[e].staging.find? fun x => x.2.1 = stage + (row - stage) / n * n with
    | none => s
    | some x => s.freezeSeqs j.part 5 fun q => q.lists.any fun l => l.2.contains (PageRef.spilled e x.2.2)
  else
    let page := (row - base) / n
    let mine := j.alloc.any fun a => decide (a.1 = e ∧ a.2.2 = page)
    s.freezeSeqs j.part 5 fun q =>
      (mine && q.num == j.kvSeq) || q.lists.any fun l => l.2.contains (PageRef.resident e page)

/-- A recorded failure: registers, history, classification and the early end (R187-R190, R194, R454); an
uncorrectable word or row of the engine's memories gives the event of R99 instead. -/
def State.landFail (s : State) (e : EngId) (id : Nat) (ev : FailEvent) : State :=
  let j := s.job? id
  let s := s.leaveStep
  if ev.unitKind = 3 ∨ ev.unitKind = 4 then
    let s := s.endEarly id ev.status
    if ev.unitKind = 4 then s.actUe e ev.detail.toNat j ev.bundle
    else
      let s := s.storeUe e ev.detail.toNat j ev.bundle
      match j with
      | some j => s.kvLost e j ev.detail.toNat
      | none => s
  else
    let s := s.updEng e fun g => g.noteCheck ev.mechs s.now
    let s := match ev.zeroFrom with
      | some z => s.updEng e fun g => g.zeroLines z
      | none => s
    let s := s.endEarly id ev.status (some e)
    let unit := if ev.unitKind = 9 then 0x90 else 16 * ev.unitKind + e.val
    s.event unit ev.opClass (namedMech ev.mechs) ev.status j ev.bundle ev.detail ev.dataClass

/-- A beat on an ENGINE route written to the target's activation SRAM in cycle `d`, and the addition that follows the message's last
byte (R36, R120). -/
def State.arrived (s : State) (id : Nat) (t : EngId) (a : Nat) (bs : List Byte) (last : Bool) (p : PartId) (notify : Option Nat)
    (d : Nat) : State :=
  let s := (s.sideWrite t a bs).1
  let s := match notify with
    | none => s
    | some n => s.pghNotify p n 1 d
  if last then s.updJob id fun j => { j with outEnd := max j.outEnd d } else s

end Sys2Proof.Machine
end

