-- ==== Sys2Proof/Machine/Lanes.lean ====
section
/-! DEFINITION. The vector operations as functions of their source bytes (Tables 05.13-05.15, 05.24, R75-R80,
R117-R119, R141-R152, R155). -/

namespace Sys2Proof.Machine

/-- The codes of `n` lanes of width `w` packed in bytes (R60). -/
def unpackLanes (w n : Nat) (bs : List Byte) : List Nat :=
  let a := bs.toArray
  (List.range n).map (packedCode (fun i => (a.getD i 0).toNat) w)

/-- Lane codes packed into bytes, the last packing group filled with zero elements (R60). -/
def packLanes (w : Nat) (codes : List Nat) : List Byte :=
  let a := codes.toArray
  let c := fun i => a.getD i 0
  let n := codes.length
  if w = 4 then (List.range (ceilDiv n 2)).map fun i => BitVec.ofNat 8 (c (2 * i) + 16 * c (2 * i + 1))
  else if w = 6 then
    (List.range (ceilDiv n 4)).flatMap fun i =>
      natLe (c (4 * i) + 64 * c (4 * i + 1) + 4096 * c (4 * i + 2) + 262144 * c (4 * i + 3)) 3
  else codes.flatMap fun x => natLe x (w / 8)

/-- What a vector operation makes: bytes or a register, flags, saturated elements; whether a record or field
it reads is a reserved encoding (R119); the lowest lane that fails the check of OUT22 (R146). -/
structure VecRes where
  effs : List LandEff := []
  flags : BitVec 8 := 0
  sats : Nat := 0
  bad : Bool := false
  failLane : Option Nat := none
  deriving DecidableEq, Repr

/-- The flags that lanes set. -/
def laneFlags (l : List LaneOut) : BitVec 8 := l.foldl (fun f o => f ||| o.flags) 0

/-- The elements that lanes saturate. -/
def laneSats (l : List LaneOut) : Nat := l.foldl (fun n o => n + o.sats) 0

/-- The byte address of a line. -/
def lineAddr (l : Nat) : Nat := 64 * l

/-- Lane results packed to the width given, for DST or the broadcast register (Table 05.13). -/
def laneRes (v : VecSlot) (w : Nat) (l : List LaneOut) (tail : List Byte := []) : VecRes :=
  let bs := packLanes w (l.map LaneOut.code) ++ tail
  { effs := [if v.br then .bcast bs else .act (cellsFrom (lineAddr v.dst.toNat) bs)]
    flags := laneFlags l, sats := laneSats l }

/-- The lanes of an operation (Table 05.13). -/
def lanesOf (v : VecSlot) : Nat := v.len.toNat + 1

/-- A parameter record's bytes. -/
def paramRec (params : Mem) (i : Nat) : List Byte := memRead params (16 * i) 16

/-- One lane of REQ: accumulator and record (R75, R119); none for a record that fails its checks. -/
def reqLane (otype : Nat) (acc : Int) (r : List Byte) : Option LaneOut :=
  let m := sgn 32 (field r 0 4)
  let sh := field r 4 1
  let zp := sgn 16 (field r 6 2)
  let lo := sgn 16 (field r 8 2)
  let hi := sgn 16 (field r 10 2)
  if 95 < sh ∨ hi < lo ∨ field r 5 1 ≠ 0 ∨ field r 12 4 ≠ 0 then none
  else
    let t := acc * m
    let t := if 0 < sh then (t + 2 ^ (sh - 1)) / 2 ^ sh else t
    let t := t + zp
    let y := min (max t lo) hi
    some (codeOf otype 0 true (numOfInt y))

/-- REQ (R75). -/
def reqRes (v : VecSlot) (accs : List Int) (params : Mem) : VecRes :=
  let first := v.srcB.toNat % 1024
  if 1024 < first + lanesOf v then { bad := true } else
  let l := accs.zipIdx.map fun (a, i) => reqLane v.oty.toNat a (paramRec params (first + i))
  if l.any Option.isNone then { bad := true }
  else laneRes v (widthOf v.oty.toNat) (l.filterMap id)

/-- VPLD (Table 05.14). -/
def vpldRes (v : VecSlot) (a : List Byte) : VecRes :=
  let first := v.srcB.toNat % 1024
  if 128 < lanesOf v ∨ 1024 < first + lanesOf v then { bad := true }
  else { effs := [.params (cellsFrom (16 * first) (a.take (16 * lanesOf v)))] }

/-- A lane operation on two 32-bit sources. -/
def binRes (v : VecSlot) (f : Nat → Nat → LaneOut) (a b : List Byte) : VecRes :=
  laneRes v 32 (List.zipWith f (unpackLanes 32 (lanesOf v) a) (unpackLanes 32 (lanesOf v) b))

/-- A lane operation on two 32-bit sources and the destination's old value. -/
def triRes (v : VecSlot) (f : Nat → Nat → Nat → LaneOut) (a b d : List Byte) : VecRes :=
  let n := lanesOf v
  laneRes v 32 (List.zipWith (fun x (y, z) => f x y z) (unpackLanes 32 n a)
    (List.zip (unpackLanes 32 n b) (unpackLanes 32 n d)))

/-- A lane operation on one 32-bit source. -/
def unRes (v : VecSlot) (f : Nat → LaneOut) (a : List Byte) : VecRes :=
  laneRes v 32 ((unpackLanes 32 (lanesOf v) a).map f)

/-- A cross-lane reduction into lane 0 (R78). -/
def reduceRes (v : VecSlot) (f : LaneOut → LaneOut → LaneOut) (a : List Byte) : VecRes :=
  let l := (unpackLanes 32 (lanesOf v) a).map fun c => ({ code := c } : LaneOut)
  match treeReduce f 9 l with
  | [r] => laneRes v 32 [{ r with code := if fpIsNan r.code then nanCode fp32 else r.code }]
  | _ => { bad := true }

/-- A node of VRSUM, which rounds by the operation's mode (R78). -/
def sumNode (rm : Nat) (x y : LaneOut) : LaneOut :=
  let r := fpAdd rm x.code y.code
  { r with flags := r.flags ||| x.flags ||| y.flags }

/-- VCVT (R76). -/
def vcvtRes (v : VecSlot) (a : List Byte) : VecRes :=
  let it := v.ity.toNat
  let ot := v.oty.toNat
  laneRes v (widthOf ot) ((unpackLanes (widthOf it) (lanesOf v) a).map fun c =>
    codeOf ot v.rm.toNat v.sat (numOf it c))

/-- emax of a block format (R77). -/
def blockEmax (c : Nat) : Int := match c with
  | 4 => 8
  | 5 => 15
  | 6 => 4
  | 8 => 0
  | _ => 2

/-- One block of 32 FP32 values as scale byte and elements (R77). -/
def blockOf (c rm : Nat) (xs : List Num) : Nat × List LaneOut :=
  let special := xs.any fun x => match x with
    | .fin _ _ _ => false
    | _ => true
  let tops := xs.filterMap fun x => match x with
    | .fin _ m e => if m = 0 then none else some (e + bitLen m - 1)
    | _ => none
  let zeros := xs.map fun _ => ({ code := 0 } : LaneOut)
  if special then (255, xs.map fun _ => { code := 0, flags := fInvalid })
  else match tops with
    | [] => (0, zeros)
    | t :: ts =>
      let x := min (max (ts.foldl max t - blockEmax c) (-127)) 127
      ((x + 127).toNat, xs.map fun y => codeOf c rm true (scaleNum y (-x)))

/-- Lists of 32 from a list, `n` of them. -/
def chunks32 {α : Type} : Nat → List α → List (List α)
  | 0, _ => []
  | n + 1, l => l.take 32 :: chunks32 n (l.drop 32)

/-- VCVTMX (R77): elements, then scales. -/
def vcvtmxRes (v : VecSlot) (a : List Byte) : VecRes :=
  let n := lanesOf v
  if n % 32 ≠ 0 then { bad := true } else
  let xs := (unpackLanes 32 n a).map (decodeFlt fp32)
  let bl := (chunks32 (n / 32) xs).map (blockOf v.oty.toNat v.rm.toNat)
  laneRes v (widthOf v.oty.toNat) (bl.flatMap Prod.snd) (bl.map fun b => BitVec.ofNat 8 b.1)

/-- VEXT (Table 05.14): elements, and for a block format the scales after them. -/
def vextRes (v : VecSlot) (a : List Byte) : VecRes :=
  let it := v.ity.toNat
  let n := lanesOf v
  let es := packedBytes (widthOf it) n
  let arr := a.toArray
  laneRes v 32 ((unpackLanes (widthOf it) n a).zipIdx.map fun (c, i) =>
    let s := (arr.getD (es + i / 32) 0).toNat
    let x := if isBlockFmt it then (if s = 255 then .nan else scaleNum (numOf it c) ((s : Int) - 127))
      else numOf it c
    encodeFlt fp32 0 false x)

/-- The signed value of a 32-bit lane. -/
def s32 (c : Nat) : Int := sgn 32 c

/-- One INT32 lane of an integer operation by its code (Table 05.14, R80). -/
def intLane (op rm : Nat) (sat : Bool) (x y : Nat) : LaneOut :=
  let a := s32 x
  let b := s32 y
  let k := y % 32
  match op with
  | 0x28 => intResult sat (a + b)
  | 0x29 => intResult sat (a - b)
  | 0x2A => intResult sat (a * b)
  | 0x2B => intResult sat (a * 2 ^ k)
  | 0x2C => { code := x / 2 ^ k }
  | 0x2D => { code := wrapInt 32 (a / 2 ^ k) }
  | 0x2E => { code := x &&& y }
  | 0x2F => { code := x ||| y }
  | 0x30 => { code := x ^^^ y }
  | 0x31 => { code := if a ≤ b then x else y }
  | 0x32 => { code := if b ≤ a then x else y }
  | 0x33 =>
    let t : Bool := match rm with
      | 0 => a = b
      | 1 => a < b
      | 2 => a ≤ b
      | _ => a ≠ b
    { code := if t then 1 else 0 }
  | 0x34 => intResult true (a + b)
  | _ => intResult true (a - b)

/-- The geometry record an operation names (R141). -/
def geoOf (params : Mem) (v : VecSlot) : Geo :=
  let r := paramRec params (v.srcB.toNat % 1024)
  ⟨field r 0 1, field r 1 1, field r 2 2, field r 4 2, field r 6 2, field r 8 4, field r 12 4⟩

/-- The byte address of vector `i` of `bytes` bytes with a pitch in lines, 0 for dense (Table 06.3). -/
def pitched (base pix bytes i : Nat) : Nat := if pix = 0 then base + i * bytes else base + 64 * pix * i

/-- Bytes of an element of a byte-wide format. -/
def elemBytes (c : Nat) : Nat := widthOf c / 8

/-- The source spans of VS2D and VD2S, as byte addresses of elements in lane order, and the destination
address of each; none where a limit of Table 06.4 is broken. `d2s` exchanges the two. -/
def moveMap (d2s : Bool) (g : Geo) (v : VecSlot) : Option (List (Nat × Nat)) :=
  let n := lanesOf v
  let sz := elemBytes v.ity.toNat
  let src := lineAddr v.srcA.toNat
  let dst := lineAddr v.dst.toNat
  -- the side with dense rows or planes, and the side with records
  let rowPitch := if d2s then g.dstPitch else g.srcPitch
  let other := if d2s then g.srcPitch else g.dstPitch
  let rowBase := if d2s then dst else src
  let recBase := if d2s then src else dst
  let out := fun (row rec : Nat) => if d2s then (rec, row) else (row, rec)
  if other ≠ 0 then none else
  match g.mode with
  | 0 =>
    let f := g.param
    let size := f * f * g.ch
    if ¬ (f = 1 ∨ f = 2 ∨ f = 4 ∨ f = 8) ∨ g.base ≠ 0 ∨ size = 0 then none
    else if n % size ≠ 0 then none
    else
      some ((List.range n).map fun i =>
        let q := i / size
        let c := i % size
        let dy := c / (f * g.ch)
        let dx := c / g.ch % f
        out (rowBase + 64 * rowPitch * dy + ((q * f + dx) * g.ch + c % g.ch) * sz)
          (pitched recBase g.pix (size * sz) q + c * sz))
  | 1 =>
    if g.ch = 0 ∨ 32 < g.ch ∨ g.param ≠ 0 then none
    else if n % g.ch ≠ 0 ∨ 64 < n / g.ch * sz ∨ 64 * g.pix < (g.base + g.ch) * sz then none
    else
      let qn := n / g.ch
      some ((List.range n).map fun i =>
        let c := i / qn
        let q := i % qn
        out (rowBase + 64 * rowPitch * c + q * sz) (recBase + 64 * g.pix * q + (g.base + c) * sz))
  | _ => none

/-- The value of one channel in the order of VARGMAX: NaN above every number (R151). -/
def argKey (ity code : Nat) : (Bool × Word × Bool) × Int :=
  match elemOf ity with
  | .flt f =>
    let c := (encodeFlt fp32 0 false (decodeFlt f code)).code
    if fpIsNan c then ((true, BitVec.ofNat 32 (nanCode fp32), true), 2 ^ 40)
    else ((true, BitVec.ofNat 32 c, false), fpKey c)
  | .int w signed _ =>
    let i := if signed then sgn w code else (code % 2 ^ w : Nat)
    ((false, BitVec.ofInt 32 i, false), i)

/-- The order key of the argmax pair register. -/
def pairKey (p : ArgPair) : Int :=
  if p.isFloat then (if fpIsNan p.val.toNat then 2 ^ 40 else fpKey p.val.toNat) else p.val.toInt

/-- The pair of the greatest of some channels, the first of them winning a tie (R151). -/
def bestPair (ity : Nat) : List (Nat × Nat) → Option ArgPair → Option ArgPair
  | [], acc => acc
  | (i, c) :: l, acc =>
    let ((fl, val, _), key) := argKey ity c
    let new : ArgPair := { val := val, isFloat := fl, idx := BitVec.ofNat 16 i }
    match acc with
    | none => bestPair ity l (some new)
    | some p => bestPair ity l (some (if pairKey p < key then new else p))

/-- Whether any channel is NaN. -/
def anyNan (ity : Nat) (cs : List Nat) : Bool := cs.any fun c => (argKey ity c).1.2.2

/-- VARGMAX (R151, R152, Table 06.9). -/
def vargmaxRes (g : Geo) (v : VecSlot) (old : ArgPair) (a : List Byte) : VecRes :=
  let ity := v.ity.toNat
  let n := lanesOf v
  let cs := unpackLanes (widthOf ity) n a
  let fl := if anyNan ity cs then fInvalid else 0
  if g.pix ≠ 0 ∨ g.srcPitch ≠ 0 ∨ g.dstPitch ≠ 0 then { bad := true } else
  match g.mode with
  | 0 =>
    if g.ch < 2 ∨ 512 < g.ch ∨ n % g.ch ≠ 0 ∨ g.param ≠ 0 ∨ g.base ≠ 0 then { bad := true } else
    let idx := (List.range (n / g.ch)).map fun p =>
      let l := ((cs.drop (p * g.ch)).take g.ch).zipIdx.map fun (c, i) => (i, c)
      match bestPair ity l none with
      | some b => b.idx.toNat
      | none => 0
    { effs := [.act (cellsFrom (lineAddr v.dst.toNat) (idx.flatMap fun i => natLe i 2))], flags := fl }
  | m =>
    if 3 < m ∨ g.ch ≠ 0 ∨ 65535 < g.base + v.len.toNat ∨ (m ≠ 3 ∧ g.param ≠ 0) ∨ 31 < g.param then
      { bad := true }
    else
      let l := cs.zipIdx.map fun (c, i) => (g.base + i, c)
      match bestPair ity l (if m = 1 then none else some old) with
      | none => { bad := true }
      | some b =>
        if m = 3 then
          { effs := [.argmax b, .act (cellsFrom (lineAddr v.dst.toNat + 2 * g.param) (natLe b.idx.toNat 2))]
            flags := fl }
        else { effs := [.argmax b], flags := fl }

/-! Winograd transforms (R145-R147). -/

/-- Bt of integer F(2x2,3x3) (Table 06.5). -/
def winBt : List (List Int) := [[1, 0, -1, 0], [0, 1, 1, 0], [0, -1, 1, 0], [0, 1, 0, -1]]
/-- A''t of integer F(2x2,3x3) (Table 06.5). -/
def winAt : List (List Int) := [[2, 1, 1, 0], [0, 1, -1, -2]]
/-- Bt of F(4x4,3x3) (Table 06.7). -/
def winBt44 : List (List Int) :=
  [[4, 0, -5, 0, 1, 0], [0, -4, -4, 1, 1, 0], [0, 4, -4, -1, 1, 0], [0, -2, -1, 2, 1, 0],
   [0, 2, -1, -2, 1, 0], [0, 4, 0, -5, 0, 1]]
/-- At of F(4x4,3x3) (Table 06.7). -/
def winAt44 : List (List Int) :=
  [[1, 1, 1, 1, 1, 0], [0, 1, -1, 2, -2, 0], [0, 1, 1, 4, 4, 0], [0, 1, -1, 8, -8, 1]]

/-- A dot product of integers. -/
def dotInt (a b : List Int) : Int := (List.zipWith (· * ·) a b).sum

/-- Column `j` of rows. -/
def column {α : Type} (d : List (List α)) (z : α) (j : Nat) : List α := d.map fun r => r.getD j z

/-- M d Mt for an integer matrix, `n` columns in `d`. -/
def winInt (m d : List (List Int)) (n : Nat) : List (List Int) :=
  let t := m.map fun row => (List.range n).map fun j => dotInt row (column d 0 j)
  t.map fun row => m.map fun c => dotInt c row

/-- An FP32 FMA chain of coefficients over codes, from the product of index 0 (R147). -/
def fmaChain (rm : Nat) (cs : List Int) (xs : List Nat) : LaneOut :=
  let cc := cs.map fun c => (encodeFlt fp32 0 false (numOfInt c)).code
  match List.zip cc xs with
  | [] => { code := 0 }
  | (c, x) :: l => l.foldl (fun acc (c, x) =>
      let r := fpFma rm c x acc.code
      { r with flags := r.flags ||| acc.flags }) (fpMul rm c x)

/-- M d Mt in FP32, rows first and then columns (R147), `n` columns in `d`. -/
def winFlt (rm : Nat) (m : List (List Int)) (d : List (List Nat)) (n : Nat) : List (List LaneOut) :=
  let t := m.map fun row => (List.range n).map fun j => fmaChain rm row (column d 0 j)
  t.map fun row => m.map fun c =>
    let r := fmaChain rm c (row.map LaneOut.code)
    { r with flags := r.flags ||| laneFlags row }

/-- A flat list in rows of `n`. -/
def rowsOf {α : Type} (n : Nat) : Nat → List α → List (List α)
  | 0, _ => []
  | k + 1, l => l.take n :: rowsOf n k (l.drop n)

/-- The byte addresses of the source vectors of VWIN in source order, with the bytes of each; none where the
record breaks a limit (Table 06.6). -/
def winSpans (g : Geo) (v : VecSlot) : Option (List (Nat × Nat)) :=
  let n := lanesOf v
  let src := lineAddr v.srcA.toNat
  let patch := fun (k bytes : Nat) =>
    (List.range (k * k)).map fun i =>
      (pitched (src + 64 * g.srcPitch * (i / k)) g.pix bytes (i % k), bytes)
  let dense := fun (bytes : Nat) => g.pix == 0 && bytes % 64 != 0
  if g.ch ≠ 0 ∨ g.base ≠ 0 then none else
  match g.mode with
  | 0 => if (g.param = 1 ∨ g.param = 2) ∧ !dense n then some (patch 4 n) else none
  | 1 => if (g.param = 1 ∨ g.param = 2) ∧ !dense (4 * n) then
      some ((List.range (16 * g.param)).map fun i => (src + 64 * g.srcPitch * i, 4 * n)) else none
  | 2 => if g.param = 0 ∧ !dense (2 * n) then some (patch 6 (2 * n)) else none
  | 3 => if g.param = 0 ∧ !dense (4 * n) then
      some ((List.range 36).map fun i => (src + 64 * g.srcPitch * i, 4 * n)) else none
  | _ => none

/-- The ITYPE and OTYPE that a mode of VWIN takes (Table 06.6). -/
def winTypesOk (mode ity oty : Nat) : Bool :=
  match mode with
  | 0 => ity ≤ 1 && oty == 0
  | 1 => ity == 13 && oty == 14
  | 2 => (ity == 11 || ity == 12) && oty == ity
  | 3 => ity == 13 && oty == 13
  | _ => false

/-- The integer that an FP32 emission holds, where it is one below 2^24 in magnitude (R146). -/
def intEmission (c : Nat) : Option Int := match decodeFlt fp32 c with
  | .fin neg m e =>
    let k := if e < 0 then 2 ^ (-e).toNat else 1
    let v := if e < 0 then m / k else m * 2 ^ e.toNat
    if m % k = 0 ∧ v < 2 ^ 24 then some (if neg then -(v : Int) else v) else none
  | _ => none

/-- Vectors of results, each a list of lanes, at their destination addresses. -/
def scatter (w : Nat) (vs : List (Nat × List Nat)) : List Host.Cell :=
  vs.flatMap fun (a, l) => cellsFrom a (packLanes w l)

/-- VWIN (Table 06.6, R145-R147) on the source vectors given, each a list of lane codes. -/
def vwinRes (g : Geo) (v : VecSlot) (vs : List (List Nat)) : VecRes :=
  let n := lanesOf v
  let dst := lineAddr v.dst.toNat
  let rm := v.rm.toNat
  let at' := fun (k bytes p : Nat) => pitched (dst + 64 * g.dstPitch * (p / k)) g.pix bytes (p % k)
  match g.mode with
  | 0 =>
    let lane := fun l => winInt winBt (rowsOf 4 4 (vs.map fun x =>
      if v.ity.toNat = 0 then sgn 8 (x.getD l 0) else (x.getD l 0 : Nat))) 4 |>.flatten
    let ls := (List.range n).map lane
    let out := fun (p q : Nat) => ls.map fun m =>
      let y := m.getD p 0
      if g.param = 1 then encodeInt 8 (-128) 127 0 0 (numOfInt y)
      else { code := wrapInt 8 (if q = 0 then (y + 8) / 16 else y - 16 * ((y + 8) / 16)) }
    let all := (List.range 16).flatMap fun p => (List.range g.param).map fun q => (p, q, out p q)
    { effs := [.act (scatter 8 (all.map fun (p, q, l) =>
        (dst + 64 * g.dstPitch * (p * g.param + q), l.map LaneOut.code)))]
      flags := laneFlags (all.flatMap fun x => x.2.2), sats := laneSats (all.flatMap fun x => x.2.2) }
  | 1 =>
    let lane := fun l =>
      let es := vs.map fun x => intEmission (x.getD l 0)
      if es.any Option.isNone then none else
      let e := es.map fun x => x.getD 0
      let m := (List.range 16).map fun p =>
        if g.param = 1 then e.getD p 0 else 16 * e.getD (2 * p) 0 + e.getD (2 * p + 1) 0
      let z := (winInt winAt (rowsOf 4 4 m) 4).flatten
      if z.any (fun x => x % 4 ≠ 0) then none else some (z.map fun x => intResult true (x / 4))
    let ls := (List.range n).map lane
    match (ls.zipIdx.find? fun x => x.1.isNone) with
    | some (_, l) => { failLane := some l }
    | none =>
      let rs := ls.filterMap id
      { effs := [.act (scatter 32 ((List.range 4).map fun p =>
          (at' 2 (4 * n) p, rs.map fun r => ((r.map LaneOut.code).getD p 0))))]
        flags := laneFlags rs.flatten, sats := laneSats rs.flatten }
  | 2 =>
    let w := v.ity.toNat
    let lane := fun l =>
      let d := vs.map fun x => (encodeFlt fp32 0 false (numOf w (x.getD l 0))).code
      (winFlt rm winBt44 (rowsOf 6 6 d) 6).flatten.map fun r =>
        let o := codeOf w rm false (decodeFlt fp32 r.code)
        { o with flags := o.flags ||| r.flags }
    let ls := (List.range n).map lane
    { effs := [.act (scatter 16 ((List.range 36).map fun p =>
        (dst + 64 * g.dstPitch * p, ls.map fun r => (r.map LaneOut.code).getD p 0)))]
      flags := laneFlags ls.flatten }
  | _ =>
    let lane := fun l => (winFlt rm winAt44 (rowsOf 6 6 (vs.map fun x => x.getD l 0)) 6).flatten
    let ls := (List.range n).map lane
    { effs := [.act (scatter 32 ((List.range 16).map fun p =>
        (at' 4 (4 * n) p, ls.map fun r => (r.map LaneOut.code).getD p 0)))]
      flags := laneFlags ls.flatten }

/-- VKVP (R155) with the pool's format and scale vector. -/
def vkvpRes (v : VecSlot) (fmt d : Nat) (sigma : List Byte) (a : List Byte) : VecRes :=
  if v.oty.toNat ≠ fmt ∨ lanesOf v ≠ d then { bad := true } else
  let l := (unpackLanes 32 d a).zipIdx.map fun (c, k) =>
    match decodeFlt fp32 c with
    | .fin n m e => codeOf fmt v.rm.toNat true (.fin n m (e + 127 - ((byteAt sigma (k / 32)).toNat : Int)))
    | _ => { code := 0, flags := fInvalid }
  { effs := [.append (l.map fun o => BitVec.ofNat 8 o.code)], flags := laneFlags l, sats := laneSats l }

/-! The fields of a VEC slot (R117, R451, Table 05.24) and its timing (R118). -/

/-- The latency of a vector operation (Table 05.14). -/
def vecLatency (op : Nat) : Nat :=
  if op = 0x01 then 1 else if op = 0x02 then 4 else if 0x08 ≤ op ∧ op ≤ 0x0A then 3
  else if op = 0x0B then 4 else if op = 0x0C ∨ op = 0x0D then 2
  else if 0x10 ≤ op ∧ op ≤ 0x13 then 8 else if 0x18 ≤ op ∧ op ≤ 0x1A then 6
  else if op = 0x20 then 2 else if op = 0x21 then 4 else if op = 0x22 then 3
  else if op = 0x2A then 2 else if 0x28 ≤ op ∧ op ≤ 0x35 then 1
  else if op = 0x38 ∨ op = 0x39 then 1 else if op = 0x40 then 6 else if op = 0x41 then 3
  else if op = 0x42 ∨ op = 0x43 then 2 else 4

/-- Whether a code is an operation of Table 05.14. -/
def vecOpKnown (op : Nat) : Bool :=
  op == 1 || op == 2 || (8 ≤ op && op ≤ 0xD) || (0x10 ≤ op && op ≤ 0x13) || (0x18 ≤ op && op ≤ 0x1A)
    || (0x20 ≤ op && op ≤ 0x22) || (0x28 ≤ op && op ≤ 0x35) || op == 0x38 || op == 0x39
    || (0x40 ≤ op && op ≤ 0x43) || op == 0x48

/-- The source operands of an operation: whether it reads b, and whether it reads DST. -/
def readsB (op : Nat) : Bool := (8 ≤ op && op ≤ 0xD) || (0x28 ≤ op && op ≤ 0x35) || op == 0x38
/-- Whether an operation reads the old value of DST. -/
def readsD (op : Nat) : Bool := op == 0x0B || op == 0x38

/-- Whether RM, SAT, ITYPE and OTYPE hold what Table 05.24 allows. -/
def vecFieldsOk (op : Nat) (v : VecSlot) : Bool :=
  let rm := v.rm.toNat
  let it := v.ity.toNat
  let ot := v.oty.toNat
  let plain := it == 0 && ot == 0
  let nonMx := fun (c : Nat) => decide (c ≤ 3 ∨ 11 ≤ c ∧ c ≤ 16)
  if op = 1 then rm == 0 && !v.sat && plain
  else if op = 2 then rm == 0 && !v.sat && it == 0 && (ot == 0 || ot == 1 || ot == 15 || ot == 16)
  else if 8 ≤ op ∧ op ≤ 0xB ∨ op = 0x18 then !v.sat && plain
  else if op = 0xC ∨ op = 0xD ∨ 0x10 ≤ op ∧ op ≤ 0x13 ∨ op = 0x19 ∨ op = 0x1A then rm == 0 && !v.sat && plain
  else if op = 0x20 then nonMx it && nonMx ot && (!v.sat || ot == 2 || ot == 3)
  else if op = 0x21 then !v.sat && it == 13 && 4 ≤ ot && ot ≤ 10
  else if op = 0x22 then rm == 0 && !v.sat && (it ≤ 12 || it == 15 || it == 16) && ot == 13
  else if 0x28 ≤ op ∧ op ≤ 0x2B then rm == 0 && plain
  else if op = 0x33 then !v.sat && plain
  else if 0x2C ≤ op ∧ op ≤ 0x35 ∨ op = 0x38 ∨ op = 0x39 then rm == 0 && !v.sat && plain
  else if op = 0x40 then rm == 0 && !v.sat && ot == 0
    && (it ≤ 1 || it == 15 || it == 14 || it == 11 || it == 12 || it == 13)
  else if op = 0x41 then !v.sat && (winTypesOk 0 it ot || winTypesOk 1 it ot || winTypesOk 2 it ot
    || winTypesOk 3 it ot) && (rm == 0 || ot == 11 || ot == 12 || ot == 13)
  else if op = 0x42 ∨ op = 0x43 then rm == 0 && !v.sat && it == ot
    && (it ≤ 3 || (11 ≤ it && it ≤ 15))
  else if op = 0x48 then !v.sat && it == 13 && (ot == 4 || ot == 5 || ot == 8 || ot == 9 || ot == 10)
  else false

/-- Whether the fields that an operation does not use are zero (R117). MO and BR, which the manual neither gives to nor withholds from VPLD, the
geometric operations and (BR) VKVP, are refused there as fields not used (log entry 82). -/
def vecUnusedOk (op : Nat) (v : VecSlot) : Bool :=
  let geo := decide (0x40 ≤ op ∧ op ≤ 0x43)
  let usesRec := op == 1 || op == 2 || geo
  let usesB := readsB op || usesRec
  (!v.mo || (v.srcA == 0 && op != 1 && !geo))
    && (usesB || v.srcB == 0) && (!usesRec || v.srcB.toNat < 1024)
    && (!v.br || (op != 1 && op != 0x48 && !geo))
    && (!(v.br || op == 1 || op == 0x48) || readsD op || v.dst == 0)
    && (op != 1 || v.len.toNat < 128) && (op != 0x21 || v.len.toNat % 32 == 31)

/-- Bytes of source a that an operation reads, the register of MO aside. -/
def srcABytes (op : Nat) (v : VecSlot) : Nat :=
  let n := lanesOf v
  let it := v.ity.toNat
  if v.mo then 0
  else if op = 1 then 16 * n
  else if op = 0x39 then 4
  else if op = 0x20 ∨ op = 0x40 then packedBytes (widthOf it) n
  else if op = 0x22 then packedBytes (widthOf it) n + if isBlockFmt it then ceilDiv n 32 else 0
  else 4 * n

/-- Bytes that an operation with lanes at DST writes (Tables 05.14, 06.4, 06.6). -/
def dstBytes (op : Nat) (g : Geo) (v : VecSlot) : Nat :=
  let n := lanesOf v
  let ot := v.oty.toNat
  if op = 1 ∨ op = 0x48 then 0
  else if op = 2 ∨ op = 0x20 then packedBytes (widthOf ot) n
  else if op = 0x21 then packedBytes (widthOf ot) n + n / 32
  else if 0x18 ≤ op ∧ op ≤ 0x1A then 4
  else if op = 0x40 then (if g.mode = 0 then 2 * (n / max g.ch 1) else 2)
  else if op = 0x41 then
    (if g.mode = 0 then 16 * g.param * n else if g.mode = 1 then 16 * n else if g.mode = 2 then 72 * n
     else 64 * n)
  else if op = 0x42 ∨ op = 0x43 then n * elemBytes v.ity.toNat
  else 4 * n

end Sys2Proof.Machine
end

