-- ==== Sys2Proof/Machine/VecCore.lean ====
section
/-! DEFINITION. Vector operations over their issue cycles: what they read, what they compute, the checks and the landings (R74-R80, R114,
R117-R119, R141-R147, R151, R155, R187-R190, R198, R454). -/

namespace Sys2Proof.Machine

/-- Bytes of activation SRAM (R93). -/
def actSize : Nat := 25165824

/-- A reserved encoding met at issue ends the job with ST_BAD_ARG, as R119 does for records (log entry 21). -/
def State.badOp (s : State) (j : Job) : State := s.endEarly j.id stBadArg

/-- A failure recorded in cycle `due`, now or as a landing (R131). -/
def State.failAt (s : State) (e : EngId) (j : Job) (due : Nat) (ev : FailEvent) : State :=
  if due ≤ s.now then s.landFail e j.id ev
  else s.updEng e fun g => { g with landings := g.landings ++ [{ due := due, job := j.id, eff := .fail ev }] }

/-- Effects that land in the cycles given; those due now land at once (R114). -/
def State.pend (s : State) (e : EngId) (j : Job) (vec : Bool) (l : List (Nat × LandEff)) : State :=
  l.foldl (fun s x =>
    if x.1 ≤ s.now then s.updEng e fun g => g.land x.1 vec x.2
    else s.updEng e fun g => { g with landings := g.landings ++ [{ due := x.1, job := j.id, vec := vec, eff := x.2 }] }) s

/-! What an operation reads. -/

/-- `n` addresses from `a` on. -/
def addrsFrom (a n : Nat) : List Nat := (List.range n).map (a + ·)

/-- The first place in a read order that falls in an uncorrectable word: one that stands in the memory, or one
that this operation finds (R99). -/
def badPlace (g : Engine) (f : Flt) (as : List Nat) : Option (Nat × Nat) :=
  let bad := fun a => g.mem.actBad.contains (a / 8 * 8) || f.uncorrectable == some (a / 8 * 8)
  (as.zipIdx.find? fun x => bad x.1).map fun x => (x.2, x.1 / 8 * 8)

/-- An uncorrectable activation word met by a read of the schedule (R99). -/
def actFail (f : Flt) (addr : Nat) : FailEvent :=
  { status := stMemUncorrectable, unitKind := 4, opClass := 7, mechs := [6], detail := BitVec.ofNat 32 addr
    dataClass := f.dataClass, bundle := f.bundle }

/-- Words corrected by the reads of an operation, counted (R98). -/
def State.corrected (s : State) (e : EngId) (act : Bool) (n : Nat) : State :=
  s.updEng e fun g => { g with mem := g.mem.corrected act n }

/-! What a vector operation computes. -/

/-- The addresses of source a in source order; none where a geometry record breaks a limit (R141). -/
def srcAAddrs (op : Nat) (g : Geo) (v : VecSlot) : Option (List Nat) :=
  if op = 0x41 then (winSpans g v).map fun l => l.flatMap fun x => addrsFrom x.1 x.2
  else if op = 0x42 ∨ op = 0x43 then
    (moveMap (op = 0x43) g v).map fun l => l.flatMap fun x => addrsFrom x.1 (elemBytes v.ity.toNat)
  else some (addrsFrom (lineAddr v.srcA.toNat) (srcABytes op v))

/-- Whether a vector operation takes its checks as an integer one (R188) rather than a floating one (R189). -/
def vecIsInt (op : Nat) (g : Geo) : Bool :=
  op ≤ 2 || (0x28 ≤ op && op ≤ 0x40) || op == 0x42 || op == 0x43 || (op == 0x41 && g.mode ≤ 1)

/-- The OP_CLASS of a vector operation (Table 08.5). -/
def vecClass (op : Nat) (g : Geo) : Nat :=
  if ¬ vecIsInt op g then 5 else if op = 0x41 then 6 else 4

/-- The lanes of source vectors of VWIN, from their bytes one after another. -/
def winLanes (w n : Nat) : Nat → List Byte → List (List Nat)
  | 0, _ => []
  | k + 1, bs =>
    let len := packedBytes w n
    unpackLanes w n (bs.take len) :: winLanes w n k (bs.drop len)

/-- Elements moved by VS2D or VD2S: source bytes in lane order, each element at its destination (R143, R144). -/
def moveRes (d2s : Bool) (v : VecSlot) (x : VecIn) : VecRes :=
  match moveMap d2s x.geo v with
  | none => { bad := true }
  | some l =>
    let sz := elemBytes v.ity.toNat
    let arr := x.a.toArray
    { effs := [.act (l.zipIdx.flatMap fun (p, i) =>
        (List.range sz).map fun k => (p.2 + k, arr.getD (i * sz + k) 0))] }

/-- Whether every address of a list lies in activation SRAM (R93). -/
def inAct (as : List Nat) : Bool := as.all fun a => decide (a < actSize)

/-- Whether every cell an operation writes lies in activation SRAM. -/
def landsInAct (l : List LandEff) : Bool := l.all fun x => match x with
  | .act ws => ws.all fun c => decide (c.1 < actSize)
  | _ => true

/-- What an operation code makes of what it works on (Table 05.14). -/
def vecRun (op : Nat) (v : VecSlot) (x : VecIn) : VecRes := match op with
  | 0x01 => vpldRes v x.a
  | 0x02 => reqRes v x.accs x.params
  | 0x08 => binRes v (fpAdd v.rm.toNat) x.a x.b
  | 0x09 => binRes v (fpSub v.rm.toNat) x.a x.b
  | 0x0A => binRes v (fpMul v.rm.toNat) x.a x.b
  | 0x0B => triRes v (fpFma v.rm.toNat) x.a x.b x.d
  | 0x0C => binRes v (fun a b => { code := fpMax a b }) x.a x.b
  | 0x0D => binRes v (fun a b => { code := fpMin a b }) x.a x.b
  | 0x10 => unRes v fpExp2 x.a
  | 0x11 => unRes v fpLog2 x.a
  | 0x12 => unRes v fpRcp x.a
  | 0x13 => unRes v fpRsqrt x.a
  | 0x18 => reduceRes v (sumNode v.rm.toNat) x.a
  | 0x19 => reduceRes v (fun p q => { code := fpMax p.code q.code }) x.a
  | 0x1A => reduceRes v (fun p q => { code := fpMin p.code q.code }) x.a
  | 0x20 => vcvtRes v x.a
  | 0x21 => vcvtmxRes v x.a
  | 0x22 => vextRes v x.a
  | 0x38 => triRes v (fun a b d => { code := if d = 0 then b else a }) x.a x.b x.d
  | 0x39 => laneRes v 32 (List.replicate (lanesOf v) { code := field x.a 0 4 })
  | 0x40 => vargmaxRes x.geo v x.arg x.a
  | 0x41 => match winSpans x.geo v with
    | none => { bad := true }
    | some l => vwinRes x.geo v (winLanes (widthOf v.ity.toNat) (lanesOf v) l.length x.a)
  | 0x42 => moveRes false v x
  | 0x43 => moveRes true v x
  | 0x48 => vkvpRes v x.fmt x.dim x.sigma x.a
  | _ => binRes v (intLane op v.rm.toNat v.sat) x.a x.b

/-- Whether the lines of every 2,048 bytes of a list of addresses lie in different banks, each counted once (R95, R142, Table 04.4). -/
def chunksApart : Nat → List Nat → Bool
  | 0, _ => true
  | n + 1, as => decide (((as.take 2048).map (· / 64)).eraseDups.map (· % 64)).Nodup && chunksApart n (as.drop 2048)

/-- The addresses that landings write in activation SRAM. -/
def landAddrs (l : List LandEff) : List Nat := l.flatMap fun x => match x with
  | .act ws => ws.map Prod.fst
  | _ => []

/-! The checks of a vector operation (R188, R189, R198, R454). -/

/-- The mechanisms whose failure an operation meets in its landing cycle (R188); 14 stands for the SEC-DED of the parameter file, the
append register and the argmax pair register, which a record names as MECHANISM 6. -/
def vecMechs (op : Nat) (g : Geo) : List Nat :=
  if ¬ vecIsInt op g then []
  else (if op = 1 ∨ (0x2B ≤ op ∧ op ≤ 0x30) ∨ op = 0x38 ∨ op = 0x39 ∨ op = 0x42 ∨ op = 0x43 then [5] else [3])
    ++ if op = 2 ∨ 0x40 ≤ op then [14] else []

/-- Whether lane `l` is repeated by a shadow lane in one of the `k` issue cycles from `t` on (R189). -/
def shadowed (t k l : Nat) : Bool := (List.range k).any fun i => l % 16 = (t + i) % 16

/-- Whether a lane of packed elements holds the largest magnitude of its format (R198). -/
def lanesLargest (c n : Nat) (bs : List Byte) : Bool := (unpackLanes (widthOf c) n bs).any (largest c)

/-- EXTREME of a vector operation (R198): its operands' format is that of Table 05.24; a move of lanes has none. -/
def vecExtreme (op : Nat) (v : VecSlot) (x : VecIn) : Bool :=
  let n := lanesOf v
  let each := fun (c : Nat) => lanesLargest c n x.a || lanesLargest c n x.b || lanesLargest c n x.d
  if op = 2 then (if v.mo then x.accs.any (· = -(2 ^ 95)) else lanesLargest 14 n x.a)
  else if op = 1 ∨ op = 0x38 ∨ op = 0x39 then false
  else if op = 0x20 ∨ op = 0x22 ∨ (0x40 ≤ op ∧ op ≤ 0x43) then lanesLargest v.ity.toNat (x.a.length * 8 / widthOf v.ity.toNat) x.a
  else if 0x28 ≤ op ∧ op ≤ 0x35 then each 14
  else each 13

/-- What a failing vector operation records (R188, R189, R454). -/
def vecFail (g : Engine) (o : VecOpen) (x : VecIn) (mechs : List Nat) (lane : Nat) (zeroFrom : Option Nat) : FailEvent :=
  let bits := x.a ++ x.b ++ x.d
  let named := mechs.map fun m => if m = 14 then 6 else m
  { status := stCheckMismatch, unitKind := 1, opClass := vecClass o.op x.geo, mechs := named
    detail := detailOf named (BitVec.ofNat 32 lane)
    dataClass := dataClassOf g.pathVec bits bits (vecExtreme o.op o.v x), bundle := o.flt.bundle, zeroFrom := zeroFrom }

/-! The issue cycles of a vector operation. -/

/-- What a vector operation works on, once every source byte has been read. -/
def VecOpen.input (o : VecOpen) : VecIn :=
  { o.x with
    a := if o.v.mo then o.x.a else o.got.take o.na
    b := (o.got.drop o.na).take o.nb
    d := o.got.drop (o.na + o.nb)
    accs := if o.v.mo then o.x.accs else (unpackLanes 32 (lanesOf o.v) (o.got.take o.na)).map s32 }

/-- The issue cycles of a vector operation that lands in cycle `due`, `first` being the first (R118). -/
def VecOpen.cycles (o : VecOpen) (first : Nat) : Nat := o.due + 1 - vecLatency o.op - first

/-- A vector operation that has read its sources: its landings, or the failure of its checks (R117, R118, R146, R188-R190). A record that
breaks a limit, R95 for the lines of an operation that takes them from one among them, ends the job (R119, R141, R142). -/
def State.vecFinish (s : State) (e : EngId) (j : Job) (o : VecOpen) : State :=
  let x := o.input
  let r := vecRun o.op o.v x
  let f := o.flt
  let g := s.eng[e]
  let as := landAddrs r.effs
  if r.bad ∨ ¬ landsInAct r.effs ∨ ((0x40 ≤ o.op ∧ o.op ≤ 0x43) ∧ ¬ chunksApart (as.length / 2048 + 1) as) then s.badOp j
  else
    let s := (s.corrected e true f.corrected).updEng e fun g => { g with pathVec := x.a ++ x.b ++ x.d }
    let effs := (r.effs.map fun y => (o.due, y)) ++ [(o.due, LandEff.arith r.flags r.sats)]
    let lane := f.detail.toNat % lanesOf o.v
    let atLand := f.mechs.filter (vecMechs o.op x.geo).contains
    match r.failLane with
    | some l => s.failAt e j o.due (vecFail g o x (13 :: atLand) (if atLand.isEmpty then l else lane) none)
    | none =>
      if ¬ atLand.isEmpty then s.failAt e j o.due (vecFail g o x atLand lane none)
      else
        let s := s.pend e j true effs
        if f.mechs.contains 4 ∧ ¬ vecIsInt o.op x.geo ∧ shadowed o.first (o.cycles o.first) lane then
          s.failAt e j (o.due + 2) (vecFail g o x [4] lane (some o.due))
        else s

/-- One issue cycle of a vector operation: its next 2,048 source bytes as they stand (R118). After the last it lands. -/
def State.vecStep (s : State) (e : EngId) (j : Job) (o : VecOpen) : State :=
  let g := s.eng[e]
  let as := o.rest.take 2048
  match badPlace g o.flt as with
  | some (_, w) => s.failAt e j s.now (actFail o.flt w)
  | none =>
    let o := { o with got := o.got ++ g.unitGets s.now as, rest := o.rest.drop 2048 }
    if o.rest.isEmpty then s.vecFinish e j o else s.pend e j true [(s.now + 1, .vecRead o)]

end Sys2Proof.Machine
end

