-- ==== Sys2Proof/Machine/Land.lean ====
section
/-! DEFINITION. What comes about as time passes: landings in their cycles, the report of a job's end, re-runs, the KV append, and
`advance`, which every step does first (R36, R50, R114, R118, R128, R131, R172, R194-R196, R222). -/

namespace Sys2Proof.Machine

/-- Whether a landing is a beat that has left its engine: the end of its job does not hold it back (R131). -/
def LandEff.sent : LandEff → Bool
  | .arrive _ _ _ _ _ _ => true
  | _ => false

/-- One landing takes effect in its cycle `d`, unless its job's ending cycle lies before (R131). -/
def State.land (s : State) (e : EngId) (l : Landing) : State :=
  let s := s.moveTo l.due
  let dropped := match s.job? l.job with
    | some j => match j.early with
      | some (c, _) => decide (c < l.due) && !l.eff.sent
      | none => false
    | none => false
  if dropped then s else
  match l.eff with
  | .beat r last note bs => match s.job? l.job with
    | some j => s.landBeat e j l.due r last note bs
    | none => s
  | .arrive t a bs last p notify => s.arrived l.job t a bs last p notify l.due
  | .note n c => match s.job? l.job with
    | some j => s.pghNotify j.part n c l.due
    | none => s
  | .vecRead o => match s.job? l.job with
    | some j => s.vecStep e j o
    | none => s
  | .fail ev => s.landFail e l.job ev
  | x => s.updEng e fun g => g.land l.due l.vec x

/-- The order of landings of one cycle: registers and unit port, then what the vector unit reads (R114), then the side port (R96), then
failures. -/
def effRank : LandEff → Nat
  | .vecRead _ => 1
  | .beat _ _ _ _ => 2
  | .arrive _ _ _ _ _ _ => 2
  | .note _ _ => 2
  | .fail _ => 3
  | _ => 0

/-- A landing put in its place among landings in order of cycle, rank and issue. -/
def insertLanding (x : EngId × Landing) : List (EngId × Landing) → List (EngId × Landing)
  | [] => [x]
  | y :: l =>
    if x.2.due < y.2.due ∨ (x.2.due = y.2.due ∧ effRank x.2.eff < effRank y.2.eff) then x :: y :: l
    else y :: insertLanding x l

/-- The landings due by cycle `t` of every engine, in order. -/
def State.dueBy (s : State) (t : Nat) : List (EngId × Landing) :=
  let all := engines.flatMap fun e => (s.eng[e].landings.filter fun l => decide (l.due ≤ t)).map fun l => (e, l)
  all.foldl (fun acc x => insertLanding x acc) []

/-- The landings due by cycle `t` take effect. -/
def State.settle (s : State) (t : Nat) : State :=
  let due := s.dueBy t
  let s := engines.foldl (fun s e => s.updEng e fun g =>
    { g with landings := g.landings.filter fun l => !decide (l.due ≤ t) }) s
  due.foldl (fun s x => s.land x.1 x.2) s

/-- The first cycle up to `t` in which a landing is due. -/
def State.nextDue (s : State) (t : Nat) : Option Nat :=
  (engines.flatMap fun e => (s.eng[e].landings.map Landing.due).filter (· ≤ t)).foldl (fun m d => match m with
    | none => some d
    | some x => some (min x d)) none

/-- The landings due by cycle `t` take effect, cycle by cycle, with those that they bring about; at most `n` cycles. -/
def State.settleUpTo : Nat → Nat → State → State
  | 0, t, s => s.settle t
  | n + 1, t, s => match s.nextDue t with
    | none => s
    | some c => settleUpTo n t (s.settle c)

/-- How many landings are due by cycle `t`. -/
def State.dueCount (s : State) (t : Nat) : Nat :=
  (engines.map fun e => (s.eng[e].landings.filter fun l => decide (l.due ≤ t)).length).sum

/-! The end of jobs. -/

/-- The status of a job's end (R43, R180, R450). -/
def Job.status (j : Job) : Status := match j.early with
  | some (_, st) => st
  | none => if j.missed then stDeadlineMiss else j.kvStatus.getD stOk

/-- The cycle from which the host reads the status row of a job that ended in cycle `c` (R222, R29): the cycle after the last result row is
readable, or 12 cycles after the end where no result row is under way. -/
def Job.statusSeen (j : Job) (c : Nat) : Nat :=
  if j.early.isNone ∧ c ≤ j.rowEnd then j.rowEnd + 1 else max (c + 12) (j.rowEnd + 1)

/-- The report of a job's end (R222, R393): a host-port job's status row, or its TEST_KAT's next kernel. -/
def State.report (s : State) (j : Job) (at' : Nat) : State := match j.source with
  | .window w row tag => s.jobRow w row j.status tag at' 0 j.sealEntry (j.statusSeen at')
  | .kat m k => s.katEnded m k j.status at'
  | _ => s

/-- The sequencer after a job has left it, free from a cycle on. -/
def Sequencer.freed (q : Sequencer) (at' : Nat) : Sequencer := { freeFrom := max q.freeFrom at', testUntil := q.testUntil }

/-- The rows of the staging pages that the descriptors of a job hold: those in the page queue, and that which its walk has prefetched and not
yet emitted (R175). -/
def Engine.stagedFor (g : Engine) (id : Nat) : List Nat :=
  let mine := (g.pageQueue ++ (match g.walk with
    | some w => w.todo.take 1
    | none => [])).filter fun d => d.job = id && d.isStaged && decide (d.pageRow < 8192)
  mine.map KvDesc.pageRow

/-- What an engine drops of a job that is over: its page descriptors and walk; after an early end also its
landings, messages and transfers, and then it takes its next job from `c` + 16 on (R131). -/
def Engine.forget (g : Engine) (id : Nat) (early : Option Nat) : Engine :=
  let g := { g with
    pageQueue := g.pageQueue.filter fun d => d.job ≠ id
    walk := g.walk.filter fun w => w.job ≠ id
    staging := g.staging.filter fun x => !(g.stagedFor id).contains x.2.1 }
  match early with
  | none => if g.seq.job = some id then { g with seq := g.seq.freed 0 } else g
  | some c =>
    let g := { g with landings := g.landings.filter fun l => decide (l.job ≠ id) || l.eff.sent }
    if g.seq.job = some id then { g with seq := { g.seq.freed (c + 16) with testUntil := 0 } }
    else if g.seq.job.isNone then { g with seq := { g.seq with freeFrom := max g.seq.freeFrom (c + 16) } }
    else g

/-- The retained trigger data written where a re-run on the engines `es` finds it: on the engine that its window resolves to among them, or in
the region; none where there is no such engine (R196, R250). -/
def State.putKept (s : State) (j : Job) (es : List EngId) (logical : Option Nat) (addr : Nat) : Option State :=
  match logical with
  | none => some (s.updPart j.part fun q => regionWrite q addr j.kept)
  | some i => (es[i]?).map fun t => (s.sideWrite t addr j.kept).1

/-- The re-run of a mismatched job (R195, R196, R250), if all its conditions hold: the state with the new job. -/
def State.rerun (s : State) (j : Job) (c : Nat) : Option State :=
  match j.early, s.sched? j.sched, j.failedOn, j.source, j.keptAct with
  | some (_, st), some k, some bad, .fabric _ _ _ _ _, some (logical, addr) =>
    if st ≠ stCheckMismatch ∨ j.isRerun ∨ ¬ k.rerunOk ∨ j.delivered ∨ j.kept.isEmpty ∨ k.suspended then none
    else
      let es := (s.live j.part).filter (· ≠ bad)
      match s.putKept j es logical addr with
      | none => none
      | some s' =>
        match s'.takeJob
          { sched := j.sched, part := j.part, cls := j.cls, engines := es, w := k.rerunW, t0 := c, last := j.last
            offset := 11, source := j.source, kvSeq := j.kvSeq, image := k.rerun, isRerun := true } (some (c + 9)) with
        | .inl _ => none
        | .inr (s, _) =>
          match j.engines.head? with
          | none => some s
          | some home => some (s.updEng home fun g => { g with chkStatus := setBit g.chkStatus 8 })
  | _, _, _, _, _ => none

/-- The credit blocks that a message of `n` bytes takes, in packets of at most 4,096 bytes (R255). -/
def msgBlocks (n : Nat) : Nat :=
  n / 4096 * creditBlocks 4096 + if n % 4096 = 0 then 0 else creditBlocks (n % 4096)

/-- The port and the context that a FABRIC route of a job reaches, while its window stands (R251). -/
def State.outCtx (s : State) (j : Job) (r : RouteEntry) : Option Ctx :=
  match s.win? r.window with
  | none => none
  | some w => if w.part ≠ j.part ∨ w.kind ≠ .remote then none else s.ctxNum? w.part w.ctx

/-- The bytes of a job's message on a route that have been handed over, or are about to be, without its end (R120). -/
def Engine.unsent (g : Engine) (id route : Nat) : Nat :=
  (if g.seq.job = some id then ((g.seq.msgs.find? fun m => m.route = route).map OpenMsg.sent).getD 0 else 0)
    + (g.landings.map fun l => match l.eff with
      | .beat r _ _ bs => if l.job = id ∧ r = route then bs.length else 0
      | _ => 0).sum

/-- The credit that the unfinished messages of a job hold, and that a held beat has been given, goes back to their contexts: nothing of them
is sent (R131, R255). -/
def State.returnUnsent (s : State) (j : Job) : State :=
  if s.isStandby then s
  else j.engines.foldl (fun s e => (imageOn j e).routes.zipIdx.foldl (fun s (r, i) =>
    let n := msgBlocks (s.eng[e].unsent j.id i) + match s.eng[e].seq.granted with
      | some (k, held) => if s.eng[e].seq.job = some j.id ∧ k = i then held else 0
      | none => 0
    if r.kind ≠ 1 ∨ n = 0 then s
    else match s.outCtx j r with
      | none => s
      | some c => s.updCtx c.link fun c => { c with outCredit := c.outCredit + n }) s) s

/-- The close of a job that ended early in cycle `c` (R131, R194-R196). -/
def State.closeEarly (s : State) (j : Job) (c : Nat) : State :=
  let s := s.returnUnsent j
  let s := j.engines.foldl (fun s e => s.updEng e fun g => g.forget j.id (some c)) s
  let s := (s.dropAlloc j)
  let s := { s with jobs := s.jobs.filter fun x => x.id ≠ j.id }
  match s.rerun j c with
  | some s => s
  | none =>
    let st := j.status
    let home := j.engines.head?
    let stop := hasBit (s.policy home (j.cls.getD 0)) 0 && j.cls.isSome
    let s := if (st = stCheckMismatch ∨ st = stMemUncorrectable) ∧ stop ∧ ¬ j.missed then s.recordMiss j c else s
    s.report j c

/-- The KV append of a job whose engines have all ended (R172). Its walk is then held no longer (R161, R163). -/
def State.kvAppend (s : State) (j : Job) : State :=
  match j.walkGen with
  | none => s
  | some gen =>
    let s := s.updJob j.id fun j => { j with walkGen := none, alloc := [] }
    let s := j.engines.foldl (fun s e => s.updEng e fun g =>
      { g with pageQueue := g.pageQueue.filter (fun d => d.job ≠ j.id), walk := g.walk.filter (fun w => w.job ≠ j.id)
               staging := g.staging.filter fun x => !(g.stagedFor j.id).contains x.2.1 }) s
    let q := s.part[j.part].kv.seq j.kvSeq
    if gen < q.editGen then
      ((s.dropAlloc j).updKv j.part fun k => { k with event := setBit k.event 1 }).updJob j.id
        fun j => { j with kvStatus := some stKvEdited }
    else if j.kvStatus.isSome ∨ q.state ≠ 1 then s.dropAlloc j
    else
      let at' := (j.ends.map Prod.snd).foldl max 0 + 1
      s.updKv j.part fun k =>
        let lists := j.alloc.foldl (fun ls (a : EngId × Nat × Nat) =>
          assocSet a.2.1 ((assoc a.2.1 ls).getD [] ++ [PageRef.resident a.1 a.2.2]) ls) q.lists
        let pages := lists.foldl (fun ps l => match l.2.getLast? with
          | some (.resident e f) => assocSet (e, f) (PageUse.owned at') ps
          | _ => ps) k.pages
        { (k.setSeq { q with length := q.length + 1, lists := lists }) with pages := pages }

/-- A job leaves the engines on which it has ended (R50): busy-until is then the cycle after END where no other
job counts, and bundle 0 of the next job issues two cycles after END at the earliest (R128). -/
def State.leaveEnded (s : State) (j : Job) : State :=
  (j.ends.filter fun x => j.counting.contains x.1 && decide (x.2 < s.now)).foldl (fun s x =>
    ((s.updJob j.id fun j => { j with counting := j.counting.filter (· ≠ x.1) }).idleEng x.1 (x.2 + 1)).updEng x.1
      fun g => if g.seq.job = some j.id then { g with seq := g.seq.freed (x.2 + 2) } else g) s

/-- Whether every engine of a job has issued END before cycle `t`. -/
def Job.allEnded (j : Job) (t : Nat) : Bool := j.engines.all fun e => (assoc e j.ends).any fun c => decide (c < t)

/-- What the passing of time does to one job. -/
def State.passJob (s : State) (id : Nat) : State :=
  match s.job? id with
  | none => s
  | some j => match j.early with
    | some (c, _) => if c < s.now then s.closeEarly j c else s
    | none =>
      let s := s.leaveEnded j
      if j.allEnded (s.now - 1) then s.kvAppend j else s

/-- Disarmed schedules are freed after the last of their jobs (R135). -/
def State.dropDisarmed (s : State) : State :=
  { s with scheds := s.scheds.filter fun c => !c.disarming || s.jobs.any fun j => j.sched = c.handle }

/-- Time moves to the postmark `t`: what is due by then has come about. Every step does this first. -/
def State.advance (s : State) (t : Nat) : State :=
  let n := max s.now t
  let s := s.rewriteStatus.finishAborts n
  let s := s.settleUpTo (40 * s.dueCount n) n
  let s := s.moveTo n
  ((s.jobs.map Job.id).foldl State.passJob s).dropDisarmed.passSweeps.passEject

end Sys2Proof.Machine
end

