-- ==== Sys2Proof/Machine/Operands.lean ====
section
/-! DEFINITION. What every engine operation shares: the job that issues, the bytes it reads in the cycles it reads
them, the landings it leaves, and the ways it fails (R10, R31, R97-R99, R114, R118, R119, R125, R127, R187-R192). -/

namespace Sys2Proof.Machine

/-! The job that issues. -/

/-- Whether a sequencer can issue in this cycle: it stands at no wait point and in no test window. The bundle
that carries a WAIT or WAITL issues its other slots at once; one held for credit issues none (R125, R127). -/
def Sequencer.issues (q : Sequencer) (now : Nat) : Bool :=
  (q.testUntil = 0 || decide (q.testUntil < now)) && (q.heldTo = 0 || decide (q.heldTo < now)) && match q.wait with
    | none => true
    | some (.pgh _ _ issued _) => issued = now
    | some (.xfers issued _) => issued = now
    | some (.egress _ _ _ _ _ _) => false

/-- The job whose bundles an engine issues in this cycle. -/
def State.issuing (s : State) (e : EngId) : Option Job :=
  if ¬ s.eng[e].seq.issues s.now then none
  else match s.running e with
    | none => none
    | some j => if j.started.isNone then none else match j.early with
      | none => some j
      | some (c, _) => if s.now ≤ c then some j else none

/-- A disagreement of the sequencer's shadow, found in the same cycle (R192). -/
def seqFail (f : Flt) : FailEvent :=
  { status := stCheckMismatch, unitKind := 2, opClass := 13, mechs := [8], detail := 0, dataClass := f.dataClass
    bundle := f.bundle }

/-- An uncorrectable word of program or table memory (R192, Table 08.15). -/
def progFail (f : Flt) : FailEvent :=
  { status := stMemUncorrectable, unitKind := 2, opClass := 13, mechs := [6], detail := f.detail
    dataClass := f.dataClass, bundle := f.bundle }

/-- An operation of engine `e` in cycle `t`: it takes place for the job that issues, if one does. What the sequencer's shadow or the
SEC-DED of program and table memory finds as its bundle is fetched is recorded in the same cycle (R192). -/
def State.engineOp (s : State) (t : Nat) (e : EngId) (f : Flt) (k : State → Job → State) : State :=
  let s := s.advance t
  match s.issuing e with
  | none => s
  | some j =>
    let s := if f.mechs.contains 8 then s.landFail e j.id (seqFail f) else s
    k (if f.mechs.contains 6 then s.landFail e j.id (progFail f) else s) j

/-! What an operation reads. -/

/-- An uncorrectable store row met by a read of the schedule (R99). -/
def rowFail (f : Flt) (row : Nat) : FailEvent :=
  { status := stMemUncorrectable, unitKind := 3, opClass := 7, mechs := [6], detail := BitVec.ofNat 32 row
    dataClass := f.dataClass, bundle := f.bundle }

/-! The matrix output register as source a (Table 05.13). -/

/-- Lane `i` of the matrix output register as an ACC96 value; a register in the other form, or undefined after
a test window, gives a free value (R72, R127; log entry 22). -/
def MatOut.acc (m : MatOut) (free : Nat) (i : Nat) : Int := match m.seed with
  | some n => (BitVec.ofNat 96 (leNat ((List.range 12).map fun k => Config.freeByte n (12 * i + k)))).toInt
  | none =>
    if m.fp32 then (BitVec.ofNat 96 (leNat ((List.range 12).map fun k => Config.freeByte free (12 * i + k)))).toInt
    else (m.cells.getD i {}).val.toInt

/-- Lane `i` of the matrix output register as an FP32 code; as for `MatOut.acc` in the other cases. -/
def MatOut.word (m : MatOut) (free : Nat) (i : Nat) : Nat := match m.seed with
  | some n => leNat ((List.range 4).map fun k => Config.freeByte n (4 * i + k))
  | none =>
    if m.fp32 then (m.words.getD i 0).toNat
    else leNat ((List.range 4).map fun k => Config.freeByte free (4 * i + k))

/-- The argmax pair register as an operation reads it: free values after a test window (R152). -/
def ArgPair.read (p : ArgPair) : ArgPair := match p.seed with
  | none => p
  | some n =>
    { p with
      val := BitVec.ofNat 32 (leNat ((List.range 4).map (Config.freeByte n)))
      idx := BitVec.ofNat 16 (leNat ((List.range 2).map fun i => Config.freeByte n (4 + i))), seed := none }

/-- Element code `i` of the append register: a free value where a test window left it undefined (R127). -/
def AppendReg.code (r : AppendReg) (i : Nat) : Byte := match r.codes[i]? with
  | some c => c
  | none => match r.seed with
    | none => 0
    | some n => Config.freeByte n i

/-! Vector operations (R117-R119). -/

/-- The mode of VWIN and its formats (Table 06.6). -/
def winFieldsOk (op : Nat) (g : Geo) (v : VecSlot) : Bool :=
  op ≠ 0x41 || (winTypesOk g.mode v.ity.toNat v.oty.toNat && (decide (1 < g.mode) || v.rm == 0))

/-- The source bytes of a vector operation with geometry record `geo`, in source order: all of a, then of b, then of d (R118; log
entry 74). The second and third parts count those of a and of b. -/
def vecSources (op : Nat) (geo : Geo) (v : VecSlot) : Option (List Nat × Nat × Nat) :=
  (srcAAddrs op geo v).map fun as =>
    let bs := if readsB op then addrsFrom (lineAddr v.srcB.toNat) (4 * lanesOf v) else []
    let ds := if readsD op then addrsFrom (lineAddr v.dst.toNat) (4 * lanesOf v) else []
    (as ++ bs ++ ds, as.length, bs.length)

/-- A vector operation (R117, R118): its fields and its record are checked as it issues, and its issue cycles begin. A VEC slot that the
operation before still holds cannot issue another: the image would break R118 (log entry 26). -/
def State.vecOp (s : State) (t : Nat) (e : EngId) (op : Nat) (v : VecSlot) (f : Flt) : State :=
  s.engineOp t e f fun s j =>
    let g := s.eng[e]
    let geo := if 0x40 ≤ op ∧ op ≤ 0x43 then geoOf g.params v else ⟨0, 0, 0, 0, 0, 0, 0⟩
    let n := lanesOf v
    match vecSources op geo v with
    | none => s.badOp j
    | some (all, na, nb) =>
      if ¬ vecFieldsOk op v ∨ ¬ vecUnusedOk op v ∨ ¬ inAct all ∨ ¬ winFieldsOk op geo v ∨ s.now < g.seq.vecFrom
          ∨ ((0x40 ≤ op ∧ op ≤ 0x43) ∧ ¬ chunksApart (all.length / 2048 + 1) all) then s.badOp j
      else
        let k := max 1 (max (ceilDiv all.length 2048) (ceilDiv (dstBytes op geo v) 2048))
        let (free, s) := if v.mo ∧ (g.matOut.fp32 = decide (op = 2)) then s.fresh else (0, s)
        let pool := s.part[j.part].kv
        let x : VecIn :=
          { a := if v.mo then (List.range n).flatMap fun i => natLe (g.matOut.word free i) 4 else []
            accs := if v.mo then (List.range n).map (g.matOut.acc free) else []
            params := g.params, geo := geo, arg := g.argmax.read, fmt := pool.fmt, dim := pool.d, sigma := pool.sigma }
        (s.updEng e fun g => { g with seq := { g.seq with vecFrom := s.now + k } }).vecStep e j
          ⟨op, v, f, x, [], all, na, nb, s.now, s.now + k - 1 + vecLatency op⟩

end Sys2Proof.Machine
end

