-- ==== Sys2Proof/Machine/Package.lean ====
section
/-! DEFINITION. The form of schedule packages, variants and images (R103, R104, R106-R110, Tables 05.1-05.6). -/

namespace Sys2Proof.Machine

/-- A variant of a package (Table 05.2). -/
structure Variant where
  engines : Nat
  w : Nat
  images : List Image
  deriving DecidableEq, Repr

/-- The least multiple of `m` at or above `n`. -/
def alignUp (m n : Nat) : Nat := ceilDiv n m * m

/-- A list of entries of a size, one after another. -/
def parseTable {α : Type} (bs : List Byte) (off size : Nat) (f : List Byte → Option α) : Nat → Option (List α)
  | 0 => some []
  | n + 1 => match f ((bs.drop off).take size), parseTable bs (off + size) size f n with
    | some x, some xs => some (x :: xs)
    | _, _ => none

/-- A shape entry (R107, Table 05.4). -/
def parseShape (b : List Byte) : Option TileShape :=
  let t : TileShape := ⟨field b 0 1, field b 2 2, field b 4 2⟩
  let four : Bool := t.fmt = 9 || t.fmt = 10
  let half : Bool := t.fmt = 11 || t.fmt = 12
  if (t.fmt = 0 ∨ 2 ≤ t.fmt ∧ t.fmt ≤ 12) ∧ 1 ≤ t.kt ∧ t.kt ≤ (if four then 768 else 384) ∧ 1 ≤ t.nt
      ∧ t.nt ≤ (if half then 192 else 384) ∧ field b 6 1 = tileRows t ∧ field b 1 1 = 0 ∧ field b 7 1 = 0
  then some t else none

/-- A loop entry (R108, Table 05.5). -/
def parseLoop (b : List Byte) : Option LoopEntry :=
  let c := field b 4 4
  if 1 ≤ c ∧ c ≤ 1048576 ∧ field b 8 4 = 0 ∧ field b 44 4 = 0 ∧ field b 0 2 ≤ field b 2 2 then
    some ⟨field b 0 2, field b 2 2, c, (List.range 8).map fun k => sgn 32 (field b (12 + 4 * k) 4)⟩
  else none

/-- A pigeonhole-handle entry (R109). -/
def parseHandle (b : List Byte) : Option (Nat × Nat) :=
  if field b 2 2 = 0 then some (field b 0 2, field b 4 4) else none

/-- A test-window entry (R109). -/
def parseWindow (b : List Byte) : Option Nat :=
  let n := field b 0 1
  if 1 ≤ n ∧ n ≤ 31 ∧ field b 1 3 = 0 then some n else none

/-- A route entry (R110, Table 05.6); `engines` and `own` are ENGINES of the variant and the image's own logical
engine. -/
def parseRoute (engines own : Nat) (b : List Byte) : Option RouteEntry :=
  let r : RouteEntry := ⟨field b 0 1, field b 1 1, field b 2 2, field b 4 4, field b 8 2, field b 12 4⟩
  let none' : Bool := r.notify = 0xFFFF
  let len : Bool := r.bound % 64 = 0 && 64 ≤ r.bound && r.bound ≤ 65536
  let good : Bool := match r.kind with
    | 1 => r.target ≤ 7 && r.offset % 64 = 0
    | 2 => r.target = 0 && r.window ≤ 15 && r.offset % 64 = 0 && none' && r.bound = 0
    | 3 => decide (r.target < engines) && r.target ≠ own && r.window = 0 && r.offset % 64 = 0 && r.offset < 25165824 && r.bound = 0
    | 4 => r.target = 0 && r.window = 0 && none' && len
    | 5 => r.target = 0 && r.window = 0 && none' && len
    | _ => false
  if field b 10 2 = 0 ∧ good then some r else none

/-- The bytes of an image's header and tables, padding to 32 bytes included (R106). -/
def tablesEnd (shapes loops pghs routes windows : Nat) : Nat :=
  alignUp 32 (64 + 8 * shapes + 48 * loops + 8 * pghs + 16 * routes + 4 * windows)

/-- An image of logical engine `own` of a variant, and the offset at which it ends (R106, Table 05.3). -/
def parseImage (bs : List Byte) (engines own : Nat) : Option (Image × Nat) :=
  let ns := field bs 5 1
  let nb := field bs 6 2
  let nl := field bs 8 2
  let np := field bs 10 2
  let nr := field bs 12 2
  let nw := field bs 14 1
  let fl := field bs 15 1
  let tabs := 64 + 8 * ns + 48 * nl + 8 * np + 16 * nr + 4 * nw
  let start := tablesEnd ns nl np nr nw
  let stop := start + 32 * nb
  if field bs 0 4 ≠ stop ∨ bs.length < stop ∨ field bs 4 1 ≠ own ∨ 64 < ns ∨ nb = 0 ∨ 32768 < nb ∨ 256 < nl ∨ 1024 < np
      ∨ 1024 < nr ∨ 255 < nw ∨ 4 ≤ fl ∨ field bs 19 1 ≠ 0 ∨ field bs 23 1 ≠ 0 ∨ field bs 32 32 ≠ 0
      ∨ ¬ allZero ((bs.drop tabs).take (start - tabs)) then none
  else
    match parseTable bs 64 8 parseShape ns, parseTable bs (64 + 8 * ns) 48 parseLoop nl,
      parseTable bs (64 + 8 * ns + 48 * nl) 8 parseHandle np,
      parseTable bs (64 + 8 * ns + 48 * nl + 8 * np) 16 (parseRoute engines own) nr,
      parseTable bs (64 + 8 * ns + 48 * nl + 8 * np + 16 * nr) 4 parseWindow nw with
    | some shapes, some loops, some pghs, some routes, some windows =>
      some ({ logical := own, flags := fl, preARow := field bs 16 2, preAShape := field bs 18 1
              preBRow := field bs 20 2, preBShape := field bs 22 1, tail := field bs 24 4, wEngine := field bs 28 4
              shapes := shapes, loops := loops, pghs := pghs, routes := routes, windows := windows
              bundles := (List.range nb).map fun i => field bs (start + 32 * i) 32 }, stop)
    | _, _, _, _, _ => none

/-- The images of logical engines `own` onward of a variant of `engines`, the padding between them zero (R103), and the
offset at which the last ends. -/
def parseImages (bs : List Byte) (engines : Nat) : Nat → Nat → Nat → Option (List Image × Nat)
  | 0, _, off => some ([], off)
  | k + 1, own, off =>
    let at' := alignUp 64 off
    if ¬ allZero ((bs.drop off).take (at' - off)) then none
    else match parseImage (bs.drop at') engines own with
      | none => none
      | some (m, len) => (parseImages bs engines k (own + 1) (at' + len)).map fun x => (m :: x.1, x.2)

/-- A variant of a package (R103, R104, Table 05.2). -/
def parseVariant (bs : List Byte) (i : Nat) : Option Variant :=
  let b := (bs.drop (64 + 16 * i)).take 16
  let n := field b 0 1
  let off := field b 8 4
  if n = 0 ∨ 6 < n ∨ field b 1 3 ≠ 0 ∨ off % 64 ≠ 0 ∨ bs.length < off then none
  else match parseImages bs n n 0 off with
    | none => none
    | some (ms, stop) =>
      let w := (ms.map Image.wEngine).foldl max 0
      if stop ≠ off + field b 12 4 ∨ bs.length < stop ∨ field b 4 4 ≠ w then none else some ⟨n, w, ms⟩

/-- Whether numbers strictly decrease. -/
def decreasing : List Nat → Bool
  | a :: b :: l => decide (b < a) && decreasing (b :: l)
  | _ => true

/-- The variants of a package, where it is well formed and its digest matches (R103, R104, Table 05.1). -/
def parsePackage (bs : List Byte) : Option (List Variant) :=
  let n := field bs 6 1
  if field bs 0 4 ≠ 0x53504B36 ∨ field bs 4 2 ≠ 1 ∨ n = 0 ∨ 6 < n ∨ field bs 7 1 ≠ 0 ∨ field bs 16 4 ≠ bs.length
      ∨ 2 ^ 24 < bs.length ∨ field bs 20 12 ≠ 0 ∨ bs.length < 64 + 16 * n
      ∨ (bs.drop 32).take 32 ≠ shake256 (bs.drop 64) then none
  else match (List.range n).mapM (parseVariant bs) with
    | none => none
    | some vs => if decreasing (vs.map Variant.engines) then some vs else none

end Sys2Proof.Machine
end

