-- ==== Sys2Proof/Machine/ArmCheck.lean ====
section
/-! DEFINITION. What SCHEDULE_ARM checks of an image in every cycle of every job, and W (R37, R55, R57, R66, R85, R90, R95,
R113-R131, R134, R451-R453). The lines that VWIN, VS2D, VD2S and VARGMAX take from a geometry record come with the job's data; what the
arm cannot know of them the operation checks as it issues (R141, R142; log entry 26). -/

namespace Sys2Proof.Machine

/-! The issues of an image (R124). -/

/-- Every issue of every bundle from `b` to `last`, loops unrolled, each with the iterations it stands in. -/
def expand (img : Image) : Nat → Nat → Nat → List (LoopEntry × Nat) → List (Nat × List (LoopEntry × Nat))
  | 0, _, _, _ => []
  | k + 1, b, last, outer =>
    if last < b then [] else
    match img.loops.find? fun l => l.first = b && !outer.any fun o => o.1 = l with
    | some l => ((List.range l.count).flatMap fun i => expand img k b l.last ((l, i) :: outer))
        ++ expand img k (l.last + 1) last outer
    | none => (b, outer) :: expand img k (b + 1) last outer

/-- A field's value in the iterations given: none where it leaves its range (R124). -/
def stepField (k lim v : Nat) (its : List (LoopEntry × Nat)) : Option Nat :=
  let x := its.foldl (fun (a : Int) p => a + (p.2 : Int) * stride p.1 k) (v : Int)
  if 0 ≤ x ∧ x < lim then some x.toNat else none

/-- Whether an operation takes its lines from a geometry record (R141). -/
def geometric (op : Nat) : Bool := 0x40 ≤ op && op ≤ 0x43

/-- Whether SRCB of a vector operation is a record index (Table 05.13), and then its range with the operation's records (R119). -/
def usesRecord (op : Nat) : Bool := op = 1 || op = 2 || geometric op

/-- Whether a vector operation uses SRCB. -/
def usesSrcB (op : Nat) : Bool := readsB op || usesRecord op

/-- Whether a vector operation uses DST: not where its result lands in a register (Tables 05.13 and 05.14). -/
def usesDst (op : Nat) (br : Bool) : Bool := readsD op || !(br || op = 1 || op = 0x48)

/-- The values that SRCB may take: lines, or indices of records, all of which lie in the parameter file (R119). -/
def srcBRange (op : Nat) (v : VecSlot) : Nat :=
  if op = 1 ∨ op = 2 then 1025 - lanesOf v else if geometric op then 1024 else 393216

/-- A bundle's slots with the address fields that its operations use resolved (R108, R124). -/
def resolve (s : Slots) (its : List (LoopEntry × Nat)) : Option Slots :=
  let f := fun (used : Bool) (k lim v : Nat) => if used then stepField k lim v its else some v
  let vec := decide (s.vec ≠ 0)
  match f (s.vop = 1) 0 393216 s.vline, f (s.sop = 1 || s.sop = 2) 1 8192 s.row, f s.isMat 2 64 s.mat.entry.val,
    f (s.isMat && s.mat.wr) 3 393216 s.mat.dest.toNat, f (vec && !s.vs.mo) 4 393216 s.vs.srcA.toNat,
    f (vec && usesSrcB s.vec) 5 (srcBRange s.vec s.vs) s.vs.srcB.toNat, f (vec && usesDst s.vec s.vs.br) 6 393216 s.vs.dst.toNat,
    f (s.mop ≠ 0) 7 393216 s.line with
  | some vl, some row, some en, some md, some sa, some sb, some ds, some ml =>
    some { s with
      vline := vl, row := row, line := ml
      mat := { s.mat with entry := ⟨en % 64, Nat.mod_lt _ (by omega)⟩, dest := BitVec.ofNat 19 md }
      vs := { s.vs with srcA := BitVec.ofNat 19 sa, srcB := BitVec.ofNat 19 sb, dst := BitVec.ofNat 19 ds } }
  | _, _, _, _, _, _, _, _ => none

/-- An issue of a bundle: its cycle with every wait released at once, the cycles by which the waits before it can put it off, the wait
points before it, and its slots. -/
structure Issue where
  at' : Nat
  slack : Nat
  waits : Nat
  bundle : Nat
  s : Slots
  deriving DecidableEq, Repr

/-- Whether a bundle may be held for egress credit (Table 05.18). -/
def isEgress (img : Image) (s : Slots) : Bool :=
  (s.mop = 1 || s.mop = 2) && (img.routes[s.route]?).any fun r => r.kind = 1

/-- The bound of the egress waits of a bundle (R32, Table 05.18). -/
def egressBound (img : Image) (s : Slots) : Nat :=
  if s.mop = 1 ∨ s.mop = 2 then match img.routes[s.route]? with
    | some r => if r.kind = 1 then r.bound else 0
    | none => 0
  else 0

/-- The bound of a WAIT (R109). -/
def waitBound (img : Image) (s : Slots) : Nat :=
  if s.sync = 1 then ((img.pghs[s.handle]?).map Prod.snd).getD 0 else 0

/-- The cycles of a test window (R127). -/
def testCycles (img : Image) (s : Slots) : Nat := if s.cop = 2 then 256 * (img.windows[s.arg]?).getD 0 else 0

/-- The issues with their cycles. `waitl` is the bound taken for a WAITL. -/
def timeline (img : Image) (waitl : Nat) : Nat → Nat → Nat → List (Nat × Slots) → List Issue
  | _, _, _, [] => []
  | t, k, w, (b, s) :: l =>
    let k := k + egressBound img s
    let w := if isEgress img s then w + 1 else w
    ⟨t, k, w, b, s⟩ :: timeline img waitl (t + 1 + testCycles img s) (k + waitBound img s + if s.sync = 3 then waitl else 0)
      (if s.sync = 1 ∨ s.sync = 3 then w + 1 else w) l

/-- The resolved issues of an image, where every field stays in range. -/
def issuesOf (img : Image) : Option (List (Nat × Slots)) :=
  let n := img.bundles.length
  (expand img (n + 8) 0 (n - 1) []).mapM fun x =>
    (resolve (slotsOf (img.bundles.getD x.1 0)) x.2).map fun s => (x.1, s)

/-! W (R37). -/

/-- The partition's share of what W depends on: the gap of its LPDDR5X slots, of its switch cycles, and its engines. -/
structure WShare where
  lpGap : Nat
  swGap : Nat
  engines : Nat
  deriving DecidableEq, Repr

/-- The units and direction of a transfer on a route (R452). -/
def routeUnits (img : Image) (base : Nat) (s : Slots) : List Nat :=
  match img.routes[s.route]? with
  | some r => unitsOf ((if r.kind = 5 then base else 0) + 512 * r.offset) r.bound
  | none => []

/-- The literal walk of R37. `open'` holds the units awaited since the last WAITL and whether a read is among them;
`base` is where the checkpoint slot begins. -/
def walkW (img : Image) (p : WShare) (base : Nat) : List Nat × Bool → List Slots → Nat
  | _, [] => img.tail
  | open', s :: l =>
    let open' := if s.mop = 3 ∨ s.mop = 4 then (open'.1 ++ routeUnits img base s, open'.2 || s.mop = 3) else open'
    let beats := if s.mop = 1 ∨ s.mop = 2 then match img.routes[s.route]? with
        | some r => if r.kind = 2 then 2 * (s.len + 1) else 0
        | none => 0
      else 0
    1 + waitBound img s + (if s.sync = 3 then lpddrBound p.lpGap p.engines open'.1 open'.2 else 0) + egressBound img s
      + testCycles img s + beats * (p.engines * p.swGap - 1)
      + walkW img p base (if s.sync = 3 then ([], false) else open') l

/-- W of an image (R37). -/
def imageW (img : Image) (p : WShare) (base : Nat) : Option Nat :=
  (issuesOf img).map fun l => walkW img p base ([], false) (l.map Prod.snd)

/-! The form of a bundle (R10, R113-R122, R127, R128). -/

/-- Whether the codes, indices and unused fields of a bundle are allowed. -/
def bundleOk (img : Image) (s : Slots) (last : Bool) : Bool :=
  !s.rsvd && s.vop ≤ 1 && s.sop ≤ 3 && s.mop ≤ 4 && s.sync ≤ 3 && s.cop ≤ 3
    && ((s.sop ≠ 1 && s.sop ≠ 2) || decide (s.shape < img.shapes.length))
    && (s.sop ≠ 3 || s.row = 0) && (!s.pop || s.sop = 2)
    && (!s.isMat || s.mat.afmt.toNat ≤ 12)
    && (s.vec = 0 || (vecOpKnown s.vec && vecFieldsOk s.vec s.vs && vecUnusedOk s.vec s.vs))
    && (s.mop = 0 || match img.routes[s.route]? with
        | none => false
        | some r => if s.mop ≤ 2 then decide (1 ≤ r.kind ∧ r.kind ≤ 3) else decide (4 ≤ r.kind) && s.len = 0 && !s.last)
    && ((s.sync ≠ 1 && s.sync ≠ 2) || (decide (s.handle < img.pghs.length) && 1 ≤ s.count))
    && (s.sync ≠ 3 || s.count = 0)
    && (s.cop ≠ 1 || decide (s.arg < img.loops.length))
    && (s.cop ≠ 2 || (decide (s.arg < img.windows.length) && s.vop = 0 && s.sop = 0 && !s.isMat && s.vec = 0 && s.mop = 0
        && s.sync = 0))
    && (s.cop ≠ 3 || (s.arg = 0 && s.sync = 0)) && (s.cop == 3) == last

/-- Whether the loop table is as R124 lays down: each FIRST carries its LOOP and no other bundle does, loops nest or
are disjoint, to a depth of four, and END lies in none. -/
def loopsOk (img : Image) : Bool :=
  let n := img.bundles.length
  let marks := img.bundles.zipIdx.filterMap fun (w, b) =>
    let s := slotsOf w
    if s.cop = 1 then some (s.arg, b) else none
  img.loops.zipIdx.all (fun (l, i) =>
      decide (l.last + 1 < n) && marks.all (fun m => m.1 ≠ i || m.2 = l.first) && marks.any (fun m => m = (i, l.first)))
    && img.loops.all (fun a => img.loops.all fun b =>
      a = b || decide (a.last < b.first ∨ b.last < a.first ∨ (a.first < b.first ∧ b.last ≤ a.last)
        ∨ (b.first < a.first ∧ a.last ≤ b.last)))
    && (List.range n).all fun b => decide ((loopsOver img b).length ≤ 4)

/-! What an operation reads and writes. -/

/-- Names of destinations beside the activation lines, which keep their numbers. -/
def rBcast : Nat := 400000
/-- The matrix output register as a destination. -/
def rMatOut : Nat := 400001
/-- The append register as a destination. -/
def rAppend : Nat := 400002
/-- The argmax pair register as a destination. -/
def rArgmax : Nat := 400003
/-- Row `r` of a tile register as a destination. -/
def rTile (reg : Bool) (r : Nat) : Nat := 400100 + (if reg then 100 else 0) + r
/-- Parameter record `i` as a destination. -/
def rParam (i : Nat) : Nat := 401000 + i
/-- Accumulator entry `i`. -/
def rAcc (i : Nat) : Nat := 403000 + i
/-- The lines that a geometry record names, not known at arm. -/
def rGeo : Nat := 404000

/-- What an operation of an issue does: the offsets in cycles at which it reads and lands, and what. `unit` tells the
unit port's own accesses; `vec` tells that the vector unit lands it. -/
structure Effect where
  reads : List (Nat × List Nat) := []
  lands : List (Nat × List Nat) := []
  vec : Bool := false
  deriving DecidableEq, Repr

/-- The lines of bytes from a byte address on. -/
def linesFrom (line n : Nat) : List Nat := (List.range (ceilDiv n 64)).map (line + ·)

/-- Byte addresses cut into the issue cycles that read them, as lines (R118). -/
def chunkLines : Nat → Nat → List Nat → List (Nat × List Nat)
  | 0, _, _ => []
  | k + 1, c, as => if as.isEmpty then [] else
    (c, ((as.take 2048).map (· / 64)).eraseDups) :: chunkLines k (c + 1) (as.drop 2048)

/-- The least source bytes of VWIN, which its record's PLANES may double in modes 0 and 1 (Table 06.6). -/
def winLeast (v : VecSlot) : Nat :=
  let n := lanesOf v
  let it := v.ity.toNat
  if it ≤ 1 then 16 * n else if v.oty.toNat = 14 then 64 * n else if it = 13 then 144 * n else 72 * n

/-- The issue cycles of a vector operation (R118); of VWIN those that it takes at least. -/
def vecCycles (s : Slots) : Nat :=
  let n := lanesOf s.vs
  let src := srcABytes s.vec s.vs + (if readsB s.vec then 4 * n else 0) + (if readsD s.vec then 4 * n else 0)
  if s.vec = 0 ∨ s.vec = 0x42 ∨ s.vec = 0x43 then 1
  else if s.vec = 0x41 then max 1 (ceilDiv (winLeast s.vs) 2048)
  else max 1 (max (ceilDiv src 2048) (ceilDiv (dstBytes s.vec ⟨0, 0, 0, 0, 0, 0, 0⟩ s.vs) 2048))

/-- The VEC operation of an issue. Of the operations of chapter 06 only VARGMAX reads lines that its slot names. -/
def vecEffect (s : Slots) : List Effect :=
  if s.vec = 0 then [] else
  let v := s.vs
  let n := lanesOf v
  let land := vecCycles s - 1 + vecLatency s.vec
  let src := if 0x41 ≤ s.vec ∧ s.vec ≤ 0x43 then []
    else addrsFrom (lineAddr v.srcA.toNat) (srcABytes s.vec v)
      ++ (if readsB s.vec then addrsFrom (lineAddr v.srcB.toNat) (4 * n) else [])
      ++ (if readsD s.vec then addrsFrom (lineAddr v.dst.toNat) (4 * n) else [])
  let regs := (if v.mo then [rMatOut] else [])
    ++ (if s.vec = 2 then (List.range n).map fun i => rParam (v.srcB.toNat + i) else [])
    ++ (if geometric s.vec then [rParam v.srcB.toNat] else [])
  let dst := if s.vec = 1 then (List.range n).map fun i => rParam (v.srcB.toNat + i)
    else if s.vec = 0x48 then [rAppend]
    else if s.vec = 0x40 then [rArgmax, rGeo]
    else if geometric s.vec then [rGeo]
    else if v.br then [rBcast]
    else linesFrom v.dst.toNat (dstBytes s.vec ⟨0, 0, 0, 0, 0, 0, 0⟩ v)
  [{ reads := chunkLines (vecCycles s) 0 src ++ [(0, regs)], lands := [(land, dst)], vec := true }]

/-- What an issue finds in the tile registers: the tile that its MAT reads, and the row that its KVA writes in the register. -/
structure Seen where
  sh : TileShape := {}
  kva : Nat := 0
  deriving DecidableEq, Repr

/-- The operations of an issue but LDR and LDW, which use the side port (R120). -/
def effectsOf (img : Image) (s : Slots) (seen : Seen) : List Effect :=
  let cls := (pairClass seen.sh.fmt s.mat.afmt.toNat).getD .int
  (if s.vop = 1 then [{ reads := [(0, linesFrom s.vline (64 * (s.vlen + 1)))], lands := [(1, [rBcast])] }] else [])
    ++ (if s.sop = 1 ∨ s.sop = 2 then
        [{ lands := (List.range (tileRows (shapeAt img s.shape))).map fun r => (r, [rTile s.reg r]) }] else [])
    ++ (if s.sop = 3 then [{ reads := [(0, [rAppend])], lands := [(1, [rTile s.reg seen.kva])] }] else [])
    ++ (if s.isMat then
        [{ reads := (0, [rBcast]) :: (if cls = .half then [(1, [rBcast])] else [])
           lands := if s.mat.emit then
               [(classDepth cls, rMatOut :: (if s.mat.wr then linesFrom s.mat.dest.toNat (4 * seen.sh.nt) else []))] else [] }]
      else [])
    ++ vecEffect s
    ++ (if s.mop = 1 ∨ s.mop = 2 then [{ reads := [(0, linesFrom s.line (64 * (s.len + 1)))] }] else [])

/-! What each tile register holds, and the chains (R55, R57, R66, R89, R90, R129, R130). -/

/-- A tile register as the checks follow it: the load in it (its row, its cycle, its shape, whether a TLD or a preload made it), or nothing
defined; the cycle from which it may be loaded again; and the KVAs since its load. -/
structure TileTrack where
  load : Option (Nat × Nat × TileShape × Bool) := none
  readAt : Nat := 0
  kva : Nat := 0
  deriving DecidableEq, Repr

/-- What the checks follow through the issues: tile registers, chains with their class and K so far, what has been written and when it
lands, the bytes of the broadcast register written and when, the last landing, the store port's last cycle, open routes and transfers, and
the cycle before which a MAT slot must be empty and the issue before which a VEC slot must be. -/
structure Track where
  a : TileTrack := {}
  b : TileTrack := {}
  chains : List (Nat × ChainClass × Nat) := []
  written : List (Nat × Nat) := []
  bcast : List (Nat × Nat) := []
  landed : Nat := 0
  storeFree : Nat := 0
  openRoutes : List Nat := []
  xfers : Nat := 0
  matFrom : Nat := 0
  vecFrom : Nat := 0
  deriving DecidableEq, Repr

/-- The tile register that REG names. -/
def Track.tile (k : Track) (reg : Bool) : TileTrack := if reg then k.b else k.a

/-- The tile register that REG names, set. -/
def Track.setTile (k : Track) (reg : Bool) (t : TileTrack) : Track := if reg then { k with b := t } else { k with a := t }

/-- Whether a register or record has been written so that a read in cycle `c` sees it (R127, R129). -/
def Track.defined (k : Track) (c r : Nat) : Bool := k.written.any fun w => w.1 = r && decide (w.2 ≤ c)

/-- Whether the first `n` bytes of the broadcast register have been written so that a read in cycle `c` sees them (R129). -/
def Track.bcastDefined (k : Track) (c n : Nat) : Bool := k.bcast.any fun w => decide (n ≤ w.1 ∧ w.2 ≤ c)

/-- What an issue finds in the tile registers (R89, R170). -/
def Track.seen (k : Track) (s : Slots) : Seen :=
  { sh := ((k.tile s.mat.reg).load.map fun l => l.2.2.1).getD {}, kva := (k.tile s.reg).kva }

/-- The bytes of the broadcast register that a MAT reads for a tile of K rows: elements, and scales after them (R60, R61). -/
def vectorBytes (afmt kt : Nat) : Nat := packedBytes (widthOf afmt) kt + if isBlockFmt afmt then ceilDiv kt 32 else 0

/-- The MAT of an issue checked (Table 03.4, R55, R57, R66, R72, R90, R116, R129, R156). -/
def Track.matStep (k : Track) (i : Issue) : Option Track :=
  if ¬ i.s.isMat then some k else
  let m := i.s.mat
  let t := k.tile m.reg
  match t.load with
  | none => none
  | some (_, at', sh, plain) => match pairClass sh.fmt m.afmt.toNat with
    | none => none
    | some cls =>
      let pairOk := decide (sh.kt ≤ pairK sh.fmt m.afmt.toNat) && (plain || decide (4 ≤ m.afmt.toNat ∧ m.afmt.toNat ≤ 8))
      let old := assoc m.entry.val k.chains
      let kSum := (if m.start then 0 else (old.map Prod.snd).getD 0) + sh.kt
      let chainOk := m.start || (old.map Prod.fst) = some cls
      let formOk := (m.fp32 || !m.emit || cls = .int) && (!m.wr || (m.emit && m.fp32))
      if i.at' < at' + tileRows sh ∨ ¬ chainOk ∨ 2 ^ 24 < kSum ∨ ¬ formOk ∨ i.at' < k.matFrom ∨ ¬ pairOk
          ∨ ¬ k.bcastDefined i.at' (vectorBytes m.afmt.toNat sh.kt) then none
      else
        let gap := if cls = .half then 2 else 1
        some ({ k with chains := assocSet m.entry.val (cls, kSum) k.chains, matFrom := i.at' + gap }.setTile m.reg
          { t with readAt := i.at' + gap + 1 })

/-- The store part of an issue checked (R57, R90, R115): a load may begin once the register's last read is over. -/
def Track.loadStep (img : Image) (k : Track) (i : Issue) : Option Track :=
  let s := i.s
  if s.sop = 0 then some k
  else if i.at' < k.storeFree then none
  else if s.sop = 3 then
    let t := k.tile s.reg
    if k.defined i.at' rAppend then some ({ k with storeFree := i.at' + 1 }.setTile s.reg { t with kva := t.kva + 1 }) else none
  else
    let sh := shapeAt img s.shape
    let n := tileRows sh
    if i.at' < (k.tile s.reg).readAt ∨ (s.sop = 1 ∧ 8192 < s.row + n) then none
    else some ({ k with storeFree := i.at' + n }.setTile s.reg
      { load := some (s.row, i.at', sh, s.sop = 1), readAt := (k.tile s.reg).readAt })

/-- The VEC part of an issue checked: its issue cycles (R118) and the registers it reads (R127, R129). -/
def Track.vecStep (k : Track) (i : Issue) (idx : Nat) : Option Track :=
  if i.s.vec = 0 then some k
  else if idx < k.vecFrom then none
  else
    let regs := (vecEffect i.s).flatMap fun e => (e.reads.flatMap Prod.snd).filter (393216 ≤ ·)
    if regs.all fun r => k.defined i.at' r then some { k with vecFrom := idx + vecCycles i.s } else none

/-- The MOV, SYNC and CTL parts of an issue (R120, R127): messages begun and ended, transfers awaited, and a test window,
before which everything has landed and after which the registers are undefined. -/
def Track.moveStep (k : Track) (i : Issue) : Option Track :=
  let s := i.s
  let k := if s.mop = 1 ∨ s.mop = 2 then
      { k with openRoutes := (if s.last then [] else [s.route]) ++ k.openRoutes.filter (· ≠ s.route) }
    else if s.mop = 3 ∨ s.mop = 4 then { k with xfers := k.xfers + 1 }
    else k
  let k := if s.sync = 3 then { k with xfers := 0 } else k
  if s.cop = 2 then
    if k.xfers ≠ 0 ∨ i.at' < k.landed then none
    else some { k with
      a := {}, b := {}, chains := [], bcast := [], written := k.written.filter fun w => decide (rParam 0 ≤ w.1 ∧ w.1 < rAcc 0) }
  else if s.cop = 3 then if k.openRoutes.isEmpty ∧ k.xfers = 0 then some k else none
  else some k

/-- The bytes of the broadcast register that an issue writes, with the cycles in which they land (Table 05.11, Table 05.13). -/
def bcastLands (i : Issue) : List (Nat × Nat) :=
  (if i.s.vop = 1 then [(64 * (i.s.vlen + 1), i.at' + 1)] else [])
    ++ if i.s.vec ≠ 0 ∧ i.s.vs.br then
        [(dstBytes i.s.vec ⟨0, 0, 0, 0, 0, 0, 0⟩ i.s.vs, i.at' + vecCycles i.s - 1 + vecLatency i.s.vec)] else []

/-- The landings of an issue noted. -/
def Track.note (img : Image) (k : Track) (i : Issue) : Track :=
  let l := (effectsOf img i.s (k.seen i.s)).flatMap fun e => e.lands.map fun x => (i.at' + x.1, x.2)
  { k with
    written := k.written ++ l.flatMap fun x => (x.2.filter (393216 ≤ ·)).map fun r => (r, x.1)
    bcast := k.bcast ++ bcastLands i
    landed := l.foldl (fun m x => max m x.1) k.landed }

/-- One issue checked against what came before it. -/
def Track.step (img : Image) (k : Track) (i : Issue) (idx : Nat) : Option Track :=
  let n := k.note img i
  ((k.matStep i).bind fun k => (k.vecStep i idx).bind fun k => (k.loadStep img i).bind fun k =>
    (({ k with written := n.written, bcast := n.bcast, landed := n.landed } : Track)).moveStep i)

/-- All issues checked in turn. -/
def trackAll (img : Image) : Option Track → Nat → List Issue → Option Track
  | none, _, _ => none
  | k, _, [] => k
  | some k, n, i :: l => trackAll img (k.step img i n) (n + 1) l

/-- The cycle in which the checks let bundle 0 issue. -/
def startCycle : Nat := 64

/-- A cycle of the job before, whose END stands in cycle `endAt` of its own count, in the count of a job that starts two cycles after
that END (R128). -/
def carried (endAt c : Nat) : Nat := c + (startCycle - 2) - endAt

/-- The track at the start of a job: the declared preloads in place (R129, R130), as the load that made them, and what still holds the
store port: those of SCHEDULE_ARM lie wholly before, and `prev` gives the track and the END of a job before, whose reloads may land past
its END (R83, R90, R128). -/
def startTrack (img : Image) (prev : Option (Track × Nat)) : Track :=
  let pre := fun (on : Bool) (row sh : Nat) (last : Track → TileTrack) =>
    if on then
      ({ load := some (row, match prev with
          | none => 0
          | some (k, e) => (match (last k).load with
            | none => 0
            | some (_, c, _, _) => carried e c), shapeAt img sh, true) } : TileTrack)
    else {}
  { a := pre (img.flags % 2 = 1) img.preARow img.preAShape Track.a
    b := pre (img.flags / 2 % 2 = 1) img.preBRow img.preBShape Track.b
    storeFree := match prev with
      | none => 0
      | some (k, e) => carried e k.storeFree }

/-- Whether a tile register holds a declared preload at END (R130). -/
def preloadHeld (on : Bool) (row : Nat) (sh : TileShape) (t : TileTrack) : Bool :=
  !on || match t.load with
    | some (r, _, h, plain) => r = row && h = sh && plain
    | none => false

/-! Pairs of operations (R95, R114, R121, R123, R126, R128). -/

/-- An access or landing placed in time: its cycle, the slack of its issue and the wait points before it, what it touches, whether the
vector unit lands it, and the issue that it belongs to. -/
structure Placed where
  at' : Nat
  slack : Nat
  waits : Nat
  what : List Nat
  vec : Bool
  issue : Nat
  deriving DecidableEq, Repr

/-- Whether two placed events can fall in one cycle, the first one's issue not after the second's. -/
def mayMeet (x y : Placed) : Bool := decide (y.at' ≤ x.at' ∧ x.at' ≤ y.at' + (y.slack - x.slack))

/-- Whether two lists share an element. -/
def overlap (a b : List Nat) : Bool := a.any b.contains

/-- Whether two lists of lines touch one bank of the unit port (R93, R95). -/
def sameBank (a b : List Nat) : Bool := overlap (a.map (· % 64)) (b.map (· % 64))

/-- What each issue finds in the tile registers, from the checks' tracks. -/
def allSeen (img : Image) : Option Track → Nat → List Issue → List Seen
  | none, _, _ => []
  | _, _, [] => []
  | some k, n, i :: l => k.seen i.s :: allSeen img (k.step img i n) (n + 1) l

/-- The reads and the landings of an image's issues, placed. -/
def placedOf (img : Image) (l : List Issue) (seen : List Seen) (lands : Bool) : List Placed :=
  (l.zip seen).zipIdx.flatMap fun ((i, x), n) =>
    (effectsOf img i.s x).flatMap fun e =>
      (if lands then e.lands else e.reads).filterMap fun y =>
        if y.2.isEmpty then none else some ⟨i.at' + y.1, i.slack, i.waits, y.2, e.vec, n⟩

/-- Whether the lines that one operation accesses in one cycle, each counted once, lie in different banks (R95). -/
def banksApart (ls : List Nat) : Bool := decide ((ls.eraseDups.map (· % 64)).Nodup)

/-- Whether every two landings keep R114, and every two accesses of the unit port keep R95. -/
def portsOk (reads lands : List Placed) : Bool :=
  let unit := (reads ++ lands).filterMap fun p =>
    let ls := p.what.filter (· < 393216)
    if ls.isEmpty then none else some { p with what := ls }
  let pairs := fun (l : List Placed) (bad : Placed → Placed → Bool) =>
    l.zipIdx.all fun (x, i) => (l.drop (i + 1)).all fun y =>
      if x.issue ≤ y.issue then !(bad x y && mayMeet x y) else !(bad x y && mayMeet y x)
  pairs lands (fun x y => overlap (x.what.filter (· ≠ rGeo)) y.what) && unit.all (fun p => banksApart p.what)
    && pairs unit (fun x y => sameBank x.what y.what)

/-- Whether no read after a wait point expects content that an operation issued before the wait replaces after it (R126), and no landing of
the job falls after END but the rows of a TLD that reloads a preload of the image (R128). -/
def waitsOk (img : Image) (reads lands : List Placed) (endAt : Nat) : Bool :=
  let reload := fun (r : Nat) =>
    (img.flags % 2 = 1 && decide (rTile false 0 ≤ r ∧ r < rTile true 0)) || (2 ≤ img.flags && decide (rTile true 0 ≤ r ∧ r < rParam 0))
  lands.all (fun x => reads.all fun y =>
      !(decide (x.issue < y.issue ∧ x.waits < y.waits ∧ y.at' < x.at') && overlap x.what y.what))
    && lands.all fun x => decide (x.at' ≤ endAt) || x.what.all reload

/-- Whether bytes that the vector unit landed stay three cycles before they leave (R123). -/
def barrierOk (l : List Issue) (lands : List Placed) : Bool :=
  l.zipIdx.all fun (i, n) =>
    let leaves := (if i.s.mop = 1 ∨ i.s.mop = 2 then linesFrom i.s.line (64 * (i.s.len + 1)) else [])
      ++ (if i.s.sop = 3 then [rAppend] else [])
    lands.all fun x => !(x.vec && overlap x.what leaves && decide (x.issue ≤ n ∧ x.at' ≤ i.at' ∧ i.at' < x.at' + 3))

/-- The lines of the transfer of an issue. -/
def xferLines (img : Image) (s : Slots) : List Nat := linesFrom s.line (((img.routes[s.route]?).map RouteEntry.bound).getD 0)

/-- Whether two transfers that one WAITL awaits keep R121: an LDR lands in no line of the other. -/
def xferPairOk (img : Image) (x y : Slots) : Bool := (x.mop = 4 && y.mop = 4) || !overlap (xferLines img x) (xferLines img y)

/-- Whether LDR and LDW keep R121: from a transfer's issue through that of the WAITL that awaits it nothing reads an LDR's lines, and
nothing issued before lands in the lines of either, other transfers among them; and an LDW's source keeps the three cycles of R123. -/
def xfersOk (img : Image) (l : List Issue) (reads lands : List Placed) : Bool :=
  l.zipIdx.all fun (i, n) =>
    if i.s.mop ≠ 3 ∧ i.s.mop ≠ 4 then true else
    let ls := xferLines img i.s
    match (l.zipIdx.drop n).find? fun x => x.1.s.sync = 3 with
    | none => false
    | some (j, w) =>
      ls.all (· < 393216)
        && lands.all (fun x => !(overlap x.what ls && decide (x.issue ≤ w ∧ i.at' ≤ x.at')))
        && (i.s.mop = 4 || reads.all fun x =>
          !(overlap x.what ls && decide (x.issue ≤ w ∧ i.at' ≤ x.at' ∧ x.at' ≤ j.at' + (j.slack - x.slack))))
        && ((l.take (w + 1)).drop (n + 1)).all (fun y => (y.s.mop ≠ 3 && y.s.mop ≠ 4) || xferPairOk img i.s y.s)
        && (i.s.mop = 3 || lands.all fun x =>
          !(x.vec && overlap x.what ls && decide (x.issue ≤ n ∧ x.at' ≤ i.at' ∧ i.at' < x.at' + 3)))

/-! The store port (R85). -/

/-- The cycles in which an image holds the store port, or a test window does. -/
def storeCycles (img : Image) (l : List Issue) : List Nat :=
  l.flatMap fun i =>
    let n := if i.s.sop = 1 ∨ i.s.sop = 2 then tileRows (shapeAt img i.s.shape) else if i.s.sop = 3 then 1 else 0
    (List.range n).map (i.at' + ·) ++ (List.range (testCycles img i.s)).map (i.at' + 1 + ·)

/-- The run of occupied cycles that begins at a cycle. -/
def runFrom (occ : List Nat) : Nat → Nat → Nat
  | 0, _ => 0
  | k + 1, c => if occ.contains c then 1 + runFrom occ k (c + 1) else 0

/-- The run of occupied cycles that ends at a cycle. -/
def runBack (occ : List Nat) : Nat → Nat → Nat
  | 0, _ => 0
  | k + 1, c => if occ.contains c then 1 + (if c = 0 then 0 else runBack occ k (c - 1)) else 0

/-- An image's leading run, its trailing run, and whether every span of 8,192 cycles has a free one (R85). -/
def storeRuns (img : Image) : Nat × Nat × Bool :=
  match issuesOf img with
  | none => (0, 0, false)
  | some raw =>
    let l := timeline img 0 0 0 0 raw
    let occ := storeCycles img l
    let e := (l.getLast?.map Issue.at').getD 0
    let past := runFrom occ occ.length (e + 1)
    (runFrom occ occ.length 0, if past = 0 then 0 else past + runBack occ occ.length e,
      occ.all fun c => decide (runFrom occ 8192 c < 8192))

/-! The whole image (R134). -/

/-- The static form of every bundle of an image and of its loops. -/
def imageForm (img : Image) : Bool :=
  let n := img.bundles.length
  (img.bundles.zipIdx.all fun (w, b) => bundleOk img (slotsOf w) (b + 1 = n)) && loopsOk img
    && (img.flags % 2 = 0 || decide (img.preAShape < img.shapes.length ∧ img.preARow + tileRows (shapeAt img img.preAShape) ≤ 8192))
    && (img.flags / 2 % 2 = 0 || decide (img.preBShape < img.shapes.length ∧ img.preBRow + tileRows (shapeAt img img.preBShape) ≤ 8192))

/-- An image's issues with the track of the job that they make, and the cycle of its END; none where a check of R134 that follows the
issues one after another fails. -/
def jobTrack (img : Image) (waitl : Nat) (prev : Option (Track × Nat)) : Option (List Issue × Track × Nat) :=
  (issuesOf img).bind fun raw =>
    let l := timeline img waitl startCycle 0 0 raw
    (trackAll img (some (startTrack img prev)) 0 l).map fun k => (l, k, (l.getLast?.map Issue.at').getD 0)

/-- Whether a job of one image may follow a job of another on an engine (R83, R90, R128): its loads and MATs keep what they keep within a
job also where the reloads of the job before land past its END. -/
def mayFollow (waitl : Nat) (before after : Image) : Bool :=
  before.flags = 0 || match jobTrack before waitl none with
    | none => false
    | some (_, k, e) => (jobTrack after waitl (some (k, e))).isSome

/-- Whether an image passes the checks of R134; `waitl` is the bound taken for its WAITLs. -/
def imageOk (img : Image) (waitl : Nat) : Bool :=
  imageForm img && match jobTrack img waitl none with
  | none => false
  | some (l, k, e) =>
    let seen := allSeen img (some (startTrack img none)) 0 l
    let reads := placedOf img l seen false
    let lands := placedOf img l seen true
    preloadHeld (img.flags % 2 = 1) img.preARow (shapeAt img img.preAShape) k.a
      && preloadHeld (img.flags / 2 % 2 = 1) img.preBRow (shapeAt img img.preBShape) k.b
      && mayFollow waitl img img
      && portsOk reads lands && waitsOk img reads lands e && barrierOk l lands && xfersOk img l reads lands
      && (storeRuns img).2.2 && decide ((storeRuns img).1 + (storeRuns img).2.1 < 8192)
      && (reads ++ lands).all (fun p => p.what.all fun x => decide (x < 393216 ∨ 400000 ≤ x))

end Sys2Proof.Machine
end

