-- ==== Sys2Proof/Machine/BulkArea.lean ====
section
/-! DEFINITION. The bulk area of an aperture as the module's agents reach it (R225, R226, R290). -/

namespace Sys2Proof.Machine

/-- Bytes of an aperture's backing: the last 32 MiB of the region (R225). -/
def bulkBytes : Nat := 2 ^ 25

/-- The region byte behind byte `b` of a partition's bulk area (R225). -/
def bulkBase (p : Partition) (b : Nat) : Nat := regionBytes p - bulkBytes + b

/-- The aperture and offset in its bulk area of `n` bytes at a module address, where they lie wholly in one
(Table 09.4). -/
def bulkAt (addr n : Nat) : Option (PartId × Nat) :=
  let a := (addr - 0x10000000) / 2 ^ 25
  let off := (addr - 0x10000000) % 2 ^ 25
  if addr < 0x10000000 ∨ off < 65536 ∨ 2 ^ 25 < off + n then none
  else if h : a < 7 then some (⟨a, h⟩, off - 65536) else none

/-- The frame of an aperture that holds a page. -/
def Bulk.frame? (b : Bulk) (page : Nat) : Option Frame := b.frames.find? fun f => f.page = page

/-- A frame put in the place of the one that holds its page. -/
def Bulk.put (b : Bulk) (f : Frame) : Bulk := { b with frames := f :: b.frames.filter fun g => g.page ≠ f.page }

/-- Whether a frame is clean: it awaits neither a fetch nor a write-back. -/
def Frame.clean (f : Frame) : Bool := !f.fetching && f.dirtySince.isNone

/-- The clean frame used longest ago. -/
def lruFrame : List Frame → Option Frame
  | [] => none
  | f :: l => match lruFrame l with
    | none => if f.clean then some f else none
    | some g => if f.clean ∧ f.lastUse < g.lastUse then some f else some g

/-- The frames once one can be taken: free, or the least recently used clean one emptied (R226). -/
def Bulk.room (b : Bulk) : Option Bulk :=
  if b.frames.length < 64 then some b
  else (lruFrame b.frames).map fun f => { b with frames := b.frames.filter fun g => g.page ≠ f.page }

/-- The bytes of a page as the region holds them. -/
def State.pageBytes (s : State) (a : PartId) (page : Nat) : List Byte :=
  regionRead s.part[a] (bulkBase s.part[a] (4096 * page)) 4096

/-- The bytes of a frame's page under its mask: what the host has written of it, and the rest as fetched (R226). -/
def Frame.merge (f : Frame) (bs : List Byte) : List Byte :=
  (bs.zip (memRead f.bytes 0 4096)).zipIdx.map fun x => if hasBit f.mask x.2 then x.1.2 else x.1.1

/-- A frame with its page fetched, what was written meanwhile kept under its mask (R226). -/
def Frame.fetched (f : Frame) (bs : List Byte) : Frame :=
  { f with bytes := memWrite [] 0 (f.merge bs), mask := 0, fetching := false }

/-- A frame's page written back; the frame is then clean (R225). -/
def State.writeBack (s : State) (a : PartId) (f : Frame) : State :=
  (s.updPart a fun p => regionWrite p (bulkBase p (4096 * f.page)) (memRead f.bytes 0 4096)).updBulk a fun b =>
    b.put { f with dirtySince := none }

/-- The dirty frame that became dirty first (R225). -/
def oldestDirty : List Frame → Option Frame
  | [] => none
  | f :: l => match oldestDirty l with
    | none => if f.dirtySince.isSome ∧ ¬ f.fetching then some f else none
    | some g => if f.dirtySince.isSome ∧ ¬ f.fetching ∧ f.dirtySince.getD 0 ≤ g.dirtySince.getD 0 then some f else some g

/-- The page of a bulk area resident for a module agent, which used it now (R225, R226). An agent waits for a frame and never drops; where
every frame is being fetched or is dirty, its access goes to the region in the step that asks for it (log entry 89). -/
def State.residePage (s : State) (a : PartId) (page : Nat) : State :=
  match s.host.bulk[a].frame? page with
  | some f => s.updBulk a fun b => b.put { f with lastUse := s.now }
  | none => match s.host.bulk[a].room with
    | none => s
    | some b => s.updBulk a fun _ => b.put { page := page, bytes := memWrite [] 0 (s.pageBytes a page), lastUse := s.now }

/-- A page of a bulk area as its frame, or where it has none the region, holds it. -/
def State.bulkPage (s : State) (a : PartId) (page : Nat) : List Byte := match s.host.bulk[a].frame? page with
  | none => s.pageBytes a page
  | some f => if f.fetching then f.merge (s.pageBytes a page) else memRead f.bytes 0 4096

/-- Bytes of a bulk area that a module agent reads, page by page through the frames, with the state after. -/
def State.bulkRead (s : State) (a : PartId) (b n : Nat) : State × List Byte :=
  let r := (List.range ((b % 4096 + n + 4095) / 4096)).foldl (fun (x : State × List Byte) i =>
    let s := x.1.residePage a (b / 4096 + i)
    (s, x.2 ++ s.bulkPage a (b / 4096 + i))) (s, [])
  (r.1, (r.2.drop (b % 4096)).take n)

/-- A frame with bytes written to it by a module agent; what is still to be fetched is masked as for the host (R226). -/
def Frame.written (f : Frame) (off now : Nat) (bs : List Byte) : Frame :=
  { f with
    bytes := memWrite f.bytes off bs
    mask := if f.fetching then f.mask ||| BitVec.ofNat 4096 ((2 ^ bs.length - 1) * 2 ^ off) else f.mask
    lastUse := now, dirtySince := some (f.dirtySince.getD now) }

/-- Bytes of one page written by a module agent. -/
def State.bulkPut (s : State) (a : PartId) (page off : Nat) (bs : List Byte) : State :=
  let s := s.residePage a page
  match s.host.bulk[a].frame? page with
  | none => s.updPart a fun p => regionWrite p (bulkBase p (4096 * page + off)) bs
  | some f => s.updBulk a fun b => b.put (f.written off s.now bs)

/-- Bytes written by a module agent from byte `b` of a bulk area on, page by page. -/
def State.bulkWrite (s : State) (a : PartId) (b : Nat) (bs : List Byte) : State :=
  (List.range ((b % 4096 + bs.length + 4095) / 4096)).foldl (fun s i =>
    let lo := if i = 0 then 0 else 4096 * i - b % 4096
    let hi := 4096 * (i + 1) - b % 4096
    s.bulkPut a (b / 4096 + i) (if i = 0 then b % 4096 else 0) ((bs.drop lo).take (hi - lo))) s

/-! Sealed records (R290). -/

/-- Whether a sealed record's header may be opened: a fresh MSG_SEQ of its series, an installed epoch, DIRECTION 0,
LENGTH 1 to 4,064 and no reserved bit. -/
def recordFresh (p : Partition) (lane epoch seq : Nat) : Bool :=
  p.host.installed.any (fun k => k.1 = epoch) && ((assoc (lane, 0, epoch) p.series).getD 0).toNat < seq

/-- The plaintext of one sealed record of a partition, where it may be opened and its tag verifies: the first LENGTH bytes of the 4,064 that
the record carries. -/
def openRecord (p : Partition) (bs : List Byte) : Option (List Byte) :=
  let seq := field bs 0 8
  let len := field bs 8 4
  let ep := field bs 12 2
  if field bs 14 2 ≠ 0 ∨ len = 0 ∨ 4064 < len ∨ ¬ recordFresh p 0x80 ep seq then none
  else match assoc ep p.host.installed with
    | none => none
    | some key =>
      (gcmOpen key (sealNonce 0 0x80 seq) (bs.take 16) ((bs.drop 16).take 4064) ((bs.drop 4080).take 16)).map fun x => x.take len

/-- A record's MSG_SEQ accepted in its series. -/
def State.takeSeq (s : State) (p : PartId) (lane epoch seq : Nat) : State :=
  s.updPart p fun q => { q with series := assocSet (lane, 0, epoch) (BitVec.ofNat 64 seq) q.series }

/-- The plaintext of `n` bytes held in consecutive sealed records from page `page` of a bulk area on, whose MSG_SEQ values are consecutive:
`prev` is that of the record before. The MSG_SEQ of each record that opens is accepted, whatever comes of the later ones. -/
def State.openRecords (s : State) (p : PartId) (page : Nat) (prev : Option Nat) : Nat → Nat → State × Option (List Byte)
  | 0, _ => (s, some [])
  | k + 1, n =>
    let (s, rec') := s.bulkRead p (4096 * page) 4096
    let seq := field rec' 0 8
    if prev.any fun q => decide (seq ≠ q + 1) then (s, none)
    else match openRecord s.part[p] rec' with
    | none => (s, none)
    | some bs =>
      let s := s.takeSeq p 0x80 (field rec' 12 2) seq
      if n ≤ 4064 then (s, if bs.length = n then some bs else none)
      else if bs.length ≠ 4064 then (s, none)
      else
        let (s, rest) := s.openRecords p (page + 1) (some seq) k (n - 4064)
        (s, rest.map fun r => bs ++ r)

/-- The bytes that a command names as its source in the bulk area, with the state after: as they stand, or opened from sealed records in
the aperture of a confidential partition (R290). -/
def State.sourceBytes (s : State) (addr n : Nat) : State × Except Status (List Byte) :=
  match bulkAt addr 1 with
  | none => (s, .error stBadArg)
  | some (a, b) =>
    if ¬ s.part[a].confidential then
      match bulkAt addr n with
      | none => (s, .error stBadArg)
      | some _ =>
        let (s, bs) := s.bulkRead a b n
        (s, .ok bs)
    else if (bulkAt addr (4096 * ceilDiv n 4064)).isNone ∨ b % 4096 ≠ 0 then (s, .error stBadArg)
    else match s.openRecords a (b / 4096) none (ceilDiv n 4064) n with
      | (s, none) => (s, .error stDenied)
      | (s, some bs) => (s, .ok bs)

/-- Bytes sealed into consecutive records of a partition's bulk area from byte `b` on (R290); the last is filled with zeros (log entry 90). -/
def State.sealRecords (s : State) (p : PartId) (b : Nat) : Nat → List Byte → State
  | 0, _ => s
  | k + 1, bs =>
    if bs.isEmpty then s else
    let (ep, key) := s.part[p].host.newest
    let (n, s) := s.msgSeq p 0x80 ep
    let body := bs.take 4064
    let aad := natLe n 8 ++ natLe body.length 4 ++ natLe ep 2 ++ [1, 0]
    let rec' := aad ++ sealBytes key (sealNonce 1 0x80 n) aad (padTo 4064 body)
    (s.bulkWrite p b rec').sealRecords p (b + 4096) k (bs.drop 4064)

end Sys2Proof.Machine
end

