-- ==== Sys2Proof/Machine/EngineMove.lean ====
section
/-! DEFINITION. The MOV slot: OUT, OUTN, LDR and LDW (Tables 05.6 and 05.16, R110, R111, R120, R125, R131, R192,
R251, R255, R454). -/

namespace Sys2Proof.Machine

/-- The engines of a partition whose schedules have FABRIC routes on a port (R255). -/
def State.portEngines (s : State) (p : PartId) (port : PortId) : Nat :=
  ((List.range (s.live p).length).filter fun i => (s.scheds.filter fun c => c.part = p).any fun c =>
    (imagesAt c i).any fun m => m.routes.any fun r => r.kind = 1 && r.target = port.val).length

/-- Whether a port gives no credit for any beat: 4,096 operations are outstanding (R256), or another job output
is on the wire of a port that serves more than one engine's jobs (R255). -/
def State.portHeld (s : State) (p : PartId) (port : PortId) : Bool :=
  4096 ≤ s.fab.outstanding.length ||
    (1 < s.portEngines p port && match s.fab.ports[portLink port].wire with
      | some (x, until') => x.cls = .output && s.now < until'
      | none => false)

/-- The blocks of credit that the next `n` bytes of the message open on a route take. -/
def State.beatBlocks (s : State) (e : EngId) (route n : Nat) : Nat :=
  let sent := ((s.eng[e].seq.msgs.find? fun m => m.route = route).map OpenMsg.sent).getD 0
  msgBlocks (sent + n) - msgBlocks sent

/-- Whether a beat finds credit at its port (Table 05.18, R255). A standby in step sends nothing and needs none
(R313; log entry 24). -/
def State.beatCredit (s : State) (j : Job) (c : Ctx) (blocks : Nat) : Bool :=
  s.isStandby || (!s.portHeld j.part c.port && decide (blocks ≤ c.outCredit))

/-- Credit blocks of a context taken by a beat (R255); a standby in step takes none. -/
def State.takeBlocks (s : State) (c : Ctx) (n : Nat) : State :=
  if s.isStandby then s else s.updCtx c.link fun c => { c with outCredit := c.outCredit - n }

/-- The switch port of a route's destination (Table 01.3). -/
def destPort (j : Job) (r : RouteEntry) : Nat :=
  if r.kind = 1 then 6 + r.target else if r.kind = 2 then 31 else ((j.engines[r.target]?).getD 0).val

/-- A beat whose CRC fails on the way from one switch port to another (R192, R454), with its bytes and those of the beat before it. -/
def beatFail (src dst : Nat) (prev bs : List Byte) (f : Flt) : FailEvent :=
  { status := stCheckMismatch, unitKind := 9, opClass := 12, mechs := [9]
    detail := BitVec.ofNat 32 (src + 256 * dst), dataClass := dataClassOf prev bs bs false, bundle := f.bundle }

/-- Whether the vector unit landed one of the lines from a byte address on less than three cycles ago (R123). -/
def Engine.unchecked (g : Engine) (now a n : Nat) : Bool :=
  g.vecLanded.any fun x => decide (now < x.1 + 3 ∧ a < 64 * x.2 + 64 ∧ 64 * x.2 < a + n)

/-- OUT and OUTN (R120): the lines handed to the pass-through port one cycle later. Without credit the bundle is held, and a bound of 0
ends the job at once (R125); a bundle held and released has its credit. Lines that a geometry record has let a vector operation land less
than three cycles before would break R123 (log entry 26). -/
def State.sendBeat (s : State) (e : EngId) (j : Job) (line len route : Nat) (last note : Bool) (f : Flt) : State :=
  let as := addrsFrom (lineAddr line) (64 * (len + 1))
  match (imageOn j e).routes[route]? with
  | none => s.badOp j
  | some r =>
    if 1 < len ∨ ¬ inAct as ∨ r.kind = 0 ∨ 3 < r.kind ∨ s.eng[e].unchecked s.now (lineAddr line) (64 * (len + 1)) then s.badOp j else
    let go := fun (s : State) => match badPlace s.eng[e] f as with
      | some (_, w) => s.failAt e j s.now (actFail f w)
      | none =>
        let prev := s.eng[e].pathOut
        let bs := s.eng[e].unitGets s.now as
        let s := (s.corrected e true f.corrected).updEng e fun g => { g with pathOut := bs }
        if f.mechs.contains 9 then s.failAt e j (s.now + 1) (beatFail e.val (destPort j r) prev bs f)
        else s.updEng e fun g => { g with landings := g.landings ++
          [{ due := s.now + 1, job := j.id, eff := .beat route last note bs }] }
    if r.kind ≠ 1 then go s
    else match s.outCtx j r with
      | none => s.endEarly j.id stNoWindow
      | some c =>
        let n := s.beatBlocks e route (64 * (len + 1))
        if s.eng[e].seq.granted = some (route, n) then
          go (s.updEng e fun g => { g with seq := { g.seq with granted := none } })
        else if s.beatCredit j c n then go (s.takeBlocks c n)
        else if r.bound = 0 then s.endEarly j.id stWaitTimeout
        else s.updEng e fun g => { g with seq := { g.seq with
          wait := some (.egress c.port.val c.link.toNat route (64 * (len + 1)) s.now (s.now + r.bound)) } }

/-- OUT (R120). -/
def execOut (t : Nat) (e : EngId) (line len route : Nat) (last : Bool) (f : Flt) (s : State) :
    Host.Outcome State Fault Refusal :=
  .next (s.engineOp t e f fun s j => s.sendBeat e j line len route last false f)

/-- OUTN (R120). -/
def execOutn (t : Nat) (e : EngId) (line len route : Nat) (last : Bool) (f : Flt) (s : State) :
    Host.Outcome State Fault Refusal :=
  .next (s.engineOp t e f fun s j => s.sendBeat e j line len route last true f)

/-- The first byte in the region of a slot of a partition's checkpoints; SLOT_B where `b` is set (R206). -/
def Ckpt.slotAt (c : Ckpt) (b : Bool) : Nat := 512 * if b then c.offB else c.offA

/-- The byte of the region where an LPDDR or CHECKPOINT route begins, and whether it reads zeros; none where the
checkpoint route cannot be used (R110, R111). -/
def State.routeRange (s : State) (p : PartId) (r : RouteEntry) (isRead : Bool) : Option (Nat × Bool) :=
  if r.kind = 4 then some (512 * r.offset, false)
  else match s.part[p].ckpt with
    | none => none
    | some c =>
      if c.length < 512 * r.offset + r.bound then none
      else if ¬ isRead then some (c.slotAt c.underB + 512 * r.offset, false)
      else match c.sealedSlot with
        | none => some (c.slotAt (!c.underB) + 512 * r.offset, true)
        | some b => some (c.slotAt b + 512 * r.offset, false)

/-- LDR and LDW (R120): a transfer that moves in the partition's own slots (R452). One that needs a fenced
controller ends the job with ST_FENCED (Table 08.17). -/
def State.startXfer (s : State) (e : EngId) (j : Job) (line route : Nat) (isRead : Bool) : State :=
  match (imageOn j e).routes[route]? with
  | none => s.badOp j
  | some r =>
    if r.kind < 4 ∨ 5 < r.kind ∨ actSize < lineAddr line + r.bound ∨ (¬ isRead ∧ s.eng[e].unchecked s.now (lineAddr line) r.bound) then
      s.badOp j
    else match s.routeRange j.part r isRead with
      | none => s.endEarly j.id stCkptBad
      | some (a, zeros) =>
        if regionBytes s.part[j.part] < a + r.bound then s.badOp j
        else if s.lpFenced a r.bound then s.endEarly j.id stFenced
        else
          let x : Xfer := ⟨s.nextXfer, j.id, isRead, line, a, r.bound, zeros, unitsOf a r.bound, none, false⟩
          ({ s with nextXfer := s.nextXfer + 1 }).updEng e fun g =>
            { g with seq := { g.seq with xfers := g.seq.xfers ++ [x], sinceWaitl := g.seq.sinceWaitl ++ [x.id] } }

/-- LDR (R120). -/
def execLdr (t : Nat) (e : EngId) (line route : Nat) (f : Flt) (s : State) : Host.Outcome State Fault Refusal :=
  .next (s.engineOp t e f fun s j => s.startXfer e j line route true)

/-- LDW (R120). -/
def execLdw (t : Nat) (e : EngId) (line route : Nat) (f : Flt) (s : State) : Host.Outcome State Fault Refusal :=
  .next (s.engineOp t e f fun s j => s.startXfer e j line route false)

end Sys2Proof.Machine
end

