-- ==== Sys2Proof/Machine/KvWalk.lean ====
section
/-! DEFINITION. The walkers of the KV cache, allocation, spill and prefetch (R161-R167, R172-R176, R178). -/

namespace Sys2Proof.Machine

/-- Whether a walk of the partition that captured a generation below `tag` is held (R161). -/
def State.olderWalk (s : State) (p : PartId) (tag : Nat) : Bool :=
  engines.any fun e => s.owns p e && match s.eng[e].walk with
    | some w => decide (w.gen < tag)
    | none => false

/-- Spill slots in transit that no older walk holds are free again (R161). -/
def State.purgeSlots (s : State) (p : PartId) : State :=
  s.updKv p fun k => { k with slots := k.slots.filter fun x => match x.2 with
    | none => true
    | some tag => s.olderWalk p tag }

/-- Whether a page is named by a descriptor of a page queue or by a walk in progress (R174). -/
def State.pinned (s : State) (p : PartId) (e : EngId) (f : Nat) : Bool :=
  let row := s.pageRow p f
  let names := fun (d : KvDesc) => d.pageRow = row && !d.isNull && !d.isDiscard && !d.isStaged
  s.eng[e].pageQueue.any names || match s.eng[e].walk with
    | some w => w.todo.any names
    | none => false

/-- The full pages of an engine that may be spilled, with their last append (R174). -/
def State.spillable (s : State) (p : PartId) (e : EngId) : List (Nat × Nat) :=
  let k := s.part[p].kv
  k.pages.filterMap fun x => match x.2 with
    | .owned at' =>
      if x.1.1 = e ∧ ¬ s.pinned p e x.1.2 ∧ k.seqs.any (fun q => q.lists.any fun l =>
          (l.2.take (q.length / 64)).contains (.resident e x.1.2)) then some (x.1.2, at') else none
    | _ => none

/-- The oldest of some pages; the lower page number wins a tie (R174). -/
def oldestPage : List (Nat × Nat) → Option (Nat × Nat)
  | [] => none
  | x :: l => match oldestPage l with
    | none => some x
    | some y => if y.2 < x.2 ∨ (y.2 = x.2 ∧ y.1 < x.1) then some y else some x

/-- When an engine's free pages lie below RESERVE, its oldest full page starts to be copied, one at a time (R174). -/
def State.refill (s : State) (p : PartId) (e : EngId) : State :=
  let s := s.purgeSlots p
  let k := s.part[p].kv
  let busy := k.pages.any fun x => x.1.1 = e && match x.2 with
    | .spilling _ _ => true
    | _ => false
  if busy ∨ s.resetting (.kv p) ∨ k.reserve.toNat ≤ (s.freePages p e).length then s
  else match oldestPage (s.spillable p e), firstFree (fun i => !k.slots.any fun x => x.1 = i) k.spillPages with
    | some (f, at'), some slot =>
      s.updKv p fun k => { k.setPage e f (.spilling slot at') with slots := (slot, none) :: k.slots }
    | _, _ => s

/-- The binds of a schedule with their engines and layers, in order of logical engine. -/
def bindLayers (c : Schedule) (j : Job) : List (EngId × Nat) :=
  (j.engines.zipIdx).flatMap fun (e, i) => match c.binds.find? fun b => b.logical = i with
    | none => []
    | some b => b.layers.map fun l => (e, l)

/-- One page for each of some (engine, layer) pairs, the lowest free page of each engine first; none if an engine
lacks a page (R173; log entry 25). -/
def takePages (free : EngId → List Nat) : List (EngId × Nat) → Option (List (EngId × Nat × Nat))
  | [] => some []
  | (e, l) :: rest => match free e with
    | [] => none
    | f :: _ => (takePages (fun x => if x = e then (free x).drop 1 else free x) rest).map fun r => (e, l, f) :: r

/-- Why the walk of a job at a page boundary allocates nothing, as the reason of FROZEN, or what it takes (R173). -/
def State.allocate (s : State) (p : PartId) (len : Nat) (ls : List (EngId × Nat)) :
    Except Nat (List (EngId × Nat × Nat)) :=
  match takePages (s.freePages p) ls with
  | none => .error 1
  | some a =>
    if s.part[p].kv.tableEntries < s.part[p].kv.entries + ls.length then .error 3
    else if 262144 ≤ len then .error 2
    else .ok a

/-- The captures and the allocation of a job's first walk (R163, R173). The job's walks on its other engines use what it has captured, with
the page lists as they then stood (log entry 87). -/
def State.captureWalk (s : State) (c : Schedule) (j : Job) : State :=
  if j.walkGen.isSome then s else
  let k := s.part[j.part].kv
  let q := k.seq j.kvSeq
  let s := s.updJob j.id fun j => { j with walkGen := some k.gen.toNat, walkLen := q.length, kvView := q.lists }
  if q.state = 0 ∨ q.handle ≠ c.handle then s.updJob j.id fun j => { j with kvStatus := some stKvNoSequence }
  else if (j.engines.zipIdx).any fun (_, i) => c.binds.any fun b =>
      b.logical = i && !b.slide && decide (b.windowPages < q.length / 64 + 1) then
    s.updJob j.id fun j => { j with kvStatus := some stKvWindow }
  else if q.state = 2 then s.updJob j.id fun j => { j with kvStatus := some stKvFrozen }
  else if q.length % 64 ≠ 0 then s
  else match s.allocate j.part q.length (bindLayers c j) with
    | .ok a =>
      let s := s.updKv j.part fun k => { k with
        pages := a.foldl (fun ps x => assocSet (x.1, x.2.2) (PageUse.taken j.id) ps) k.pages }
      let s := s.updJob j.id fun j => { j with alloc := a }
      s.updKv j.part fun k => { k with
        event := if j.engines.any fun e => (s.freePages j.part e).isEmpty then setBit k.event 5 else k.event }
    | .error r =>
      (s.updKv j.part fun k => { k.setSeq { q with state := 2, reason := r } with fullCount := bump 32 k.fullCount 1 }).updJob
        j.id fun j => { j with kvStatus := some stKvFull }

/-- A NULL or DISCARD descriptor (R165): it names the engine's null page. -/
def nullDesc (s : State) (j : Job) (layer gen : Nat) : KvDesc :=
  { job := j.id, pageRow := s.kvBase j.part, isNull := true, seq := j.kvSeq, layer := layer
    pageIndex := 0xFFFFFFFF, generation := gen }

/-- The descriptor of a full page (R165, R175). -/
def pageDesc (s : State) (j : Job) (layer gen i : Nat) : Option PageRef → KvDesc
  | none => nullDesc s j layer gen
  | some (.resident _ f) =>
    { job := j.id, pageRow := s.pageRow j.part f, seq := j.kvSeq, layer := layer, pageIndex := i, generation := gen }
  | some (.spilled _ slot) =>
    { job := j.id, pageRow := 8192 + slot, isStaged := true, seq := j.kvSeq, layer := layer, pageIndex := i
      generation := gen }

/-- The group of descriptors of one layer (R165). -/
def layerGroup (s : State) (j : Job) (b : KvBind) (e : EngId) (layer gen : Nat) : List KvDesc :=
  let n := j.walkLen
  let full := n / 64
  let refs := (assoc layer j.kvView).getD []
  let first := if b.slide then full - (b.windowPages - 1) else 0
  let nulls := List.replicate (b.windowPages - full - 1) (nullDesc s j layer gen)
  let fulls := (List.range (full - first)).map fun i => pageDesc s j layer gen (first + i) refs[first + i]?
  let openRef := if n % 64 = 0 then
      (j.alloc.find? fun a => a.1 = e && a.2.1 = layer).map fun a => PageRef.resident e a.2.2
    else refs[full]?
  let last := match j.kvStatus, openRef with
    | none, some (.resident _ f) =>
      ({ job := j.id, pageRow := s.pageRow j.part f, isOpen := true, slot := n % 64, seq := j.kvSeq, layer := layer
         pageIndex := full, generation := gen } : KvDesc)
    | _, _ => { nullDesc s j layer gen with isNull := false, isOpen := true, isDiscard := true, slot := n % 64 }
  nulls ++ fulls ++ [last]

/-- A walk starts on an engine for the first of its jobs that a bind concerns, once no walk is held there (R163). What it names is never
spilled: its pages are pinned before the reserve is refilled (R174, R177). -/
def State.walkStart (s : State) (e : EngId) : State :=
  if s.eng[e].walk.isSome then s else
  let next := (s.queueOf e).findSome? fun j => match s.sched? j.sched with
    | none => none
    | some c => (c.binds.find? fun b => b.logical = logicalOf j e).map fun b => (c, j, b)
  match next with
  | none => s
  | some (c, j, b) =>
    if s.resetting (.kv j.part) then s else
    let s := s.captureWalk c j
    match s.job? j.id with
    | none => s
    | some j =>
      let gen := j.walkGen.getD 0
      let stopped := j.kvStatus = some stKvNoSequence || j.kvStatus = some stKvWindow
      let run := b.layers.flatMap fun l => layerGroup s j b e l gen
      let w : KvWalk :=
        { job := j.id, gen := gen, seq := j.kvSeq
          todo := if stopped then [] else (List.range b.passes).flatMap fun _ => run }
      let s := s.updEng e fun g => { g with walk := some w }
      if j.alloc.isEmpty then s else j.engines.foldl (fun s e => s.refill j.part e) s

/-- KV_WALK_START (R163, R164, R173). -/
def execKvWalkStart (t : Nat) (e : EngId) (s : State) : Host.Outcome State Fault Refusal :=
  .next ((s.advance t).walkStart e)

/-- KV_DESCRIPTOR_EMIT (R166): at the tail of the page queue, with 1 added to PAGE_READY_PGH; the walker waits on a
full queue and for a prefetch. -/
def execKvDescriptorEmit (t : Nat) (e : EngId) (s : State) : Host.Outcome State Fault Refusal :=
  let s := s.advance t
  .next (match s.eng[e].walk with
    | none => s
    | some w => match w.todo, s.job? w.job with
      | d :: rest, some j =>
        if 256 ≤ s.eng[e].pageQueue.length ∨ (d.isStaged ∧ 8192 ≤ d.pageRow) then s
        else
          let s := s.updEng e fun g =>
            { g with
              pageQueue := g.pageQueue ++ [d]
              walk := some { w with todo := rest, emitted := w.emitted + 1 } }
          match (s.sched? j.sched).bind fun c => c.binds.find? fun b => b.logical = logicalOf j e with
          | none => s
          | some b => s.pghNotify j.part b.readyPgh 1 s.now
      | _, _ => s)

/-- The byte of the region where a spill slot begins (R174, Table 07.1). -/
def slotByte (k : KvPool) (slot : Nat) : Nat := 512 * k.spillOffset + slot * pageRows k.fmt k.d * 16384

/-- KV_PREFETCH (R175, R176): a spilled page into the next page of the staging ring, once that page is free. The cycle is that in which its
last row is written, free of the users of the store port above it, after an owned slot has read it. -/
def execKvPrefetch (t : Nat) (e : EngId) (s : State) : Host.Outcome State Fault Refusal :=
  let s := s.advance t
  .next (match s.eng[e].walk with
    | none => s
    | some w => match w.todo, s.job? w.job with
      | d :: rest, some j =>
        let g := s.eng[e]
        let k := s.part[j.part].kv
        let i := g.stagingNext % 8
        let n := pageRows k.fmt k.d * 16384
        if ¬ d.isStaged ∨ d.pageRow < 8192 ∨ (g.staging.any fun x => x.1 = i) ∨ ¬ s.lpServed j.part 150
            ∨ ¬ g.portShare s.now s.spanStart then s
        else
          let a := slotByte k (d.pageRow - 8192)
          if s.lpFenced a n then s.endEarly j.id stFenced
          else
            let row := s.stageRow j.part i
            s.updEng e fun g =>
              { g.takePort s.now with
                store := memWrite g.store (16384 * row) (regionRead s.part[j.part] a n)
                mem := g.mem.rowsWritten row (pageRows k.fmt k.d)
                stagingNext := g.stagingNext + 1
                staging := (i, row, d.pageRow - 8192) :: g.staging
                walk := some { w with todo := { d with pageRow := row } :: rest } }
      | _, _ => s)

/-- The spill copy of page `f` given up: the page stays resident, and the slot is free again. -/
def State.dropSpill (s : State) (p : PartId) (e : EngId) (f slot at' : Nat) : State :=
  s.updKv p fun k => { k.setPage e f (.owned at') with slots := k.slots.filter fun x => x.1 ≠ slot }

/-- A page reference after page `f` of engine `e` has moved to a spill slot. -/
def movedRef (e : EngId) (f slot : Nat) (r : PageRef) : PageRef := if r = .resident e f then .spilled e slot else r

/-- What a job's walks have captured, after page `f` of engine `e` has moved to a spill slot. -/
def Job.movedView (e : EngId) (f slot : Nat) (j : Job) : Job :=
  { j with kvView := j.kvView.map fun l => (l.1, l.2.map (movedRef e f slot)) }

/-- KV_SPILL_DONE (R174, R176): the copy is complete; the page's home is the spill slot, the page is formatted and free,
and the next spill starts where the target is not met. A copy that meets a fenced controller is abandoned, and so is one of a page that a
descriptor or a walk has come to name; a row that is found uncorrectable leaves the page where it is, with its event (R99). -/
def execKvSpillDone (t : Nat) (e : EngId) (f' : Flt) (s : State) : Host.Outcome State Fault Refusal :=
  let s := s.advance t
  .next (match s.holder e with
    | none => s
    | some p =>
      let k := s.part[p].kv
      match k.pages.findSome? fun x => match x.2 with
          | .spilling slot at' => if x.1.1 = e then some (x.1.2, slot, at') else none
          | _ => none with
      | none => s
      | some (f, slot, at') =>
        let rows := pageRows k.fmt k.d
        let n := rows * 16384
        let bad := (List.range rows).find? fun r =>
          s.eng[e].mem.storeBad.contains (s.pageRow p f + r) || f'.uncorrectable == some (s.pageRow p f + r)
        if ¬ s.lpServed p 100 ∨ ¬ s.eng[e].portShare s.now s.spanStart then s
        else if s.lpFenced (slotByte k slot) n then s.dropSpill p e f slot at'
        else if s.pinned p e f then (s.dropSpill p e f slot at').refill p e
        else match bad with
        | some r => (s.storeUe e (s.pageRow p f + r) none 0xFFFF).dropSpill p e f slot at'
        | none =>
          let s := (s.corrected e false f'.corrected).updEng e fun g => g.takePort s.now
          let bs := memRead s.eng[e].store (16384 * s.pageRow p f) n
          let s := s.updPart p fun q => regionWrite q (slotByte k slot) bs
          let s := s.updKv p fun k => { k with seqs := k.seqs.map fun q =>
            { q with lists := q.lists.map fun l => (l.1, l.2.map (movedRef e f slot)) } }
          let s := { s with jobs := updWhere (fun j : Job => j.part = p) (Job.movedView e f slot) s.jobs }
          (s.freePage p e f).refill p e)

/-- KV_PAGE_RETURN (R161): a page in transit rejoins the free pages, formatted, once no older walk is held. -/
def execKvPageReturn (t : Nat) (e : EngId) (page : Nat) (s : State) : Host.Outcome State Fault Refusal :=
  let s := s.advance t
  .next (match s.holder e with
    | none => s
    | some p => match assoc (e, page) s.part[p].kv.pages with
      | some (.transit tag) =>
        let s := s.purgeSlots p
        if s.olderWalk p tag then s else s.freePage p e page
      | _ => s)

end Sys2Proof.Machine
end

