-- ==== Sys2Proof/Machine/EngineCtl.lean ====
section
/-! DEFINITION. The SYNC and CTL slots, the wait points, the start of a job and its completion point (Tables 05.17 and
05.18, R32, R36, R42, R43, R105, R122, R124, R125, R127, R128, R180, R206, R222). -/

namespace Sys2Proof.Machine

/-! Waits. -/

/-- A sequencer whose wait is released in cycle `r`: the next bundle issues in `r` + 1 (Table 05.18). -/
def Sequencer.released (q : Sequencer) (r : Nat) : Sequencer := { q with wait := none, heldTo := max q.heldTo r }

/-- A pigeonhole wait released: COUNT is subtracted (R125). -/
def State.freeWait (s : State) (e : EngId) (g count issued : Nat) : State :=
  let s := (s.pghSet g (s.pghAt g - count)).twinForward 2
  s.updEng e fun x => { x with seq := if issued = s.now then { x.seq with wait := none } else x.seq.released s.now }

/-- A pigeonhole wait in this cycle (R125): it is released when the count seen is at COUNT; it ends the job when it reaches its bound
(R32); otherwise it stands. A standby in step releases it only as its active has (R311). -/
def State.tryWait (s : State) (e : EngId) (j : Job) (n count issued limit : Nat) : State :=
  match s.pghIndex j.part n with
  | none => if limit ≤ s.now then s.endEarly j.id stWaitTimeout else s
  | some g =>
    if ¬ s.isStandby ∧ s.now ≤ limit ∧ count ≤ s.pghSeen g then s.freeWait e g count issued
    else if limit < s.now ∨ (limit = s.now ∧ ¬ s.isStandby) then s.endEarly j.id stWaitTimeout
    else s.updEng e fun x => { x with seq := { x.seq with wait := some (.pgh n count issued limit) } }

/-- WAIT (R125). -/
def execWait (t : Nat) (e : EngId) (handle count : Nat) (f : Flt) (s : State) : Host.Outcome State Fault Refusal :=
  .next (s.engineOp t e f fun s j => match (imageOn j e).pghs[handle]? with
    | none => s.badOp j
    | some (n, bound) =>
      if count = 0 ∨ 255 < count then s.badOp j else s.tryWait e j n count s.now (s.now + bound))

/-- NOTE (R122): COUNT is added in the next cycle. -/
def execNote (t : Nat) (e : EngId) (handle count : Nat) (f : Flt) (s : State) : Host.Outcome State Fault Refusal :=
  .next (s.engineOp t e f fun s j => match (imageOn j e).pghs[handle]? with
    | none => s.badOp j
    | some (n, _) =>
      if count = 0 ∨ 255 < count then s.badOp j
      else s.updEng e fun g =>
        { g with landings := g.landings ++ [{ due := s.now + 1, job := j.id, eff := .note n count }] })

/-- Whether every transfer that an engine has issued in its job is complete (R125). -/
def Sequencer.xfersDone (q : Sequencer) : Bool := q.xfers.all Xfer.moved

/-- The bound of a WAITL issued now (R452). -/
def State.waitlBound (s : State) (e : EngId) (j : Job) : Nat :=
  let q := s.eng[e].seq
  let xs := q.xfers.filter fun x => q.sinceWaitl.contains x.id
  lpddrBound (largestGap 32 fun i => hasBit s.part[j.part].lpSlots i) (s.live j.part).length
    (xs.flatMap fun x => unitsOf x.regionByte x.length) (xs.any Xfer.isRead)

/-- WAITL (R125, R452). -/
def execWaitl (t : Nat) (e : EngId) (f : Flt) (s : State) : Host.Outcome State Fault Refusal :=
  .next (s.engineOp t e f fun s j =>
    let b := s.waitlBound e j
    let s := s.updEng e fun g => { g with seq := { g.seq with sinceWaitl := [] } }
    if s.eng[e].seq.xfersDone then s.updEng e fun g => { g with seq := { g.seq with xfers := [] } }
    else if b = 0 then s.endEarly j.id stWaitTimeout
    else s.updEng e fun g => { g with seq := { g.seq with wait := some (.xfers s.now (s.now + b)) } })

/-- The job of an engine that stands at a wait point, with its wait: also in the ending cycle of an early end (R131). -/
def State.waiting (s : State) (e : EngId) : Option (Job × SeqWait) :=
  match s.running e, s.eng[e].seq.wait with
  | some j, some w => if j.early.any (fun x => decide (x.1 < s.now)) then none else some (j, w)
  | _, _ => none

/-- WAIT_RELEASE (R125, Table 05.18). -/
def execWaitRelease (t : Nat) (e : EngId) (s : State) : Host.Outcome State Fault Refusal :=
  let s := s.advance t
  .next (match s.waiting e with
    | some (j, .pgh n count issued limit) => s.tryWait e j n count issued limit
    | _ => s)

/-- A wait that the active has released, released in its mirror cycle (R311). -/
def State.mirrorRelease (s : State) (e : EngId) : State := match s.waiting e with
  | some (j, .pgh n count issued _) => (match s.pghIndex j.part n with
    | none => s
    | some g => s.freeWait e g count issued)
  | some (_, .egress _ _ _ _ _ _) => s.updEng e fun g => { g with seq := g.seq.released s.now }
  | _ => s

/-- WAITL_RELEASE (R125, Table 05.18). -/
def execWaitlRelease (t : Nat) (e : EngId) (s : State) : Host.Outcome State Fault Refusal :=
  let s := s.advance t
  .next (match s.waiting e with
    | some (j, .xfers _ limit) =>
      if limit < s.now then s.endEarly j.id stWaitTimeout
      else if s.eng[e].seq.xfersDone then
        s.updEng e fun g => { g with seq := { g.seq.released s.now with xfers := [] } }
      else s
    | _ => s)

/-- Whether the credit for the beat that an engine holds has arrived (Table 05.18). -/
def State.heldCredit (s : State) (e : EngId) (j : Job) (link route bytes : Nat) : Bool :=
  match s.ctx? (BitVec.ofNat 16 link) with
  | none => false
  | some c => s.beatCredit j c (s.beatBlocks e route bytes)

/-- An egress wait released in this cycle: the held beat takes its credit, and the bundle issues, whole, in the next (Table 05.18). -/
def State.freeEgress (s : State) (e : EngId) (link route bytes : Nat) : State :=
  let n := s.beatBlocks e route bytes
  let s := match s.ctx? (BitVec.ofNat 16 link) with
    | none => s
    | some c => s.takeBlocks c n
  (s.twinForward 2).updEng e fun g => { g with seq := { g.seq.released s.now with granted := some (route, n) } }

/-- EGRESS_CREDIT_RELEASE (R125, Table 05.18). -/
def execEgressCreditRelease (t : Nat) (e : EngId) (s : State) : Host.Outcome State Fault Refusal :=
  let s := s.advance t
  .next (match s.waiting e with
    | some (j, .egress _ link route bytes _ limit) =>
      if limit < s.now then s.endEarly j.id stWaitTimeout
      else if s.heldCredit e j link route bytes then s.freeEgress e link route bytes
      else s
    | _ => s)

/-- WAIT_TIMEOUT (R32): a wait that has reached its bound without being released ends the job. -/
def execWaitTimeout (t : Nat) (e : EngId) (s : State) : Host.Outcome State Fault Refusal :=
  let s := s.advance t
  .next (match s.waiting e with
    | some (j, .pgh n count issued limit) => if s.now < limit then s else s.tryWait e j n count issued limit
    | some (j, .xfers _ limit) =>
      if s.now < limit then s
      else if s.now = limit ∧ s.eng[e].seq.xfersDone then
        s.updEng e fun g => { g with seq := { g.seq.released s.now with xfers := [] } }
      else s.endEarly j.id stWaitTimeout
    | some (j, .egress _ link route bytes _ limit) =>
      if s.now < limit then s
      else if s.now = limit ∧ s.heldCredit e j link route bytes then s.freeEgress e link route bytes
      else s.endEarly j.id stWaitTimeout
    | none => s)

/-! Loops, test windows, END. -/

/-- The loops in progress after the bundle that carries LOOP `i` issues (R124): its next iteration begins, or its first. Each is listed with
its iteration; a loop that does not enclose this one is over. -/
def loopEnter (img : Image) (i : Nat) (l : List (Nat × Nat)) : List (Nat × Nat) :=
  let at' := fun (k : Nat) => img.loops.getD k ⟨0, 0, 0, []⟩
  let k := match assoc i l with
    | none => 0
    | some k => if k + 1 < (at' i).count then k + 1 else 0
  (i, k) :: l.filter fun x => x.1 ≠ i && decide ((at' x.1).first ≤ (at' i).first ∧ (at' i).last ≤ (at' x.1).last)

/-- LOOP (R124). The addresses of the body's operations come resolved in their commands (log entry 4). -/
def execLoop (t : Nat) (e : EngId) (arg : Nat) (f : Flt) (s : State) : Host.Outcome State Fault Refusal :=
  .next (s.engineOp t e f fun s j => match (imageOn j e).loops[arg]? with
    | none => s.badOp j
    | some _ => s.updEng e fun g => { g with seq := { g.seq with loops := loopEnter (imageOn j e) arg g.seq.loops } })

/-- A shape field that a test window leaves undefined (R127). -/
def freeShape (n : Nat) : TileShape := ⟨Config.freeNat n % 17, Config.freeNat (n + 1) % 769, Config.freeNat (n + 2) % 385⟩

/-- An engine whose registers of R127 and R152 hold free values, drawn from number `n` on. -/
def Engine.undefine (g : Engine) (n : Nat) : Engine :=
  { g with
    tileA := { image := { seed := some n }, shape := freeShape (n + 70) }
    tileB := { image := { seed := some (n + 1) }, shape := freeShape (n + 73) }
    bcast := { seed := some (n + 2) }
    acc := Vector.ofFn fun i => { seed := some (n + 3 + i.val) }
    matOut := { seed := some (n + 67) }
    append := { seed := some (n + 68) }
    argmax := { seed := some (n + 69) } }

/-- TEST (R127): the window's cycles belong to the BIST controller; the next bundle issues in the cycle after. -/
def execTest (t : Nat) (e : EngId) (arg : Nat) (f : Flt) (s : State) : Host.Outcome State Fault Refusal :=
  .next (s.engineOp t e f fun s j => match (imageOn j e).windows[arg]? with
    | none => s.badOp j
    | some steps =>
      let n := s.free
      ({ s with free := n + 76 }).updEng e fun g =>
        { g.undefine n with seq := { g.seq with testUntil := s.now + 256 * steps } })

/-- END (R128): the job has ended on this engine. -/
def execEndJob (t : Nat) (e : EngId) (f : Flt) (s : State) : Host.Outcome State Fault Refusal :=
  .next (s.engineOp t e f fun s j =>
    if (assoc e j.ends).isSome then s
    else s.updJob j.id fun j => { j with ends := assocSet e s.now j.ends })

/-! The start of a job. -/

/-- Whether an engine can take job `j` now: it is at the head, the previous job is over, nothing is to be applied
before it (R273), and its preloads are in place (R105, R128, R130, R131). -/
def State.engineFree (s : State) (j : Job) (e : EngId) : Bool :=
  let g := s.eng[e]
  (match s.queueOf e with
    | h :: _ => h.id = j.id
    | [] => false)
  && g.seq.job.isNone && g.seq.freeFrom ≤ s.now && !s.resetting (.engine e)
  && s.env.applies.all fun x => x.engine ≠ e || x.waitJobs.contains j.id

/-- The store rows of the tiles that an image declares as preloads (R130). -/
def preloadRows (m : Image) : List Nat :=
  let one := fun (row sh : Nat) => (List.range (tileRows (shapeAt m sh))).map (row + ·)
  (if m.flags % 2 = 1 then one m.preARow m.preAShape else []) ++ if m.flags / 2 % 2 = 1 then one m.preBRow m.preBShape else []

/-- An uncorrectable row among those that an engine's preloads were read from ends the job as it starts: nothing derived from it is sent
(R99, R130). -/
def State.failPreload (s : State) (e : EngId) (j : Job) : State :=
  match (preloadRows (imageOn j e)).find? fun r => s.eng[e].mem.storeBad.contains r with
  | none => s
  | some r => s.failAt e j s.now (rowFail {} r)

/-- JOB_START (R105, Table 05.18): two cycles after the trigger's increment, on every engine at once. A walk that found no sequence or too
many pages ends the job there (R164). The argmax pair register carries nothing into the job: read before its FIRST it gives free values
(R129, R152). -/
def execJobStart (t : Nat) (e : EngId) (s : State) : Host.Outcome State Fault Refusal :=
  let s := s.advance t
  .next (match s.queueOf e with
    | [] => s
    | j :: _ => match j.released with
      | none => s
      | some c =>
        if j.started.isSome ∨ j.early.isSome ∨ s.now < c + 2 ∨ ¬ j.engines.all (s.engineFree j) then s
        else
          let s := j.engines.foldl State.walkStart s
          let st := (s.job? j.id).bind Job.kvStatus
          if st = some stKvNoSequence then
            (s.endEarly j.id stKvNoSequence).updKv j.part fun k => { k with event := setBit k.event 3 }
          else if st = some stKvWindow then
            (s.endEarly j.id stKvWindow).updKv j.part fun k => { k with event := setBit k.event 4 }
          else
            let s := s.updJob j.id fun j => { j with started := some s.now }
            let s := j.engines.foldl (fun s e =>
              let (n, s) := s.fresh
              s.updEng e fun g =>
                { g with argmax := { seed := some n }
                         seq := { job := some j.id, freeFrom := g.seq.freeFrom, testUntil := g.seq.testUntil } }) s
            j.engines.foldl (fun s e => s.failPreload e j) s)

/-! The completion point, and misses. -/

/-- The cycle of a job's completion point so far as its ENDs and outputs have reached it (R36). -/
def Job.completion (j : Job) : Nat := max j.outEnd ((j.ends.map Prod.snd).foldl max 0 + 1)

/-- Whether a job still has an output under way: a beat to be handed over, a message open, a packet to be sent. -/
def State.outputsPending (s : State) (j : Job) : Bool :=
  (j.engines.any fun e => s.eng[e].landings.any fun l => l.job = j.id && match l.eff with
    | .beat _ _ _ _ => true
    | .arrive _ _ _ last _ _ => last
    | _ => false)
  || s.fab.ports.toList.any fun p => p.queue.any fun x => x.job = some j.id

/-- Whether a job has reached its completion point (R36). The append of a bound job, in the cycle after its END, comes first, and before it an
edit that commits in that cycle (R172, R177). -/
def State.isComplete (s : State) (j : Job) : Bool :=
  j.early.isNone && j.allEnded (if j.walkGen.isSome then s.now - 1 else s.now) && !s.outputsPending j && j.completion ≤ s.now

/-- The outputs of a job that are still queued at a port marked ST_DEADLINE_MISS (R43; log entry 86). -/
def State.markOutputs (s : State) (j : Job) : State :=
  let mark := fun (x : TxPkt) => if x.job = some j.id then { x with pkt := { x.pkt with kvSeq := stDeadlineMiss } } else x
  s.updFab fun b => { b with ports := b.ports.map fun p => { p with queue := p.queue.map mark } }

/-- A miss of a job noted, and what the monitor does on it (R42, R43, R45). -/
def State.miss (s : State) (j : Job) (at' : Nat) : State :=
  ((s.updJob j.id fun j => { j with missed := true }).markOutputs j).recordMiss j at'

/-- A job that wrote a checkpoint and lets its slot be sealed (R206). -/
def State.noteSeal (s : State) (j : Job) : State := s.updPart j.part fun p => match p.ckpt with
  | none => p
  | some c =>
    if j.cls = some c.cls ∧ c.interval ≤ s.now - c.lastSeal then
      { p with ckpt := some { c with dueJobs := c.dueJobs ++ [j.id] } }
    else p

/-- A job at its completion point: its miss if it is late, its report, and its checkpoint (R36, R42, R43, R180, R206,
R222). -/
def State.complete (s : State) (j : Job) : State :=
  let c := j.completion
  let late := decide (j.last < c) && !j.missed
  let s := if late then s.miss j (j.last + 1) else s
  let j := if late then { j with missed := true } else j
  let s := if j.kvStatus = some stKvFull then s.updKv j.part fun k => { k with event := setBit k.event 0 } else s
  let s := j.engines.foldl (fun s e => s.updEng e fun g => g.forget j.id none) s
  let s := { s with jobs := s.jobs.filter fun x => x.id ≠ j.id }
  (s.noteSeal j).report j c

/-- JOB_COMPLETION (R36). -/
def execJobCompletion (t : Nat) (job : Nat) (s : State) : Host.Outcome State Fault Refusal :=
  let s := s.advance t
  .next (match s.job? job with
    | none => s
    | some j => if s.isComplete j then s.complete j else s)

/-- DEADLINE_MISS (R42): in the cycle after the last collection the job has not reached its completion point. -/
def execDeadlineMiss (t : Nat) (job : Nat) (s : State) : Host.Outcome State Fault Refusal :=
  let s := s.advance t
  .next (match s.job? job with
    | none => s
    | some j =>
      if j.early.isSome ∨ j.missed ∨ s.now ≤ j.last ∨ (s.isComplete j ∧ j.completion ≤ j.last) then s
      else s.miss j (j.last + 1))

/-- SAFE_STOP_MIN_EXPIRY (R46, R408): the thermal source also waits for a level below 3. -/
def execSafeStopMinExpiry (t : Nat) (src : StopSrc) (s : State) : Host.Outcome State Fault Refusal :=
  let s := s.advance t
  .next (match src with
    | .deadline => s.updPwr fun p => { p with deadlineStop := expireStop p.deadlineStop s.now }
    | .twin => s.updTwin fun w => { w with stop := expireStop w.stop s.now }
    | .thermal => if s.pwr.level = 3 then s else s.updPwr fun p => { p with thmStop := expireStop p.thmStop s.now })

end Sys2Proof.Machine
end

