-- ==== Sys2Proof/Machine/MbxCore.lean ====
section
/-! DEFINITION. Mailboxes: how a command rings, is accepted, waits, starts, and is answered (R218, R227-R230, R280,
R291, R292, R312, R446). -/

namespace Sys2Proof

/-- A field of a command's arguments. -/
def MbxReq.arg (r : MbxReq) (off n : Nat) : Nat := Machine.field r.args off n

/-- Whether an argument block has the size given and zero in the (offset, size) ranges reserved (R229). -/
def MbxReq.form (r : MbxReq) (size : Nat) (rsvd : List (Nat × Nat)) : Bool :=
  r.argBytes.toNat = size && rsvd.all fun x => r.arg x.1 x.2 = 0

end Sys2Proof

namespace Sys2Proof.Machine

/-- What a command that has started does: the new state, and its status and response where it completes at once. -/
abbrev Answer := State × Option (Status × List Byte)

/-- A command's effect once it starts: its mailbox, the partition whose OWNER_CMD carries it, and its request. -/
abbrev Body := State → MbxId → Option PartId → MbxReq → Answer

/-- A command refused, or completed without response bytes. -/
def ends (s : State) (st : Status) : Answer := (s, some (st, []))

/-- A command completed with ST_OK and its response bytes. -/
def gives (s : State) (bs : List Byte := []) : Answer := (s, some (stOk, bs))

/-- The opcodes whose commands can be staged in an envelope (Table 11.4). -/
def stageable : List Nat := [0x0003, 0x0102, 0x0202, 0x0400, 0x0401, 0x0502, 0x0503, 0x0504]

/-- The opcodes whose commands change no state that a pair keeps alike (R312): what they read, and what a module
does alone. The SMS takes no part in twin operation (chapter 13). -/
def readingOnly : List Nat := [0x0001, 0x0006, 0x0104, 0x0107, 0x0303, 0x0505, 0x0603, 0x0700, 0x0B03]

/-- The opcodes that a standby in step runs from its own host driver (R312). -/
def standbyRuns (op : Nat) : Bool := readingOnly.contains op || op = 0x0A01 || op = 0x0106

/-- The opcodes that an active forwards to its standby as COMMAND records (R309, Table 13.3). -/
def mirrored (op : Nat) : Bool :=
  !readingOnly.contains op && (op < 0x0900 || (0x0A02 = op)) && op ≠ 0x0105 && op ≠ 0x0106 && op ≠ 0x0203

/-- The offset of the PARTITION byte in the arguments of a command, where it has one. -/
def partByteAt (op : Nat) : Option Nat :=
  if [0x0003, 0x0007, 0x0008, 0x0100, 0x0101, 0x0102, 0x0103, 0x0106, 0x0107, 0x0200, 0x0201, 0x0202, 0x0300, 0x0301,
      0x0302, 0x0303, 0x0400, 0x0401, 0x0500, 0x0502, 0x0503, 0x0504, 0x0505, 0x0600, 0x0601,
      0x0800, 0x0900, 0x0902].contains op then some 0
  else if op = 0x0002 ∨ op = 0x0004 then some 1
  else none

/-- The engine byte of the test commands that name a partition through their engine (R390-R392). -/
def engineByteAt (op : Nat) : Option Nat := if op = 0x0901 ∨ op = 0x0903 ∨ op = 0x0904 then some 0 else none

/-- The partition that a command names (R230, R292). FUNC_RESET names one with KIND 4 and 5 alone (Table 09.13). -/
def State.namedPart (s : State) (op : Nat) (r : MbxReq) : Option PartId :=
  if op = 0x0002 ∧ r.arg 0 1 < 4 then none
  else match partByteAt op with
  | some o => if h : r.arg o 1 < 7 then some ⟨r.arg o 1, h⟩ else none
  | none =>
    if op = 0x0501 then (s.sched? (r.arg 0 2)).map Schedule.part
    else if op = 0x0602 ∨ op = 0x0603 then (s.vid.streams.find? fun v => v.num = r.arg 0 1).map Stream.part
    else match engineByteAt op with
      | some o => if h : r.arg o 1 < 6 then s.holder ⟨r.arg o 1, h⟩ else none
      | none => none

/-- The function that KIND, PARTITION and INDEX name (Table 09.13); none where no such function exists. -/
def State.funcOf (s : State) (kind part index : Nat) : Option FuncId :=
  match kind with
  | 0 => if h : index < 6 then some (.engine ⟨index, h⟩) else none
  | 1 => if h : index < 3 then some (.video ⟨index, h⟩) else none
  | 2 => if h : index < 4 then some (.cvu ⟨index, h⟩) else none
  | 3 => if h : index < 8 then some (.port ⟨index, h⟩) else none
  | 4 => match s.partOf part with
    | some p => if p = 0 ∨ (s.ctxNum? p index).isNone then none else some (.context p index)
    | none => none
  | 5 => match s.compOf part with
    | some p => if index = 0 then some (.kv p) else none
    | none => none
  | _ => none

/-- The function that a command names (R230). -/
def State.namedFunc (s : State) (op : Nat) (r : MbxReq) : Option FuncId :=
  if op = 0x0002 then s.funcOf (r.arg 0 1) (r.arg 1 1) (r.arg 2 2)
  else if op = 0x0201 then s.funcOf 4 (r.arg 0 1) (r.arg 2 2)
  else none

/-- The commands that can expose a confidential partition's data, or lead its outputs elsewhere (R291, R292). -/
def exposes (op : Nat) (r : MbxReq) (hasOwner : Bool) : Bool :=
  [0x0200, 0x0004, 0x0003, 0x0400, 0x0007, 0x0900, 0x0902, 0x0107].contains op
    || (op = 0x0202 && !bitAt (r.arg 1 1) 0)
    || (op = 0x0103 && (1 ≤ r.arg 1 1 || hasOwner))

/-- Whether the lifecycle state forbids a command (Table 12.1, R280). -/
def State.lifecycleBars (s : State) (op : Nat) : Bool :=
  let l := s.sec.lifecycle.toNat
  (op = 0x0104 && (l ≤ 1 || 5 ≤ l)) || (op = 0x0100 && (l = 0 || l = 2 || 5 ≤ l))

/-- A response may exceed the 1,984 bytes of a mailbox (R228). -/
def longResponse (op : Nat) (r : MbxReq) : Bool :=
  op = 0x0104 || op = 0x0107 || (op = 0x0700 && r.arg 0 1 = 7) || (op = 0x0006 && decide (30 < r.arg 4 2))

/-- Whether RESP_ADDR lies in the bulk area of the aperture permitted (R228, R290). -/
def respOk (own : Option PartId) (addr : Nat) : Bool := match bulkAt addr 1 with
  | none => false
  | some (a, b) => a = own.getD 0 && (own.isNone || b % 4096 = 0)

/-- The checks that a command meets before those of its own chapter; none where it may run (R218, R228, R229, R280,
R292, R312, R317, R446). `known` tells whether the opcode belongs to the mailbox. -/
def State.preCheck (s : State) (own : Option PartId) (op : Nat) (r : MbxReq) (known mirror : Bool) : Option Status :=
  if r.mailbox.val = 64 then
    if s.pwr.phase ≠ .recovery then some stDenied
    else if ¬ known ∨ ¬ allZero r.reserved ∨ r.env ≠ 0xFFFF then some stBadArg else none
  else if s.pwr.phase ≠ .service ∧ op ≠ 0x0001 then some stNotReady
  else if ¬ known ∨ ¬ allZero r.reserved ∨ (r.env ≠ 0xFFFF ∧ ¬ stageable.contains op ∧ op ≠ 0x0106) then some stBadArg
  else if ¬ mirror ∧ ((s.isStandby ∧ ¬ standbyRuns op) ∨
      (s.twin.role = .gaveUp ∧ ¬ readingOnly.contains op ∧ op ≠ 0x0A00)) then some stTwinStandby
  else if s.lifecycleBars op then some stDenied
  else match s.namedPart op r with
    | none => if longResponse op r ∧ ¬ respOk own r.respAddr.toNat then some stBadArg else none
    | some p =>
      if s.part[p].confidential ∧ own ≠ some p ∧ exposes op r s.part[p].owner.isSome ∧ ¬ mirror then some stDenied
      else if longResponse op r ∧ ¬ respOk own r.respAddr.toNat then some stBadArg
      else none

/-- A command's body under the checks that come before it. One that they refuse dooms the envelope that it names (R267). -/
def State.runBody (s : State) (m : MbxId) (own : Option PartId) (op : Nat) (r : MbxReq) (known mirror : Bool)
    (body : Body) : Answer :=
  match s.preCheck own op r known mirror with
  | some st => ends (s.doomNamed (s.namedPart op r) r.env st) st
  | none =>
    let (s, a) := body s m own r
    let done : Bool := match a with
      | none => true
      | some (st, _) => st = stOk
    (if mirrored op ∧ done then s.twinForward 3 else s, a)

/-- What a command does in its acceptance cycle though it has to wait: FUNC_RESET and PARTNER_CLOSE fence their function, DWIN_RELEASE lets no
further trigger in, and a WINDOW_GRANT that revokes lets no further operation in (R219, R233, R248, R251). -/
def State.fenceAhead (s : State) (m : MbxId) (op : Nat) (r : MbxReq) : State :=
  if op = 0x0005 then
    if h : r.arg 0 1 < 16 then s.updWin ⟨r.arg 0 1, h⟩ fun w =>
      { w with releasing := if w.bound.isSome ∧ w.releasing.isNone then some m else w.releasing }
    else s
  else if op = 0x0202 ∧ r.env = 0xFFFF ∧ r.arg 1 1 = 1 then
    let mine := fun (w : Win) => decide (w.num = r.arg 6 2 ∧ w.ctx = r.arg 2 2 ∧ some w.part = s.namedPart op r ∧ w.revoking = none)
    s.updFab fun b => { b with wins := updWhere mine (fun w => { w with revoking := some m }) b.wins }
  else match s.namedFunc op r with
    | none => s
    | some f => s.updHost fun h =>
      { h with resets := h.resets ++ [{ func := f, mailbox := m, fence := s.now, isClose := decide (op = 0x0201), started := false }] }

/-- A command that has been answered without running fences nothing. -/
def State.unfence (s : State) (m : MbxId) : State :=
  let s := s.updFab fun b => { b with wins := updWhere (fun (w : Win) => decide (w.revoking = some m)) (fun w => { w with revoking := none }) b.wins }
  s.updHost fun h =>
    { h with
      resets := h.resets.filter fun x => !(x.mailbox = m && !x.started)
      win := h.win.map fun w => if w.releasing = some m then { w with releasing := none } else w }

/-- A command starts: what it answers at once is kept until its response is delivered (R228). -/
def State.startCmd (s : State) (m : MbxId) (op : Nat) (r : MbxReq) (body : Body) : State :=
  let s := s.updMbx m fun b => { b with cmd := b.cmd.map fun c => { c with waiting := false } }
  let known := if r.mailbox.val = 64 then opcodesRecovery.contains op else opcodes64.contains op
  let (s, a) := s.runBody m none op r known false body
  match a with
  | none => s
  | some (st, bs) => (s.unfence m).mbxAnswer m st bs

/-- The mailboxes with a command that has been accepted and not answered. -/
def State.accepted (s : State) : List RunCmd := s.host.mbx.toList.filterMap Mailbox.cmd

/-- Whether an earlier accepted command of its partition or function holds a command up (R230). A PARTITION_CREATE or PARTITION_DISSOLVE of
a partition that is being dissolved is refused, and does not wait (R282, R301). -/
def State.heldUp (s : State) (c : RunCmd) : Bool :=
  let gone := (c.opcode = 0x0100 || c.opcode = 0x0101) && c.part.any fun p => s.part[p].dissolving.isSome
  s.accepted.any fun d => decide (d.order < c.order) &&
    ((c.part.isSome && !gone && d.part = c.part) || (c.func.isSome && d.func = c.func))

/-- Whether an accepted command may start (R230): fewer than 16 run, no earlier one of its partition or function is unanswered, and none
accepted before it waits for a place alone. -/
def State.mayStart (s : State) (c : RunCmd) : Bool :=
  let l := s.accepted.filter fun d => d.order ≠ c.order
  decide ((l.filter fun d => !d.waiting).length < 16) && !s.heldUp c
    && !l.any fun d => d.waiting && decide (d.order < c.order) && !s.heldUp d

/-- A command rings (R227): the request half is written, and where the doorbell is new the postmaster core accepts
it and starts it unless it has to wait (R230). -/
def State.ring (s : State) (t op : Nat) (r : MbxReq) (body : Body) : State :=
  let s := s.advance t
  let m := r.mailbox
  if ¬ s.host.hpReady then s
  else if s.pwr.phase = .recovery ∧ m.val < 64 then s.updHost fun h => { h with err := setBit h.err 1 }
  else
    let s := s.updMbx m fun b => { b with request := some (BitVec.ofNat 16 op, r) }
    let b := s.host.mbx[m]
    if r.doorbell = 0 ∨ r.doorbell = b.lastDoorbell then s
    else if b.cmd.isSome then s.updHost fun h => { h with err := setBit h.err 2 }
    else
      let c : RunCmd :=
        { opcode := BitVec.ofNat 16 op, req := r, order := s.host.nextOrder, waiting := true
          part := s.namedPart op r, func := s.namedFunc op r }
      let s := s.updMbx m fun b => { b with lastDoorbell := r.doorbell, cmd := some c, resp := { b.resp with valid := false } }
      let s := s.updHost fun h =>
        { h with
          nextOrder := h.nextOrder + 1
          mbxDone := if m.val < 64 then h.mbxDone &&& ~~~ BitVec.ofNat 64 (2 ^ m.val) else h.mbxDone }
      if s.mayStart c then s.startCmd m op r body else s.fenceAhead m op r

/-- The response bytes of a command as the host reads them: sealed under the OWNER key where the command came inside
OWNER_CMD (R291). -/
def State.respBytes (s : State) (c : RunCmd) (bs : List Byte) : List Byte :=
  match c.owner with
  | none => bs
  | some (p, seq) => match s.part[p].owner with
    | none => []
    | some k => natLe seq.toNat 8 ++ sealBytes k.key ([1, BitVec.ofNat 8 p.val, 0, 0] ++ natLe seq.toNat 8) [] bs

/-- The response of a mailbox delivered (R228, Table 09.10). -/
def State.deliver (s : State) (m : MbxId) : State :=
  match s.host.mbx[m].cmd with
  | none => s
  | some c => match c.result with
    | none => s
    | some (st, bs) =>
      let all := s.respBytes c bs
      let rest := all.drop 1984
      let s := if rest.isEmpty then s else match bulkAt c.req.respAddr.toNat 1, c.owner with
        | some (a, b), none => s.bulkWrite a b rest
        | some (_, b), some (p, _) => s.sealRecords p b (rest.length / 4064 + 1) rest
        | none, _ => s
      let s := s.updMbx m fun b =>
        { b with
          cmd := none
          resp :=
            { valid := true, doneSeq := c.req.doorbell, status := st, respBytes := BitVec.ofNat 16 all.length
              tag := c.req.tag, postmark := BitVec.ofNat 64 s.now, bytes := all.take 1984 } }
      s.updHost fun h => { h with mbxDone := if m.val < 64 then setBit h.mbxDone m.val else h.mbxDone }

/-- ECHO (R231). -/
def bodyEcho : Body := fun s _ _ r =>
  if 1920 < r.argBytes.toNat then ends s stBadArg else gives s (padTo r.argBytes.toNat r.args)

/-- ECHO (R231). -/
def execEcho (t : Nat) (r : MbxReq) (s : State) : Host.Outcome State Fault Refusal := .next (s.ring t 0x0001 r bodyEcho)

end Sys2Proof.Machine
end

