-- ==== Sys2Proof/Machine/EnvCore.lean ====
section
/-! DEFINITION. Envelopes up to their commit: opening, staging, conflicts, limits, the settle and the abort, and asking
afterwards (R262-R269, R271, R276, R277). -/

namespace Sys2Proof.Machine

/-- A stageable command's checks and effect in a state: its request, the package that it copied, and the number
reserved for it at staging where it takes one. It answers the new state, the response bytes and the number. -/
abbrev Change := State → MbxReq → List Byte → Option Nat → Except Status (State × List Byte × Nat)

/-- The engine whose activation SRAM a staging names, as it resolves now (R250). -/
def State.spaceEngine (s : State) (p : PartId) : EnvSpace → Option EngId
  | .act i => (s.live p)[i]?
  | .engine e => some e
  | .lpddr => none

/-- The aligned 4 KiB pages that a run of bytes touches (R266). -/
def pagesOf (a n : Nat) : List Nat := if n = 0 then [] else (List.range ((a + n - 1) / 4096 - a / 4096 + 1)).map (a / 4096 + ·)

/-- The bytes that a staged operation writes: a word for an atomic. -/
def EnvOp.span (o : EnvOp) : Nat := match o.kind with
  | .put => o.data.length
  | _ => 8

/-- The objects of which no two open envelopes may stage the same (Table 11.3). -/
inductive EnvObj where
  | actPage (e : Option EngId) (page : Nat)
  | regionPage (page : Nat)
  | storeRow (e : Nat) (row : Nat)
  | kvSeq (n : Nat)
  | trigger (n : Nat)
  | window (n : Nat)
  | layout
  deriving DecidableEq, Repr

/-- The objects that a staging touches (Table 11.3). -/
def State.itemObjs (s : State) (p : PartId) : EnvItem → List EnvObj
  | .op o => (pagesOf o.addr o.span).map fun n => match o.space with
    | .lpddr => EnvObj.regionPage n
    | x => EnvObj.actPage (s.spaceEngine p x) n
  | .cmd op r num _ =>
    if op = 0x0003 then (List.range (r.arg 8 4)).map fun i => EnvObj.storeRow (r.arg 1 1) (r.arg 4 4 + i)
    else if op = 0x0502 ∨ op = 0x0503 ∨ op = 0x0504 then [EnvObj.kvSeq (r.arg 2 2)]
    else if op = 0x0400 then
      if bitAt (r.arg 2 1) 0 then ((s.sched? (r.arg 6 2)).map fun c => EnvObj.trigger c.trigger).toList
      else [EnvObj.trigger (r.arg 4 2)]
    else if op = 0x0401 then ((s.sched? (r.arg 2 2)).map fun c => EnvObj.trigger c.trigger).toList
    else if op = 0x0202 then [EnvObj.window num]
    else if op = 0x0102 then [EnvObj.layout]
    else []

/-- The shadow pages of an envelope: those of activation SRAM and those of the region (R266). -/
def State.shadowPages (s : State) (v : Envelope) : List EnvObj :=
  ((v.items.flatMap (s.itemObjs v.part)).filter fun o => match o with
    | .actPage _ _ => true
    | .regionPage _ => true
    | _ => false).eraseDups

/-- The activation shadow pages of a partition in use: by open envelopes and by applies still to be made. -/
def State.actShadow (s : State) (p : PartId) : Nat :=
  ((s.env.opens.filter fun v => v.part = p).map fun v => ((s.shadowPages v).filter fun o => match o with
    | .actPage _ _ => true
    | _ => false).length).sum
  + ((s.env.applies.filter fun a => a.part = p).map fun a =>
      (a.cells.map fun c => c.1 / 4096).eraseDups.length).sum

/-- The LPDDR5X shadow pages of a partition in use: by open envelopes and by redirects still standing. -/
def State.lpddrShadow (s : State) (p : PartId) : Nat :=
  ((s.env.opens.filter fun v => v.part = p).map fun v => ((s.shadowPages v).filter fun o => match o with
    | .regionPage _ => true
    | _ => false).length).sum + s.part[p].shadow.length

/-- A number that some open envelope has reserved for a command of the opcode given (Table 11.4). -/
def State.reservedNum (s : State) (opcode : Half) (n : Nat) : Bool :=
  s.env.opens.any fun v => v.items.any fun i => match i with
    | .cmd op r num _ => op = opcode && num = n && !(op = 0x0202 && bitAt (r.arg 1 1) 0)
    | .op _ => false

/-- An item put into an envelope whose gate is open, or the status that refuses it (R264, R268, Table 11.2). -/
def State.addItem (s : State) (p : PartId) (h : Half) (i : EnvItem) (bytes : Nat) : Except Status State :=
  match s.env? p h with
  | none => .error stBadArg
  | some v =>
    let objs := s.itemObjs p i
    let clash := (s.env.opens.filter fun w => w.part = p && w.handle ≠ h).any fun w =>
      w.items.any fun j => (s.itemObjs p j).any objs.contains
    let s' := s.updEnvelope p h fun v => { v with items := v.items ++ [i], bytes := v.bytes + bytes }
    if clash then .error stEnvConflict
    else if 64 ≤ v.items.length ∨ 2 ^ 20 < v.bytes + bytes ∨ 256 < s'.actShadow p ∨ 16384 < s'.lpddrShadow p then
      .error stEnvLimit
    else .ok s'

/-- The next handle of a partition (R263). -/
def State.freeHandle (s : State) (p : PartId) : Half :=
  let n := s.env.nextHandle[p].toNat
  let taken := fun (h : Nat) => (s.env? p (BitVec.ofNat 16 h)).isSome || (s.outcome? p (BitVec.ofNat 16 h)).isSome
  BitVec.ofNat 16 ((((List.range 65535).map fun i => (n + i) % 65535).find? fun h => !taken h).getD n)

/-- An envelope opened (R262-R264). -/
def State.openEnv (s : State) (p : PartId) (opener : Option Nat) (lifetime : Nat) : Except Status (State × Half) :=
  let mine := (s.env.opens.filter fun v => v.part = p && v.opener = opener).length
  if (match opener with
    | some _ => 4
    | none => 16) ≤ mine ∨ 256 ≤ s.env.opens.length then .error stEnvLimit
  else
    let h := s.freeHandle p
    .ok (s.updEnv fun u =>
      { u with
        opens := u.opens ++ [{ part := p, handle := h, opener := opener
                               expiry := s.now + if lifetime = 0 then 90000000 else lifetime }]
        nextHandle := u.nextHandle.set p (BitVec.ofNat 16 ((h.toNat + 1) % 65535)) }, h)

/-- The envelope-limit event (Table 11.10). -/
def State.limitEvent (s : State) : State := s.updEnv fun u => { u with event := setBit u.event 3 }

/-- The state word of an envelope as an opener asks for it, with its commit postmark (R277, Table 11.6). -/
def State.envWord (s : State) (p : PartId) (h : Half) (opener : Option Nat) : Nat × Nat :=
  match s.env? p h with
  | some v =>
    if v.opener ≠ opener then (0, 0)
    else
      let st := match v.state with
        | .opened => 1
        | .doomed => 2
        | .settling => 3
      (st + 65536 * v.items.length, 0)
  | none => match s.outcome? p h with
    | some o =>
      if o.opener ≠ opener then (0, 0)
      else if o.committed then (4 + 256 * o.casMisses + 65536 * o.staged, o.postmark)
      else (5 + 256 * o.casMisses + 65536 * o.staged + 2 ^ 24 * o.reason, 0)
    | none => (0, 0)

/-- ENV_COMMIT accepted: the envelope settles (R271), or the status that answers at once (R276). With a standby in step
PREPARE goes to it first (R323). -/
def State.askCommit (s : State) (p : PartId) (h : Half) (opener : Option Nat) (a : EnvAsker) : Except Status State :=
  match s.env? p h with
  | some v =>
    if v.opener ≠ opener then .error stBadArg
    else if v.asker.isSome then .error stBusy
    else if v.state = .doomed then .ok (s.updEnvelope p h fun v => { v with asker := some a })
    else
      let seq := s.twin.txSeq
      let s := if s.hasStandby then s.twinSend 4 else s
      .ok (s.updEnvelope p h fun v =>
        { v with asker := some a, state := .settling, prepared := if s.hasStandby then some seq else none })
  | none => match s.outcome? p h with
    | some o => .error (if o.opener ≠ opener then stBadArg else if o.committed then stEnvAlreadyCommitted else stEnvAborted)
    | none => .error stBadArg

/-- ENV_ABORT accepted (R276): the envelope aborts, and with that is answered; or the status that answers at once. -/
def State.askAbort (s : State) (p : PartId) (h : Half) (opener : Option Nat) (a : EnvAsker) : Except Status State :=
  match s.env? p h with
  | some v => if v.opener ≠ opener then .error stBadArg else .ok (s.abortEnv p h 1 (some a))
  | none => match s.outcome? p h with
    | some o => .error (if o.opener ≠ opener then stBadArg else if o.committed then stEnvAlreadyCommitted else stEnvAborted)
    | none => .error stBadArg

/-! The mailbox commands but those that can be staged. -/

/-- ENV_OPEN (R262, Table 11.1). -/
def bodyEnvOpen : Body := fun s _ _ r =>
  match s.partOf (r.arg 0 1) with
  | none => ends s stBadArg
  | some p =>
    if ¬ r.form 8 [(1, 3)] then ends s stBadArg
    else match s.openEnv p none (r.arg 4 4) with
      | .error st => ends s.limitEvent st
      | .ok (s, h) => gives s (natLe h.toNat 2 ++ [0, 0])

/-- ENV_OPEN (R262). -/
def execEnvOpen (t : Nat) (r : MbxReq) (s : State) : Host.Outcome State Fault Refusal := .next (s.ring t 0x0300 r bodyEnvOpen)

/-- ENV_COMMIT (R271): answered at the envelope's closing event. -/
def bodyEnvCommit : Body := fun s m _ r =>
  match s.partOf (r.arg 0 1) with
  | none => ends s stBadArg
  | some p =>
    if ¬ r.form 4 [(1, 1)] then ends s stBadArg
    else match s.askCommit p (BitVec.ofNat 16 (r.arg 2 2)) none (.mailbox m) with
      | .error st => ends s st
      | .ok s => (s, none)

/-- ENV_COMMIT (R271). -/
def execEnvCommit (t : Nat) (r : MbxReq) (s : State) : Host.Outcome State Fault Refusal :=
  .next (s.ring t 0x0301 r bodyEnvCommit)

/-- ENV_ABORT (R276). -/
def bodyEnvAbort : Body := fun s m _ r =>
  match s.partOf (r.arg 0 1) with
  | none => ends s stBadArg
  | some p =>
    if ¬ r.form 4 [(1, 1)] then ends s stBadArg
    else match s.askAbort p (BitVec.ofNat 16 (r.arg 2 2)) none (.mailbox m) with
      | .error st => ends s st
      | .ok s => (s, none)

/-- ENV_ABORT (R276). -/
def execEnvAbort (t : Nat) (r : MbxReq) (s : State) : Host.Outcome State Fault Refusal := .next (s.ring t 0x0302 r bodyEnvAbort)

/-- ENV_STATUS (R277). -/
def bodyEnvStatus : Body := fun s _ _ r =>
  match s.partOf (r.arg 0 1) with
  | none => ends s stBadArg
  | some p =>
    if ¬ r.form 4 [(1, 1)] then ends s stBadArg
    else
      let (w, c) := s.envWord p (BitVec.ofNat 16 (r.arg 2 2)) none
      gives s (natLe w 4 ++ natLe c 8)

/-- ENV_STATUS (R277). -/
def execEnvStatus (t : Nat) (r : MbxReq) (s : State) : Host.Outcome State Fault Refusal :=
  .next (s.ring t 0x0303 r bodyEnvStatus)

/-- ENV_LIFETIME_EXPIRY (R279): the lifetime has ended and no ENV_COMMIT has been accepted. -/
def execEnvLifetimeExpiry (t : Nat) (p : PartId) (h : Half) (s : State) : Host.Outcome State Fault Refusal :=
  let s := s.advance t
  .next (match s.env? p h with
    | some v => if v.asker.isNone ∧ v.expiry ≤ s.now then s.abortEnv p h 3 else s
    | none => s)

end Sys2Proof.Machine
end

