-- ==== Sys2Proof/Machine/HostCmds.lean ====
section
/-! DEFINITION. DWIN_BIND, DWIN_RELEASE, the rows and lines of MODEL_LOAD, and FUNC_RESET (R86, R101, R178, R204, R219, R232-R234,
R305, Tables 09.7, 09.12-09.15). -/

namespace Sys2Proof.Machine

/-! Direct windows. -/

/-- Whether the module is paired (R305). -/
def State.paired (s : State) : Bool := s.twin.twinPaired || (s.twin.role ≠ .unpaired && s.twin.role ≠ .gaveUp)

/-- DWIN_BIND (R219, R289, R305, Table 09.7). -/
def bodyDwinBind : Body := fun s _ _ r =>
  let flags := r.arg 3 1
  let isSealed := bitAt flags 0
  let line := r.arg 4 4
  let rows := r.arg 8 2
  if h : r.arg 0 1 < 16 ∧ r.arg 2 1 < 6 then
    let w : WinId := ⟨r.arg 0 1, h.1⟩
    let e : EngId := ⟨r.arg 2 1, h.2⟩
    match s.compOf (r.arg 1 1) with
    | none => ends s stBadArg
    | some p =>
      if ¬ r.form 16 [(10, 6)] ∨ 2 ≤ flags then ends s stBadArg
      else if s.paired ∨ s.host.win[w].bound.isSome ∨ (isSealed ∧ s.host.win.toList.any fun x => x.bound = some p && x.isSealed) then
        ends s stBusy
      else if ¬ s.owns p e ∨ s.eng[e].fenced ∨ 960 < rows ∨ (rows ≠ 0 ∧ 393216 < line + rows) ∨ (isSealed ∧ ¬ s.part[p].confidential)
          ∨ (isSealed ∧ 928 < rows) then ends s stBadArg
      else if ¬ isSealed ∧ s.part[p].confidential then ends s stDenied
      else gives (s.updWin w fun x =>
        { rate := x.rate, burst := x.burst, tokens := x.tokens, bound := some p, engine := e, isSealed := isSealed
          inputLine := line, inputRows := rows })
  else ends s stBadArg

/-- DWIN_BIND (R219). -/
def execDwinBind (t : Nat) (r : MbxReq) (s : State) : Host.Outcome State Fault Refusal := .next (s.ring t 0x0004 r bodyDwinBind)

/-- Whether a job started through a window has not ended (R219). -/
def State.windowBusy (s : State) (w : WinId) : Bool := s.jobs.any fun j => match j.source with
  | .window x _ _ => x = w
  | _ => false

/-- A window unbound: every row reads zero until it is bound again (R219). -/
def DWin.unbind (x : DWin) : DWin := { rate := x.rate, burst := x.burst, tokens := x.tokens }

/-- DWIN_RELEASE (R219): complete once every job started through the window has ended. A window that is not bound is
refused (log entry 27). -/
def bodyDwinRelease : Body := fun s m _ r =>
  if h : r.arg 0 1 < 16 then
    let w : WinId := ⟨r.arg 0 1, h⟩
    if ¬ r.form 4 [(1, 3)] ∨ s.host.win[w].bound.isNone ∨ s.host.win[w].releasing.any (· ≠ m) then ends s stBadArg
    else if s.windowBusy w then (s.updWin w fun x => { x with releasing := some m }, none)
    else gives (s.updWin w DWin.unbind)
  else ends s stBadArg

/-- DWIN_RELEASE (R219). -/
def execDwinRelease (t : Nat) (r : MbxReq) (s : State) : Host.Outcome State Fault Refusal :=
  .next (s.ring t 0x0005 r bodyDwinRelease)

/-- A DWIN_RELEASE that waits completes where its jobs have ended. -/
def State.pollRelease (s : State) (m : MbxId) : State :=
  (List.finRange 16).foldl (fun s (w : WinId) =>
    if s.host.win[w].releasing = some m ∧ ¬ s.windowBusy w then (s.updWin w DWin.unbind).mbxAnswer m stOk else s) s

/-! MODEL_LOAD. -/

/-- The digest of a weight row (R203). -/
def rowDigest (row : Nat) (bs : List Byte) : Nat := crc64Folded (fun k => 16384 * row + 256 * k) bs

/-- A marked row spared, or the engine fenced where 32 spare rows are in use (R101). MODEL_LOAD spares the marked rows that it writes and no
others (log entry 80). -/
def State.spareRow (s : State) (e : EngId) (row : Nat) : State :=
  if ¬ s.eng[e].mem.storeMarked.contains row then s
  else if 32 ≤ s.eng[e].mem.spared.length then
    s.fenceEngine e (48 + e.val) (s.record 2 (48 + e.val) 7 6 stFenced none 0xFFFF (BitVec.ofNat 32 row) 0)
  else s.updEng e fun g => { g with mem :=
    { g.mem with storeMarked := g.mem.storeMarked.filter (· ≠ row), spared := g.mem.spared ++ [row]
                 storeStreak := assocDel row g.mem.storeStreak } }

/-- A store row written through the row staging buffer, unless sparing it has fenced the engine: the write which sets its reference digest; a reading of what it held
before no longer counts (R86, R204). -/
def State.writeRow (s : State) (e : EngId) (row : Nat) (bs : List Byte) : State :=
  let s := { s with cvu := { s.cvu with digestRows := s.cvu.digestRows.filter fun x => !(x.1 = e && x.2.1 = row) } }
  let s := s.spareRow e row
  if s.eng[e].fenced then s else
  s.updEng e fun g =>
    { g with
      rowBuf := memWrite [] 0 bs
      store := memWrite g.store (16384 * row) bs
      mem := g.mem.rowWritten row
      digests := { g.digests with
        reference := assocSet row (BitVec.ofNat 64 (rowDigest row bs)) g.digests.reference
        reading := assocDel row g.digests.reading
        stale := g.digests.stale.filter (· ≠ row) } }

/-- Rows written one after another, until one of them fences the engine (R101). -/
def State.writeRows (s : State) (e : EngId) (row : Nat) : Nat → List Byte → State
  | 0, _ => s
  | n + 1, bs =>
    let s := s.writeRow e row (bs.take 16384)
    if s.eng[e].fenced then s else s.writeRows e (row + 1) n (bs.drop 16384)

/-- Whether a schedule armed in a partition references row `row` of its engine `e` (R86). -/
def State.rowArmed (s : State) (p : PartId) (e : EngId) (row : Nat) : Bool :=
  (s.scheds.filter fun c => c.part = p).any fun c => (imagesAt c ((s.live p).idxOf e)).any fun m => refsRow m row

/-- The refusals of MODEL_LOAD but those of its source's records (R86, R232). -/
def State.modelLoadGate (s : State) (r : MbxReq) : Except Status (PartId × EngId) :=
  let first := r.arg 4 4
  let count := r.arg 8 4
  let rows := r.arg 2 1 = 0
  let size := if rows then 16384 else 64
  let src := r.arg 16 8
  if h : r.arg 1 1 < 6 then
    let e : EngId := ⟨r.arg 1 1, h⟩
    match s.compOf (r.arg 0 1) with
    | none => .error stBadArg
    | some p =>
      let n := if s.part[p].confidential ∧ (bulkAt src 1).map Prod.fst = some p then 4096 * ceilDiv (count * size) 4064 else count * size
      if ¬ r.form 24 [(3, 1), (12, 4)] ∨ ¬ s.owns p e ∨ 1 < r.arg 2 1 ∨ count = 0 ∨ src % 64 ≠ 0
          ∨ (if rows then kvFirstRow s.part[p].kvSteps.toNat else 393216) < first + count then .error stBadArg
      else match bulkAt src n with
        | none => .error stBadArg
        | some (a, _) =>
          if a ≠ 0 ∧ a ≠ p then .error stBadArg
          else if a = 0 ∧ s.part[p].confidential then .error stDenied
          else if s.eng[e].fenced then .error stFenced
          else if ¬ rows ∧ s.resetting (.engine e) then .error stNotReady
          else if rows ∧ (List.range count).any (fun i => s.rowArmed p e (first + i))
              ∧ ¬ (List.range count).all (fun i => s.eng[e].digests.stale.contains (first + i)) then .error stBusy
          else .ok (p, e)
  else .error stBadArg

/-- A failed record of a sealed source sets SEAL_BAD (Table 12.15). -/
def State.sealBad (s : State) (st : Status) : State :=
  if st = stDenied then s.updSec fun c => { c with event := setBit c.event 2 } else s

/-- MODEL_LOAD outside an envelope (R232). -/
def State.modelLoad (s : State) (r : MbxReq) : Answer :=
  match s.modelLoadGate r with
  | .error st => ends s st
  | .ok (_, e) =>
    let n := r.arg 8 4
    match s.sourceBytes (r.arg 16 8) (n * if r.arg 2 1 = 0 then 16384 else 64) with
    | (s, .error st) => ends (s.sealBad st) st
    | (s, .ok bs) =>
      if r.arg 2 1 ≠ 0 then gives (s.sideWrite e (lineAddr (r.arg 4 4)) bs).1
      else
        let s := s.writeRows e (r.arg 4 4) n bs
        if s.eng[e].fenced then ends s stFenced else gives s

/-- What a staged MODEL_LOAD of store rows checks again at commit: its rows are still free to be referenced, and there is
nothing more to write (Table 11.4). -/
def changeModelLoad : Change := fun s r _ _ => match s.modelLoadGate r with
  | .error st => .error st
  | .ok _ => .ok (s, [], 0)

/-! FUNC_RESET. -/

/-- Whether a job is work of a partner context: it was triggered on it. -/
def Job.ofCtx (j : Job) (link : Half) : Bool := match j.source with
  | .fabric _ l _ _ _ => l = link
  | _ => false

/-- Whether none of the work of a function accepted before its fence remains (R233). -/
def State.quiescent (s : State) : FuncId → Bool
  | .engine e => (s.queueOf e).isEmpty
  | .video u => !s.vid.streams.any fun v => v.unit = u && (v.current.isSome || (v.encoding && decide (v.written < v.consumed)))
  | .cvu u => s.cvu.units[u].running.isNone && s.cvu.units[u].queue.isEmpty
  | .port p => !(s.fab.outstanding.any fun o => o.port = p) && !s.fab.ctxs.any fun c => c.held.any fun h => h.port = p
  | .context p n => match s.ctxNum? p n with
    | none => true
    | some c => c.held.isEmpty && !s.jobs.any (fun j => j.ofCtx c.link) && !s.env.opens.any fun v => v.part = p && v.opener = some c.serial
  | .kv p => !engines.any fun e => s.owns p e && s.eng[e].walk.isSome

/-- The registers of an engine that FUNC_RESET clears (Table 09.15); its preloads are to be loaded again (R130). -/
def Engine.scrub (g : Engine) : Engine :=
  { g with
    bist := { g.bist with inSlice := none }, seq := { freeFrom := g.seq.freeFrom }, acc := Vector.replicate 64 {}, tileA := {}, tileB := {}, bcast := {}, matOut := {}
    append := {}, argmax := {}, params := [], pageQueue := [], staging := [], landings := [], vecLanded := [], matLanded := [], zeroed := []
    pathMat := [], pathVec := [], pathOut := [], portFrom := 0 }

/-- The declared preload tiles of an armed schedule in an engine's tile registers (R130). -/
def Engine.preload (g : Engine) (m : Image) : Engine :=
  let one := fun (g : Engine) (on : Bool) (reg : Bool) (row sh : Nat) =>
    if ¬ on then g else
    let t := shapeAt m sh
    g.setTile reg { image := { cells := (cellsFrom 0 (memRead g.store (16384 * row) (tileBytes t))).filter fun c => c.2 ≠ 0 }
                    shape := t }
  one (one g (m.flags % 2 = 1) false m.preARow m.preAShape) (m.flags / 2 % 2 = 1) true m.preBRow m.preBShape

/-- The preloads of the schedules armed on an engine put in place (R130). -/
def State.loadPreloads (s : State) (e : EngId) : State :=
  match s.holder e with
  | none => s
  | some p =>
    (s.scheds.filter fun c => c.part = p && !c.disarming).foldl (fun s c =>
      match c.images.find? fun m => m.logical = (s.live p).idxOf e with
      | none => s
      | some m => s.updEng e fun g => g.preload m) s

/-- The jobs of a list that have not ended, by number. -/
def openJobs (l : List Job) : List Nat := (l.filter fun j => j.early.isNone).map Job.id

/-- The held operations of a context that satisfy `sel` answered with ST_FENCED and dropped (Table 09.15). -/
def State.dropHeld (s : State) (c : Ctx) (sel : HeldPkt → Bool) : State :=
  let gone := c.held.filter sel
  let s := s.updCtx c.link fun c => { c with held := c.held.filter fun h => !sel h }
  gone.foldl (fun s h => if h.ack then s else s.respond h.port c h.op h.pkt stFenced) s

/-- The partner context's sequence state and counters cleared, its buckets full (R257, Table 09.15). -/
def Ctx.scrub (c : Ctx) : Ctx := { c with rx := [], tx := 0, txEpoch := 0, opsTok := c.opsBurst, bytesTok := c.bytesBurst }

/-- The discard and scrub steps of a function's reset (Table 09.15), with the number of jobs and operations ended. -/
def State.discard (s : State) (f : FuncId) : State × Nat :=
  match f with
  | .engine e =>
    let ids := openJobs (s.queueOf e)
    let es := (s.jobs.filter fun j => ids.contains j.id).flatMap Job.engines
    let s := s.endAll ids stFenced
    let s := es.foldl (fun s x => s.updEng x fun g => { g with busyUntil := s.now }) s
    ((s.updEng e Engine.scrub).loadPreloads e, ids.length)
  | .video u =>
    let (s, n) := s.endPictures u stFenced
    (s.resetStreams u, n)
  | .cvu u =>
    let (s, n) := s.cvuFlush u stFenced
    let s := engines.foldl (fun s e => s.updEng e fun g => { g with digests := { g.digests with reading := [], abandoned := true } }) s
    ({ s with cvu := { s.cvu with digestRows := [] } }, n)
  | .port p =>
    let n := (s.fab.ctxs.map fun c => (c.held.filter fun h => h.port = p).length).sum
      + (s.fab.outstanding.filter fun o => o.port = p).length
    let s := s.endOutstanding p stFenced
    let s := (s.portDown (portLink p)).updPort (portLink p) fun q =>
      { q with state := if q.state = .unused ∨ s.unitFenced (128 + p.val) then q.state else .training }
    (s.fab.ctxs.foldl (fun s c => s.dropHeld c fun h => h.port = p) s, n)
  | .context p n => match s.ctxNum? p n with
    | none => (s, 0)
    | some c =>
      let ids := openJobs (s.jobs.filter fun j => j.ofCtx c.link)
      let envs := (s.env.opens.filter fun v => v.part = p && v.opener = some c.serial).length
      let s := (s.endAll ids stFenced).abortEnvs (fun v => v.part = p && v.opener = some c.serial) 4
      let s := s.dropHeld c fun _ => true
      let s := if c.heldBlocks = 0 then s else s.returnCredit c c.heldBlocks
      ((s.updCtx c.link fun c => { c with heldBlocks := 0 }).updCtx c.link Ctx.scrub, ids.length + envs + c.held.length)
  | .kv p =>
    let held := engines.filterMap fun e => if s.owns p e then (s.eng[e].walk.map KvWalk.job) else none
    let ids := openJobs (s.jobs.filter fun j => held.contains j.id)
    let s := s.endAll ids stFenced
    let s := engines.foldl (fun s e => if s.owns p e then
      s.updEng e fun g => { g with pageQueue := [], staging := [], walk := none } else s) s
    let s := s.updKv p fun k =>
      { k with
        pages := k.pages.map fun x => match x.2 with
          | .spilling _ at' => (x.1, .owned at')
          | _ => x
        slots := k.slots.filter fun x => !k.pages.any fun y => match y.2 with
          | .spilling n _ => n = x.1
          | _ => false }
    (s, ids.length)

/-- The fence of a function, from the acceptance of the command in a mailbox on (R233). -/
def State.fence (s : State) (f : FuncId) (m : MbxId) (isClose : Bool) : State :=
  let from' := ((s.host.resets.find? fun x => x.mailbox = m && !x.started).map ResetRun.fence).getD s.now
  (s.unfence m).updHost fun h =>
    { h with resets := h.resets ++ [{ func := f, mailbox := m, fence := from', isClose := isClose }] }

/-- FUNC_RESET started: its fence (R233). -/
def bodyFuncReset : Body := fun s m _ r =>
  let kind := r.arg 0 1
  if ¬ r.form 8 [(4, 4)] ∨ (kind < 4 ∧ r.arg 1 1 ≠ 0) then ends s stBadArg
  else match s.funcOf kind (r.arg 1 1) (r.arg 2 2) with
    | none => ends s stBadArg
    | some f =>
      if s.host.resets.any fun x => x.func = f && x.started then ends s stBusy else (s.fence f m false, none)

/-- FUNC_RESET (R233). -/
def execFuncReset (t : Nat) (r : MbxReq) (s : State) : Host.Outcome State Fault Refusal :=
  .next (s.ring t 0x0002 r bodyFuncReset)

/-- A partner context closed (R248): its windows revoked, its LINK and credit blocks free. -/
def State.closeCtx (s : State) (p : PartId) (n : Nat) : State :=
  match s.ctxNum? p n with
  | none => s
  | some c =>
    let s := s.updFab fun b =>
      { b with ctxs := b.ctxs.filter fun x => x.link ≠ c.link, wins := b.wins.filter fun w => !(w.part = p && w.ctx = n) }
    if s.fab.ctxs.any fun x => x.port = c.port then s
    else s.updPort (portLink c.port) fun q => { q with serves := none }

/-- FUNC_RESET_QUIESCE (R233): at quiescence, or 90,000 cycles after the fence, what remains ends, the function is scrubbed
and the command reports. A PARTNER_CLOSE then closes its context (R248). -/
def execFuncResetQuiesce (t : Nat) (fn : FuncId) (s : State) : Host.Outcome State Fault Refusal :=
  let s := s.advance t
  .next (match s.host.resets.find? fun r => r.func = fn && r.started with
    | none => s
    | some r =>
      let quiet := s.quiescent fn && decide (s.now ≤ r.fence + 90000)
      if ¬ quiet ∧ s.now < r.fence + 90000 then s
      else
        let (s, n) := s.discard fn
        let s := s.updHost fun h => { h with resets := h.resets.filter fun x => !(x.func = fn && x.started) }
        let resp := (if quiet then [1, 0, 0, 0] else [0, 0, 0, 0]) ++ natLe n 4 ++ natLe r.fence 8
          ++ natLe (if quiet then s.now else r.fence + 90000) 8 ++ natLe (s.now + 1) 8
        if r.isClose then
          match fn with
          | .context p c => (s.closeCtx p c).mbxAnswer r.mailbox stOk []
          | _ => s.mbxAnswer r.mailbox stOk resp
        else s.mbxAnswer r.mailbox stOk resp)

end Sys2Proof.Machine
end

