-- ==== Sys2Proof/Machine/ArmCmds.lean ====
section
/-! DEFINITION. SCHEDULE_ARM, SCHEDULE_DISARM and KV_BIND (R130, R132-R136, R162, R166, R168, R171, R195, R251, Tables 05.19-05.21,
07.5). -/

namespace Sys2Proof.Machine

/-- The bytes of an image's tables (Table 05.19). -/
def tableBytes (m : Image) : Nat :=
  8 * m.shapes.length + 48 * m.loops.length + 8 * m.pghs.length + 16 * m.routes.length + 4 * m.windows.length

/-- A partition's share for W with a number of engines (R37, R452, R453). -/
def State.wShare (s : State) (p : PartId) (n : Nat) : WShare :=
  ⟨largestGap 32 fun i => hasBit s.part[p].lpSlots i, largestGap 64 fun i => hasBit s.part[p].swCycles i, n⟩

/-- The byte where checkpoint ranges are counted from when W is computed. -/
def State.ckptBase (s : State) (p : PartId) : Nat := match s.part[p].ckpt with
  | none => 0
  | some c => 512 * c.offA

/-- Whether the routes and handles of an image name what the partition has (R109, R251). -/
def State.namesOk (s : State) (p : PartId) (m : Image) : Bool :=
  m.pghs.all (fun x => decide (x.1 < s.part[p].pghCount))
    && m.routes.all fun r => match r.kind with
      | 1 => match s.win? r.window with
        | none => false
        | some w => w.part = p && w.kind = .remote && match s.ctxNum? p w.ctx with
          | none => false
          | some c => c.port.val = r.target
      | 3 => r.notify = 0xFFFF || decide (r.notify < s.part[p].pghCount)
      | _ => true

/-- Whether every image of a variant passes R134 and declares the W of R37. -/
def State.variantOk (s : State) (p : PartId) (v : Variant) : Bool :=
  v.images.all fun m =>
    s.namesOk p m && imageOk m (2 ^ 32) && imageW m (s.wShare p v.engines) (s.ckptBase p) = some m.wEngine
      && decide (v.w < 2 ^ 32)

/-- Whether two images may be armed on one engine: no run of held store-port cycles across a job of one and a job of the other reaches a whole
span, and the reloads of either leave the other its loads and MATs (R85, R90, R128). -/
def pairOk (m o : Image) : Bool :=
  decide ((storeRuns m).2.1 + (storeRuns o).1 < 8192 ∧ (storeRuns o).2.1 + (storeRuns m).1 < 8192)
    && mayFollow (2 ^ 32) m o && mayFollow (2 ^ 32) o m

/-- Whether the images that a schedule itself brings to each engine may follow one another (R85). -/
def selfOk (c : Schedule) : Bool :=
  (List.range c.engines).all fun i => (imagesAt c i).all fun m => (imagesAt c i).all (pairOk m)

/-- Whether a class register of the partition's engines holds both STOP_RELEVANT and SHEDDABLE (R48). -/
def State.classBad (s : State) (p : PartId) (cls : BitVec 4) : Bool :=
  (s.live p).any fun e => hasBit s.eng[e].dlClass[cls.toFin] 0 && hasBit s.eng[e].dlClass[cls.toFin] 2

/-- Whether a schedule declares preloads. -/
def hasPreload (c : Schedule) : Bool := (c.images ++ if c.rerunOk then c.rerun else []).any fun m => m.flags ≠ 0

/-- Whether an arm fits beside the schedules already armed, and in the memory that they and the arms `held` by open
envelopes leave (R85, R130, R132, Table 11.4). -/
def fitsWith (others held : List Schedule) (c : Schedule) : Bool :=
  decide (others.length < 32) && (others.isEmpty || !(hasPreload c || others.any hasPreload))
    && (List.range c.engines).all fun i =>
      let old := others.flatMap fun o => imagesAt o i
      let new := imagesAt c i
      let room := held.flatMap (fun o => imagesAt o i) ++ old ++ new
      decide ((room.map fun m => m.bundles.length).sum ≤ 32768)
        && decide ((room.map tableBytes).sum ≤ 65536)
        && new.all fun m => old.all (pairOk m)

/-- A schedule with the variant of a package that matches the partition's unfenced engines (R133, R195); none where the
package is not well formed, holds no such variant, or fails a check. -/
def State.armed (s : State) (c : Schedule) (pkg : List Byte) : Option Schedule :=
  let n := (s.live c.part).length
  match parsePackage pkg with
  | none => none
  | some vs => match vs.find? fun v => v.engines = n with
    | none => none
    | some v =>
      if ¬ s.variantOk c.part v then none
      else
        let mask := match (s.live c.part).head? with
          | some e => s.eng[e].rerunMask
          | none => 0
        let again := if hasBit mask c.cls.toNat then vs.find? fun v => v.engines + 1 = n else none
        let c := { c with
          engines := n, w := v.w, images := v.images, package := pkg, suspended := false
          needsBind := (v.images.filter usesKv).map Image.logical }
        let c? := match again with
          | none => some { c with rerunOk := false, rerun := [], rerunW := 0 }
          | some x => if s.variantOk c.part x then some { c with rerunOk := true, rerun := x.images, rerunW := x.w } else none
        c?.filter selfOk

/-- The response of SCHEDULE_ARM (Table 05.21). -/
def armResponse (c : Schedule) : List Byte := natLe c.handle 2 ++ [BitVec.ofNat 8 c.engines, 0] ++ natLe c.w 4

/-- The preloads of every engine of a partition that no job holds put in place (R130). -/
def State.preloadAll (s : State) (p : PartId) : State :=
  (s.live p).foldl (fun s e => if (s.queueOf e).isEmpty then s.loadPreloads e else s) s

/-- The schedules whose program and table memory the open envelopes of a partition have reserved, but the one given
(Table 11.4). -/
def State.heldArms (s : State) (p : PartId) (but : Half) : List Schedule :=
  (s.env.opens.filter fun v => v.part = p && v.handle ≠ but).flatMap fun v => v.items.filterMap fun i => match i with
    | .cmd op r num pkg =>
      if op = 0x0400 ∧ ¬ bitAt (r.arg 2 1) 0 then
        s.armed { handle := num, part := p, cls := 0, trigger := 0, budget := 0, engines := 0, w := 0, images := [] } pkg
      else none
    | .op _ => none

/-- SCHEDULE_ARM's checks and effect (R48, R133, R134, R136). A REARM of a schedule that is not suspended is refused (DESIGN CHOICE, log entry
83). The handle is the lowest free one
from 1 up, a handle field of 0 standing for no schedule (log entry 10). -/
def changeArm : Change := fun s r pkg num =>
  match s.compOf (r.arg 0 1) with
  | none => .error stBadArg
  | some p =>
    let flags := r.arg 2 1
    let staged : Bool := r.env ≠ 0xFFFF
    if ¬ r.form 24 [(3, 1)] ∨ 2 ≤ flags then .error stBadArg
    else if flags = 1 then
      match s.scheds.find? fun c => c.handle = r.arg 6 2 && c.part = p && !c.disarming with
      | none => .error stBadArg
      | some c =>
        if ¬ c.suspended ∨ s.classBad p c.cls then .error stBadArg
        else match s.armed c c.package with
          | none => .error stBadArg
          | some c' =>
            let others := s.scheds.filter fun x => x.part = p && x.handle ≠ c.handle && !(staged && x.disarming)
            if ¬ fitsWith others (s.heldArms p r.env) c' then .error stBusy
            else .ok ((s.updSched c.handle fun _ => c').preloadAll p, armResponse c', c.handle)
    else
      let trig := r.arg 4 2
      if 15 < r.arg 1 1 ∨ r.arg 6 2 ≠ 0 ∨ r.arg 8 4 = 0 ∨ s.part[p].pghCount ≤ trig ∨ s.classBad p (BitVec.ofNat 4 (r.arg 1 1)) then
        .error stBadArg
      else if (s.trigger? p trig).isSome then .error stBusy
      else
        let h := num.getD ((firstFree (fun h => h ≠ 0 && (s.sched? h).isNone && !s.reservedNum 0x0400 h) 65536).getD 65536)
        let c : Schedule :=
          { handle := h, part := p, cls := BitVec.ofNat 4 (r.arg 1 1), trigger := trig, budget := BitVec.ofNat 32 (r.arg 8 4)
            engines := 0, w := 0, images := [] }
        match s.armed c pkg with
        | none => .error stBadArg
        | some c' =>
          let others := s.scheds.filter fun x => x.part = p && !(staged && x.disarming)
          if ¬ fitsWith others (s.heldArms p r.env) c' ∨ 65536 ≤ h then .error stBusy
          else
            let s := { s with scheds := s.scheds ++ [c'] }
            .ok (if staged then s else s.preloadAll p, armResponse c', h)

/-- The package that SCHEDULE_ARM names, copied (R133, R290): none is read for a REARM. -/
def State.armPackage (s : State) (r : MbxReq) : State × Except Status (List Byte) :=
  if bitAt (r.arg 2 1) 0 ∨ r.argBytes ≠ 24 then (s, .ok [])
  else match bulkAt (r.arg 16 8) 1, s.compOf (r.arg 0 1) with
    | some (a, _), some p => if (a ≠ 0 ∧ a ≠ p) ∨ 2 ^ 24 < r.arg 12 4 then (s, .error stBadArg)
      else if a = 0 ∧ s.part[p].confidential then (s, .error stDenied)
      else s.sourceBytes (r.arg 16 8) (r.arg 12 4)
    | _, _ => (s, .error stBadArg)

/-- SCHEDULE_DISARM's check and effect (R135). -/
def changeDisarm : Change := fun s r _ _ =>
  match s.compOf (r.arg 0 1) with
  | none => .error stBadArg
  | some p =>
    if ¬ r.form 4 [(1, 1)] then .error stBadArg
    else match s.scheds.find? fun c => c.handle = r.arg 2 2 && c.part = p && !c.disarming with
      | none => .error stBadArg
      | some c =>
        let s := s.updSched c.handle fun c => { c with disarming := true }
        .ok (s, [], c.handle)

/-- A SCHEDULE_DISARM that waits completes after the last job of its schedule (R135). -/
def State.pollDisarm (s : State) (m : MbxId) (r : MbxReq) : State :=
  match s.sched? (r.arg 2 2) with
  | none => s.mbxAnswer m stOk
  | some c => if c.disarming ∧ s.jobs.any (fun j => j.sched = c.handle) then s else s.mbxAnswer m stOk

/-! KV_BIND. -/

/-- What KV_BIND follows through an image: descriptors popped and the cycle of each POP, the latest first; the counts waited for; the last KVT
of each register as (descriptor, first row of the tile, rows, KVAs since); and the rows of open pages written. -/
structure KvTrack where
  popped : Nat := 0
  pops : List Nat := []
  waited : Nat := 0
  regA : Option (Nat × Nat × Nat × Nat) := none
  regB : Option (Nat × Nat × Nat × Nat) := none
  rows : List (Nat × Nat) := []
  good : Bool := true
  deriving DecidableEq, Repr

/-- What a bind's checks depend on: the pool's format and dimension, the bind, and T of R167, none where nothing is STAGED. -/
structure KvShape where
  fmt : Nat
  d : Nat
  bind : KvBind
  stageTime : Option Nat
  deriving DecidableEq, Repr

/-- The descriptors of a job (R165). -/
def KvBind.count (b : KvBind) : Nat := b.windowPages * b.layers.length * b.passes

/-- T of R167: the frames in which `k` slots each move a page to its spill slot or back and P rows are written. -/
def stageTime (p k : Nat) : Nat := (ceilDiv (2 * p) k + 1) * 1024 + 150 + p

/-- The smallest bound that a WAIT issuing in cycle `at'` of its job may carry for descriptor `i`, every descriptor but the open one of each
group taken to be STAGED; none where it waits for the POP of descriptor i - 8, which comes after it (R167). -/
def KvTrack.boundFor (k : KvTrack) (x : KvShape) (at' i : Nat) : Option Nat := match x.stageTime with
  | none => some (36 + 4 * i - at')
  | some t =>
    let first := 36 + 4 * i + (i + 1 - (i + 1) / x.bind.windowPages) * t - at'
    if i < 8 ∨ (i + 1) % x.bind.windowPages = 0 then some first
    else if k.popped < i - 7 then none
    else some (max first ((k.pops.getD (k.popped - (i - 7)) 0) + t - at'))

/-- The rules of KVT, KVA, VKVP, of the MATs that read a page tile and of the WAITs on PAGE_READY_PGH at one issue (R155, R156, R166-R168,
R171). -/
def KvTrack.step (img : Image) (x : KvShape) (k : KvTrack) (at' : Nat) (s : Slots) : KvTrack :=
  let fmt := x.fmt
  let d := x.d
  let page := if s.mat.reg then k.regB else k.regA
  let k := if s.isMat ∧ page.isSome ∧ ¬ [4, 5, 8].contains s.mat.afmt.toNat then { k with good := false } else k
  let k := if s.vec = 0x48 ∧ ¬ (s.vs.oty.toNat = fmt ∧ lanesOf s.vs = d ∧ s.vs.srcB = 0) then { k with good := false } else k
  let k := if s.sop = 2 then
      match (pageTiles fmt d).find? fun t => t.first = s.row with
      | none => { k with good := false }
      | some t =>
        let reg := some (k.popped, t.first, tileRows t.shape, 0)
        let bad := shapeAt img s.shape ≠ t.shape ∨ k.waited < k.popped + 1 ∨ x.bind.count ≤ k.popped
        let k := if bad then { k with good := false } else k
        let k := if s.reg then { k with regB := reg } else { k with regA := reg }
        if s.pop then { k with popped := k.popped + 1, pops := at' :: k.pops } else k
    else if s.sop = 1 then (if s.reg then { k with regB := none } else { k with regA := none })
    else if s.sop = 3 then
      match if s.reg then k.regB else k.regA with
      | none => { k with good := false }
      | some (i, first, n, c) =>
        let window := x.bind.windowPages
        let group := i / window % x.bind.layers.length
        let k := { k with
          rows := (group, first + c) :: k.rows
          good := k.good && i % window = window - 1 && decide (c < n) && !k.rows.contains (group, first + c) }
        let reg := some (i, first, n, c + 1)
        if s.reg then { k with regB := reg } else { k with regA := reg }
    else k
  match s.sync with
  | 1 => match img.pghs[s.handle]? with
    | some (n, bound) =>
      if n ≠ x.bind.readyPgh then k
      else
        let total := k.waited + s.count
        let enough := total = 0 || (k.boundFor x at' (total - 1)).any fun b => decide (b ≤ bound)
        { k with waited := total, good := k.good && enough }
    | none => k
  | _ => k

/-- Whether an image keeps what KV_BIND checks (R162), every wait taken as released at once; every row of each open page receives exactly one
KVA (R171). -/
def kvImageOk (img : Image) (x : KvShape) : Bool :=
  match issuesOf img with
  | none => false
  | some l =>
    let k := (timeline img 0 0 0 0 l).foldl (fun (k : KvTrack) i => k.step img x i.at' i.s) {}
    k.good && k.rows.length = x.bind.layers.length * pageRows x.fmt x.d

/-- What the checks of a bind depend on in a partition. -/
def State.kvShape (s : State) (p : PartId) (b : KvBind) : KvShape :=
  let k := s.part[p].kv
  let slots := ((List.range 32).filter fun i => hasBit s.part[p].lpSlots i).length
  { fmt := k.fmt, d := k.d, bind := b
    stageTime := if k.spillPages = 0 then none else some (stageTime (pageRows k.fmt k.d) slots) }

/-- KV_BIND (R162, R167, Table 07.5). A second bind of a logical engine replaces the first. -/
def bodyKvBind : Body := fun s _ _ r =>
  let n := r.arg 3 1
  match s.sched? (r.arg 0 2) with
  | none => ends s stBadArg
  | some c =>
    let k := s.part[c.part].kv
    let b : KvBind :=
      { logical := r.arg 2 1, layers := (List.range n).map fun i => r.arg (16 + i) 1, windowPages := r.arg 4 2
        slide := r.arg 6 1 = 1, passes := r.arg 7 1, readyPgh := r.arg 8 2 }
    if ¬ r.form (16 + n) [(10, 6)] ∨ n = 0 ∨ 128 < n ∨ b.windowPages = 0 ∨ 4096 < b.windowPages ∨ 1 < r.arg 6 1 ∨ b.passes = 0
        ∨ 2 < b.passes ∨ s.part[c.part].pghCount ≤ b.readyPgh ∨ ¬ k.valid ∨ c.disarming ∨ ¬ b.layers.Nodup
        ∨ b.layers.any (fun l => decide (k.layers ≤ l))
        ∨ c.binds.any (fun x => x.logical ≠ b.logical && x.layers.any b.layers.contains) then ends s stBadArg
    else match c.images.find? fun m => m.logical = b.logical with
      | none => ends s stBadArg
      | some m =>
        if ¬ usesKv m ∨ ¬ kvImageOk m (s.kvShape c.part b) then ends s stBadArg
        else gives (s.updSched c.handle fun c => { c with binds := b :: c.binds.filter fun x => x.logical ≠ b.logical })

/-- KV_BIND (R162). -/
def execKvBind (t : Nat) (r : MbxReq) (s : State) : Host.Outcome State Fault Refusal := .next (s.ring t 0x0501 r bodyKvBind)

end Sys2Proof.Machine
end

