-- ==== Sys2Proof/Machine/CkptCmds.lean ====
section
/-! DEFINITION. HISTORY_READ, CKPT_CONFIG and CKPT_RESTORE; the sealing and mirroring of checkpoints and the programming of history
records (R197, R199, R206, R207, R293, Tables 08.4, 08.6, 08.7, 08.16, 12.7). -/

namespace Sys2Proof.Machine

/-! The unit history. -/

/-- A record as it is stored and returned (Table 08.4). -/
def HistRec.bytes (r : HistRec) : List Byte :=
  let body := [BitVec.ofNat 8 r.type, r.unit, BitVec.ofNat 8 r.opClass, BitVec.ofNat 8 r.mechanism] ++ natLe r.status.toNat 2
    ++ [r.dataClass, BitVec.ofNat 8 r.classification] ++ natLe r.postmark 8 ++ natLe r.utc 8 ++ natLe r.poweredS 4
    ++ natLe (wrapInt 16 r.tj) 2 ++ natLe r.vddE 2 ++ [BitVec.ofNat 8 r.part.val, BitVec.ofNat 8 r.jobClass] ++ natLe r.handle 2
    ++ natLe r.bundle 2 ++ natLe r.rep 2 ++ natLe r.detail.toNat 4 ++ natLe r.sequence 4 ++ List.replicate 12 0
  body ++ natLe (crc32c body) 4

/-- A record as the host driver sees it: those of a confidential partition's engines tell less (Table 12.7). -/
def State.hostView (s : State) (r : HistRec) : HistRec :=
  match (unitEng r.unit.toNat).bind s.keeper with
  | none => r
  | some p => if ¬ s.part[p].confidential then r else
    { r with detail := 0, bundle := 0xFFFF, dataClass := 0, handle := 0, postmark := coarse r.postmark }

/-- HISTORY_READ (R199, Table 08.16). -/
def bodyHistoryRead : Body := fun s _ _ r =>
  let count := r.arg 4 2
  let src := r.arg 6 1
  if ¬ r.form 8 [(7, 1)] ∨ count = 0 ∨ 64 < count ∨ 1 < src then ends s stBadArg
  else
    let h := s.hist
    let l := ((if src = 0 then h.ring else h.fenceTable).filter fun x => decide (r.arg 0 4 ≤ x.sequence)).take count
    let oldest := match h.ring with
      | [] => h.next.toNat
      | x :: _ => x.sequence
    gives s (natLe oldest 4 ++ natLe h.next.toNat 4 ++ natLe h.displaced.toNat 4
      ++ [BitVec.ofNat 8 h.fenceTable.length, BitVec.ofNat 8 l.length] ++ natLe h.uncopied.toNat 2
      ++ l.flatMap fun x => (s.hostView x).bytes)

/-- HISTORY_READ (R199). -/
def execHistoryRead (t : Nat) (r : MbxReq) (s : State) : Host.Outcome State Fault Refusal :=
  .next (s.ring t 0x0006 r bodyHistoryRead)

/-- A record programmed into NAND: it takes its SEQUENCE, and TYPE 2 and 3 go to the fence table too (R197, R199). -/
def History.program (h : History) (r : HistRec) : History :=
  let r := { r with sequence := h.next.toNat }
  let keep := r.type = 2 || r.type = 3
  { h with
    ring := (if 262144 ≤ h.ring.length then h.ring.drop 1 else h.ring) ++ [r]
    next := h.next + 1
    fenceTable := if keep && decide (h.fenceTable.length < 64) then h.fenceTable ++ [r] else h.fenceTable
    uncopied := if keep && decide (64 ≤ h.fenceTable.length) then bump 16 h.uncopied 1 else h.uncopied }

/-- The next waiting record programmed: TYPE 2, 3 and 4 ahead of every TYPE 1 record (R197). -/
def History.programNext (h : History) : History :=
  match h.waitingF, h.waiting1 with
  | r :: l, _ => ({ h with waitingF := l }).program r
  | [], r :: l => ({ h with waiting1 := l }).program r
  | [], [] => h

/-- HISTORY_PROGRAM (R197). -/
def execHistoryProgram (t : Nat) (s : State) : Host.Outcome State Fault Refusal :=
  let s := s.advance t
  .next { s with hist := s.hist.programNext }

/-! Checkpoints. -/

/-- The byte of the region where a slot begins. -/
def Ckpt.base (c : Ckpt) (b : Bool) : Nat := 512 * if b then c.offB else c.offA

/-- CKPT_CONFIG (R206, Table 08.6). -/
def bodyCkptConfig : Body := fun s _ _ r =>
  match s.compOf (r.arg 0 1) with
  | none => ends s stBadArg
  | some p =>
    let win := r.arg 2 2
    let len := r.arg 4 4
    let a := r.arg 8 4
    let b := r.arg 12 4
    let units := ceilDiv (len + 64) 512
    let winOk : Bool := win = 0xFFFF || match s.win? win with
      | none => false
      | some w => w.part = p && w.kind = .remote
    if ¬ r.form 32 [(20, 12)] ∨ 15 < r.arg 1 1 ∨ ¬ winOk ∨ len % 512 ≠ 0 ∨ 2 ^ 26 < len ∨ r.arg 16 4 < 9000000
        ∨ regionBytes s.part[p] < 512 * (max a b + units) ∨ (a < b + units ∧ b < a + units) then ends s stBadArg
    else
      let c : Ckpt :=
        { cls := BitVec.ofNat 4 (r.arg 1 1), mirror := BitVec.ofNat 16 win, length := len, offA := a, offB := b
          interval := r.arg 16 4, lastSeal := s.now }
      gives (s.updPart p fun q => { q with ckpt := some c })

/-- CKPT_CONFIG (R206). -/
def execCkptConfig (t : Nat) (r : MbxReq) (s : State) : Host.Outcome State Fault Refusal := .next (s.ring t 0x0007 r bodyCkptConfig)

/-- The CRC-64 of a checkpoint's body with its sequence number folded in. -/
def ckptCrc (seq : Nat) (body : List Byte) : Nat := crc64Folded (fun k => seq + k) body

/-- A checkpoint header (Table 08.7). -/
def ckptHeader (p : PartId) (seq now utc outSeq len crc : Nat) : List Byte :=
  let h := natLe 0x4B504843 4 ++ [BitVec.ofNat 8 p.val, 0, 0, 0] ++ natLe seq 8 ++ natLe now 8 ++ natLe utc 8 ++ natLe outSeq 8
    ++ natLe len 4 ++ natLe 0 4 ++ natLe crc 8 ++ natLe 0 4
  h ++ natLe (crc32c h) 4

/-- The SEQUENCE of a slot's bytes where its header is valid and its CRC-64 matches. -/
def ckptSeq (p : PartId) (len : Nat) (bs : List Byte) : Option Nat :=
  let h := (bs.drop len).take 64
  if field h 0 4 = 0x4B504843 ∧ field h 4 1 = p.val ∧ field h 40 4 = len ∧ field h 60 4 = crc32c (h.take 60)
      ∧ field h 48 8 = ckptCrc (field h 8 8) (bs.take len) then some (field h 8 8) else none

/-- A partition that R326 leaves to be restored, restored from its mirror window: its outputs go on from the checkpoint's OUTPUT_SEQ
plus 65,536. -/
def State.regain (s : State) (p : PartId) (header : List Byte) : State :=
  if ¬ hasBit s.twin.lost p.val then s
  else (s.updTwin fun t => { t with lost := t.lost &&& ~~~ BitVec.ofNat 7 (2 ^ p.val) }).updPart p fun q =>
    { q with outSeq := field header 32 8 + 65536 }

/-- CKPT_RESTORE (R207, R326, R455). The mirror window's two slots come with the command, slot A first. -/
def bodyCkptRestore : Body := fun s _ _ r =>
  match s.compOf (r.arg 0 1) with
  | none => ends s stBadArg
  | some p => match s.part[p].ckpt with
    | none => ends s stBadArg
    | some c =>
      if ¬ r.form 4 [(2, 2)] ∨ 1 < r.arg 1 1 ∨ (r.arg 1 1 = 1 ∧ c.mirror = 0xFFFF) then ends s stBadArg
      else
        let n := c.length + 64
        let barred := fun (b : Bool) => s.lpFenced (c.base b) n
        let slot := fun (b : Bool) =>
          if r.arg 1 1 = 0 then regionRead s.part[p] (c.base b) n else padTo n (r.extra.drop (if b then n else 0))
        let pick : Option (Bool × Nat) := match ckptSeq p c.length (slot false), ckptSeq p c.length (slot true) with
          | none, none => none
          | some x, none => some (false, x)
          | none, some y => some (true, y)
          | some x, some y => if x < y then some (true, y) else some (false, x)
        if r.arg 1 1 = 0 ∧ (barred false ∨ barred true) then ends s stFenced
        else match pick with
        | none => ends s stCkptBad
        | some (b, seq) =>
          if barred b then ends s stFenced else
          let bs := slot b
          let s := if r.arg 1 1 = 0 then s else (s.updPart p fun q => regionWrite q (c.base b) bs).regain p (bs.drop c.length)
          gives (s.updPart p fun q => { q with ckpt := q.ckpt.map fun c =>
            { c with sealedSlot := some b, underB := !b, nextSeq := seq + 1, dueJobs := [] } }) (bs.drop c.length)

/-- CKPT_RESTORE (R207). -/
def execCkptRestore (t : Nat) (r : MbxReq) (s : State) : Host.Outcome State Fault Refusal :=
  .next (s.ring t 0x0008 r bodyCkptRestore)

/-- CHECKPOINT_SEAL (R206, R455): after a job that is to seal has ended, the header is written behind the slot's bytes, and the two slots change
places. Nothing is sealed where a controller that the slot needs is fenced. -/
def execCheckpointSeal (t : Nat) (p : PartId) (s : State) : Host.Outcome State Fault Refusal :=
  let s := s.advance t
  .next (match s.part[p].ckpt with
    | none => s
    | some c => match c.dueJobs with
      | [] => s
      | id :: _ =>
        if (s.job? id).isSome then s
        else
          let b := c.underB
          if s.lpFenced (c.base b) (c.length + 64) then s.updPart p fun q => { q with ckpt := some { c with dueJobs := [] } } else
          let body := regionRead s.part[p] (c.base b) c.length
          let head := ckptHeader p c.nextSeq s.now s.utc s.part[p].outSeq c.length (ckptCrc c.nextSeq body)
          let c' : Ckpt :=
            { c with
              sealedSlot := some b, underB := !b, nextSeq := c.nextSeq + 1, lastSeal := s.now, dueJobs := []
              mirrorQueue := if c.mirror = 0xFFFF then [] else c.mirrorQueue ++ [b] }
          (s.updPart p fun q => regionWrite q (c.base b + c.length) head).updPart p fun q => { q with ckpt := some c' })

/-- Bytes cut into puts of at most 4,096 bytes at rising offsets of a partner window, queued at the context's port. -/
def State.queuePuts (s : State) (c : Ctx) (w : Win) (l : List (Nat × List Byte)) : State :=
  l.foldl (fun s (off, body) =>
    let tag := s.fab.nextTag
    let s := s.updFab fun b => { b with nextTag := b.nextTag + 1 }
    s.queueTx c.port
      { cls := .other, op := 1, ctx := some c.link.toNat, part := c.part
        pkt :=
          { flags := if c.clear then 2 else 0, length := BitVec.ofNat 16 body.length, link := c.remoteLink
            epoch := BitVec.ofNat 16 (sendEpoch c), tag := tag, window := BitVec.ofNat 16 w.base
            offset := BitVec.ofNat 64 off, payload := body } }) s

/-- CHECKPOINT_MIRROR (R207, R452, R455): once the previous copy has ended, the body of the next sealed slot, read in the partition's owned slots,
goes to the mirror window and its header last; a copy that needs a fenced controller ends. A standby in step sends none (R312). -/
def execCheckpointMirror (t : Nat) (p : PartId) (s : State) : Host.Outcome State Fault Refusal :=
  let s := s.advance t
  .next (match s.part[p].ckpt with
    | none => s
    | some c => match c.mirrorQueue, s.win? c.mirror.toNat with
      | b :: rest, some w => match s.ctxNum? w.part w.ctx with
        | none => s
        | some x =>
          let queued := (s.fab.ports[portLink x.port].queue.filter fun y => y.cls = .other).map fun y => y.pkt.tag
          let open' := (s.fab.outstanding.filter fun o => o.port = x.port).map OutOp.tag
          if c.mirroring.any fun g => queued.contains g || open'.contains g then s
          else if s.isStandby ∨ s.lpFenced (c.base b) (c.length + 64) then s.updPart p fun q => { q with ckpt := some { c with mirrorQueue := rest } }
          else if ¬ s.lpServed p 150 then s
          else
            let base := c.base b
            let body := regionRead s.part[p] base c.length
            let puts := (if c.length = 0 then [] else chopPayload (c.length / 4096 + 1) base body)
              ++ [(base + c.length, regionRead s.part[p] (base + c.length) 64)]
            let first := s.fab.nextTag
            let tags := (List.range puts.length).map fun i => first + BitVec.ofNat 32 i
            (s.queuePuts x w puts).updPart p fun q => { q with ckpt := some { c with mirrorQueue := rest, mirroring := tags } }
      | _, _ => s)

end Sys2Proof.Machine
end

