-- ==== Sys2Proof/Machine/CvuCmds.lean ====
section
/-! DEFINITION. CVU_SUBMIT and what the check-value units do in time (R203, R375-R381, R455, Tables 16.2-16.4). -/

namespace Sys2Proof.Machine

/-- The compute partition that owns a slot of the check-value units; none for a system slot (R375). -/
def State.cvuOwner (s : State) (slot : Nat) : Option PartId :=
  (List.finRange 7).find? fun p => p ≠ 0 && s.part[p].isThere && hasBit s.part[p].cvuSlots slot

/-- The partition whose jobs a slot serves: system slots serve partition 0 (R375). -/
def State.cvuServes (s : State) (slot : Nat) : PartId := (s.cvuOwner slot).getD 0

/-- The slot of the frame at a postmark: 4,096 P-cycles are 8,192 cycles (R375). -/
def cvuSlotAt (now : Nat) : Nat := now / 8192 % 16

/-- The number of slots of a partition's run from a slot on, at most a frame. -/
def State.runLen (s : State) (p : PartId) (slot : Nat) : Nat :=
  ((List.range 16).takeWhile fun i => s.cvuServes ((slot + i) % 16) = p).length

/-- The slots that serve a partition. -/
def State.cvuCount (s : State) (p : PartId) : Nat := ((List.range 16).filter fun i => s.cvuServes i = p).length

/-- The longest run of a partition in P-cycles (R379). -/
def State.longestRun (s : State) (p : PartId) : Nat := 4096 * ((List.range 16).map (s.runLen p)).foldl max 0

/-- The first cycle after the run of a partition that holds a postmark. -/
def State.runEnd (s : State) (p : PartId) (at' : Nat) : Nat := at' / 8192 * 8192 + 8192 * s.runLen p (cvuSlotAt at')

/-- The P-cycles of a step (Table 16.2). -/
def stepCost (src len : Nat) : Nat :=
  (if src = 1 then 79 else 4) + (if src = 3 then 72 else 1) * ceilDiv len 64

/-- The steps of a CVU_SUBMIT: SOURCE, LOGICAL_ENGINE, LENGTH, START (Table 16.3). -/
def cvuSteps (r : MbxReq) : List (Nat × Nat × Nat × Nat) :=
  (List.range (r.arg 4 1)).map fun i =>
    (r.arg (48 + 16 * i) 1, r.arg (49 + 16 * i) 1, r.arg (52 + 16 * i) 4, r.arg (56 + 16 * i) 8)

/-- Whether a step is not empty, stays in its source, and its source is permitted to the partition (Table 16.2). -/
def stepOk (p : PartId) (region : Nat) : Nat × Nat × Nat × Nat → Bool
  | (src, logical, len, start) =>
    decide (1 ≤ len ∧ len ≤ 16777216) && match src with
      | 0 => p ≠ 0 && decide (logical < 6 ∧ start + len ≤ actSize)
      | 1 => decide (start + len ≤ region)
      | 3 => p = 0 && decide (start + len ≤ 2 ^ 26)
      | _ => false

/-- The jobs of a partition that a unit holds. -/
def Cvu.holds (c : Cvu) (p : PartId) : Nat := ((c.running.toList ++ c.queue).filter fun j => j.part = p).length

/-- The job that CVU_SUBMIT describes (Table 16.3). -/
def cvuJobOf (r : MbxReq) (p : PartId) (num : Nat) : CvuJob :=
  let fl := r.arg 3 1
  let steps := cvuSteps r
  { num := num, part := p, width := r.arg 2 1, refin := bitAt fl 0, refout := bitAt fl 1, fold := bitsOf fl 3 2
    poly := BitVec.ofNat 64 (r.arg 8 8), init := BitVec.ofNat 64 (r.arg 16 8), xorout := BitVec.ofNat 64 (r.arg 24 8)
    foldBase := BitVec.ofNat 64 (r.arg 32 8), donePgh := r.arg 6 2, resultOff := r.arg 40 4, steps := steps
    duration := 16 + (steps.map fun x => stepCost x.1 x.2.2.1).sum + 8 }

/-- CVU_SUBMIT (R377, R455). -/
def bodyCvuSubmit : Body := fun s _ own r =>
  match s.partOf (r.arg 0 1) with
  | none => ends s stBadArg
  | some p =>
    let w := r.arg 2 1
    let unit := r.arg 1 1
    let n := r.arg 4 1
    let j := cvuJobOf r p s.cvu.nextJob
    let region := regionBytes s.part[p]
    let rsvd := (List.range n).all fun i => r.arg (50 + 16 * i) 2 = 0
    let fits := decide (r.arg 8 8 < 2 ^ w ∧ r.arg 16 8 < 2 ^ w ∧ r.arg 24 8 < 2 ^ w)
    if ¬ r.form (48 + 16 * n) [(5, 1), (44, 4)] ∨ ¬ rsvd ∨ w < 8 ∨ 64 < w ∨ n = 0 ∨ 64 < n ∨ (3 < unit ∧ unit ≠ 0xFF)
        ∨ 16 ≤ r.arg 3 1 ∨ j.fold = 3 ∨ ¬ fits ∨ (j.fold ≠ 2 ∧ r.arg 32 8 ≠ 0) ∨ ¬ j.steps.all (stepOk p region)
        ∨ (r.arg 6 2 ≠ 0xFFFF ∧ s.part[p].pghCount ≤ r.arg 6 2) ∨ region < 64 * j.resultOff + 64 then ends s stBadArg
    else if s.part[p].confidential ∧ own ≠ some p then ends s stDenied
    else if s.cvuCount p = 0 then ends s stBusy
    else if s.longestRun p < j.duration then ends s stBadArg
    else
      let limit := s.cvuCount p
      let named : List CvuId := (List.finRange 4).filter fun u => unit = 0xFF || u.val = unit
      let live := named.filter fun u => !s.unitFenced (112 + u.val)
      match live.find? fun u => decide (s.cvu.units[u].holds p < limit) with
      | none => ends s (if live.isEmpty then stFenced else stBusy)
      | some u =>
        let s := { s with cvu := { s.cvu with
          nextJob := s.cvu.nextJob + 1
          units := s.cvu.units.set u { s.cvu.units[u] with queue := s.cvu.units[u].queue ++ [j] } } }
        gives s (natLe j.num 4 ++ [BitVec.ofNat 8 u.val, 0, 0, 0])

/-- CVU_SUBMIT (R377). -/
def execCvuSubmit (t : Nat) (r : MbxReq) (s : State) : Host.Outcome State Fault Refusal := .next (s.ring t 0x0800 r bodyCvuSubmit)

/-- A unit changed. -/
def State.updCvu (s : State) (u : CvuId) (f : Cvu → Cvu) : State :=
  { s with cvu := { s.cvu with units := s.cvu.units.set u (f s.cvu.units[u]) } }

/-- A digest of a row from the scrubber's buffer kept as the row's reading: the first of an epoch counts (R203). -/
def State.noteReading (s : State) (x : EngId × Nat × Dword) : State :=
  s.updEng x.1 fun g => if (assoc x.2.1 g.digests.reading).isSome then g else
    { g with digests := { g.digests with reading := assocSet x.2.1 x.2.2 g.digests.reading } }

/-- The rows of 256 KiB that one unit takes in a system slot, at 4 + 256 P-cycles each. -/
def rowsPerSlot : Nat := 15

/-- CVU_SLOT (R375, R376): a slot starts; in a system slot the unit serves the weight digests first. -/
def execCvuSlot (t : Nat) (u : CvuId) (s : State) : Host.Outcome State Fault Refusal :=
  let s := s.advance t
  .next (if s.now % 8192 ≠ 0 then s
    else
      let slot := cvuSlotAt s.now
      let s := s.updCvu u fun c => { c with slot := slot }
      if (s.cvuOwner slot).isSome ∨ s.unitFenced (112 + u.val) ∨ s.cvu.units[u].running.isSome then s
      else
        let now := s.cvu.digestRows.take rowsPerSlot
        let s := now.foldl State.noteReading s
        { s with cvu := { s.cvu with digestRows := s.cvu.digestRows.drop rowsPerSlot } })

/-- CVU_JOB_START (R379): the head job of the partition that the slot serves starts where the run can hold it. -/
def execCvuJobStart (t : Nat) (u : CvuId) (s : State) : Host.Outcome State Fault Refusal :=
  let s := s.advance t
  let p := s.cvuServes (cvuSlotAt s.now)
  .next (match s.cvu.units[u].running, s.cvu.units[u].queue.find? fun j => j.part = p with
    | none, some j =>
      if s.unitFenced (112 + u.val) ∨ s.resetting (.cvu u) ∨ s.runEnd p s.now < s.now + 2 * j.duration then s
      else s.updCvu u fun c =>
        { c with running := some { j with startedAt := s.now }, queue := c.queue.filter fun x => x.num ≠ j.num }
    | _, _ => s)

/-- The source of the byte that a stream holds at an address, among a job's steps. -/
def stepHolding (j : CvuJob) (a : Nat) : Option (Nat × Nat × Nat × Nat) :=
  j.steps.find? fun x => decide (x.2.2.2 ≤ a ∧ a < x.2.2.2 + x.2.2.1)

/-- The event of an uncorrectable word that a job met (R99, Table 08.15). -/
def State.cvuUe (s : State) (j : CvuJob) (a : Nat) : State :=
  match stepHolding j a with
  | some (0, logical, _, _) => match (s.live j.part)[logical]? with
    | some e => s.actUe e a none 0xFFFF
    | none => s
  | some (1, _, _, _) => s.event (80 + a / 512 % 16) 7 6 stMemUncorrectable none 0xFFFF (BitVec.ofNat 32 (a / 512))
    (onesClass (regionRead s.part[j.part] (a / 512 * 512) 512))
  | _ => s

/-- CVU_JOB_END (R381, R452): the job has read its whole stream, or met an uncorrectable word, a line zeroed under R190, an engine or controller that
it cannot reach, or a mismatch of the unit's register sets. What it reads of the region and its result take owned slots. -/
def execCvuJobEnd (t : Nat) (u : CvuId) (f : Flt) (s : State) : Host.Outcome State Fault Refusal :=
  let s := s.advance t
  .next (match s.cvu.units[u].running with
    | none => s
    | some j =>
      let (bs, stop) := s.cvuStream j j.steps
      let free := s.updCvu u fun c => { c with running := none }
      let lat := if j.steps.any fun x => x.1 = 1 then 150 else 100
      if s.runEnd j.part j.startedAt < s.now ∨ ¬ s.lpServed j.part lat then s
      else match f.uncorrectable.filter fun a => bs.any fun x => x.1 = a with
        | some a =>
          let done := bs.takeWhile fun x => x.1 ≠ a
          (free.cvuUe j a).cvuDone u j stMemUncorrectable done.length (cvuRaw j done)
        | none =>
          if ¬ f.mechs.isEmpty then
            (free.event (112 + u.val) 12 (namedMech f.mechs) stCheckMismatch none 0xFFFF f.detail f.dataClass).cvuDone u j
              stCheckMismatch bs.length (cvuRaw j bs)
          else if stop.isSome then free.cvuDone u j (stop.getD stOk) bs.length (cvuRaw j bs)
          else if s.now < j.startedAt + 2 * j.duration then s
          else free.cvuDone u j stOk bs.length (cvuRaw j bs))

/-- CVU_OVERRUN (R380): a job still running at the end of its run stops at its last completed block of 256 bytes. -/
def execCvuOverrun (t : Nat) (u : CvuId) (blocks : Nat) (s : State) : Host.Outcome State Fault Refusal :=
  let s := s.advance t
  .next (match s.cvu.units[u].running with
    | none => s
    | some j =>
      if s.now < s.runEnd j.part j.startedAt then s
      else
        let bs := (s.cvuStream j j.steps).1.take (256 * blocks)
        let done := bs.take (bs.length / 256 * 256)
        (s.updCvu u fun c => { c with running := none }).cvuDone u j stCvuOverrun done.length (cvuRaw j done))

end Sys2Proof.Machine
end

