-- ==== Sys2Proof/Machine/FabricCmds.lean ====
section
/-! DEFINITION. PARTNER_OPEN, PARTNER_CLOSE, WINDOW_GRANT and PLAN_LOAD (R239, R240, R245-R251, R255, R258, R259, R283, R310,
Tables 10.2, 10.3, 10.6, 10.7, 10.9). -/

namespace Sys2Proof.Machine

/-! Cabinet plans. -/

/-- A port entry of a plan (Table 10.3). -/
def parsePlanPort (b : List Byte) : PlanPort :=
  { mode := field b 0 1, farPort := byteAt b 1, filterFirst := field b 2 2, filterLen := field b 4 1
    farId := BitVec.ofNat 64 (field b 8 8) }

/-- Whether an instruction of a filter program is allowed at place `i` of a program of `n` on a port of a MODE (R259). -/
def filterInstrOk (mode n i : Nat) (x : Dword) : Bool :=
  let v := x.toNat
  let op := bitsOf v 7 0
  let load := op = 1 || op = 2
  let jump := 4 ≤ op && op ≤ 7
  let k := bitsOf v 63 32
  decide (1 ≤ op ∧ op ≤ 8) && bitsOf v 15 10 = 0 && bitsOf v 9 8 ≤ 2
    && (load || bitsOf v 9 8 = 0)
    && (!jump || decide (i + 1 + bitsOf v 23 16 < n ∧ i + 1 + bitsOf v 31 24 < n))
    && (op ≠ 8 || (bitsOf k 7 0 ≤ 3 && (bitsOf k 7 0 ≠ 3 || mode ≠ 1)))

/-- The filter program of a port. -/
def portProgram (filters : List Dword) (q : PlanPort) : List Dword := (filters.drop q.filterFirst).take q.filterLen

/-- A plan read from its bytes, where it passes the checks of R240. -/
def parsePlan (bs : List Byte) : Option Plan :=
  let n := bs.length
  let count := (n - 236) / 8
  let ports := (List.range 9).map fun i => parsePlanPort ((bs.drop (16 + 24 * i)).take 24)
  let filters := (List.range count).map fun i => BitVec.ofNat 64 (field bs (232 + 8 * i) 8)
  let rsvd := (List.range 9).all fun i => field bs (16 + 24 * i + 5) 3 = 0 && field bs (16 + 24 * i + 16) 8 = 0
  let good := decide (236 ≤ n ∧ n ≤ 8192) && (n - 236) % 8 = 0 && decide (count ≤ 512) && field bs 0 4 = 0x4E414C50
    && field bs 4 2 = 1 && field bs 10 2 = n && field bs 12 4 = 0 && rsvd && field bs (n - 4) 4 = crc32c (bs.take (n - 4))
    && ports.zipIdx.all fun (q, i) =>
      (if i = 8 then q.mode = 0 || q.mode = 3 else decide (q.mode ≤ 2)) && decide (q.filterLen ≤ 64)
        && decide (q.filterFirst + q.filterLen ≤ count)
        && (portProgram filters q).zipIdx.all fun (x, k) => filterInstrOk q.mode q.filterLen k x
  if good then
    some { slot := BitVec.ofNat 16 (field bs 6 2), twinSlot := BitVec.ofNat 16 (field bs 8 2), ports := ports
           filters := filters, bytes := bs }
  else none

/-- Where the boot NOR holds a copy of the cabinet plan (Table 19.1). -/
def planOffset (copy : Nat) : Nat := 0x40000 + 0x8000 * copy

/-- Whether a WRITE_COUNT is later than another (R414). -/
def laterCount (a b : Nat) : Bool :=
  let d := (a + 2 ^ 32 - b) % 2 ^ 32
  decide (1 ≤ d ∧ d ≤ 2 ^ 31 - 1)

/-- A copy of the plan in the boot NOR with its WRITE_COUNT, where it is valid (R414). -/
def planCopy (nor : Mem) (copy : Nat) : Option (Nat × Plan) :=
  let head := memRead nor (planOffset copy) 8
  if field head 4 4 ≠ crc32c (head.take 4) then none
  else
    let n := leNat (memRead nor (planOffset copy + 18) 2)
    if 8192 < n then none
    else (parsePlan (memRead nor (planOffset copy + 8) n)).map fun p => (field head 0 4, p)

/-- The copy in use at power-up: its number, its WRITE_COUNT and its plan (R414). -/
def planInUse (nor : Mem) : Option (Nat × Nat × Plan) :=
  match planCopy nor 0, planCopy nor 1 with
  | none, none => none
  | some x, none => some (0, x)
  | none, some y => some (1, y)
  | some x, some y => if laterCount y.1 x.1 then some (1, y) else some (0, x)

/-- The copy to write next, from the copy in use, and its WRITE_COUNT (R414). -/
def nextCopy : Option (Nat × Nat) → Nat × Nat
  | none => (0, 1)
  | some (c, n) => (1 - c, (n + 1) % 2 ^ 32)

/-- PLAN_LOAD (R240): the running module keeps its plan. -/
def bodyPlanLoad : Body := fun s _ _ r =>
  let n := r.arg 8 4
  if r.argBytes ≠ 12 ∨ r.arg 0 8 % 64 ≠ 0 ∨ 8192 < n then ends s stBadArg
  else match bulkAt (r.arg 0 8) n with
    | none => ends s stBadArg
    | some (a, b) =>
      if a ≠ 0 then ends s stBadArg
      else
        let (s, bs) := s.bulkRead 0 b n
        if (parsePlan bs).isNone then ends s stBadArg
        else
          let (c, k) := nextCopy s.fw.planCopy
          let head := natLe k 4 ++ natLe (crc32c (natLe k 4)) 4
          gives { s with fw := { s.fw with nor := memWrite s.fw.nor (planOffset c) (head ++ bs) } }

/-- PLAN_LOAD (R240). -/
def execPlanLoad (t : Nat) (r : MbxReq) (s : State) : Host.Outcome State Fault Refusal := .next (s.ring t 0x0203 r bodyPlanLoad)

/-! Partner contexts. -/

/-- The contexts of a partition. -/
def State.ctxsOf (s : State) (p : PartId) : List Ctx := s.fab.ctxs.filter fun c => c.part = p

/-- Whether contexts keep the limits of a pair (R310). -/
def pairLimits (l : List Ctx) : Bool :=
  l.all (fun c => c.opsRate ≠ 0 && c.bytesRate ≠ 0) && decide ((l.map Ctx.opsBurst).sum ≤ 48 ∧ (l.map Ctx.opsRate).sum ≤ 48
    ∧ (l.map Ctx.bytesBurst).sum ≤ 192 ∧ (l.map Ctx.bytesRate).sum ≤ 192)

/-- The plan entry of a port; MODE 0 without a plan. -/
def State.planPort (s : State) (i : Nat) : PlanPort := match s.fab.plan with
  | none => {}
  | some p => p.ports.getD i {}

/-- PARTNER_OPEN (R245, R246, R310, Table 10.6). CONTEXT and LINK are the lowest free numbers (log entry 10). -/
def bodyPartnerOpen : Body := fun s _ _ r =>
  match s.partOf (r.arg 0 1) with
  | none => ends s stBadArg
  | some p =>
    if h : r.arg 1 1 < 8 then
      let port : PortId := ⟨r.arg 1 1, h⟩
      let mode := (s.planPort port.val).mode
      let clear : Bool := r.arg 2 1 = 1
      let blocks := r.arg 6 2
      if ¬ r.form 32 [(24, 8)] ∨ 1 < r.arg 2 1 ∨ 2 ≤ r.arg 3 1 ∨ blocks < 8 ∨ 512 < blocks ∨ r.arg 8 2 = 0 ∨ r.arg 12 4 < 64
          ∨ mode = 0 ∨ mode = 3 ∨ (clear ∧ (r.arg 3 1 = 0 ∨ p ≠ 0)) then ends s stBadArg
      else
        let mine := s.ctxsOf p
        let used := ((s.fab.ctxs.filter fun c => c.port = port).map Ctx.creditBlocks).sum
        let serves := s.fab.ports[portLink port].serves
        match firstFree (fun n => (s.ctx? (BitVec.ofNat 16 n)).isNone) 4096, firstFree (fun n => (s.ctxNum? p n).isNone) 65536 with
        | some link, some num =>
          let c : Ctx :=
            { part := p, num := num, port := port, clear := clear, filter := r.arg 3 1 = 1, link := BitVec.ofNat 16 link
              remoteLink := BitVec.ofNat 16 (r.arg 4 2), creditBlocks := blocks, opsBurst := r.arg 8 2, opsRate := r.arg 10 2
              bytesBurst := r.arg 12 4, bytesRate := r.arg 16 4, timeout := if r.arg 20 4 = 0 then 90000 else r.arg 20 4
              opsTok := r.arg 8 2, bytesTok := r.arg 12 4, outCredit := blocks, serial := s.fab.nextCtx }
          if (serves.isSome ∧ serves ≠ some p) ∨ s.part[p].ctxMax ≤ mine.length ∨ 1792 < used + blocks
              ∨ (s.twin.twinPaired ∧ ¬ pairLimits (c :: s.fab.ctxs)) then ends s stBusy
          else
            let s := s.updFab fun b => { b with ctxs := b.ctxs ++ [c], nextCtx := b.nextCtx + 1 }
            gives (s.updPort (portLink port) fun q => { q with serves := some p }) (natLe num 2 ++ natLe link 2)
        | _, _ => ends s stBusy
    else ends s stBadArg

/-- PARTNER_OPEN (R245). -/
def execPartnerOpen (t : Nat) (r : MbxReq) (s : State) : Host.Outcome State Fault Refusal :=
  .next (s.ring t 0x0200 r bodyPartnerOpen)

/-- PARTNER_CLOSE (R248): the fence of the context; FUNC_RESET_QUIESCE completes it. -/
def bodyPartnerClose : Body := fun s m _ r =>
  match s.partOf (r.arg 0 1) with
  | none => ends s stBadArg
  | some p =>
    let n := r.arg 2 2
    if ¬ r.form 4 [(1, 1)] ∨ (s.ctxNum? p n).isNone then ends s stBadArg
    else if s.host.resets.any fun x => x.func = .context p n && x.started then ends s stBusy
    else (s.fence (.context p n) m true, none)

/-- PARTNER_CLOSE (R248). -/
def execPartnerClose (t : Nat) (r : MbxReq) (s : State) : Host.Outcome State Fault Refusal :=
  .next (s.ring t 0x0201 r bodyPartnerClose)

/-! Windows. -/

/-- The kind of window of a KIND (Table 10.7). -/
def winKindOf : Nat → Option WinKind
  | 0 => some .act
  | 1 => some .lpddr
  | 2 => some .pgh
  | 3 => some .remote
  | _ => none

/-- Whether the range of a grant lies in what its kind names (R249, Table 10.7). -/
def State.grantRange (s : State) (p : PartId) (c : Ctx) (k : WinKind) (logical base len : Nat) : Bool :=
  match k with
  | .act => len % 64 = 0 && decide (64 * base + len ≤ actSize) && decide (logical < 6)
  | .lpddr => base % 512 = 0 && len % 512 = 0 && decide (base + len ≤ regionBytes s.part[p]) && logical = 0
  | .pgh => decide (base + len ≤ s.part[p].pghCount) && logical = 0
  | .remote => c.remoteLink ≠ 0xFFFF && decide (base < 65536) && logical = 0

/-- The grants that open envelopes have reserved for a partition (Table 11.4). -/
def State.reservedWins (s : State) (p : PartId) : Nat :=
  ((s.env.opens.filter fun v => v.part = p).map fun v => (v.items.filter fun i => match i with
    | .cmd op r _ _ => op = 0x0202 && !bitAt (r.arg 1 1) 0
    | .op _ => false).length).sum

/-- WINDOW_GRANT's checks and effect (R249, R251, Table 10.7). -/
def changeWindow : Change := fun s r _ num =>
  match s.partOf (r.arg 0 1) with
  | none => .error stBadArg
  | some p => match s.ctxNum? p (r.arg 2 2), winKindOf (r.arg 4 1) with
    | some c, some k =>
      let flags := r.arg 1 1
      if ¬ r.form 32 [(9, 7)] ∨ 2 ≤ flags ∨ c.clear ∨ 8 ≤ r.arg 5 1 then .error stBadArg
      else if flags = 1 then
        match s.fab.wins.find? fun w => w.num = r.arg 6 2 with
        | none => .error stBadArg
        | some w =>
          if w.part ≠ p ∨ w.ctx ≠ c.num then .error stBadArg
          else .ok (s.updFab fun b => { b with wins := b.wins.filter fun x => x.num ≠ w.num }, natLe w.num 2, w.num)
      else if r.arg 6 2 ≠ 0 ∨ ((k = .pgh ∨ k = .remote) ∧ r.arg 5 1 ≠ 0)
          ∨ ¬ s.grantRange p c k (r.arg 8 1) (r.arg 16 8) (r.arg 24 8) then .error stBadArg
      else
        let mine := (s.fab.wins.filter fun w => w.part = p).length + if num.isSome then 0 else s.reservedWins p
        match num.orElse fun _ => firstFree (fun n => (s.fab.wins.all fun w => w.num ≠ n) && !s.reservedNum 0x0202 n) 8192 with
        | none => .error stBusy
        | some n =>
          if s.part[p].winMax ≤ mine then .error stBusy
          else
            let w : Win :=
              { num := n, part := p, ctx := c.num, kind := k, rights := BitVec.ofNat 3 (r.arg 5 1), logical := r.arg 8 1
                base := r.arg 16 8, length := r.arg 24 8 }
            .ok (s.updFab fun b => { b with wins := b.wins ++ [w] }, natLe n 2, n)
    | _, _ => .error stBadArg

/-- Whether an operation that passed the check of a window waits (R251). -/
def State.windowHeld (s : State) (p : PartId) (ctx num : Nat) : Bool :=
  match s.ctxNum? p ctx with
  | none => false
  | some c => c.held.any fun h => h.pkt.window.toNat = num

/-- A revocation that waits completes once the operations that passed have landed (R251). -/
def State.pollRevoke (s : State) (m : MbxId) (r : MbxReq) : State :=
  match s.partOf (r.arg 0 1) with
  | none => s
  | some p => if s.windowHeld p (r.arg 2 2) (r.arg 6 2) then s else s.mbxAnswer m stOk (natLe (r.arg 6 2) 2)

end Sys2Proof.Machine
end

