-- ==== Sys2Proof/Machine/SmsCore.lean ====
section
/-! DEFINITION. The metrology die: its parameters, values, records, identification and mirror (R348-R369, Tables 15.2-15.19). -/

namespace Sys2Proof.Machine

/-! The parameter set (R354, Tables 15.2-15.4). -/

/-- A channel entry (Table 15.3). -/
structure ChanParam where
  enabled : Bool
  port : Nat
  rate : Nat
  offset : Int
  gain : Int
  inst : Nat
  cellId : Nat
  keyId : Nat
  deriving DecidableEq, Repr

/-- An instrument entry (Table 15.4). -/
structure InstParam where
  enabled : Bool
  tracking : Bool
  unit : Byte
  mant : Byte
  exp : Byte
  n : Nat
  minE : Nat
  filter : Nat
  window : Nat
  band : Nat
  cls : Nat
  deriving DecidableEq, Repr

/-- The entry of channel `c` of a parameter set. -/
def chanParam (ps : List Byte) (c : Nat) : ChanParam :=
  let b := (ps.drop (8 + 32 * c)).take 32
  { enabled := bitAt (field b 0 1) 0, port := field b 1 1, rate := field b 2 2, offset := sgn 32 (field b 4 4)
    gain := sgn 32 (field b 8 4), inst := field b 12 1, cellId := field b 16 8, keyId := field b 24 8 }

/-- The entry of instrument `i` of a parameter set. -/
def instParam (ps : List Byte) (i : Nat) : InstParam :=
  let b := (ps.drop (520 + 16 * i)).take 16
  { enabled := bitAt (field b 0 1) 0, tracking := bitAt (field b 0 1) 1, unit := byteAt b 1, mant := byteAt b 2
    exp := byteAt b 3, n := field b 4 2, minE := field b 6 2, filter := field b 8 2, window := field b 10 2
    band := field b 12 1, cls := field b 13 1 }

/-- Whether an enabled channel's entry is in range (Table 15.3). -/
def chanOk (ps : List Byte) (c : Nat) : Bool :=
  let x := chanParam ps c
  let b := (ps.drop (8 + 32 * c)).take 32
  decide (field b 0 1 < 2) && field b 13 3 = 0
    && (!x.enabled || (decide (x.port < 8 ∧ 10 ≤ x.rate ∧ x.rate ≤ 1200 ∧ x.inst < 4) && (instParam ps x.inst).enabled))

/-- Whether an enabled instrument's entry is in range (Table 15.4). -/
def instOk (ps : List Byte) (i : Nat) : Bool :=
  let x := instParam ps i
  let b := (ps.drop (520 + 16 * i)).take 16
  let e := x.exp.toInt
  decide (field b 0 1 < 4) && field b 14 2 = 0
    && (!x.enabled || (decide (x.unit.toNat ≤ 2 ∧ -3 ≤ e ∧ e ≤ 3 ∧ 100 ≤ x.n ∧ x.n ≤ 10000 ∧ 1 ≤ x.minE ∧ x.minE ≤ x.n
      ∧ 1 ≤ x.filter ∧ x.filter ≤ 256 ∧ 100 ≤ x.window ∧ x.window ≤ 2000 ∧ 1 ≤ x.band ∧ x.band ≤ 10)
      && [1, 2, 5].contains x.mant.toNat && (x.cls = 3 || x.cls = 4)))

/-- The channels of a parameter set enabled for an instrument, in order. -/
def instChans (ps : List Byte) (i : Nat) : List ChanId :=
  (List.finRange 16).filter fun c => (chanParam ps c.val).enabled && (chanParam ps c.val).inst = i

/-- The key identifier of a channel key (Table 15.3). -/
def keyIdOf (key : List Byte) : Nat := field (shake256 key) 0 8

/-- Whether a parameter set may be loaded, with the keys that the channels will hold (R354). -/
def paramsOk (ps : List Byte) (keys : List (Nat × List Byte)) : Bool :=
  let on := (List.range 16).filter fun c => (chanParam ps c).enabled
  ps.length = 588 && field ps 0 4 = 0x50534D53 && field ps 4 2 = 1 && field ps 6 2 = 0
    && field ps 584 4 = crc32c (ps.take 584)
    && (List.range 16).all (chanOk ps) && (List.range 4).all (instOk ps)
    && (List.range 4).all (fun i => decide ((instChans ps i).length ≤ 8))
    && decide (on.map fun c => (chanParam ps c).cellId).Nodup
    && on.all fun c => match assoc c keys with
      | none => false
      | some k => keyIdOf k = (chanParam ps c).keyId

/-! Values (R357-R359). -/

/-- 2^32 units are one e. -/
def unitE : Int := 2 ^ 32

/-- Division by a positive number rounded to nearest, halves away from zero. -/
def divRound (a : Int) (n : Nat) : Int :=
  let q : Int := ((2 * a.natAbs + n) / (2 * n) : Nat)
  if a < 0 then -q else q

/-- A value rounded to a whole number of e (R358). -/
def roundE (v : Int) : Int := divRound v (2 ^ 32)

/-- The channel value x_c: the mean of the last F products, once there are F of them (log entry 28). -/
def chanValue (f : Nat) (c : SmsChan) : Option Int :=
  if f = 0 ∨ c.products.length < f then none else some (divRound ((c.products.take f).sum) f)

/-- Whether a channel of an instrument is in FAULT (R353). -/
def Sms.instFault (m : Sms) (i : Fin 4) : Bool := (instChans m.params i.val).any fun c => m.chans[c].state = 2

/-- The instrument value X (R357). -/
def Sms.instX (m : Sms) (i : Fin 4) : Option Int :=
  let cs := instChans m.params i.val
  if cs.isEmpty ∨ m.instFault i then none
  else cs.foldl (fun acc c => match acc, chanValue (instParam m.params i.val).filter m.chans[c] with
    | some a, some v => some (a + v)
    | _, _ => none) (some 0)

/-- The gross value G in units of 2^-32 e. -/
def SmsInst.gross (x : SmsInst) : Int := x.x.getD 0 - x.zero

/-- Whether the instrument has OVERLOAD set (R358). -/
def Sms.overload (m : Sms) (i : Fin 4) : Bool :=
  decide ((instParam m.params i.val).n + 9 < roundE m.insts[i].gross)
    || (instChans m.params i.val).any fun c => m.chans[c].overload

/-- Whether the instrument has UNDERLOAD set (R358). -/
def Sms.underload (m : Sms) (i : Fin 4) : Bool := decide (roundE m.insts[i].gross < -20)

/-- Whether the mirror shows a gross and a net value. -/
def Sms.shows (m : Sms) (i : Fin 4) : Bool :=
  (instParam m.params i.val).enabled && m.insts[i].x.isSome && !m.instFault i && !m.overload i && !m.underload i

/-- The indicated gross and net (R358). -/
def Sms.indicated (m : Sms) (i : Fin 4) : Int × Int :=
  if ¬ m.shows i then (0, 0)
  else
    let g := roundE m.insts[i].gross
    (g, g - (m.insts[i].tare.getD 0 : Nat))

/-- Cycles in an M-cycle. -/
def mCycle : Nat := 9

/-- Whether an instrument is stable at a postmark (R359). -/
def SmsInst.isStable (x : SmsInst) (p : InstParam) (now : Nat) : Bool :=
  let w := mCycle * 100000 * p.window
  let vs := (x.window.filter fun v => decide (now ≤ v.1 + w)).map Prod.snd
  decide (x.breakAt + w ≤ now) && match vs with
    | [] => false
    | v :: l => decide (10 * (l.foldl max v - l.foldl min v) ≤ p.band * unitE)

/-- An instrument changed. -/
def Sms.updInst (m : Sms) (i : Fin 4) (f : SmsInst → SmsInst) : Sms := { m with insts := m.insts.set i (f m.insts[i]) }

/-- A channel changed. -/
def Sms.updChan (m : Sms) (c : ChanId) (f : SmsChan → SmsChan) : Sms := { m with chans := m.chans.set c (f m.chans[c]) }

/-- The stability window of an instrument restarted. -/
def SmsInst.broken (x : SmsInst) (now : Nat) : SmsInst := { x with window := [], breakAt := now, stable := false }

/-- The range of the initial zero: -5 % to +15 % of Max around zero 0 (Table 15.5). -/
def initialRange (n : Nat) (z : Int) : Bool := decide (-(n : Int) * unitE ≤ 20 * z ∧ 20 * z ≤ 3 * (n : Int) * unitE)

/-- The range of a later zero: 2 % of Max around the initial zero (Table 15.5). -/
def laterRange (n : Nat) (z0 z : Int) : Bool := decide (50 * (z - z0).natAbs ≤ n * 2 ^ 32)

/-- The instrument value at a pacing sample (R357, R359), and the automatic initial zero (R360). -/
def Sms.pace (m : Sms) (i : Fin 4) (now : Nat) : Sms :=
  let p := instParam m.params i.val
  match m.instX i with
  | none => m.updInst i fun x => { x.broken now with x := none }
  | some v => m.updInst i fun x =>
    let w := mCycle * 100000 * p.window
    let x := { x with x := some v, window := (now, v) :: x.window.filter fun y => decide (now ≤ y.1 + w) }
    let x := { x with stable := x.isStable p now }
    if x.zeroed ∨ x.tried ∨ ¬ x.stable then x
    else if initialRange p.n v then { x with tried := true, zeroed := true, zero := v, initialZero := v }
    else { x with tried := true }

/-! Records (R364, R365). -/

/-- A record (Table 15.8) of an event of an instrument, or of none where `i` is none. -/
def Sms.record (m : Sms) (type : Nat) (i : Option (Fin 4)) (now utc : Nat) (subject : List Byte) : List Byte :=
  let (head, vals) : List Byte × List Byte := match i with
    | none => ([BitVec.ofNat 8 type, 0xFF, 0, if utc ≠ 0 then 8 else 0, 0, 0, 0, 0], List.replicate 12 0)
    | some i =>
      let p := instParam m.params i.val
      let (g, n) := m.indicated i
      let x := m.insts[i]
      let below : Bool := type = 1 && decide ((if x.tare.isSome then n else g) < p.minE)
      let flags := (if x.tare.isSome then 1 else 0) + (if x.preset then 2 else 0) + (if below then 4 else 0)
        + (if utc ≠ 0 then 8 else 0)
      ([BitVec.ofNat 8 type, BitVec.ofNat 8 i.val, p.unit, BitVec.ofNat 8 flags, p.mant, p.exp] ++ natLe p.n 2,
        natLe (wrapInt 32 g) 4 ++ natLe (x.tare.getD 0) 4 ++ natLe (wrapInt 32 n) 4)
  head ++ natLe m.nextSeq 8 ++ natLe now 8 ++ natLe utc 8 ++ vals ++ natLe m.audit 4 ++ natLe m.epoch 4
    ++ padTo 32 subject ++ List.replicate 12 0 ++ m.head

/-- A record programmed into the ring, which keeps the latest 4,096, and chained (R364, R365). -/
def Sms.keep (m : Sms) (rec' : List Byte) (now : Nat) : Sms :=
  { m with
    records := (if 4096 ≤ m.records.length then m.records.drop 1 else m.records) ++ [rec']
    nextSeq := m.nextSeq + 1
    head := shake256 rec'
    uncovered := m.uncovered + 1
    firstUncovered := some (m.firstUncovered.getD now) }

/-- A record of TYPE 7 or 8, which takes no token. -/
def Sms.note (m : Sms) (type : Nat) (i : Option (Fin 4)) (now utc : Nat) : Sms := m.keep (m.record type i now utc []) now

/-! Identification and mirror. -/

/-- The digest of the SM image: a value of the part until one has been activated. -/
def Sms.digest (m : Sms) : List Byte := m.imageDigest.getD ((List.range 32).map (Config.partByte 20))

/-- The software identification row (Table 15.11). The version of the legally relevant software is a value of the image. -/
def Sms.swid (m : Sms) : List Byte :=
  let body : List Byte := [0x58, 0x42, 0x36, 0x2D, 0x53, 0x4D, 0x53] ++ List.replicate 9 0
    ++ (List.range 4).map (Config.partByte (256 + leNat m.digest)) ++ m.digest ++ natLe m.audit 4 ++ natLe 0 4
  body ++ natLe (crc32c body) 4

/-- The digest of the parameter set in use. -/
def Sms.paramDigest (m : Sms) : List Byte := shake256 m.params

/-- Whether a checkpoint can be signed: an epoch was opened and has an index left (R367). -/
def Sms.canSign (m : Sms) : Bool := m.epochOk && decide (m.xmssNext < 2 ^ 28)

/-- SMS_INSTn_STATUS (Table 15.17). -/
def Sms.instStatus (m : Sms) (i : Fin 4) : Nat :=
  let x := m.insts[i]
  let on := (instParam m.params i.val).enabled
  if ¬ on then 0 else
  let val := x.x.isSome
  1 + (if x.zeroed then 2 else 0) + (if x.stable ∧ ¬ m.instFault i then 4 else 0) + (if val ∧ m.overload i then 8 else 0)
    + (if val ∧ m.underload i then 16 else 0) + (if m.instFault i then 32 else 0) + (if x.tare.isSome then 64 else 0)
    + (if x.preset then 128 else 0) + 65536 * (x.tare.getD 0 % 16384)

/-- The SMS_ block (Tables 15.14-15.19). -/
def Sms.block (m : Sms) : List Byte :=
  let st := m.state.toNat + (if m.adjEn then 4 else 0) + (if m.canSign ∨ m.state = 0 then 0 else 8)
  natLe st 4 ++ natLe m.audit 4 ++ natLe (m.nextSeq - 1) 8 ++ natLe 0 16
    ++ ((List.finRange 4).flatMap fun i => natLe (m.instStatus i) 4) ++ natLe 0 16
    ++ ((List.finRange 4).flatMap fun i =>
      let (g, n) := m.indicated i
      natLe (wrapInt 32 g) 4 ++ natLe (wrapInt 32 n) 4) ++ natLe 0 32
    ++ (List.finRange 16).flatMap fun c =>
      let x := m.chans[c]
      natLe (x.state.toNat + 256 * x.bad.toNat + 65536 * x.lost.toNat) 4

/-! Start (R369). -/

/-- Every instrument not zeroed and without a tare, and every channel as the parameter set has it (R355, R369). -/
def Sms.fresh (m : Sms) (now : Nat) : Sms :=
  { m with
    insts := m.insts.map fun _ => { breakAt := now, trackedAt := now }
    chans := Vector.ofFn fun c =>
      { m.chans[c] with
        state := if (chanParam m.params c.val).enabled then 1 else 0
        products := [], overload := false, lastFrame := now, expected := none } }

/-- The start-up sequence from step 2 on (R369): `ok` tells that every check holds. -/
def Sms.start (m : Sms) (ok : Bool) (now utc : Nat) : Sms :=
  if ok then ({ m.fresh now with state := 1 }).note 7 none now utc else { m.fresh now with state := 2 }

end Sys2Proof.Machine
end

