-- ==== Sys2Proof/Machine/SmsCmds.lean ====
section
/-! DEFINITION. The functions of SMS_QUERY (R355, R356, R360-R364, R368, R369, R415, R416, R426, Tables 15.6, 15.7, 19.2, 19.8), and
firmware images as they lie in a NOR. -/

namespace Sys2Proof.Machine

/-! Images (R415, R416, Table 19.2). -/

/-- An image header (Table 19.2). -/
structure ImageHead where
  magic : Nat
  type : Nat
  stepping : Nat
  version : Word
  bytes : Nat
  iface : Half
  settings : Nat
  accept : List (Nat × Nat)
  good : Bool
  deriving DecidableEq, Repr

/-- The header of an image. -/
def imageHead (b : List Byte) : ImageHead :=
  { magic := field b 0 4, type := field b 4 1, stepping := field b 5 1, version := BitVec.ofNat 32 (field b 8 4)
    bytes := field b 12 4, iface := BitVec.ofNat 16 (field b 16 2), settings := field b 18 2
    accept := (List.range 5).map fun i => (field b (20 + 4 * i) 2, field b (22 + 4 * i) 2)
    good := field b 6 2 = 0 && allZero ((b.drop 40).take 24) }

/-- The offset and size of an image type's slot in the boot NOR (Table 19.1). -/
def slotOf : Nat → Nat × Nat
  | 1 => (0x0100000, 0x800000)
  | 2 => (0x0900000, 0x800000)
  | 3 => (0x1100000, 0x400000)
  | 4 => (0x1500000, 0x800000)
  | _ => (0x1D00000, 0x1000000)

/-- The offset of a slot of the SMS NOR: 384 KiB each (Table 15.10). -/
def smsSlot (b : Bool) : Nat := if b then 0x60000 else 0

/-- The headers of the five installed images, PM, EU, LK, VD and SM. -/
def State.installed (s : State) : List ImageHead :=
  ([1, 2, 3, 4].map fun i => imageHead (memRead s.fw.nor (slotOf i).1 64))
    ++ [imageHead (memRead s.sms.nor (smsSlot s.sms.slotB) 64)]

/-- Whether a set of images is compatible (R416): each accepts the IFACE of each other. -/
def compatible (l : List ImageHead) : Bool :=
  l.all fun x => l.all fun y =>
    x.type = y.type || (let (lo, hi) := x.accept.getD (y.type - 1) (0, 0)
      decide (lo ≤ y.iface.toNat ∧ y.iface.toNat ≤ hi))

/-- Whether an image may take the place of the installed one of its type, among the valid slots (R416, R424). -/
def State.fits (s : State) (h : ImageHead) : Bool :=
  compatible ((s.installed.zipIdx.map fun (x, i) => if i + 1 = h.type then h else { x with type := i + 1 }).filter
    fun x => x.type = h.type || !s.fw.invalid.contains x.type)

/-- Whether a header is valid for a type, stepping and slot (R415). -/
def headOk (h : ImageHead) (type stepping size : Nat) : Bool :=
  h.magic = 0x474D4958 && h.type = type && h.stepping = stepping && h.good && h.iface ≠ 0
    && decide (64 + 2820 ≤ h.bytes ∧ h.bytes ≤ size) && (if type = 1 then h.settings ≠ 0 else h.settings = 0)

/-- Whether the blocks of an image of `bytes` bytes are all staged, the last one as long as it takes (R417, R418). -/
def blocksOk (blocks : List (Nat × Nat)) (bytes : Nat) : Bool :=
  let n := ceilDiv bytes 65536
  (List.range n).all fun i => match assoc i blocks with
    | none => false
    | some k => if i + 1 = n then decide (bytes ≤ 65536 * i + k) else k = 65536

/-- The response of a verification: VERSION, IFACE and the image digest (R418). -/
def verifyResponse (h : ImageHead) (bs : List Byte) : List Byte :=
  natLe h.version.toNat 4 ++ natLe h.iface.toNat 2 ++ [0, 0] ++ shake256 bs

/-! SMS_QUERY. -/

/-- The argument PARAM (Table 15.6). -/
def smsParam (r : MbxReq) : Nat := r.arg 8 8

/-- What every function checks first (Table 15.6, R350, R369). `useInst` tells whether it names an instrument; `repairs`
whether it is one that leads out of STATE 2 under ADJ_EN. -/
def State.smsGate (s : State) (r : MbxReq) (useInst repairs : Bool) : Option Status :=
  let m := s.sms
  if ¬ r.form 24 [(2, 6)] ∨ 3 < r.arg 1 1 ∨ (¬ useInst ∧ r.arg 1 1 ≠ 0) then some stBadArg
  else if m.state = 2 ∧ ¬ (repairs ∧ m.adjEn) then some stMtrIntegrity
  else if m.state = 0 then some stNotReady
  else if m.state = 3 ∧ (useInst ∨ repairs) then some stMtrFault
  else none

/-- The instrument that a function names, where it is enabled. -/
def State.smsInst (s : State) (r : MbxReq) : Option (Fin 4) :=
  if h : r.arg 1 1 < 4 then (if (instParam s.sms.params (r.arg 1 1)).enabled then some ⟨r.arg 1 1, h⟩ else none) else none

/-- A record of a function, which takes a token (R365), after a change of the instrument's values. -/
def State.smsRecord (s : State) (type : Nat) (i : Option (Fin 4)) (subject : List Byte) (f : Sms → Sms) : Answer :=
  if s.sms.tokens = 0 then ends s stMtrBusy
  else
    let m := f s.sms
    let rec' := m.record type i s.now s.utc subject
    let m := m.keep rec' s.now
    gives (s.updSms fun _ => { m with tokens := m.tokens - 1 }) rec'

/-- STATUS (R362). -/
def bodySmsStatus : Body := fun s _ _ r =>
  if ¬ r.form 24 [(1, 7)] then ends s stBadArg
  else gives s (s.sms.block ++ s.sms.paramDigest)

/-- FRANK (R363). -/
def bodySmsFrank : Body := fun s _ _ r =>
  match s.smsGate r true false, s.smsInst r with
  | some st, _ => ends s st
  | none, none => ends s stBadArg
  | none, some i =>
    let m := s.sms
    if m.adjEn then ends s stMtrAdjusting
    else if m.instFault i then ends s stMtrFault
    else if ¬ m.insts[i].zeroed then ends s stMtrNotZeroed
    else if m.overload i ∨ m.underload i then ends s stMtrRange
    else if ¬ m.insts[i].stable then ends s stMtrUnstable
    else s.smsRecord 1 (some i) [] id

/-- ZERO (R360). -/
def bodySmsZero : Body := fun s _ _ r =>
  match s.smsGate r true false, s.smsInst r with
  | some st, _ => ends s st
  | none, none => ends s stBadArg
  | none, some i =>
    let m := s.sms
    let x := m.insts[i]
    let n := (instParam m.params i.val).n
    match x.x with
    | none => ends s (if m.instFault i then stMtrFault else stMtrUnstable)
    | some v =>
      if m.instFault i then ends s stMtrFault
      else if ¬ x.stable then ends s stMtrUnstable
      else if x.zeroed ∧ x.tare.isSome then ends s stBusy
      else if ¬ (if x.zeroed then laterRange n x.initialZero v else initialRange n v) then ends s stMtrRange
      else s.smsRecord 2 (some i) [] fun m => m.updInst i fun x =>
        { x with zero := v, zeroed := true, tried := true, initialZero := if x.zeroed then x.initialZero else v }

/-- TARE (R361). -/
def bodySmsTare : Body := fun s _ _ r =>
  match s.smsGate r true false, s.smsInst r with
  | some st, _ => ends s st
  | none, none => ends s stBadArg
  | none, some i =>
    let m := s.sms
    let g := roundE m.insts[i].gross
    if m.instFault i then ends s stMtrFault
    else if ¬ m.insts[i].stable then ends s stMtrUnstable
    else if g ≤ 0 ∨ ((instParam m.params i.val).n : Int) < g then ends s stMtrRange
    else s.smsRecord 3 (some i) [] fun m => m.updInst i fun x => { x with tare := some g.toNat, preset := false }

/-- PRESET_TARE (R361). -/
def bodySmsPresetTare : Body := fun s _ _ r =>
  match s.smsGate r true false, s.smsInst r with
  | some st, _ => ends s st
  | none, none => ends s stBadArg
  | none, some i =>
    let v := smsParam r
    if v = 0 ∨ (instParam s.sms.params i.val).n < v then ends s stMtrRange
    else s.smsRecord 3 (some i) [] fun m => m.updInst i fun x => { x with tare := some v, preset := true }

/-- TARE_CLEAR (R361). -/
def bodySmsTareClear : Body := fun s _ _ r =>
  match s.smsGate r true false, s.smsInst r with
  | some st, _ => ends s st
  | none, none => ends s stBadArg
  | none, some i => s.smsRecord 4 (some i) [] fun m => m.updInst i fun x => { x with tare := none, preset := false }

/-- RECORDS (R362). -/
def bodySmsRecords : Body := fun s _ _ r =>
  match s.smsGate r false false with
  | some st => ends s st
  | none => gives s (((s.sms.records.filter fun x => decide (smsParam r ≤ field x 8 8)).take 15).flatten)

/-- CHECKPOINT (R362, R366): a tray that has not signed one yet has none to give (log entry 29). -/
def bodySmsCheckpoint : Body := fun s _ _ r =>
  match s.smsGate r false false with
  | some st => ends s st
  | none => if s.sms.lastCheckpoint.isEmpty then ends s stNotReady else gives s s.sms.lastCheckpoint

/-- SWID (R368). -/
def bodySmsSwid : Body := fun s _ _ r => if ¬ r.form 24 [(1, 7)] then ends s stBadArg else gives s s.sms.swid

/-- The keys that channels will hold after a PARAM_LOAD: those given, and otherwise those held (R355). -/
def keysAfter (mask : Nat) (bs : List Byte) (old : List (Nat × List Byte)) : List (Nat × List Byte) :=
  ((List.range 16).foldl (fun (acc : List (Nat × List Byte) × List Byte) c =>
    if bitAt mask c then (assocSet c (acc.2.take 32) acc.1, acc.2.drop 32) else acc) (old, bs)).1

/-- PARAM_LOAD (R354-R356). -/
def bodySmsParamLoad : Body := fun s _ _ r =>
  match s.smsGate r false true with
  | some st => ends s st
  | none =>
    let m := s.sms
    let mask := smsParam r % 65536
    let n := 588 + 32 * ((List.range 16).filter fun c => bitAt mask c).length
    if ¬ m.adjEn ∨ 4095 ≤ m.audit then ends s stMtrLocked
    else match bulkAt (r.arg 16 8) n with
      | none => ends s stBadArg
      | some (a, b) =>
        if a ≠ 0 then ends s stBadArg
        else
          let (s, bs) := s.bulkRead 0 b n
          let m := s.sms
          let ps := bs.take 588
          let keys := keysAfter mask (bs.drop 588) m.keys
          if ¬ paramsOk ps keys then ends s stBadArg
          else
            let (s, a) := s.smsRecord 5 none (shake256 ps) fun m => { m with audit := m.audit + 1 }
            match a with
            | some (0, _) => (s.updSms fun m =>
              ({ m with params := ps, keys := keys, copyInUse := 1 - m.copyInUse }).fresh s.now, a)
            | _ => (s, a)

/-- SM_STAGE (R426, Table 19.8). -/
def bodySmStage : Body := fun s _ _ r =>
  match s.smsGate r false true with
  | some st => ends s st
  | none =>
    let v := smsParam r
    let block := bitsOf v 39 32
    let n := bitsOf v 56 40
    if ¬ s.sms.adjEn then ends s stMtrLocked
    else if 5 < block ∨ n = 0 ∨ 65536 < n ∨ bitsOf v 63 57 ≠ 0 ∨ r.arg 16 8 % 64 ≠ 0 then ends s stBadArg
    else match bulkAt (r.arg 16 8) n with
      | none => ends s stBadArg
      | some (a, b) =>
        if a ≠ 0 then ends s stBadArg
        else
          let (s, bs) := s.bulkRead 0 b n
          let old := if block = 0 then [] else s.sms.stage.blocks
          if crc32c bs ≠ bitsOf v 31 0 then
            ends (s.updSms fun m => { m with stage := { blocks := assocDel block old } }) stFwBadBlock
          else gives (s.updSms fun m =>
            { m with nor := memWrite m.nor (smsSlot (!m.slotB) + 65536 * block) bs, stage := { blocks := assocSet block n old } })

/-- SM_VERIFY (R426). -/
def bodySmVerify : Body := fun s _ _ r =>
  match s.smsGate r false true with
  | some st => ends s st
  | none =>
    let m := s.sms
    let base := smsSlot (!m.slotB)
    let h := imageHead (memRead m.nor base 64)
    if ¬ m.adjEn then ends s stMtrLocked
    else if smsParam r ≠ 0 then ends s stBadArg
    else if ¬ headOk h 5 0xA2 0x60000 ∨ ¬ blocksOk m.stage.blocks h.bytes then ends s stFwBadBlock
    else if ¬ r.verdict then ends s stFwBadSignature
    else if ¬ s.fits h then ends s stFwIncompatible
    else gives (s.updSms fun m => { m with stage := { m.stage with verified := true } })
      (verifyResponse h (memRead m.nor base h.bytes))

/-- SM_ACTIVATE (R355, R356, R369, R426). -/
def bodySmActivate : Body := fun s _ _ r =>
  match s.smsGate r false true with
  | some st => ends s st
  | none =>
    let m := s.sms
    let base := smsSlot (!m.slotB)
    if ¬ m.adjEn ∨ 4095 ≤ m.audit then ends s stMtrLocked
    else if smsParam r ≠ 0 ∨ ¬ m.stage.verified then ends s stBadArg
    else
      let digest := shake256 (memRead m.nor base (imageHead (memRead m.nor base 64)).bytes)
      let (s, a) := s.smsRecord 6 none digest fun m => { m with audit := m.audit + 1 }
      match a with
      | some (0, _) => gives (s.updSms fun m =>
        ({ m with slotB := !m.slotB, imageDigest := some digest, stage := {} }).start true s.now s.utc)
      | _ => (s, a)

/-- A request of SMS_QUERY for the function of its row. -/
def smsReq (fn : Nat) (r : MbxReq) : MbxReq := { r with args := BitVec.ofNat 8 fn :: r.args.drop 1 }

/-- STATUS (R362). -/
def execSmsStatus (t : Nat) (r : MbxReq) (s : State) : Host.Outcome State Fault Refusal :=
  .next (s.ring t 0x0700 (smsReq 0 r) bodySmsStatus)

/-- FRANK (R363). -/
def execSmsFrank (t : Nat) (r : MbxReq) (s : State) : Host.Outcome State Fault Refusal :=
  .next (s.ring t 0x0700 (smsReq 1 r) bodySmsFrank)

/-- ZERO (R360). -/
def execSmsZero (t : Nat) (r : MbxReq) (s : State) : Host.Outcome State Fault Refusal :=
  .next (s.ring t 0x0700 (smsReq 2 r) bodySmsZero)

/-- TARE (R361). -/
def execSmsTare (t : Nat) (r : MbxReq) (s : State) : Host.Outcome State Fault Refusal :=
  .next (s.ring t 0x0700 (smsReq 3 r) bodySmsTare)

/-- PRESET_TARE (R361). -/
def execSmsPresetTare (t : Nat) (r : MbxReq) (s : State) : Host.Outcome State Fault Refusal :=
  .next (s.ring t 0x0700 (smsReq 4 r) bodySmsPresetTare)

/-- TARE_CLEAR (R361). -/
def execSmsTareClear (t : Nat) (r : MbxReq) (s : State) : Host.Outcome State Fault Refusal :=
  .next (s.ring t 0x0700 (smsReq 5 r) bodySmsTareClear)

/-- RECORDS (R362). -/
def execSmsRecords (t : Nat) (r : MbxReq) (s : State) : Host.Outcome State Fault Refusal :=
  .next (s.ring t 0x0700 (smsReq 6 r) bodySmsRecords)

/-- CHECKPOINT (R366). -/
def execSmsCheckpoint (t : Nat) (r : MbxReq) (s : State) : Host.Outcome State Fault Refusal :=
  .next (s.ring t 0x0700 (smsReq 7 r) bodySmsCheckpoint)

/-- SWID (R368). -/
def execSmsSwid (t : Nat) (r : MbxReq) (s : State) : Host.Outcome State Fault Refusal :=
  .next (s.ring t 0x0700 (smsReq 8 r) bodySmsSwid)

/-- PARAM_LOAD (R355). -/
def execSmsParamLoad (t : Nat) (r : MbxReq) (s : State) : Host.Outcome State Fault Refusal :=
  .next (s.ring t 0x0700 (smsReq 9 r) bodySmsParamLoad)

/-- SM_STAGE (R426). -/
def execSmStage (t : Nat) (r : MbxReq) (s : State) : Host.Outcome State Fault Refusal :=
  .next (s.ring t 0x0700 (smsReq 16 r) bodySmStage)

/-- SM_VERIFY (R426). -/
def execSmVerify (t : Nat) (r : MbxReq) (s : State) : Host.Outcome State Fault Refusal :=
  .next (s.ring t 0x0700 (smsReq 17 r) bodySmVerify)

/-- SM_ACTIVATE (R426). -/
def execSmActivate (t : Nat) (r : MbxReq) (s : State) : Host.Outcome State Fault Refusal :=
  .next (s.ring t 0x0700 (smsReq 18 r) bodySmActivate)

/-- SMS_QUERY by its FUNCTION; the other functions are reserved (R362). -/
def bodySmsQuery : Body := fun s m own r =>
  match r.arg 0 1 with
  | 0 => bodySmsStatus s m own r
  | 1 => bodySmsFrank s m own r
  | 2 => bodySmsZero s m own r
  | 3 => bodySmsTare s m own r
  | 4 => bodySmsPresetTare s m own r
  | 5 => bodySmsTareClear s m own r
  | 6 => bodySmsRecords s m own r
  | 7 => bodySmsCheckpoint s m own r
  | 8 => bodySmsSwid s m own r
  | 9 => bodySmsParamLoad s m own r
  | 16 => bodySmStage s m own r
  | 17 => bodySmVerify s m own r
  | 18 => bodySmActivate s m own r
  | _ => ends s stBadArg

/-! What the SMS does in time. -/

/-- A CRC of a sample frame: CRC-32C with the initial value SEQ XOR 0xFFFF_FFFF (Table 15.1). -/
def frameCrc (seq : Nat) (bs : List Byte) : Nat :=
  crcResult crc32cParams (crcRaw crc32cParams (seq ^^^ 0xFFFFFFFF) bs)

/-- The MAC of a frame of `n` samples under its channel's key (Table 15.1). -/
def Sms.frameMac (m : Sms) (c : ChanId) (n : Nat) (b : List Byte) : List Byte :=
  (cmac ((assoc c.val m.keys).getD []) (b.take (20 + 4 * n))).take 8

/-- Whether a frame fails one of its checks (R352). -/
def Sms.frameFails (m : Sms) (c : ChanId) (f : InboxFrame) : Bool :=
  let p := chanParam m.params c.val
  let b := f.bytes
  let n := field b 1 1
  let seq := field b 4 4
  !p.enabled || decide (f.port ≠ p.port) || decide (b.length ≠ 28 + 4 * n ∨ n = 0 ∨ 16 < n) || field b 0 1 ≠ 1
    || decide (4 ≤ field b 2 2) || field b (16 + 4 * n) 4 ≠ frameCrc seq (b.take (16 + 4 * n)) || b.drop (20 + 4 * n) ≠ m.frameMac c n b
    || field b 8 8 ≠ p.cellId || match m.chans[c].expected with
      | none => false
      | some e => decide (seq < e)

/-- A channel enters FAULT (R353, Table 15.12): a TYPE 8 record once, and the instrument's window broken. -/
def Sms.enterFault (m : Sms) (c : ChanId) (now utc : Nat) : Sms :=
  let i : Fin 4 := ⟨(chanParam m.params c.val).inst % 4, by omega⟩
  if m.chans[c].state = 2 then m
  else
    let m := m.updChan c fun x => { x with state := 2, expected := none }
    (m.updInst i fun x => x.broken now).note 8 (some i) now utc

/-- One sample taken (R357): the pacing channel of an instrument makes it a pacing sample. -/
def Sms.sample (m : Sms) (c : ChanId) (now : Nat) (v : Int) : Sms :=
  let p := chanParam m.params c.val
  let i : Fin 4 := ⟨p.inst % 4, by omega⟩
  let m : Sms := m.updChan c fun x => { x with
    products := ((v - p.offset) * p.gain) :: x.products.take ((instParam m.params i.val).filter - 1) }
  if (instChans m.params i.val).head? = some c then m.pace i now else m

/-- A frame that passed its checks (R352, R353, R357). -/
def Sms.frame (m : Sms) (c : ChanId) (now utc : Nat) (b : List Byte) : Sms :=
  let n := field b 1 1
  let seq := field b 4 4
  let i : Fin 4 := ⟨(chanParam m.params c.val).inst % 4, by omega⟩
  let gap : Nat := match m.chans[c].expected with
    | none => 0
    | some e => seq - e
  let m : Sms := if (gap == 0) = true then m else m.updInst i (fun x => x.broken now)
  let m : Sms := m.updChan c fun x =>
    { x with lost := x.lost + BitVec.ofNat 16 gap, expected := some (seq + n), lastFrame := now, overload := bitAt (field b 2 2) 0 }
  let m : Sms := if bitAt (field b 2 2) 1 then m.enterFault c now utc else m.updChan c fun x => { x with state := 1 }
  (List.range n).foldl (fun m k => m.sample c now (sgn 32 (field b (16 + 4 * k) 4))) m

/-- SAMPLE_FRAME (R351-R353, R357): the oldest frame of a channel's inbox. -/
def execSampleFrame (t : Nat) (c : ChanId) (s : State) : Host.Outcome State Fault Refusal :=
  let s := s.advance t
  .next (match s.sms.chans[c].inbox with
    | [] => s
    | f :: rest => s.updSms fun m =>
      let m := m.updChan c fun x => { x with inbox := rest }
      if m.state ≠ 1 then m
      else if m.frameFails c f then m.updChan c fun x => { x with bad := x.bad + 1 }
      else m.frame c s.now s.utc f.bytes)

/-- CHANNEL_FAULT_TIMEOUT (R353): no frame accepted for 10,000,000 M-cycles. -/
def execChannelFaultTimeout (t : Nat) (c : ChanId) (s : State) : Host.Outcome State Fault Refusal :=
  let s := s.advance t
  .next (s.updSms fun m =>
    if m.state = 1 ∧ m.chans[c].state = 1 ∧ m.chans[c].lastFrame + mCycle * 10000000 ≤ s.now then m.enterFault c s.now s.utc else m)

/-- ZERO_TRACKING (R360, Table 15.5). -/
def execZeroTracking (t : Nat) (i : Fin 4) (s : State) : Host.Outcome State Fault Refusal :=
  let s := s.advance t
  .next (s.updSms fun m =>
    let p := instParam m.params i.val
    let x := m.insts[i]
    let z := x.zero + x.gross
    if m.state ≠ 1 ∨ s.now < x.trackedAt + mCycle * 100000000 then m
    else m.updInst i fun x =>
      let x : SmsInst := { x with trackedAt := s.now }
      if p.enabled ∧ p.tracking ∧ x.zeroed ∧ x.stable ∧ ¬ m.instFault i ∧ x.tare.isNone ∧ 2 * x.gross.natAbs < 2 ^ 32
          ∧ laterRange p.n x.initialZero z then { x with zero := z } else x)

/-- RECORD_TOKEN (R365). -/
def execRecordToken (t : Nat) (s : State) : Host.Outcome State Fault Refusal :=
  let s := s.advance t
  .next (if s.now % (mCycle * 100000000) ≠ 0 then s else s.updSms fun m => { m with tokens := min 64 (m.tokens + 1) })

/-- The signed checkpoint of the records so far (Table 15.9). The signature's index has its low byte first (R8; log entry 75). -/
def Sms.checkpoint (m : Sms) (now : Nat) : List Byte :=
  let body := natLe 0x54504B43 4 ++ natLe 0 4 ++ natLe m.nextCovered 8 ++ natLe (m.nextSeq - 1) 8 ++ m.head ++ natLe now 8
    ++ natLe m.audit 4 ++ natLe 0 4 ++ shake256 m.swid
  let idx := m.epoch * 2 ^ 28 + m.xmssNext
  body ++ natLe idx 5 ++ (List.range 18464).map (Config.signByte 1 idx body)

/-- SMS_CHECKPOINT_SIGN (R366, R367). -/
def execSmsCheckpointSign (t : Nat) (s : State) : Host.Outcome State Fault Refusal :=
  let s := s.advance t
  .next (s.updSms fun m =>
    let due : Bool := decide (256 ≤ m.uncovered) || match m.firstUncovered with
      | none => false
      | some c => decide (c + mCycle * 100000000 ≤ s.now)
    if ¬ due ∨ ¬ m.canSign ∨ m.state = 0 ∨ m.state = 3 then m
    else
      let r := if m.xmssNext < m.reservedTo then m.reservedTo else m.xmssNext + 256
      { m with
        lastCheckpoint := m.checkpoint s.now, uncovered := 0, firstUncovered := none, nextCovered := m.nextSeq
        xmssNext := m.xmssNext + 1, reservedTo := r })

/-- ADJ_EN (R434): the loop is fed from the rail of the SMS. -/
def execAdjEn (t : Nat) (active : Bool) (s : State) : Host.Outcome State Fault Refusal :=
  let s := s.advance t
  .next (s.updSms fun m => { m with adjEn := active && s.pwr.phase ≠ .unpowered })

/-- SMS_CLOCK_FAULT (R350): STATE 3 until the next power-up. -/
def execSmsClockFault (t : Nat) (s : State) : Host.Outcome State Fault Refusal :=
  let s := s.advance t
  .next (s.updSms fun m => { m with state := 3, insts := m.insts.map fun x => { x.broken s.now with x := none } })

/-- SMS_START (R367, R369). -/
def execSmsStart (t : Nat) (ok : Bool) (s : State) : Host.Outcome State Fault Refusal :=
  let s := s.advance t
  .next (s.updSms fun m =>
    if m.state ≠ 0 ∨ s.pwr.phase = .unpowered then m
    else
      let full : Bool := 4095 ≤ m.epoch
      ({ m with epoch := if full then m.epoch else m.epoch + 1, epochOk := !full, xmssNext := 0, reservedTo := 0 }).start ok
        s.now s.utc)

end Sys2Proof.Machine
end

