-- ==== Sys2Proof/Machine/KvCmds.lean ====
section
/-! DEFINITION. The commands of the KV cache but KV_BIND (R153, R157, R159-R161, Tables 07.1, 07.3, 07.4). -/

namespace Sys2Proof.Machine

/-- The formatted page written from each of the rows given on (R157). -/
def Engine.formatRows (g : Engine) (k : KvPool) (rows : List Nat) : Engine :=
  rows.foldl (fun g r => { g with store := formatPage g.store k.fmt k.d k.sigma r, mem := g.mem.rowsWritten r (pageRows k.fmt k.d) }) g

/-- Pages of an engine's pool formatted (R157). -/
def State.formatPages (s : State) (p : PartId) (e : EngId) (pages : List Nat) : State :=
  s.updEng e fun g => g.formatRows s.part[p].kv (pages.map (s.pageRow p))

/-- The null page and every page of an engine's pool formatted (R153, R157, R158). -/
def State.formatPool (s : State) (p : PartId) (e : EngId) : State :=
  (s.updEng e fun g => g.formatRows s.part[p].kv [s.kvBase p]).formatPages p e (List.range (s.poolPages p))

/-- Every engine of a partition formatted. -/
def State.formatPools (s : State) (p : PartId) : State :=
  engines.foldl (fun s e => if s.owns p e then s.formatPool p e else s) s

/-- The spill area's end lies in the region (R153). -/
def spillFits (p : Partition) (fmt d pages offset : Nat) : Bool :=
  pages = 0 || decide (512 * offset + pages * pageRows fmt d * 16384 ≤ regionBytes p)

/-- The sum of a number over the pools of the other partitions. -/
def State.otherPools (s : State) (p : PartId) (f : KvPool → Nat) : Nat :=
  (((List.finRange 7).filter fun q => q ≠ p && s.part[q].kv.valid).map fun q => f s.part[q].kv).sum

/-- KV_POOL_CONFIG (R153, Table 07.1). -/
def bodyKvPoolConfig : Body := fun s _ _ r =>
  match s.compOf (r.arg 0 1) with
  | none => ends s stBadArg
  | some p =>
    let fmt := r.arg 1 1
    let d := r.arg 4 2
    let used := d / 32
    let sigma := (List.range 16).map fun b => byteAt r.args (32 + b)
    let good := r.form 48 [(20, 12)] && d % 32 = 0 && decide (32 ≤ d ∧ d ≤ 512)
      && [4, 5, 8, 9, 10].contains fmt && decide (1 ≤ r.arg 2 1 ∧ r.arg 2 1 ≤ 128) && decide (r.arg 3 1 ≤ 64)
      && decide (1 ≤ r.arg 6 2 ∧ r.arg 6 2 ≤ 16384)
      && decide (s.otherPools p KvPool.tableEntries + r.arg 8 4 ≤ 2097152)
      && (sigma.take used).all (· ≠ 0xFF) && allZero (sigma.drop used)
      && decide (0 < pageCount s.part[p].kvSteps.toNat (pageRows fmt d))
      && spillFits s.part[p] fmt d (r.arg 12 4) (r.arg 16 4)
    if ¬ good then ends s stBadArg
    else if s.part[p].kv.seqs.any (fun q => q.state ≠ 0) ∨ 16384 < s.otherPools p KvPool.sequences + r.arg 6 2 then
      ends s stBusy
    else
      let s := s.updKv p fun k =>
        { valid := true, fmt := fmt, layers := r.arg 2 1, d := d, sequences := r.arg 6 2, tableEntries := r.arg 8 4
          reserve := if r.arg 3 1 = 0 then 16 else BitVec.ofNat 7 (r.arg 3 1)
          spillPages := r.arg 12 4, spillOffset := r.arg 16 4, sigma := sigma, event := k.event, eventWas := k.eventWas, fullCount := k.fullCount
          fullCountWas := k.fullCountWas }
      gives (s.formatPools p)

/-- KV_POOL_CONFIG (R153). -/
def execKvPoolConfig (t : Nat) (r : MbxReq) (s : State) : Host.Outcome State Fault Refusal :=
  .next (s.ring t 0x0500 r bodyKvPoolConfig)

/-- The partition and sequence that an edit or query names, where the argument block is well formed (Table 07.3). -/
def State.kvTarget (s : State) (r : MbxReq) (rsvd : List (Nat × Nat)) : Option (PartId × KvSeq) :=
  match s.compOf (r.arg 0 1) with
  | none => none
  | some p =>
    if ¬ r.form 8 ((1, 1) :: rsvd) ∨ ¬ s.part[p].kv.valid ∨ s.part[p].kv.sequences ≤ r.arg 2 2 then none
    else some (p, s.part[p].kv.seq (r.arg 2 2))

/-- A page or slot that an edit frees becomes in transit under the generation of its commit (R161). -/
def KvPool.release (k : KvPool) (tag : Nat) : PageRef → KvPool
  | .resident e f =>
    let k := match assoc (e, f) k.pages with
      | some (.spilling n _) => { k with slots := k.slots.filter fun x => x.1 ≠ n }
      | _ => k
    k.setPage e f (.transit tag)
  | .spilled _ n => { k with slots := updWhere (fun x => x.1 = n) (fun x => (x.1, some tag)) k.slots }

/-- A sequence cut to the pages below position `len` (Table 07.3). -/
def KvPool.cut (k : KvPool) (q : KvSeq) (len tag : Nat) : KvPool :=
  let keep := ceilDiv len 64
  let gone := q.lists.flatMap fun l => l.2.drop keep
  let k := gone.foldl (fun k r => k.release tag r) k
  k.setSeq { q with lists := (q.lists.map fun l => (l.1, l.2.take keep)).filter fun l => !l.2.isEmpty, length := len }

/-- KV_SEQ_OPEN (Table 07.3). The generation that the edit carries is the next one (R161). -/
def changeKvOpen : Change := fun s r _ _ =>
  match s.kvTarget r [(6, 2)] with
  | none => .error stBadArg
  | some (p, q) => match s.scheds.find? fun c => c.handle = r.arg 4 2 && c.part = p && !c.disarming with
    | none => .error stBadArg
    | some c =>
      if c.binds.isEmpty then .error stBadArg
      else if q.state ≠ 0 then .error stBusy
      else
        let g := s.part[p].kv.gen.toNat + 1
        .ok (s.updKv p fun k => k.setSeq { num := q.num, state := 1, handle := c.handle, editGen := g }, [], 0)

/-- KV_SEQ_TRUNCATE (Table 07.3). -/
def changeKvTruncate : Change := fun s r _ _ =>
  match s.kvTarget r [] with
  | none => .error stBadArg
  | some (p, q) =>
    if q.state = 0 ∨ q.length < r.arg 4 4 then .error stBadArg
    else
      let g := s.part[p].kv.gen.toNat + 1
      .ok (s.updKv p fun k => k.cut { q with state := 1, reason := 0, editGen := g } (r.arg 4 4) g, [], 0)

/-- KV_SEQ_FREE (Table 07.3). -/
def changeKvFree : Change := fun s r _ _ =>
  match s.kvTarget r [(4, 4)] with
  | none => .error stBadArg
  | some (p, q) =>
    if q.state = 0 then .error stBadArg
    else
      let g := s.part[p].kv.gen.toNat + 1
      .ok (s.updKv p fun k => k.cut { q with state := 0, reason := 0, handle := 0, editGen := g } 0 g, [], 0)

/-- KV_SEQ_QUERY (R160, Table 07.4). -/
def bodyKvSeqQuery : Body := fun s _ _ r =>
  match s.kvTarget r [(4, 4)] with
  | none => ends s stBadArg
  | some (_, q) =>
    let refs := q.lists.flatMap Prod.snd
    let spilled := (refs.filter fun x => match x with
      | .spilled _ _ => true
      | _ => false).length
    gives s ([BitVec.ofNat 8 q.state, BitVec.ofNat 8 q.reason] ++ natLe q.handle 2 ++ natLe q.length 4
      ++ natLe (refs.length - spilled) 4 ++ natLe spilled 4 ++ natLe q.editGen 4)

/-- KV_SEQ_QUERY (R160). -/
def execKvSeqQuery (t : Nat) (r : MbxReq) (s : State) : Host.Outcome State Fault Refusal :=
  .next (s.ring t 0x0505 r bodyKvSeqQuery)

end Sys2Proof.Machine
end

