-- ==== Sys2Proof/Machine/EnvCmds.lean ====
section
/-! DEFINITION. The commands that can be staged in an envelope, and the commit, apply and copy-back of one (R86, R92, R133, R135,
R160, R161, R249, R267, R269-R275, Tables 11.4, 11.5). -/

namespace Sys2Proof.Machine

/-! PARTITION_LAYOUT. -/

/-- Whether an engine is free to join a partition: in none, not leaving one, and not fenced (R22, Table 11.5). -/
def State.engineIdle (s : State) (e : EngId) : Bool :=
  (s.holder e).isNone && s.eng[e].leaving.isNone && !s.eng[e].fenced

/-- Whether a page of a pool is live: held by a sequence, a job or a walk (R92, R161). -/
def State.pageLive (s : State) (p : PartId) : PageUse → Bool
  | .transit tag => s.olderWalk p tag
  | _ => true

/-- Whether a live page of an engine stands in the way of a smaller KV part: it lies in the rows that leave, or the smaller part has no page
of its number (R92, R158; log entry 19). -/
def State.pageBars (s : State) (p : PartId) (steps f : Nat) : Bool :=
  let n := pageRows s.part[p].kv.fmt s.part[p].kv.d
  decide (s.pageRow p f < kvFirstRow steps ∨ pageCount steps n ≤ f)

/-- Whether a change of the KV steps takes no row that an armed schedule references and no live page (R92). -/
def State.stepsFree (s : State) (p : PartId) (steps : Nat) : Bool :=
  let old := s.part[p].kvSteps.toNat
  let armed := s.scheds.filter fun c => c.part = p && !(c.disarming && !s.jobs.any fun j => j.sched = c.handle)
  (decide (old ≤ steps) || !s.part[p].kv.pages.any fun x => s.pageLive p x.2 && s.pageBars p steps x.1.2)
    && (s.live p).zipIdx.all fun (_, i) => (List.range (512 * (steps - old))).all fun k =>
      !armed.any fun c => (imagesAt c i).any fun m => refsRow m (kvFirstRow steps + k)

/-- A descriptor whose rows in the KV part have moved with it. -/
def KvDesc.moved (d : KvDesc) (old new : Nat) : KvDesc :=
  if d.pageRow < 8192 then { d with pageRow := d.pageRow + new - old } else d

/-- A tile register whose page has moved. -/
def TileReg.moved (r : TileReg) (old new : Nat) : TileReg := { r with kv := r.kv.map fun d => d.moved old new }

/-- The KV part of an engine laid out from its new first row: null page, staging ring and pages keep their numbers (R158), and move with
their contents and with what names them; rows that leave the part are zeroed (R92, R102). -/
def Engine.moveKv (g : Engine) (old new : Nat) : Engine :=
  if old = new then g else
  let from' := 16384 * min old new
  let cells := (g.store.filter fun c => decide (16384 * old ≤ c.1 ∧ c.1 + 16384 * new < 134217728 + 16384 * old)).map
    fun (c : Host.Cell) => (c.1 + 16384 * new - 16384 * old, c.2)
  let bad := (g.mem.storeBad.filter fun r => decide (old ≤ r ∧ r + new < 8192 + old)).map fun r => r + new - old
  let m := g.mem.rowsWritten (min old new) (8192 - min old new)
  { g with
    store := memPut (memZero g.store from' (134217728 - from')) cells
    mem := { m with storeBad := bad ++ m.storeBad }
    pageQueue := g.pageQueue.map fun d => d.moved old new
    staging := g.staging.map fun x => (x.1, x.2.1 + new - old, x.2.2)
    walk := g.walk.map fun w => { w with todo := w.todo.map fun d => d.moved old new }
    tileA := g.tileA.moved old new, tileB := g.tileB.moved old new }

/-- The new engine set and KV steps in force: removed engines leave, the KV part is laid out anew and its new pages are
formatted, and a maintenance grant of an engine that enters ends (R91, R92, R270, R389). -/
def State.relayout (s : State) (p : PartId) (mask : BitVec 6) (steps : Nat) : State :=
  let old := s.part[p]
  let gone := engines.filter fun e => hasBit old.engines e.val && !hasBit mask e.val
  let s := s.updPart p fun q => { q with engines := mask, kvSteps := BitVec.ofNat 4 steps }
  let s := if s.bist.granted &&& mask = 0 then s else { s with bist := { s.bist with granted := 0 } }
  let s := gone.foldl (fun s e =>
    let s := s.freezeSeqs p 4 fun q => q.lists.any fun l => l.2.any fun r => match r with
      | .resident x _ => x = e
      | .spilled x _ => x = e
    (s.updKv p fun k => { k with pages := k.pages.filter fun x => x.1.1 ≠ e }).updEng e fun g =>
      { g with leaving := some s.now, lastOf := some p, kvSteps := 0 }) s
  let n := pageRows old.kv.fmt old.kv.d
  let was := pageCount old.kvSteps.toNat n
  let s := s.updKv p fun k => { k with pages := k.pages.filter fun x => decide (x.1.2 < pageCount steps n) }
  engines.foldl (fun s e =>
    if ¬ hasBit mask e.val then s
    else if ¬ hasBit old.engines e.val then
      let s := s.updEng e fun g => { g with kvSteps := BitVec.ofNat 4 steps, lastOf := none }
      if old.kv.valid then s.formatPool p e else s
    else
      let s := s.updEng e fun g =>
        { g.moveKv (kvFirstRow old.kvSteps.toNat) (kvFirstRow steps) with kvSteps := BitVec.ofNat 4 steps }
      if old.kv.valid then s.formatPages p e ((List.range (pageCount steps n)).drop was) else s) s

/-- PARTITION_LAYOUT's checks and effect (R270, Table 11.5). -/
def changeLayout : Change := fun s r _ _ =>
  match s.compOf (r.arg 0 1) with
  | none => .error stBadArg
  | some p =>
    let mask : BitVec 6 := BitVec.ofNat 6 (r.arg 1 1)
    let steps := r.arg 2 1
    let count := (engines.filter fun e => hasBit mask e.val && !s.eng[e].fenced).length
    if ¬ r.form 8 [(3, 5)] ∨ r.arg 1 1 = 0 ∨ 64 ≤ r.arg 1 1 ∨ 15 < steps ∨ s.part[p].dissolving.isSome then .error stBadArg
    else if engines.any (fun e => hasBit mask e.val && !s.owns p e && !s.engineIdle e)
        ∨ (count ≠ (s.live p).length ∧ s.scheds.any fun c => c.part = p && !c.disarming)
        ∨ ¬ s.stepsFree p steps then .error stBusy
    else .ok (s.relayout p mask steps, [], 0)

/-- ENGINE_ZEROING_DONE (R270, R102): 8,192 cycles after the last of its jobs, an engine that a layout removed is zero
and free. -/
def execEngineZeroingDone (t : Nat) (e : EngId) (s : State) : Host.Outcome State Fault Refusal :=
  let s := s.advance t
  .next (match s.eng[e].leaving with
    | none => s
    | some c =>
      if (s.queueOf e).isEmpty ∧ ¬ s.env.applies.any (fun a => a.engine = e) ∧ max c s.eng[e].busyUntil + 8192 ≤ s.now then
        s.updEng e fun g => { g with store := [], act := [], digests := {}, leaving := none, lastOf := none, mem := g.mem.zeroed }
      else s)

/-! Staging a command. -/

/-- The checks and effect of each stageable command (Table 11.4). -/
def effectOf (op : Nat) : Option Change :=
  if op = 0x0003 then some changeModelLoad
  else if op = 0x0102 then some changeLayout
  else if op = 0x0202 then some changeWindow
  else if op = 0x0400 then some changeArm
  else if op = 0x0401 then some changeDisarm
  else if op = 0x0502 then some changeKvOpen
  else if op = 0x0503 then some changeKvTruncate
  else if op = 0x0504 then some changeKvFree
  else none

/-- One staged command taken into a state. -/
def State.take (s : State) (op : Half) (r : MbxReq) (num : Nat) (pkg : List Byte) : Except Status State :=
  match effectOf op.toNat with
  | none => .error stBadArg
  | some f => match f s r pkg (some num) with
    | .ok (s, _, _) => .ok s
    | .error st => .error st

/-- Every staged command of an envelope taken, in order (R271). -/
def State.takeAll (s : State) : List EnvItem → Except Status State
  | [] => .ok s
  | .op _ :: l => s.takeAll l
  | .cmd op r num pkg :: l => match s.take op r num pkg with
    | .ok s => s.takeAll l
    | .error st => .error st

/-- The module's state as the commands already staged in an envelope modify it (R269); what they reserve is then in force, and the envelope
reserves nothing beside it. -/
def State.staged (s : State) (v : Envelope) : State :=
  let bare := s.updEnvelope v.part v.handle fun v => { v with items := [] }
  match bare.takeAll v.items with
  | .ok s => s
  | .error _ => bare

/-- A command staged in an envelope (R267, R269): its check, and its place among the items. -/
def State.stageCmd (s : State) (op : Half) (r : MbxReq) (pkg : List Byte) : Except Status (State × List Byte) :=
  match s.partOf (r.arg 0 1), effectOf op.toNat with
  | some p, some f => match s.stageGate p r.env none, s.env? p r.env with
    | some st, _ => .error st
    | none, none => .error stBadArg
    | none, some v => match f (s.staged v) r pkg none with
      | .error st => .error st
      | .ok (_, bs, num) => match s.addItem p r.env (.cmd op r num pkg) 0 with
        | .error st => .error st
        | .ok s => .ok (s, bs)
  | _, _ => .error stBadArg

/-- The answer to a refused staging: its envelope, where it still takes stagings, is doomed (R267). -/
def State.refuseStaging (s : State) (r : MbxReq) (st : Status) : Answer :=
  ends (s.doomNamed (s.partOf (r.arg 0 1)) r.env st) st

/-- A stageable command: staged where it names an envelope, otherwise in force at once. -/
def State.changeOrStage (s : State) (op : Half) (r : MbxReq) (pkg : List Byte) (f : Change) : Answer :=
  if r.env ≠ 0xFFFF then
    match s.stageCmd op r pkg with
    | .error st => s.refuseStaging r st
    | .ok (s, bs) => gives s bs
  else match f s r pkg none with
    | .error st => ends s st
    | .ok (s, bs, _) => gives s bs

/-- MODEL_LOAD (R86, R232, Table 11.4). -/
def bodyModelLoad : Body := fun s _ _ r =>
  if r.env = 0xFFFF then s.modelLoad r
  else match s.partOf (r.arg 0 1) with
    | none => ends s stBadArg
    | some p => match s.stageGate p r.env none, s.env? p r.env with
      | some st, _ => ends s st
      | none, none => ends s stBadArg
      | none, some v => match (s.staged v).modelLoadGate r with
        | .error st => s.refuseStaging r st
        | .ok (_, e) =>
          let rows : Bool := r.arg 2 1 = 0
          match s.sourceBytes (r.arg 16 8) (r.arg 8 4 * if rows then 16384 else 64) with
          | (s, .error st) => (s.sealBad st).refuseStaging r st
          | (s, .ok bs) =>
            let item : EnvItem :=
              if rows then .cmd 0x0003 r 0 [] else .op { kind := .put, space := .engine e, addr := lineAddr (r.arg 4 4), data := bs }
            match s.addItem p r.env item (if rows then 0 else bs.length) with
            | .error st => s.refuseStaging r st
            | .ok s' =>
              if ¬ rows then gives s'
              else
                let s'' := s'.writeRows e (r.arg 4 4) (r.arg 8 4) bs
                if s''.eng[e].fenced then s''.refuseStaging r stFenced else gives s''

/-- MODEL_LOAD (R232). -/
def execModelLoad (t : Nat) (r : MbxReq) (s : State) : Host.Outcome State Fault Refusal :=
  .next (s.ring t 0x0003 r bodyModelLoad)

/-- PARTITION_LAYOUT (R270): only inside an envelope. -/
def bodyPartitionLayout : Body := fun s _ _ r =>
  if r.env = 0xFFFF then ends s stBadArg else s.changeOrStage 0x0102 r [] changeLayout

/-- PARTITION_LAYOUT (R270). -/
def execPartitionLayout (t : Nat) (r : MbxReq) (s : State) : Host.Outcome State Fault Refusal :=
  .next (s.ring t 0x0102 r bodyPartitionLayout)

/-- WINDOW_GRANT (R249, R251): a revocation in force at once completes when what passed the window's check has landed. -/
def bodyWindowGrant : Body := fun s _ _ r =>
  let (s, a) := s.changeOrStage 0x0202 r [] changeWindow
  let done : Bool := match a with
    | none => false
    | some (st, _) => st = stOk
  let waits := (s.partOf (r.arg 0 1)).any fun p => s.windowHeld p (r.arg 2 2) (r.arg 6 2)
  if done ∧ r.env = 0xFFFF ∧ r.arg 1 1 = 1 ∧ waits then (s, none) else (s, a)

/-- WINDOW_GRANT (R249). -/
def execWindowGrant (t : Nat) (r : MbxReq) (s : State) : Host.Outcome State Fault Refusal :=
  .next (s.ring t 0x0202 r bodyWindowGrant)

/-- SCHEDULE_ARM (R133): the package is copied before it is checked. -/
def bodyScheduleArm : Body := fun s _ _ r =>
  let gate := if r.env = 0xFFFF then none else (s.partOf (r.arg 0 1)).bind fun p => s.stageGate p r.env none
  match gate with
  | some st => ends s st
  | none => match s.armPackage r with
    | (s, .error st) => if r.env = 0xFFFF then ends (s.sealBad st) st else (s.sealBad st).refuseStaging r st
    | (s, .ok pkg) => s.changeOrStage 0x0400 r pkg changeArm

/-- SCHEDULE_ARM (R133). -/
def execScheduleArm (t : Nat) (r : MbxReq) (s : State) : Host.Outcome State Fault Refusal :=
  .next (s.ring t 0x0400 r bodyScheduleArm)

/-- SCHEDULE_DISARM (R135): outside an envelope it completes after the last job of the schedule. -/
def bodyScheduleDisarm : Body := fun s m _ r =>
  if r.env ≠ 0xFFFF then s.changeOrStage 0x0401 r [] changeDisarm
  else match changeDisarm s r [] none with
    | .error st => ends s st
    | .ok (s, _, h) =>
      if s.jobs.any fun j => j.sched = h then (s, none) else gives (s.pollDisarm m r)

/-- SCHEDULE_DISARM (R135). -/
def execScheduleDisarm (t : Nat) (r : MbxReq) (s : State) : Host.Outcome State Fault Refusal :=
  .next (s.ring t 0x0401 r bodyScheduleDisarm)

/-- The partition's KV generation counts the commit of an envelope with a KV edit (R161). -/
def State.kvGenUp (s : State) (p : PartId) : State := s.updKv p fun k => { k with gen := k.gen + 1 }

/-- Whether an open envelope has staged an edit of a sequence (R160, Table 11.3). -/
def State.seqStaged (s : State) (p : PartId) (n : Nat) : Bool :=
  s.env.opens.any fun v => v.part = p && v.items.any fun i => (s.itemObjs p i).contains (.kvSeq n)

/-- The envelope of one command meets another one that has staged an edit of its sequence (R160, R268). -/
def State.conflictEvent (s : State) : State := s.updEnv fun u => { u with event := setBit (setBit u.event 1) 2 }

/-- A KV edit: staged, or committed as an envelope of its own (R160, R161). -/
def State.kvEdit (s : State) (op : Half) (r : MbxReq) (f : Change) : Answer :=
  let alone : Bool := r.env = 0xFFFF
  let clash := alone && (s.compOf (r.arg 0 1)).any fun p => s.seqStaged p (r.arg 2 2)
  if clash then (match f s r [] none with
    | .error st => ends s st
    | .ok _ => ends s.conflictEvent stEnvConflict)
  else
  let (s, a) := s.changeOrStage op r [] f
  match a, s.compOf (r.arg 0 1) with
  | some (st, _), some p => if st = stOk ∧ alone then (s.kvGenUp p, a) else (s, a)
  | _, _ => (s, a)

/-- KV_SEQ_OPEN (R160). -/
def bodyKvSeqOpen : Body := fun s _ _ r => s.kvEdit 0x0502 r changeKvOpen

/-- KV_SEQ_OPEN (R160). -/
def execKvSeqOpen (t : Nat) (r : MbxReq) (s : State) : Host.Outcome State Fault Refusal :=
  .next (s.ring t 0x0502 r bodyKvSeqOpen)

/-- KV_SEQ_TRUNCATE (R160). -/
def bodyKvSeqTruncate : Body := fun s _ _ r => s.kvEdit 0x0503 r changeKvTruncate

/-- KV_SEQ_TRUNCATE (R160). -/
def execKvSeqTruncate (t : Nat) (r : MbxReq) (s : State) : Host.Outcome State Fault Refusal :=
  .next (s.ring t 0x0503 r bodyKvSeqTruncate)

/-- KV_SEQ_FREE (R160). -/
def bodyKvSeqFree : Body := fun s _ _ r => s.kvEdit 0x0504 r changeKvFree

/-- KV_SEQ_FREE (R160). -/
def execKvSeqFree (t : Nat) (r : MbxReq) (s : State) : Host.Outcome State Fault Refusal :=
  .next (s.ring t 0x0504 r bodyKvSeqFree)

/-! The commit cycle (R271-R275). -/

/-- The operations of an envelope in staging order. -/
def Envelope.ops (v : Envelope) : List EnvOp := v.items.filterMap fun i => match i with
  | .op o => some o
  | .cmd _ _ _ _ => none

/-- The masked bytes of the PUTs of a list, in staging order. -/
def putCells (l : List EnvOp) : List Host.Cell :=
  (l.filter fun o => o.kind = .put).foldl (fun cs o => (cellsFrom o.addr o.data).foldl (fun cs c => cellPut cs c.1 c.2) cs) []

/-- The pages that operations touch. -/
def opPages (l : List EnvOp) : List Nat := (l.flatMap fun o => pagesOf o.addr o.span).eraseDups

/-- The 8-byte words that a mask covers only in part (R274). -/
def partWordsOf (cs : List Host.Cell) : Nat :=
  ((cs.map fun c => c.1 / 8).eraseDups.filter fun w => !(List.range 8).all fun i => (cellAt cs (8 * w + i)).isSome).length

/-- A word after an atomic, and whether the atomic left it unchanged for a mismatch (R275). -/
def atomicWord (o : EnvOp) (old : Nat) : Nat × Bool := match o.kind with
  | .cas => if field o.data 0 8 = old then (field o.data 8 8, false) else (old, true)
  | _ => ((old + field o.data 0 8) % 2 ^ 64, false)

/-- A CAS that did not match counted in an outcome (R275). -/
def State.casMiss (s : State) (p : PartId) (h : Half) : State :=
  s.updEnv fun u => { u with
    outcomes := updWhere (fun o => decide (o.part = p ∧ o.handle = h)) (fun o => { o with casMisses := o.casMisses + 1 }) u.outcomes }

/-- A staged atomic on the region (R275). -/
def State.regionAtomic (s : State) (p : PartId) (h : Half) (o : EnvOp) : State :=
  let (v, miss) := atomicWord o (leNat (regionRead s.part[p] o.addr 8))
  let s := s.updPart p fun q => regionWrite q o.addr (natLe v 8)
  if miss then s.casMiss p h else s

/-- A staged atomic on activation SRAM (R275). A word that is uncorrectable is not written, since what would be written depends on it
(R97, R99). -/
def State.actAtomic (s : State) (p : PartId) (h : Half) (e : EngId) (o : EnvOp) (f : Flt) : State :=
  match badPlace s.eng[e] f ((List.range 8).map (o.addr + ·)) with
  | some (_, w) => if s.eng[e].mem.actBad.contains (w / 8 * 8) then s else s.actUe e w none 0xFFFF
  | none =>
    let (v, miss) := atomicWord o (leNat (memRead s.eng[e].act o.addr 8))
    let s := (s.sideWrite e o.addr (natLe v 8)).1
    if miss then s.casMiss p h else s

/-- The rows of the preload tiles that the arms of an envelope bring to an engine (R274). -/
def State.preloadRows (s : State) (v : Envelope) (e : EngId) : Nat :=
  let i := (s.live v.part).idxOf e
  (v.items.map fun x => match x with
    | .cmd op _ num _ =>
      if op ≠ 0x0400 then 0 else match s.sched? num with
        | none => 0
        | some c => match c.images.find? fun m => m.logical = i with
          | none => 0
          | some m => (if m.flags % 2 = 1 then tileRows (shapeAt m m.preAShape) else 0)
            + if m.flags / 2 % 2 = 1 then tileRows (shapeAt m m.preBShape) else 0
    | .op _ => 0).sum

/-- What a commit leaves to be applied on an engine, with A_e of R274 added to its busy-until. An idle engine counts from
the commit cycle. -/
def State.addApply (s : State) (v : Envelope) (group : Nat) (e : EngId) : State :=
  let mine := v.ops.filter fun o => s.spaceEngine v.part o.space = some e
  let rows := s.preloadRows v e
  if mine.isEmpty ∧ rows = 0 then s
  else
    let cells := putCells mine
    let cost := 32 * (opPages mine).length + 2 * partWordsOf cells + rows + 16
    let a : EnvApply :=
      { id := s.env.nextApply, group := group, part := v.part, handle := v.handle, engine := e, cells := cells
        atomics := mine.filter fun o => o.kind ≠ .put, waitJobs := (s.queueOf e).map Job.id }
    (s.updEnv fun u => { u with applies := u.applies ++ [a], nextApply := u.nextApply + 1 }).updEng e fun g =>
      { g with busyUntil := max g.busyUntil s.now + cost }

/-- The region bytes of a commit put into shadow pages, to which every access of the page then goes (R273). -/
def addShadow (q : Partition) (cs : List Host.Cell) : Partition :=
  { q with shadow := cs.foldl (fun l c => assocSet (c.1 / 4096) (cellPut ((assoc (c.1 / 4096) l).getD []) c.1 c.2) l) q.shadow }

/-- A notify of a staged PUT_NOTIFY (R275): a job trigger of its own where its pigeonhole is a trigger. -/
def State.envNotify (s : State) (p : PartId) (o : EnvOp) : State :=
  match o.notify with
  | none => s
  | some (n, pk) => match s.pghIndex p n with
    | none => s
    | some g => match s.trigger? p n with
      | none => s.pghAdd g pk.notifyAdd.toNat s.now
      | some c =>
        let refuse := fun (s : State) (st : Status) (k : Word) => match s.ctx? pk.link with
          | none => s
          | some x => s.refuseOp o.port x 2 pk st k
        if pk.notifyAdd ≠ 1 then refuse s stBadArg 0
        else match s.triggerGate c with
          | some st => refuse s st 0
          | none =>
            let src := JobSource.fabric o.port pk.link pk.tag 2 (hasBit pk.flags 0)
            match s.takeJob (s.offerOf c s.now 11 pk.arg.toNat pk.kvSeq.toNat src) (some (s.now + 9)) with
            | .inl (s, st, k) => refuse s st (BitVec.ofNat 32 k)
            | .inr (s, _) => s

/-- The notifies of a commit, once every page of it has been applied or redirected (R275). -/
def State.flushNotes (s : State) (group : Nat) : State :=
  if s.env.applies.any fun a => a.group = group then s
  else
    let now := s.env.notes.filter fun n => n.group = group
    let s := s.updEnv fun u => { u with notes := u.notes.filter fun n => n.group ≠ group }
    now.foldl (fun s n => n.ops.foldl (fun s o => s.envNotify n.part o) s) s

/-- Whether every logical engine that an envelope names resolves (R250). -/
def State.spacesOk (s : State) (v : Envelope) : Bool := v.ops.all fun o => match o.space with
  | .act i => decide (i < (s.live v.part).length)
  | .engine e => s.owns v.part e
  | .lpddr => true

/-- The commit of an envelope whose staged commands have passed the recheck (R271, R273-R275). An abort that has reached it in this cycle comes
after it (R276). -/
def State.commitEnv (s : State) (v : Envelope) : State :=
  let p := v.part
  let group := s.env.nextApply
  let kv := v.items.any fun i => match i with
    | .cmd op _ _ _ => op = 0x0502 || op = 0x0503 || op = 0x0504
    | .op _ => false
  let wins := (v.ops.filterMap EnvOp.window).eraseDups
  let s := if kv then s.kvGenUp p else s
  let s := s.updFab fun b => { b with wins := updWhere (fun w => wins.contains w.num) (fun w => { w with gen := w.gen + 1 }) b.wins }
  let s := s.updEnv fun u =>
    { u with
      opens := u.opens.filter fun x => !(x.part = p && x.handle = v.handle)
      outcomes := keepOutcome u.outcomes
        { part := p, handle := v.handle, opener := v.opener, committed := true, staged := v.items.length, postmark := s.now }
      notes := u.notes ++ [{ group := group, part := p, ops := v.ops.filter fun o => o.notify.isSome }] }
  let reg := v.ops.filter fun o => o.space = .lpddr
  let s := s.updPart p fun q => addShadow q (putCells reg)
  let s := (reg.filter fun o => o.kind ≠ .put).foldl (fun s o => s.regionAtomic p v.handle o) s
  let s := engines.foldl (fun s e => s.addApply v group e) s
  let s := s.answerAsker v.asker stOk (natLe s.now 8)
  let s := match v.closing with
    | none => s
    | some c => c.askers.foldl (fun s a => s.answerAbort p v.handle a stEnvAlreadyCommitted) s
  s.flushNotes group

/-- An envelope closes: it commits, or aborts as doomed or on a failed recheck (R271, R272). -/
def State.settleEnv (s : State) (v : Envelope) : State :=
  let fails := match v.closing with
    | some c => s.abortNow v.part v.handle c.reason c.askers
    | none => s.abortNow v.part v.handle 8
  if v.state = .doomed then s.abortNow v.part v.handle 2
  else match s.takeAll v.items with
    | .error _ => fails
    | .ok s' => if s'.spacesOk v then s'.commitEnv v else fails

end Sys2Proof.Machine
end

