-- ==== Sys2Proof/Machine/PartCmds.lean ====
section
/-! DEFINITION. PARTITION_CREATE, PARTITION_DISSOLVE, KEY_INSTALL and LIFECYCLE_ADVANCE (R22, R35, R102, R179, R281-R288, R300, R301,
R330, R375, R389, Tables 12.2-12.4). -/

namespace Sys2Proof.Machine

/-! Creating a partition. -/

/-- The first place among those free for a run of `n` of `total` units, `used` listing the runs taken (R282). -/
def findRoom (total n : Nat) (used : List (Nat × Nat)) : Option Nat :=
  firstFree (fun a => decide (a + n ≤ total) && used.all fun u => decide (a + n ≤ u.1 ∨ u.1 + u.2 ≤ a)) total

/-- The compute partitions that exist. -/
def State.comps (s : State) : List Partition := s.part.toList.tail.filter fun q => q.isThere

/-- Contexts or windows that compute partitions have not reserved (R282, R283). -/
def leftOf (total : Nat) (l : List Nat) : Nat := total - l.sum

/-- A maintenance grant ends when an engine that it names enters a partition (R389). -/
def State.endGrant (s : State) (mask : Nat) : State :=
  if s.bist.granted &&& BitVec.ofNat 6 mask = 0 then s else { s with bist := { s.bist with granted := 0 } }

/-- PARTITION_CREATE (R22, R35, R282, R285, R286, R375, R455, Table 12.2). Regions and pigeonholes are taken at the lowest place free (log
entry 10). -/
def bodyPartitionCreate : Body := fun s _ _ r =>
  let n := r.arg 0 1
  let flags := r.arg 1 1
  let mask := r.arg 2 1
  let gib := r.arg 4 2
  let units := r.arg 6 2
  let ctx := r.arg 12 2
  let wins := r.arg 14 2
  if h : 1 ≤ n ∧ n < 7 then
    let p : PartId := ⟨n, h.2⟩
    if ¬ r.form 32 [(28, 4)] ∨ 2 ≤ flags ∨ mask = 0 ∨ 64 ≤ mask ∨ 15 < r.arg 3 1 ∨ gib = 0 ∨ 120 < gib ∨ units = 0 ∨ 60 < units
        ∨ r.arg 8 4 = 0 ∨ bitAt (r.arg 8 4) 0 ∨ ctx = 0 ∨ 3840 < ctx ∨ wins = 0 ∨ 7680 < wins ∨ r.arg 16 8 = 0
        ∨ bitAt (r.arg 26 2) 0 ∨ bitAt (r.arg 26 2) 8 then ends s stBadArg
    else if flags = 1 ∧ s.sec.lifecycle ≠ 3 then ends s stDenied
    else if s.units.any fun u => u.fenced && u.unit.toNat / 16 = 5 then ends s stFenced
    else
      let l := s.comps
      let busy := s.part[p].isThere || engines.any (fun e => bitAt mask e.val && ((s.holder e).isSome || s.eng[e].leaving.isSome))
        || l.any fun q => q.lpSlots &&& BitVec.ofNat 32 (r.arg 8 4) ≠ 0 || q.swCycles &&& BitVec.ofNat 64 (r.arg 16 8) ≠ 0
            || q.vidSlots &&& BitVec.ofNat 16 (r.arg 24 2) ≠ 0 || q.cvuSlots &&& BitVec.ofNat 16 (r.arg 26 2) ≠ 0
      let room := findRoom 120 gib (l.map fun q => (q.regionBase, q.regionGib))
      let pgh := findRoom 60 units (l.map fun q => (q.pghBase / 1024 - 4, q.pghCount / 1024))
      match busy, room, pgh with
      | false, some base, some first =>
        if leftOf 3840 (l.map Partition.ctxMax) < ctx ∨ leftOf 7680 (l.map Partition.winMax) < wins then ends s stBusy
        else
          let k := s.sec.draws
          let s := (s.updSec fun c => { c with draws := c.draws + 2 }).endGrant mask
          let s := s.updPart p fun _ =>
            { isThere := true, confidential := flags = 1, engines := BitVec.ofNat 6 mask, kvSteps := BitVec.ofNat 4 (r.arg 3 1)
              regionBase := base, regionGib := gib, pghBase := 4096 + 1024 * first, pghCount := 1024 * units, ctxMax := ctx
              winMax := wins, lpSlots := BitVec.ofNat 32 (r.arg 8 4), swCycles := BitVec.ofNat 64 (r.arg 16 8)
              vidSlots := BitVec.ofNat 16 (r.arg 24 2), cvuSlots := BitVec.ofNat 16 (r.arg 26 2), createAt := s.now
              xtsKey := some k, kemKey := some (k + 1) }
          let s := engines.foldl (fun s e =>
            if bitAt mask e.val then s.updEng e fun g => { g with kvSteps := BitVec.ofNat 4 (r.arg 3 1) } else s) s
          gives s (natLe (base * 2 ^ 30) 8 ++ natLe (4096 + 1024 * first) 4)
      | _, _, _ => ends s stBusy
  else ends s stBadArg

/-- PARTITION_CREATE (R282). -/
def execPartitionCreate (t : Nat) (r : MbxReq) (s : State) : Host.Outcome State Fault Refusal :=
  .next (s.ring t 0x0100 r bodyPartitionCreate)

/-! Keys (R287, R288). -/

/-- The greatest epoch installed in a slot so far. -/
def KeySlot.top (k : KeySlot) : Nat := (k.installed.map Prod.fst).foldl max k.retired

/-- A key installed under a new epoch: a slot holds the newest two, or with RETIRE_OLD the new one alone (R288). -/
def KeySlot.install (k : KeySlot) (epoch : Nat) (key : List Byte) (retireOld : Bool) : KeySlot :=
  let all := (epoch, key) :: k.installed
  let keep := if retireOld then 1 else 2
  { installed := all.take keep, retired := ((all.drop keep).map Prod.fst).foldl max k.retired }

/-- Every epoch of a slot retired (R288, R300). -/
def KeySlot.retireAll (k : KeySlot) : KeySlot := { installed := [], retired := k.top }

/-- The key that a KEY_INSTALL wraps (R287): the ML-KEM-768 ciphertext decapsulated with the partition's key gives K (log entry 6), and the key
under the first 256 bits of SHAKE256 over K, "XB6-KEY" and bytes 0-5 opens the wrapped key. None where its tag fails. -/
def Partition.unwrapKey (q : Partition) (args : List Byte) : Option (List Byte) :=
  let ct := (args.drop 8).take 1088
  let k := (List.range 32).map (Config.decapsByte (q.kemKey.getD 0) ct)
  let kek := (shake256 (k ++ [0x58, 0x42, 0x36, 0x2D, 0x4B, 0x45, 0x59] ++ args.take 6)).take 32
  gcmOpen kek (List.replicate 12 0) [] ((args.drop 1096).take 32) ((args.drop 1128).take 16)

/-- KEY_INSTALL (R287, R288, R291, Table 12.4). -/
def bodyKeyInstall : Body := fun s _ _ r =>
  let kind := r.arg 1 1
  let ep := r.arg 4 2
  let old : Bool := r.arg 6 1 = 1
  match s.partOf (r.arg 0 1) with
  | none => ends s stBadArg
  | some p =>
    let q := s.part[p]
    let slot : Option Nat := match kind with
      | 0 => if q.confidential then some q.ownerEpoch else none
      | 1 => match s.ctxNum? p (r.arg 2 2) with
        | some c => if c.clear then none else some c.key.top
        | none => none
      | 2 => some q.host.top
      | _ => none
    match slot with
    | none => ends s stBadArg
    | some top =>
      if ¬ r.form 1144 [(7, 1)] ∨ (kind ≠ 1 ∧ r.arg 2 2 ≠ 0) ∨ 2 ≤ r.arg 6 1 ∨ ep = 0 ∨ 65534 < ep ∨ ep ≤ top
          ∨ q.dissolving.isSome then ends s stBadArg
      else match q.unwrapKey (padTo 1144 r.args) with
        | none => ends (s.updSec fun c => { c with event := setBit c.event 0 }) stDenied
        | some key => match kind with
          | 0 => gives (s.updPart p fun q => { q with owner := some { epoch := ep, key := key }, ownerEpoch := ep })
          | 1 => match s.ctxNum? p (r.arg 2 2) with
            | none => ends s stBadArg
            | some c => gives (s.updCtx c.link fun c => { c with key := c.key.install ep key old })
          | _ => gives (s.updPart p fun q => { q with host := q.host.install ep key old })

/-- KEY_INSTALL (R287). -/
def execKeyInstall (t : Nat) (r : MbxReq) (s : State) : Host.Outcome State Fault Refusal := .next (s.ring t 0x0103 r bodyKeyInstall)

/-! Dissolving a partition (R300, R301). -/

/-- What ends in the cycle in which a partition becomes DISSOLVING (R300). -/
def State.startDissolve (s : State) (p : PartId) (m : MbxId) : State :=
  let s := s.updPart p fun q =>
    { q with dissolving := some { d := s.now, mailbox := m }, host := q.host.retireAll, ckpt := none, shadow := [] }
  let s := s.updFab fun b => { b with
    ctxs := b.ctxs.map fun c => if c.part = p then { c with key := c.key.retireAll } else c
    outstanding := b.outstanding.filter fun o => o.part ≠ p }
  let s := s.abortEnvs (fun v => v.part = p) 6
  let s := s.endTests (fun x => x = p) stNotReady
  let s := s.endAll (openJobs (s.jobs.filter fun j => j.part = p)) stNotReady
  let s := engines.foldl (fun s e => if s.owns p e then
    s.updEng e fun g => { g with busyUntil := s.now, walk := none, pageQueue := [], staging := [] } else s) s
  let s := s.updEnv fun u => { u with
    applies := u.applies.filter fun a => a.part ≠ p, notes := u.notes.filter fun n => n.part ≠ p }
  let s := s.updBulk p fun b => { b with frames := [] }
  let drop := fun (v : Cvu) =>
    { v with running := v.running.filter fun j => j.part ≠ p, queue := v.queue.filter fun j => j.part ≠ p }
  { s with
    cvu := { s.cvu with units := s.cvu.units.map drop }
    vid := { s.vid with
      streams := s.vid.streams.filter fun v => v.part ≠ p
      working := s.vid.working.filter fun w => !s.vid.streams.any fun v => v.num = w.2 && v.part = p } }

/-- PARTITION_DISSOLVE (R300): it completes after its last step. -/
def bodyPartitionDissolve : Body := fun s m _ r =>
  match s.compOf (r.arg 0 1) with
  | none => ends s stBadArg
  | some p =>
    if ¬ r.form 4 [(1, 3)] then ends s stBadArg
    else if s.part[p].dissolving.isSome then ends s stBusy
    else (s.startDissolve p m, none)

/-- PARTITION_DISSOLVE (R300). -/
def execPartitionDissolve (t : Nat) (r : MbxReq) (s : State) : Host.Outcome State Fault Refusal :=
  .next (s.ring t 0x0101 r bodyPartitionDissolve)

/-- KEY_DESTROY (R300 step 2): no access of the partition is pending, and its region becomes unreadable. -/
def execKeyDestroy (t : Nat) (p : PartId) (s : State) : Host.Outcome State Fault Refusal :=
  let s := s.advance t
  .next (match s.part[p].dissolving with
    | none => s
    | some d => s.updPart p fun q => { q with xtsKey := none, region := [], dissolving := some { d with keysGone := true } })

/-- The last steps of a dissolve: its engines, and those that leave it, are zero, and everything of the partition is gone (R300 steps 3-5, R102,
R179). -/
def State.finishDissolve (s : State) (p : PartId) : State :=
  let q := s.part[p]
  let s := engines.foldl (fun s e => if s.keeper e ≠ some p then s else s.updEng e fun g =>
    { g with
      store := [], act := [], kvSteps := 0, digests := {}, mem := g.mem.zeroed
      leaving := if s.owns p e then g.leaving else none, lastOf := if s.owns p e then g.lastOf else none }) s
  let s := s.updFab fun b => { b with
    ctxs := b.ctxs.filter fun c => c.part ≠ p
    wins := b.wins.filter fun w => w.part ≠ p
    pgh := b.pgh.filter fun x => decide (x.1 < q.pghBase ∨ q.pghBase + q.pghCount ≤ x.1)
    ports := b.ports.map fun x => if x.serves = some p then { x with serves := none } else x }
  let s := s.updHost fun h => { h with
    win := h.win.map fun w => if w.bound = some p then w.unbind else w
    bulk := h.bulk.set p { h.bulk[p] with frames := [] } }
  let s := s.updEnv fun u => { u with
    outcomes := u.outcomes.filter fun o => o.part ≠ p, nextHandle := u.nextHandle.set p 0 }
  let s := { s with scheds := s.scheds.filter fun c => c.part ≠ p }
  (s.updTwin fun t => { t with lost := t.lost &&& ~~~ BitVec.ofNat 7 (2 ^ p.val) }).updPart p fun _ => {}

/-- A PARTITION_DISSOLVE that waits completes once its keys are destroyed and its engines are zero (R300). -/
def State.pollDissolve (s : State) (m : MbxId) (r : MbxReq) : State :=
  match s.compOf (r.arg 0 1) with
  | none => s.mbxAnswer m stOk (natLe s.now 8)
  | some p => match s.part[p].dissolving with
    | none => s
    | some d => if d.keysGone ∧ d.d + 16 + 8192 ≤ s.now then (s.finishDissolve p).mbxAnswer m stOk (natLe s.now 8) else s

/-! The lifecycle (R281). -/

/-- LIFECYCLE_ADVANCE (R281). `verdict` tells whether the signature read at AUTH_SOURCE verifies under Meweal's key; entering SCRAPPED destroys the
identity key's secret seed. -/
def bodyLifecycleAdvance : Body := fun s _ _ r =>
  let cur := s.sec.lifecycle.toNat
  let target := r.arg 0 1
  let bytes := r.arg 4 4
  let move := fun (s : State) =>
    let n := leNat (s.draw 8).1
    (s.draw 8).2.updSec fun c =>
      { c with lifecycle := BitVec.ofNat 3 target, nonce := BitVec.ofNat 64 n, seedHeld := c.seedHeld && decide (target ≠ 5) }
  if ¬ r.form 16 [(1, 3)] ∨ target ≠ cur + 1 ∨ cur < 2 then ends s stBadArg
  else if target = 4 then
    match bulkAt (r.arg 8 8) 2820 with
    | none => ends s stBadArg
    | some (a, b) =>
      if bytes ≠ 2820 ∨ a ≠ 0 then ends s stBadArg
      else if ¬ s.comps.isEmpty then ends s stBusy
      else
        let s := (s.bulkRead a b 2820).1
        if ¬ r.verdict then ends s stDenied else gives (move s)
  else if bytes ≠ 0 then ends s stBadArg
  else if target ≤ 5 then gives (move s)
  else ends s stBadArg

/-- LIFECYCLE_ADVANCE (R281). -/
def execLifecycleAdvance (t : Nat) (r : MbxReq) (s : State) : Host.Outcome State Fault Refusal :=
  .next (s.ring t 0x0105 r bodyLifecycleAdvance)

end Sys2Proof.Machine
end

