-- ==== Sys2Proof/Machine/TestCmds.lean ====
section
/-! DEFINITION. Self-test: slices, maintenance grants, on-demand slices, scan, the lift of a fence, known-answer kernels and the
margin sweep (R382-R395, Tables 17.1, 17.3, 17.5, 17.6). -/

namespace Sys2Proof.Machine

/-! Who may test (R388, R389). -/

/-- Whether an engine is under a maintenance grant. -/
def Bist.grants (b : Bist) (e : EngId) : Bool := hasBit b.granted e.val

/-- Whether self-test of an engine is accepted (R388): in TEST or RMA, or in DEPLOYED under a grant. -/
def State.mayTest (s : State) (e : EngId) : Bool :=
  s.sec.lifecycle = 1 || s.sec.lifecycle = 4 || (s.sec.lifecycle = 3 && s.bist.grants e)

/-- MAINT_GRANT (R389). -/
def bodyMaintGrant : Body := fun s _ _ r =>
  let mask := r.arg 0 1
  let secs := r.arg 2 2
  if ¬ r.form 4 [(1, 1)] ∨ mask = 0 ∨ 64 ≤ mask ∨ secs = 0 ∨ 3600 < secs then ends s stBadArg
  else if engines.any fun e => hasBit (BitVec.ofNat 6 mask) e.val && (s.keeper e).isSome then ends s stBusy
  else
    let s := s.updBist fun b => { b with granted := BitVec.ofNat 6 mask, grantEnd := s.now + secs * 900000000 }
    gives (engines.foldl (fun s e => if s.bist.grants e then s.updEng e fun g => { g with bist := { g.bist with
      passedSinceGrant := [], scanSinceGrant := false, katSinceGrant := 0 } } else s) s)

/-- MAINT_GRANT (R389). -/
def execMaintGrant (t : Nat) (r : MbxReq) (s : State) : Host.Outcome State Fault Refusal :=
  .next (s.ring t 0x0905 r bodyMaintGrant)

/-- MAINT_GRANT_EXPIRY (R389): the grant's seconds are over. -/
def execMaintGrantExpiry (t : Nat) (s : State) : Host.Outcome State Fault Refusal :=
  let s := s.advance t
  .next (if s.bist.grantEnd ≤ s.now then s.updBist fun b => { b with granted := 0 } else s)

/-! Slices (R382-R387). -/

/-- The first slice of a kind in Table 17.1 order. -/
def kindFirst (k : Nat) : Nat := [0, 512, 640, 672, 810, 913].getD k 913

/-- The number of slices of a kind (Table 17.1). -/
def kindCount (k : Nat) : Nat := [512, 128, 32, 138, 103].getD k 0

/-- The kind of a slice (Table 17.1). -/
def kindOf (i : Nat) : Nat := if i < 512 then 0 else if i < 640 then 1 else if i < 672 then 2 else if i < 810 then 3 else 4

/-- Whether an engine belongs to a confidential partition, or leaves one and has not been zeroed yet (R295). -/
def State.engSecret (s : State) (e : EngId) : Bool := (s.keeper e).any fun p => s.part[p].confidential

/-- Whether slice `i` may start on an engine (R385, R387): a logic slice needs valid golden signatures, and on an engine of a
confidential partition only logic slices run. -/
def State.sliceOk (s : State) (e : EngId) (i : Nat) : Bool := if i < 672 then s.bist.goldenValid else !s.engSecret e

/-- The slice that an engine takes at its next opportunity (R382, R386, R390): a repeat, then what BIST_SLICE asks for, then
the rotation, which passes over slices that may not start. -/
def State.nextSlice (s : State) (e : EngId) : Option SliceRun :=
  let g := s.eng[e].bist
  let pick : Option SliceRun := match g.repeatOf, g.onDemand with
    | some (i, d), _ => some { idx := i, demand := d, again := true, startAt := s.now }
    | none, i :: _ => some { idx := i, demand := true, startAt := s.now }
    | none, [] =>
      if s.bist.periodic then
        (((List.range 913).map fun k => (g.position.toNat + k) % 913).find? (s.sliceOk e)).map fun i => { idx := i, startAt := s.now }
      else none
  pick.filter fun x => s.sliceOk e x.idx

/-- The engines within a slice. -/
def State.inSlices (s : State) : Nat := (engines.filter fun e => s.eng[e].bist.inSlice.isSome).length

/-- Whether GATE allows a slice on an engine (R384). -/
def Engine.gateOk (g : Engine) : Bool := decide (728 ≤ g.vddE ∧ g.vddE ≤ 772) && g.clkNominal

/-- The power conditions of a slice or a scan on an engine (R384). -/
def State.testPower (s : State) (e : EngId) : Bool :=
  (!s.bist.stagger || decide (s.inSlices < s.bist.maxConcurrent.toNat)) && (!s.bist.gate || s.eng[e].gateOk)
    && decide (s.pwr.level.toNat < 2) && s.pwr.ejectAt.isNone

/-- Whether an engine needs windows for its slices: it is in service in a compute partition, or leaves one (R383). -/
def State.needsWindow (s : State) (e : EngId) : Bool := (s.keeper e).isSome && !s.eng[e].fenced

/-- Whether a 256-cycle step of a test window begins now on an engine (R127, R383). -/
def Engine.stepStarts (g : Engine) (now : Nat) : Bool :=
  decide (now + 255 ≤ g.seq.testUntil) && (g.seq.testUntil + 1 - now) % 256 = 0

/-- BST_SKIPPED counts (Table 17.10). -/
def State.skipSlice (s : State) : State := s.updBist fun b => { b with skipped := bump 32 b.skipped 1 }

/-- A slice starts on an engine. Outside a window its logic slices leave the registers of R127 undefined. -/
def State.startSlice (s : State) (e : EngId) (x : SliceRun) : State :=
  let n := s.free
  let loose := decide (x.idx < 672) && !s.needsWindow e
  let s := if loose then ({ s with free := n + 76 }).updEng e fun g => g.undefine n else s
  s.updEng e fun g => { g with bist := { g.bist with
    inSlice := some x
    rotations := if ¬ x.demand ∧ ¬ x.again ∧ x.idx < g.bist.position.toNat then bump 16 g.bist.rotations 1 else g.bist.rotations } }

/-- SLICE (R382-R384): a step of a test window, or an opportunity of an engine out of service. -/
def execSlice (t : Nat) (e : EngId) (s : State) : Host.Outcome State Fault Refusal :=
  let s := s.advance t
  let g := s.eng[e]
  let window := s.needsWindow e
  .next (if g.bist.inSlice.isSome ∨ (window ∧ ¬ g.stepStarts s.now) ∨ s.resetting (.engine e) then s
    else match s.nextSlice e with
      | some x => if s.testPower e then s.startSlice e x else if window then s.skipSlice else s
      | none => if window then s.skipSlice else s)

/-- The rotation goes on past a slice of it (R382). -/
def BistEng.past (b : BistEng) (i : Nat) : BistEng :=
  { b with position := BitVec.ofNat 10 ((i + 1) % 913)
           rotations := if i = 912 then bump 16 b.rotations 1 else b.rotations }

/-- A slice has passed. -/
def BistEng.pass (b : BistEng) (x : SliceRun) : BistEng :=
  let b := { b with inSlice := none, passedSinceGrant := x.idx :: b.passedSinceGrant.filter (· ≠ x.idx)
                    repeatOf := if x.again then none else b.repeatOf }
  if x.demand then { b with onDemand := b.onDemand.filter (· ≠ x.idx) } else b.past x.idx

/-- A BIST_SLICE whose slices have all passed is answered (R390). -/
def State.demandDone (s : State) (e : EngId) : State :=
  let b := s.eng[e].bist
  match b.demandMbx, b.onDemand, b.repeatOf with
  | some m, [], none => (s.updEng e fun g => { g with bist := { g.bist with demandMbx := none } }).mbxAnswer m stOk
  | _, _, _ => s

/-- The event of a failed slice (R386): DETAIL reads 0 on an engine of a confidential partition (R387). -/
def State.sliceEvent (s : State) (e : EngId) (x : SliceRun) : State :=
  let k := kindOf x.idx
  let detail := if s.engSecret e then 0 else 65536 * k + (x.idx - kindFirst k)
  let (n, s) := s.fresh
  s.event (16 * k + e.val) 9 11 stBistFail none 0xFFFF (BitVec.ofNat 32 detail) (BitVec.ofNat 8 (Config.freeNat n % 4 * 4))

/-- A slice whose repeat has failed (R386): the engine is fenced, but for a store march, whose rows are marked for sparing. -/
def State.sliceFailed (s : State) (e : EngId) (x : SliceRun) (rows : List Nat) : State :=
  let k := kindOf x.idx
  let s := s.updBist fun b => { b with failed := true }
  let s := s.updEng e fun g => { g with bist :=
    let b := { g.bist with repeatOf := none }
    if x.demand then { b with onDemand := [] } else b.past x.idx }
  let s :=
    if k = 3 then s.updEng e fun g => { g with mem := { g.mem with storeMarked := (g.mem.storeMarked ++ rows).eraseDups } }
    else s.fenceEngine e (16 * k + e.val) (s.record 2 (16 * k + e.val) 9 11 stFenced none 0xFFFF 0 0)
  match x.demand, s.eng[e].bist.demandMbx with
  | true, some m =>
    (s.updEng e fun g => { g with bist := { g.bist with demandMbx := none } }).mbxAnswer m stBistFail (natLe (x.idx - kindFirst k) 2)
  | _, _ => s

/-- SLICE_END (R384, R386): 256 cycles after its start a slice has passed, failed, or been discarded under GATE. -/
def execSliceEnd (t : Nat) (e : EngId) (res : SliceResult) (s : State) : Host.Outcome State Fault Refusal :=
  let s := s.advance t
  .next (match s.eng[e].bist.inSlice with
    | none => s
    | some x =>
      if s.now < x.startAt + 256 then s
      else match res with
        | .discarded =>
          let s := s.updEng e Engine.dropSlice
          if s.bist.gate then s.skipSlice else s
        | .pass => (s.updEng e fun g => { g with bist := g.bist.pass x }).demandDone e
        | .fail rows =>
          let s := (s.updEng e fun g => { g with bist := { g.bist with
            inSlice := none, passedSinceGrant := [], scanSinceGrant := false, katSinceGrant := 0
            repeatOf := some (x.idx, x.demand) } }).sliceEvent e x
          if x.again then s.sliceFailed e x rows else s)

/-- BIST_SLICE (R387, R388, R390). -/
def bodyBistSlice : Body := fun s m _ r =>
  let k := r.arg 1 1
  let n := r.arg 2 2
  if h : r.arg 0 1 < 6 then
    let e : EngId := ⟨r.arg 0 1, h⟩
    if ¬ r.form 8 [(4, 4)] ∨ 4 < k ∨ (n ≠ 0xFFFF ∧ kindCount k ≤ n) then ends s stBadArg
    else if ¬ s.mayTest e ∨ (3 ≤ k ∧ s.engSecret e) then ends s stDenied
    else if s.eng[e].bist.demandMbx.isSome then ends s stBusy
    else
      let l := if n = 0xFFFF then (List.range (kindCount k)).map (kindFirst k + ·) else [kindFirst k + n]
      (s.updEng e fun g => { g with bist := { g.bist with onDemand := l, demandMbx := some m } }, none)
  else ends s stBadArg

/-- BIST_SLICE (R390). -/
def execBistSlice (t : Nat) (r : MbxReq) (s : State) : Host.Outcome State Fault Refusal :=
  .next (s.ring t 0x0901 r bodyBistSlice)

/-! Scan and the lift of a fence. -/

/-- The DETAILs of the patterns that fail, as SCAN_RUN meets them. -/
def scanFails (r : MbxReq) : List Nat := (List.range ((r.extra.length - 8) / 4)).map fun i => field r.extra (8 + 4 * i) 4

/-- SCAN_RUN (R391): `extra` holds PATTERNS, FIRST_FAILED and the DETAIL of each pattern that fails. -/
def bodyScanRun : Body := fun s m _ r =>
  let blocks := r.arg 4 4
  if h : r.arg 0 1 < 6 then
    let e : EngId := ⟨r.arg 0 1, h⟩
    if ¬ r.form 8 [(1, 3)] ∨ 8 ≤ blocks then ends s stBadArg
    else if ¬ s.mayTest e then ends s stDenied
    else if ¬ s.bist.grants e ∨ (s.keeper e).isSome then ends s stBusy
    else if ¬ r.verdict then ends s stFwBadSignature
    else
      let fails := scanFails r
      let first := if fails.isEmpty then 0xFFFFFFFF else field r.extra 4 4
      let n := s.free
      let s := ({ s with free := n + 76 }).updEng e fun g => g.undefine n
      let s := s.updEng e fun g => { g with bist := if fails.isEmpty then g.bist else
        { g.bist with passedSinceGrant := [], scanSinceGrant := false, katSinceGrant := 0 } }
      let s := fails.foldl (fun s d =>
        let (n, s) := s.fresh
        s.event (16 * min 2 (d / 65536) + e.val) 9 11 stBistFail none 0xFFFF (BitVec.ofNat 32 d)
          (BitVec.ofNat 8 (Config.freeNat n % 4 * 4))) s
      (s.updBist fun b => { b with scans := b.scans ++
        [{ mailbox := m, engine := e, full := (blocks = 0 || blocks = 7) && fails.isEmpty
           out := natLe (field r.extra 0 4) 4 ++ natLe fails.length 4 ++ natLe first 4 }] }, none)
  else ends s stBadArg

/-- SCAN_RUN (R391). -/
def execScanRun (t : Nat) (r : MbxReq) (s : State) : Host.Outcome State Fault Refusal := .next (s.ring t 0x0903 r bodyScanRun)

/-- A SCAN_RUN completes while the power conditions hold (R391). -/
def State.pollScan (s : State) (m : MbxId) : State := match s.bist.scans.find? fun x => x.mailbox = m with
  | none => s
  | some x =>
    if ¬ s.testPower x.engine then s
    else
      let s := s.updBist fun b => { b with scans := b.scans.filter fun y => y.mailbox ≠ m }
      let s := if x.full then s.updEng x.engine fun g => { g with bist := { g.bist with scanSinceGrant := true } } else s
      s.mbxAnswer m (if field x.out 4 4 = 0 then stOk else stBistFail) x.out

/-- Whether everything that FENCE_LIFT asks for has passed since the grant began (R392). -/
def BistEng.proven (b : BistEng) : Bool :=
  b.scanSinceGrant && b.katSinceGrant = 127 && decide (b.passedSinceGrant.length = 913)

/-- FENCE_LIFT (R388, R392). -/
def bodyFenceLift : Body := fun s _ _ r =>
  if h : r.arg 0 1 < 6 then
    let e : EngId := ⟨r.arg 0 1, h⟩
    if ¬ r.form 4 [(1, 3)] then ends s stBadArg
    else if ¬ s.mayTest e then ends s stDenied
    else if ¬ s.eng[e].fenced ∨ ¬ s.bist.grants e then ends s stBusy
    else if ¬ s.eng[e].bist.proven then ends s stBistFail
    else
      let s := s.recordF (s.record 3 e.val 9 11 stOk none 0xFFFF 0 0)
      gives (s.updEng e fun g => { g with fenced := false, classification := 0, events30 := 0 })
  else ends s stBadArg

/-- FENCE_LIFT (R392). -/
def execFenceLift (t : Nat) (r : MbxReq) (s : State) : Host.Outcome State Fault Refusal :=
  .next (s.ring t 0x0904 r bodyFenceLift)

/-! Known-answer kernels and the margin sweep. -/

/-- The history record of an engine that a RECORD_SEQ names (R202). -/
def State.recordOf (s : State) (e : EngId) (seq : Nat) : Option HistRec :=
  if seq = 0 then none else s.hist.ring.find? fun x => x.sequence = seq && eventGroup x = e.val

/-- The engine that TEST_KAT or MARGIN_SWEEP names, where it may be tested: an unfenced engine of the partition, or one
under a grant with PARTITION 0 (R393). -/
def State.testEngine (s : State) (r : MbxReq) : Option (PartId × EngId) :=
  if h : r.arg 1 1 < 6 then
    let e : EngId := ⟨r.arg 1 1, h⟩
    if r.arg 0 1 = 0 then if s.bist.grants e then some (0, e) else none
    else match s.compOf (r.arg 0 1) with
      | none => none
      | some p => if s.owns p e ∧ ¬ s.eng[e].fenced then some (p, e) else none
  else none

/-- The DATA_CLASS whose operand sets a test uses (R202, R393). -/
def State.testClass (s : State) (e : EngId) (seq : Nat) : Byte := match s.recordOf e seq with
  | none => 0x1A
  | some x => x.dataClass

/-- TEST_KAT (R393): its first kernel is offered at once. -/
def bodyTestKat : Body := fun s m _ r =>
  let set : BitVec 7 := BitVec.ofNat 7 (r.arg 2 1)
  if ¬ r.form 16 [] ∨ r.arg 2 1 = 0 ∨ 128 ≤ r.arg 2 1 ∨ r.arg 3 1 = 0 ∨ r.arg 4 4 = 0 then ends s stBadArg
  else match s.testEngine r with
    | none => ends s stBadArg
    | some (p, e) =>
      if s.bist.sweeping e then ends s stNotReady
      else
        let todo := ((List.range 7).filter fun i => hasBit set i).flatMap fun i => List.replicate (r.arg 3 1) i
        let k : KatRun :=
          { mailbox := m, part := p, engine := e, budget := r.arg 4 4, dataClass := s.testClass e (r.arg 8 8)
            failing := BitVec.ofNat 7 r.aux, todo := todo }
        ((s.updBist fun b => { b with kats := b.kats ++ [k] }).katNext m s.now, none)

/-- TEST_KAT (R393): `res` holds the kernels whose outputs differ from their digests. -/
def execTestKat (t : Nat) (r : MbxReq) (res : KatResult) (s : State) : Host.Outcome State Fault Refusal :=
  .next (s.ring t 0x0900 { r with aux := res.failed.toNat } bodyTestKat)

/-- The points of a MARGIN_SWEEP (R202, R394), each with its supply and its least and greatest TJ: those of its range, and the record's bands, of
5 degC and of the 10 mV whose lowest value is set. -/
def State.sweepAt (s : State) (e : EngId) (r : MbxReq) : List (Nat × Int × Int) :=
  let lo := r.arg 4 2
  let step := r.arg 8 1
  (List.range ((r.arg 6 2 - lo) / step + 1)).map (fun i => (lo + step * i, sgn 16 (r.arg 10 2), sgn 16 (r.arg 12 2)))
    ++ match s.recordOf e (r.arg 16 8) with
      | none => []
      | some x => [(x.vddE / 10 * 10, x.tj / 20 * 20, x.tj / 20 * 20 + 19)]

/-- The point of a sweep with what it meets, which `extra` gives: TJ, the failing kernels, whether the band is never reached,
and the cycles until it is. A TJ outside the point's band is one that never reached it. -/
def sweepPointOf (extra : List Byte) (i : Nat) (p : Nat × Int × Int) : SweepPoint :=
  let b := (extra.drop (8 * i)).take 8
  let tj := sgn 16 (field b 0 2)
  { vdd := p.1, tj := field b 0 2, failed := BitVec.ofNat 7 (field b 2 1)
    skipped := field b 3 1 ≠ 0 || decide (900000000 < field b 4 4 ∨ tj < p.2.1 ∨ p.2.2 < tj), delay := field b 4 4 }

/-- MARGIN_SWEEP (R388, R394). -/
def bodyMarginSweep : Body := fun s m _ r =>
  let lo := r.arg 4 2
  let hi := r.arg 6 2
  let step := r.arg 8 1
  if ¬ r.form 24 [(9, 1), (14, 2)] ∨ r.arg 2 1 = 0 ∨ 128 ≤ r.arg 2 1 ∨ 1 < r.arg 3 1 ∨ lo < 690 ∨ 810 < hi ∨ hi < lo ∨ step < 5
      ∨ 50 < step ∨ 64 < (hi - lo) / step + 1 ∨ 380 < sgn 16 (r.arg 12 2) ∨ sgn 16 (r.arg 12 2) < sgn 16 (r.arg 10 2) then
    ends s stBadArg
  else match s.testEngine r with
    | none => ends s stBadArg
    | some (p, e) =>
      let l := s.sweepAt e r
      let outside : Bool := r.arg 3 1 = 1 || l.any fun x => decide (x.1 < 728 ∨ 772 < x.1)
      if outside ∧ (p ≠ 0 ∨ ¬ s.mayTest e) then ends s stDenied
      else if s.bist.sweeping e then ends s stBusy
      else
        let w : Sweep :=
          { mailbox := m, part := p, engine := e, set := BitVec.ofNat 7 (r.arg 2 1), fast := r.arg 3 1 = 1
            dataClass := s.testClass e (r.arg 16 8), acceptedAt := s.now
            points := l.zipIdx.map fun x => sweepPointOf r.extra x.2 x.1 }
        (s.updBist fun b => { b with sweeps := b.sweeps ++ [w] }, none)

/-- MARGIN_SWEEP (R394). -/
def execMarginSweep (t : Nat) (r : MbxReq) (s : State) : Host.Outcome State Fault Refusal :=
  .next (s.ring t 0x0902 r bodyMarginSweep)

end Sys2Proof.Machine
end

