-- ==== Sys2Proof/Machine/Filter.lean ====
section
/-! DEFINITION. Ingress filter programs (R258, R259, Table 10.9). -/

namespace Sys2Proof.Machine

/-- What a filter program decides. -/
inductive FilterEnd where
  | pass | drop | deadLetter | steer (chan : ChanId)
  deriving DecidableEq, Repr

/-- The end that RET names. -/
def filterRet (k : Nat) : FilterEnd :=
  match k % 256 with
  | 0 => .pass
  | 2 => .deadLetter
  | 3 => .steer ⟨k / 256 % 16, by omega⟩
  | _ => .drop

/-- A load of `n` bytes at `k` of a block; none beyond its end. -/
def filterLoad (bs : List Byte) (k n : Nat) : Option Nat := if bs.length < k + n then none else some (field bs k n)

/-- A program run from its current instruction on, with register A; `n` bounds the instructions (R258). -/
def filterGo (hdr payload : List Byte) : Nat → List Dword → Nat → FilterEnd
  | 0, _, _ => .drop
  | _ + 1, [], _ => .drop
  | n + 1, x :: rest, a =>
    let v := x.toNat
    let k := bitsOf v 63 32
    let jump := fun (c : Bool) => filterGo hdr payload n (rest.drop (if c then bitsOf v 23 16 else bitsOf v 31 24)) a
    match bitsOf v 7 0 with
    | 1 => match filterLoad hdr k (2 ^ bitsOf v 9 8) with
      | none => .drop
      | some y => filterGo hdr payload n rest y
    | 2 => match filterLoad payload k (2 ^ bitsOf v 9 8) with
      | none => .drop
      | some y => filterGo hdr payload n rest y
    | 3 => filterGo hdr payload n rest (a &&& k)
    | 4 => jump (a = k)
    | 5 => jump (decide (k < a))
    | 6 => jump (decide (k ≤ a))
    | 7 => jump (a &&& k ≠ 0)
    | 8 => filterRet k
    | _ => .drop

/-- The filter program of a port run on a packet (R258). -/
def State.filter (s : State) (port : PortId) (op : Byte) (p : Packet) : FilterEnd :=
  let prog := match s.fab.plan with
    | none => []
    | some q => portProgram q.filters (s.planPort port.val)
  filterGo (headerBytes op p) p.payload 64 prog 0

/-- A frame handed to an SMS channel (R259, R352): one that finds the inbox full is discarded and counted. -/
def State.steer (s : State) (c : ChanId) (port : PortId) (bs : List Byte) : State :=
  s.updSms fun m =>
    let x := m.chans[c]
    let x := if 64 ≤ x.inbox.length then { x with bad := x.bad + 1 }
      else { x with inbox := x.inbox ++ [{ port := port.val, postmark := s.now, bytes := bs }] }
    { m with chans := m.chans.set c x }

end Sys2Proof.Machine
end

