-- ==== Sys2Proof/Machine/Packets.lean ====
section
/-! DEFINITION. Courier packets as they arrive: the ingress checks, the operations, staging in envelopes, and job triggers (R26,
R49, R51, R97-R99, R191, R242-R257, R262-R278, R309, R452, Tables 10.4, 10.5, 10.8). -/

namespace Sys2Proof.Machine

/-! Checks 1 to 7. -/

/-- Bytes that an operation reads or writes at its target. -/
def opSpan (op : Byte) (p : Packet) : Nat :=
  if op = 6 then 0 else if op = 3 then p.arg.toNat else if op = 4 ∨ op = 5 then 8 else p.payload.length

/-- The LENGTH that an operation may have (Table 10.5). -/
def lengthOk (op : Byte) (n : Nat) : Bool :=
  if op = 1 ∨ op = 2 then decide (1 ≤ n ∧ n ≤ 4096) else if op = 4 then n = 8 else if op = 5 then n = 16
  else if op = 0x20 then decide (1 ≤ n ∧ n ≤ 256) else n = 0

/-- Whether OP, LENGTH, alignment and reserved fields are valid, and the operation is allowed for the context's kind (check 7,
Tables 10.4, 10.5, R243, R265). -/
def formOk (c : Ctx) (op : Byte) (p : Packet) : Bool :=
  let noted : Bool := op = 2 || op = 6
  let known : Bool := [1, 2, 3, 4, 5, 6, 0x10, 0x11, 0x12, 0x13, 0x20].contains op.toNat
  known && p.length.toNat = p.payload.length && lengthOk op p.payload.length && p.flags.toNat < 8 && hasBit p.flags 1 = c.clear
    && p.rsvd23 = 0 && p.rsvd38 = 0
    && (if noted then p.notifyPgh ≠ 0xFFFF && p.notifyAdd ≠ 0 else p.notifyPgh = 0xFFFF && p.notifyAdd = 0)
    && (op ≠ 3 || decide (1 ≤ p.arg.toNat ∧ p.arg.toNat ≤ 4096))
    && (!(op = 4 || op = 5) || p.offset.toNat % 8 = 0)
    && (!(op = 3 || op = 6 || op = 0x20 || op = 0x10) || p.env = 0xFFFF)
    && (if op = 0x20 then c.clear && c.filter else !c.clear)

/-- The counter of a drop advanced by one, holding at 0xFF (Table 10.16). -/
def State.dropPkt (s : State) (port : PortId) (check : Nat) : State :=
  s.updPort (portLink port) fun q =>
    match check with
    | 1 => { q with dropCrc := bump 8 q.dropCrc 1 }
    | 4 => { q with dropAuth := bump 8 q.dropAuth 1 }
    | 5 => { q with dropReplay := bump 8 q.dropReplay 1 }
    | _ => { q with dropOverrun := bump 8 q.dropOverrun 1 }

/-- The open context that a packet on a port names: a context that is being closed is unknown (R248). -/
def State.linkCtx (s : State) (port : PortId) (link : Half) : Option Ctx :=
  match s.ctx? link with
  | none => none
  | some c =>
    if c.port ≠ port ∨ s.host.resets.any fun r => r.isClose && decide (r.func = .context c.part c.num) then none else some c

/-- Check 4: the packet with its plaintext, where its key epoch is installed and its tag verifies, or where it has the clear form (R242,
Table 10.8). -/
def authentic (c : Ctx) (op : Byte) (p : Packet) : Option Packet :=
  if c.clear then (if hasBit p.flags 1 ∧ p.epoch = 0 ∧ p.gcmTag = 0 then some p else none)
  else match c.key.installed.find? fun k => k.1 = p.epoch.toNat with
    | none => none
    | some k => (gcmOpen k.2 (packetNonce 0 p) (headerBytes op p) p.payload (natLe p.gcmTag.toNat 16)).map fun bs => { p with payload := bs }

/-- The last PKT_SEQ accepted under an epoch. -/
def Ctx.lastRx (c : Ctx) (epoch : Half) : Nat := ((assoc epoch.toNat c.rx).getD 0).toNat

/-! Checks 8 to 13. -/

/-- Where an operation goes. -/
structure Target where
  space : EnvSpace
  addr : Nat
  deriving DecidableEq, Repr

/-- The right that an operation needs (Table 10.5). -/
def rightOf (op : Byte) : Nat := if op = 3 then 0 else if op = 4 ∨ op = 5 then 2 else 1

/-- Whether a pigeonhole lies in some PGH window of a context (R244). -/
def State.pghGranted (s : State) (c : Ctx) (n : Nat) : Bool :=
  s.fab.wins.any fun w => w.part = c.part && w.ctx = c.num && w.kind = .pgh && w.revoking.isNone && decide (w.base ≤ n ∧ n < w.base + w.length)

/-- Why the memory of a target takes no access: its engine is fenced or absent, being reset, or a controller is fenced
(check 12, R233, R250, R455). -/
def State.targetBar (s : State) (part : PartId) (t : Target) (n : Nat) : Option Status :=
  match t.space with
  | .lpddr => if s.lpFenced t.addr n then some stFenced else none
  | x => match s.spaceEngine part x with
    | none => some stFenced
    | some e => if s.resetting (.engine e) then some stNotReady else none

/-- Checks 9 to 12: the target, or the status that refuses the operation with whether it is a dead letter. -/
def State.target (s : State) (c : Ctx) (op : Byte) (p : Packet) : Except (Status × Bool) Target :=
  match s.win? p.window.toNat with
  | none => .error (stNoWindow, true)
  | some w =>
    if w.part ≠ c.part ∨ w.ctx ≠ c.num then .error (stNoWindow, true)
    else if (op = 2 ∨ op = 6) ∧ ¬ s.pghGranted c p.notifyPgh.toNat then .error (stNoWindow, true)
    else if op = 6 then
      if w.kind ≠ .pgh then .error (stNoWindow, true)
      else if ¬ (w.base ≤ p.notifyPgh.toNat ∧ p.notifyPgh.toNat < w.base + w.length) then .error (stOutOfBounds, true)
      else .ok ⟨.lpddr, 0⟩
    else if ¬ hasBit w.rights (rightOf op) then .error (stDenied, true)
    else if w.length < p.offset.toNat + opSpan op p then .error (stOutOfBounds, true)
    else
      let t : Target := if w.kind = .act then ⟨.act w.logical, 64 * w.base + p.offset.toNat⟩ else ⟨.lpddr, w.base + p.offset.toNat⟩
      match s.targetBar c.part t (opSpan op p) with
      | some st => .error (st, st = stFenced)
      | none => .ok t

/-- The byte tokens of a request: one for each 64 bytes (R257). -/
def byteTokens (op : Byte) (p : Packet) : Nat := ceilDiv (if op = 3 then p.arg.toNat else p.length.toNat) 64

/-- The tokens of a request taken, where both buckets hold enough (R257). -/
def Ctx.takeTokens (c : Ctx) (op : Byte) (p : Packet) : Option Ctx :=
  let n := byteTokens op p
  if (c.opsRate ≠ 0 ∧ c.opsTok = 0) ∨ (c.bytesRate ≠ 0 ∧ c.bytesTok < n) then none
  else some { c with opsTok := if c.opsRate = 0 then c.opsTok else c.opsTok - 1
                     bytesTok := if c.bytesRate = 0 then c.bytesTok else c.bytesTok - n }

/-! Operations on memory (Table 10.5). -/

/-- The old word and the new one of an atomic. -/
def atomicOp (op : Byte) (data : List Byte) (old : Nat) : Nat :=
  if op = 4 then (old + field data 0 8) % 2 ^ 64 else if old = field data 0 8 then field data 8 8 else old

/-- The memory that an operation reaches: the engine of its activation SRAM or, with none, the region (R250). -/
structure Place where
  engine : Option EngId
  part : PartId
  addr : Nat
  deriving DecidableEq, Repr

/-- Where an operation's memory is now; none where the partition has lost the engine that its window resolves to (R250). -/
def State.placeOf (s : State) (part : PartId) (t : Target) : Option Place :=
  match t.space with
  | .lpddr => some ⟨none, part, t.addr⟩
  | x => (s.spaceEngine part x).map fun e => ⟨some e, part, t.addr⟩

/-- The bytes of a place as an operation of this cycle finds them (R96). -/
def State.placeBytes (s : State) (w : Place) (n : Nat) : List Byte :=
  match w.engine with
  | some e => s.eng[e].sideGets s.now ((List.range n).map (w.addr + ·))
  | none => regionRead s.part[w.part] w.addr n

/-- Bytes put at a place, as they stood before or after an operation of this cycle (R254). -/
def State.putPlace (s : State) (w : Place) (bs : List Byte) : State :=
  match w.engine with
  | some e => s.updEng e fun g => { g with act := memWrite g.act w.addr bs }
  | none => s.updPart w.part fun q => regionWrite q w.addr bs

/-- A read of a place: its bytes, or the status that stands in their place (R98, R99, R191). -/
def State.readPlace (s : State) (w : Place) (n : Nat) (f : Flt) : State × (Status ⊕ List Byte) :=
  match w.engine with
  | some e =>
    let g := s.eng[e]
    if g.shadowHold s.now w.addr n then (s, .inl stCheckMismatch)
    else
      let s := s.corrected e true f.corrected
      match badPlace g f ((List.range n).map (w.addr + ·)) with
      | some (_, a) => (s.actUe e a none 0xFFFF, .inl stMemUncorrectable)
      | none => (s, .inr (s.placeBytes w n))
  | none => match f.uncorrectable.filter fun u => decide (w.addr / 512 ≤ u ∧ u ≤ (w.addr + n - 1) / 512) with
    | some unit => (s.event (80 + unit % 16) 7 6 stMemUncorrectable none 0xFFFF (BitVec.ofNat 32 unit)
        (onesClass (regionRead s.part[w.part] (512 * unit) 512)), .inl stMemUncorrectable)
    | none => (s, .inr (s.placeBytes w n))

/-- A write of a place; false where an uncorrectable word is only partly covered (R97). -/
def State.writePlace (s : State) (w : Place) (bs : List Byte) (f : Flt) : State × Bool :=
  match w.engine with
  | some e => s.sideWrite e w.addr bs f
  | none => (s.updPart w.part fun q => regionWrite q w.addr bs, true)

/-- The data part of an operation at its place, with its status and response payload. -/
def State.moveData (s : State) (op : Byte) (p : Packet) (w : Place) (f : Flt) : State × Status × List Byte :=
  if op = 1 ∨ op = 2 then
    let (s, ok) := s.writePlace w p.payload f
    (s, if ok then stOk else stMemUncorrectable, [])
  else if op = 6 then (s, stOk, [])
  else match s.readPlace w (opSpan op p) f with
    | (s, .inl st) => (s, st, [])
    | (s, .inr bs) =>
      if op = 3 then (s, stOk, bs)
      else ((s.writePlace w (natLe (atomicOp op p.payload (leNat bs)) 8) {}).1, stOk, bs)

/-! Two ports on one word in one cycle (R254). -/

/-- The bytes that an operation of a port leaves at its place, from what it finds there. -/
def PortOp.after (o : PortOp) (old : List Byte) : List Byte :=
  if o.op = 1 ∨ o.op = 2 then o.data else if o.op = 3 then old else natLe (atomicOp o.op o.data (leNat old)) 8

/-- The response payload of an operation that finds `old`. -/
def PortOp.answer (o : PortOp) (old : List Byte) : List Byte := if o.op = 1 ∨ o.op = 2 then [] else old

/-- Whether an operation of a higher-numbered port in this cycle addresses a word that an operation at a place addresses. -/
def PortOp.follows (o : PortOp) (port : PortId) (w : Place) (n : Nat) : Bool :=
  decide (port < o.port ∧ o.engine = w.engine ∧ o.part = w.part)
    && decide (o.addr / 8 ≤ (w.addr + n - 1) / 8 ∧ w.addr / 8 ≤ (o.addr + o.before.length - 1) / 8)

/-- The operations on memory that the Courier ports have carried out in this cycle, in the order in which they have taken effect. -/
def State.opsNow (s : State) : List PortOp := if s.fab.portOpsAt = s.now then s.fab.portOps else []

/-- An operation of a higher port carried out again after that of a lower one: its bytes, and the payload of its response where that is
still queued (R254). -/
def State.redo (s : State) (o : PortOp) : State :=
  let w : Place := ⟨o.engine, o.part, o.addr⟩
  let old := s.placeBytes w o.before.length
  let s := s.putPlace w (o.after old)
  let mine := fun (x : TxPkt) => decide (x.cls = .response ∧ x.op = responseOp o.op ∧ x.pkt.tag = o.tag ∧ x.part = o.part ∧ x.pkt.kvSeq = stOk)
  let s := s.updPort (portLink o.port) fun q =>
    { q with queue := updWhere mine (fun x => { x with pkt := { x.pkt with payload := o.answer old } }) q.queue }
  s.updFab fun b => { b with portOps := b.portOps.map fun y => if y = o then { o with before := old } else y }

/-- The data part of an operation of a port, ahead of what higher-numbered ports have done to its words in the same cycle (R254). -/
def State.orderedMove (s : State) (port : PortId) (op : Byte) (p : Packet) (w : Place) : State × Status × List Byte :=
  let n := opSpan op p
  if op = 6 then s.moveData op p w p.flt
  else
    let later := s.opsNow.filter fun o => o.follows port w n
    let s := later.reverse.foldl (fun s o => s.putPlace ⟨o.engine, o.part, o.addr⟩ o.before) s
    let before := s.placeBytes w n
    let (s, st, bs) := s.moveData op p w p.flt
    let mine : PortOp :=
      { port := port, op := op, tag := p.tag, engine := w.engine, part := w.part, addr := w.addr, data := p.payload, before := before }
    let all := (s.opsNow.filter fun o => decide (o.port ≤ port)) ++ [mine] ++ s.opsNow.filter fun o => decide (port < o.port)
    let s := if st = stOk then s.updFab fun b => { b with portOps := all, portOpsAt := s.now } else s
    (later.foldl State.redo s, st, bs)

/-- An operation carried out: its data, then its notify, then its answer and its credit (R254, R255). A job that it triggered
is released. One whose engine the partition has lost ends with ST_FENCED (R250). -/
def State.perform (s : State) (c : Ctx) (h : HeldPkt) : State :=
  let (s, st, bs) :=
    if h.ack then (s, stOk, if h.op = 4 ∨ h.op = 5 then natLe 0 8 else [])
    else match s.placeOf c.part ⟨h.space, h.addr⟩ with
      | none => (s, stFenced, [])
      | some w => s.orderedMove h.port h.op h.pkt w
  let s := match h.job with
    | some id => s.updJob id fun j => if j.released.isNone then { j with released := some (s.now + 9) } else j
    | none =>
      if st = stOk ∧ ¬ h.ack ∧ (h.op = 2 ∨ h.op = 6) then
        match s.pghIndex c.part h.pkt.notifyPgh.toNat with
        | none => s
        | some g => s.pghAdd g h.pkt.notifyAdd.toNat s.now
      else s
  let s := s.respond h.port c h.op h.pkt st 0 bs
  if h.credit then s.returnCredit c (creditBlocks h.pkt.payload.length) else s

/-- Whether an apply reaches one of some pages of activation SRAM. -/
def EnvApply.reaches (x : EnvApply) (e : EngId) (pages : List Nat) : Bool :=
  x.engine = e && pages.any fun pg => x.cells.any (fun c => c.1 / 4096 = pg) || x.atomics.any fun o => (pagesOf o.addr 8).contains pg

/-- The pages that an operation touches. -/
def HeldPkt.pages (h : HeldPkt) : List Nat := pagesOf h.addr (opSpan h.op h.pkt)

/-- Whether an operation has to wait (R254, R273, R278, R452): for a commit that its context has asked for before it; for a page whose apply was
pending when it passed its checks; a staging's acknowledgement for the copy-back of its page; a GET or an atomic on the region for an owned
slot in which no LDR or LDW is pending. -/
def State.mustWait (s : State) (c : Ctx) (h : HeldPkt) : Bool :=
  (h.behind.any fun x => (s.env? c.part x).isSome) ||
  match h.space with
  | .lpddr =>
    if h.ack then h.pages.any fun g => (assoc g s.part[c.part].shadow).isSome
    else (h.op = 3 || h.op = 4 || h.op = 5) && !s.lpNow c.part
  | x => match s.spaceEngine c.part x with
    | none => false
    | some e => s.env.applies.any fun a => decide (a.id < h.mark) && a.reaches e h.pages

/-- An operation as it passes its checks: what it comes behind. -/
def State.stamped (s : State) (c : Ctx) (h : HeldPkt) : HeldPkt :=
  { h with
    mark := s.env.nextApply
    behind := (s.env.opens.filter fun v => v.part = c.part && v.opener = some c.serial && v.asker.isSome).map Envelope.handle }

/-- An operation that has passed its checks: carried out, or held behind what waits (R254, R273; log entry 43). -/
def State.execOp (s : State) (c : Ctx) (h : HeldPkt) : State :=
  if ¬ c.held.isEmpty ∨ s.mustWait c h then
    s.updCtx c.link fun c =>
      { c with held := c.held ++ [h], heldBlocks := c.heldBlocks + creditBlocks h.pkt.payload.length }
  else s.perform c h

/-- The operations of a context that waited and can go on now, in order; `n` bounds them. -/
def State.drainCtx (s : State) (link : Half) : Nat → State
  | 0 => s
  | n + 1 => match s.ctx? link with
    | none => s
    | some c => match c.held with
      | [] => s
      | h :: rest =>
        if s.mustWait c h then s
        else
          let blocks := if h.credit then creditBlocks h.pkt.payload.length else 0
          let s := s.updCtx link fun c => { c with held := rest, heldBlocks := c.heldBlocks - blocks }
          (s.perform c h).drainCtx link n

/-- Every context's operations that can go on now. -/
def State.drainHeld (s : State) : State :=
  (s.fab.ctxs.filter fun c => !c.held.isEmpty).foldl (fun s c => s.drainCtx c.link c.held.length) s

/-! Staging (R265-R268). -/

/-- The staged form of an operation. -/
def stagedOp (op : Byte) (p : Packet) (port : PortId) (t : Target) : EnvOp :=
  { kind := if op = 4 then .fetchAdd else if op = 5 then .cas else .put, space := t.space, addr := t.addr, data := p.payload
    notify := if op = 2 then some (p.notifyPgh.toNat, p) else none, window := some p.window.toNat, port := port }

/-- Whether an operation asks to be staged: one that may be, with a handle. -/
def stages (op : Byte) (p : Packet) : Bool := (op = 1 || op = 2 || op = 4 || op = 5) && p.env ≠ 0xFFFF

/-- A refused staging dooms its envelope, where that still takes stagings (R267). -/
def State.doomPkt (s : State) (c : Ctx) (op : Byte) (p : Packet) (st : Status) : State :=
  if stages op p ∧ (s.stageGate c.part p.env (some c.serial)).isNone then s.doom c.part p.env st else s

/-- An operation refused at checks 7 to 14: its answer, its dead letter, its credit and its envelope's doom. A FRAME is never
answered (R243). -/
def State.rejectPkt (s : State) (port : PortId) (c : Ctx) (op : Byte) (p : Packet) (st : Status) (dead : Bool) (arg : Word := 0) :
    State :=
  let s := if op = 0x20 then s else s.refuseOp port c op p st arg
  let s := if dead then s.deadLetter c.part (headerBytes op p) st port.val false else s
  (s.doomPkt c op p st).returnCredit c (creditBlocks p.payload.length)

/-- An operation staged in its envelope and acknowledged, where the copy-back of its page is pending only after that (R265, R273). -/
def State.stagePkt (s : State) (port : PortId) (c : Ctx) (op : Byte) (p : Packet) (t : Target) : State :=
  match s.stageGate c.part p.env (some c.serial) with
  | some st => s.rejectPkt port c op p st false
  | none =>
    match s.addItem c.part p.env (.op (stagedOp op p port t)) p.payload.length with
    | .error st => s.rejectPkt port c op p st false
    | .ok s =>
      let h := s.stamped c { port := port, op := op, pkt := p, space := t.space, addr := t.addr, ack := true }
      (if s.mustWait c { h with behind := [] } then s.execOp c { h with behind := [] } else s.perform c h).twinForward 1

/-! Triggers (R49, R133, R252). -/

/-- The schedule that an operation triggers, if its notify names a trigger pigeonhole. -/
def State.pktTrigger (s : State) (c : Ctx) (op : Byte) (p : Packet) : Option Schedule :=
  if op = 2 ∨ op = 6 then s.trigger? c.part p.notifyPgh.toNat else none

/-- The offer of a partner's trigger: release offset 11, and the data kept for a re-run, of an LPDDR5X window too (R49, R195, R196). -/
def State.pktOffer (s : State) (port : PortId) (sch : Schedule) (op : Byte) (p : Packet) (t : Target) : Offer :=
  let keep : Option (Option Nat × Nat) := if op = 2 then (match t.space with
    | .act i => some (some i, t.addr)
    | .lpddr => some (none, t.addr)
    | .engine _ => none) else none
  { s.offerOf sch s.now 11 p.arg.toNat p.kvSeq.toNat (.fabric port p.link p.tag op (hasBit p.flags 0)) with
    kept := if keep.isSome then p.payload else [], keptAct := keep }

/-- An operation that has passed check 13: staged, or a trigger under check 14, or carried out. A refusal carries the predicted finish less t0
modulo 2^32 (DESIGN CHOICE, log entry 77). -/
def State.takePkt (s : State) (port : PortId) (c : Ctx) (op : Byte) (p : Packet) (t : Target) : State :=
  if stages op p then s.stagePkt port c op p t
  else
    let h := s.stamped c { port := port, op := op, pkt := p, space := t.space, addr := t.addr }
    match s.pktTrigger c op p with
    | none => (s.execOp c h).twinForward 1
    | some sch =>
      if p.notifyAdd ≠ 1 then s.rejectPkt port c op p stBadArg false
      else match s.triggerGate sch with
        | some st => s.rejectPkt port c op p st false
        | none =>
          let waits : Bool := !c.held.isEmpty || s.mustWait c h
          match s.takeJob (s.pktOffer port sch op p t) (if waits then none else some (s.now + 9)) with
          | .inl (s, st, k) => s.rejectPkt port c op p st false (BitVec.ofNat 32 k)
          | .inr (s, id) => (s.execOp c { h with job := some id }).twinForward 1

/-! Envelope operations (R262, R271, R276, R277). -/

/-- ENV_OPEN, ENV_COMMIT, ENV_ABORT and ENV_STATUS of a partner. -/
def State.envPkt (s : State) (port : PortId) (c : Ctx) (op : Byte) (p : Packet) : State :=
  let me := some c.serial
  let back := fun (s : State) => s.returnCredit c (creditBlocks p.payload.length)
  if op = 0x10 then
    match s.openEnv c.part me p.arg.toNat with
    | .error st => s.limitEvent.rejectPkt port c op p st false
    | .ok (s, h) => (back (s.respond port c op p stOk (BitVec.ofNat 32 h.toNat))).twinForward 1
  else if op = 0x11 then
    match s.askCommit c.part p.env me (.packet port p) with
    | .error st => s.rejectPkt port c op p st false
    | .ok s => (back s).twinForward 1
  else if op = 0x12 then
    match s.askAbort c.part p.env me (.packet port p) with
    | .error st => s.rejectPkt port c op p st false
    | .ok s => (back s).twinForward 1
  else back (s.respond port c op p stOk (BitVec.ofNat 32 (s.envWord c.part p.env me).1))

/-! A packet. -/

/-- Checks 8 to 14 and what follows them; a partition that R326 leaves to be restored answers ST_NOT_READY. -/
def State.servePkt (s : State) (port : PortId) (c : Ctx) (op : Byte) (p : Packet) : State :=
  if s.isStandby ∨ s.twin.role = .gaveUp then s.rejectPkt port c op p stTwinStandby false
  else if ¬ s.inService ∨ s.part[c.part].dissolving.isSome ∨ s.resetting (.context c.part c.num) ∨ hasBit s.twin.lost c.part.val then
    s.rejectPkt port c op p stNotReady false
  else
    let memory : Bool := op.toNat ≤ 6
    match if memory then s.target c op p else .ok ⟨.lpddr, 0⟩ with
    | .error (st, dead) => s.rejectPkt port c op p st dead
    | .ok t => match c.takeTokens op p with
      | none => s.rejectPkt port c op p stRefusedQuota false
      | some c' =>
        let s := s.updCtx c.link fun _ => c'
        if memory then s.takePkt port c' op p t else s.envPkt port c' op p

/-- Check 7 and the filter program (R253, R258). -/
def State.filterPkt (s : State) (port : PortId) (c : Ctx) (op : Byte) (p : Packet) : State :=
  let back := fun (s : State) => s.returnCredit c (creditBlocks p.payload.length)
  if ¬ formOk c op p then s.rejectPkt port c op p stBadArg true
  else if ¬ c.filter then s.servePkt port c op p
  else match s.filter port op p with
    | .pass => if c.clear then back s else s.servePkt port c op p
    | .drop => back s
    | .deadLetter => back (s.deadLetter c.part (headerBytes op p) stDenied port.val false)
    | .steer k => if c.clear ∧ c.part = 0 then back (s.steer k port p.payload) else back s

/-- Checks 3 to 6 on a packet of an open context, whose payload is then the plaintext; a response takes no credit (R243). A packet under a retired epoch of a
partition that dissolves makes its entry in ring 0 (R300). -/
def State.authPkt (s : State) (port : PortId) (c : Ctx) (op : Byte) (p : Packet) (free : Bool) : Except State (State × Ctx × Packet) :=
  if ¬ c.clear ∧ c.key.retired ≠ 0 ∧ p.epoch.toNat ≤ c.key.retired then
    let ring : PartId := if s.part[c.part].dissolving.isSome then 0 else c.part
    .error ((s.updSec fun x => { x with event := setBit x.event 3 }).deadLetter ring (headerBytes op p) stKeyEpochRetired
      port.val false)
  else match authentic c op p with
  | none => .error (s.dropPkt port 4)
  | some p =>
  if ¬ c.clear ∧ p.pktSeq.toNat ≤ c.lastRx p.epoch then .error (s.dropPkt port 5)
  else if ¬ free ∧ c.creditBlocks < c.heldBlocks + creditBlocks p.payload.length then .error (s.dropPkt port 6)
  else
    let c := if c.clear then c else { c with rx := assocSet p.epoch.toNat p.pktSeq c.rx }
    .ok (s.updCtx c.link fun _ => c, c, p)

/-- The clear response of check 2; a FRAME is never answered (R243). -/
def State.clearAnswer (s : State) (port : PortId) (op : Byte) (p : Packet) (st : Status) : State :=
  if op = 0x20 then s else s.clearResponse port op p st

/-- Checks 1 and 2: the packet's context, or what becomes of the packet without one. A port that is down gets nothing. -/
def State.openPkt (s : State) (port : PortId) (op : Byte) (p : Packet) : Except State Ctx :=
  let q := s.fab.ports[portLink port]
  if q.state ≠ .locked ∧ q.state ≠ .openPort ∧ q.state ≠ .fencedId then .error s
  else if s.pwr.ejectAt.isSome then .error s
  else if p.crc.toNat ≠ packetCrc op p then .error (s.dropPkt port 1)
  else if q.state = .fencedId then .error (s.clearAnswer port op p stFenced)
  else if q.state = .locked ∨ s.resetting (.port port) then .error (s.clearAnswer port op p stNotReady)
  else match s.linkCtx port p.link with
    | none => .error (s.clearAnswer port op p stNotReady)
    | some c => .ok c

/-- A block of a packet or a control block has arrived on a port (R238). -/
def State.heard (s : State) (port : LinkId) : State := s.updPort port fun q => { q with lastBlock := s.now, uncorrRun := 0 }

/-- A request arrives (R253). Its first byte is the OP of its row, or a reserved one that the packet carries instead. -/
def State.packetIn (s : State) (t : Nat) (port : PortId) (op : Byte) (p : Packet) : State :=
  let op := p.opCode.getD op
  let s := ((s.advance t).heard (portLink port)).drainHeld
  match s.openPkt port op p with
  | .error s => s
  | .ok c => match s.authPkt port c op p false with
    | .error s => s
    | .ok (s, c, p) => s.filterPkt port c op p

/-- PUT (Table 10.5). -/
def execPut (t : Nat) (port : PortId) (p : Packet) (s : State) : Host.Outcome State Fault Refusal := .next (s.packetIn t port 1 p)

/-- PUT_NOTIFY (Table 10.5). -/
def execPutNotify (t : Nat) (port : PortId) (p : Packet) (s : State) : Host.Outcome State Fault Refusal :=
  .next (s.packetIn t port 2 p)

/-- GET (Table 10.5). -/
def execGet (t : Nat) (port : PortId) (p : Packet) (f : Flt) (s : State) : Host.Outcome State Fault Refusal :=
  .next (s.packetIn t port 3 { p with flt := f })

/-- FETCH_ADD (Table 10.5). -/
def execFetchAdd (t : Nat) (port : PortId) (p : Packet) (s : State) : Host.Outcome State Fault Refusal :=
  .next (s.packetIn t port 4 p)

/-- CAS (Table 10.5). -/
def execCas (t : Nat) (port : PortId) (p : Packet) (s : State) : Host.Outcome State Fault Refusal := .next (s.packetIn t port 5 p)

/-- NOTIFY (Table 10.5). -/
def execNotify (t : Nat) (port : PortId) (p : Packet) (s : State) : Host.Outcome State Fault Refusal :=
  .next (s.packetIn t port 6 p)

/-- ENV_OPEN of a partner (R262). -/
def execEnvOpenOp (t : Nat) (port : PortId) (p : Packet) (s : State) : Host.Outcome State Fault Refusal :=
  .next (s.packetIn t port 0x10 p)

/-- ENV_COMMIT of a partner (R271). -/
def execEnvCommitOp (t : Nat) (port : PortId) (p : Packet) (s : State) : Host.Outcome State Fault Refusal :=
  .next (s.packetIn t port 0x11 p)

/-- ENV_ABORT of a partner (R276). -/
def execEnvAbortOp (t : Nat) (port : PortId) (p : Packet) (s : State) : Host.Outcome State Fault Refusal :=
  .next (s.packetIn t port 0x12 p)

/-- ENV_STATUS of a partner (R277). -/
def execEnvStatusOp (t : Nat) (port : PortId) (p : Packet) (s : State) : Host.Outcome State Fault Refusal :=
  .next (s.packetIn t port 0x13 p)

/-- FRAME (Table 10.5, R258). -/
def execFrame (t : Nat) (port : PortId) (p : Packet) (s : State) : Host.Outcome State Fault Refusal :=
  .next (s.packetIn t port 0x20 p)

/-! The apply and the copy-back of a committed envelope (R273-R275). -/

/-- The masked bytes of one 8-byte word written through the side port: whole where the mask covers it (R97). -/
def State.applyWord (s : State) (e : EngId) (cs : List Host.Cell) (w : Nat) (f : Flt) : State :=
  let mine := cs.filter fun c => c.1 / 8 = w
  if mine.length = 8 then (s.sideWrite e (8 * w) (mine.map Prod.snd)).1
  else
    let f : Flt := { f with corrected := 0 }
    mine.foldl (fun s c => (s.sideWrite e c.1 [c.2] f).1) s

/-- The apply of a commit on an engine carried out: the masked bytes, the atomics in staging order, the preload tiles. The words that merges
and atomics read are corrected, or found uncorrectable, as the environment has it (R98, R99). -/
def State.applyEnv (s : State) (a : EnvApply) (f : Flt) : State :=
  let s := (a.cells.map fun c => c.1 / 8).eraseDups.foldl (fun s w => s.applyWord a.engine a.cells w f) s
  let s := if partWordsOf a.cells = 0 ∧ a.atomics.isEmpty then s else s.corrected a.engine true f.corrected
  let s := a.atomics.foldl (fun s o => s.actAtomic a.part a.handle a.engine o f) s
  let s := s.loadPreloads a.engine
  (s.updEnv fun u => { u with applies := u.applies.filter fun x => x.id ≠ a.id }).flushNotes a.group

/-- Whether an operation that passed its checks by the commit of an apply still waits to reach one of its pages (R278). -/
def State.aheadOf (s : State) (a : EnvApply) : Bool :=
  s.fab.ctxs.any fun c => c.part = a.part && c.held.any fun h =>
    !h.ack && decide (h.mark ≤ a.id) && s.spaceEngine c.part h.space == some a.engine && a.reaches a.engine h.pages

/-- ENV_APPLY (R273, R278): the first apply of an engine, once no job admitted before its commit runs or waits and what is ordered before it has
landed; then the window operations that waited for its pages. -/
def execEnvApply (t : Nat) (e : EngId) (f : Flt) (s : State) : Host.Outcome State Fault Refusal :=
  let s := s.advance t
  .next (match s.env.applies.find? fun a => a.engine = e with
    | none => s
    | some a =>
      if (s.jobs.any fun j => a.waitJobs.contains j.id && j.counting.contains e) ∨ s.aheadOf a then s
      else (s.applyEnv a f).drainHeld)

/-- ENV_COPY_BACK (R273, R452): the masked bytes of the redirected pages of a partition go to their pages, the redirects end, and what waited for
that goes on. It takes slot 0, or an owned slot in which no LDR or LDW is pending; a write ends 100 cycles after its slot's start (R33). -/
def execEnvCopyBack (t : Nat) (p : PartId) (s : State) : Host.Outcome State Fault Refusal :=
  let s := s.advance t
  .next (if ¬ s.lpServed p 100 ∧ s.frameTime % 1024 < 100 then s
    else (s.updPart p fun q => { q with region := memPut q.region (q.shadow.flatMap Prod.snd), shadow := [] }).drainHeld)

/-! The commit cycle. -/

/-- What waits for a slot alone and is ordered before a commit, carried out ahead of it (R278). -/
def State.landFirst (s : State) (p : PartId) : State :=
  let slots := s.fab.lpFree
  let s := s.updFab fun b => { b with lpFree := (p, s.now) :: b.lpFree }
  let s := (s.fab.ctxs.filter fun c => c.part = p && !c.held.isEmpty).foldl (fun s c => s.drainCtx c.link c.held.length) s
  s.updFab fun b => { b with lpFree := slots }

/-- Whether a staging of an envelope is still to be acknowledged (R271). -/
def State.stagingOpen (s : State) (v : Envelope) : Bool :=
  s.fab.ctxs.any fun c => c.part = v.part && c.held.any fun h => h.ack && h.pkt.env = v.handle

/-- ENV_COMMIT_CYCLE (R271, R278, R323): the commit cycle of an envelope whose ENV_COMMIT has been accepted and whose stagings are complete; with
a standby in step, once the PREPARE is acknowledged. A standby in step commits as its active has. -/
def execEnvCommitCycle (t : Nat) (p : PartId) (h : Half) (s : State) : Host.Outcome State Fault Refusal :=
  let s := s.advance t
  .next (match s.env? p h with
    | none => s
    | some v =>
      if v.asker.isNone ∨ s.isStandby ∨ (v.prepared.isSome ∧ ¬ v.acked ∧ s.hasStandby) ∨ s.stagingOpen v then s
      else
        let s := if v.state = .doomed then s else s.landFirst p
        (s.settleEnv v).drainHeld)

end Sys2Proof.Machine
end

