-- ==== Sys2Proof/Machine/Links.lean ====
section
/-! DEFINITION. The link layer: control blocks, link loss and retraining, egress, responses, time-outs and the token periods (R237-R239,
R243, R247, R253-R257, R314, R405, Tables 10.1, 10.11). -/

namespace Sys2Proof.Machine

/-! Link state (R238, R239). -/

/-- Whether the cabinet plan is the one of the slot (R239). -/
def State.planFits (s : State) : Bool := match s.fab.plan with
  | none => false
  | some p => p.slot = s.pwr.slotId && s.pwr.slotId ≠ 0xFFFF

/-- The far end of a port checked against the plan (R239): the port opens or is fenced. -/
def State.checkFarEnd (s : State) (port : LinkId) : State :=
  let q := s.fab.ports[port]
  let want := s.planPort port.val
  if ¬ s.inService ∨ ¬ s.planFits ∨ ¬ q.lock ∨ ¬ q.identSeen ∨ q.state ≠ .locked then s
  else s.updPort port fun q =>
    { q with state := if q.farId = want.farId ∧ q.farPort = want.farPort then .openPort else .fencedId }

/-- A port that has lost its link retrains; a standby in step leaves step where T0 is lost while the claim stands (R238, R318). -/
def State.linkLost (s : State) (port : LinkId) : State :=
  let s := (s.portDown port).updPort port fun q => { q with state := if q.state = .down then .training else q.state }
  if port = twinLink ∧ s.twin.claimIn then s.leaveStep else s

/-- Whether a port takes part in anything: its plan does not leave it unused. -/
def Port.used (q : Port) : Bool := q.state ≠ .unused

/-- IDENT (R237, R239): what the far end says it is. -/
def execIdent (t : Nat) (port : LinkId) (identity : Dword) (farPort : Byte) (s : State) : Host.Outcome State Fault Refusal :=
  let s := s.advance t
  .next (if ¬ s.fab.ports[port].used then s
    else ((s.heard port).updPort port fun q => { q with farId := identity, farPort := farPort, identSeen := true }).checkFarEnd port)

/-- IDLE (R237). -/
def execIdle (t : Nat) (port : LinkId) (s : State) : Host.Outcome State Fault Refusal :=
  let s := s.advance t
  .next (if s.fab.ports[port].used then s.heard port else s)

/-- Blocks of credit that the far end returns for a link of its own (R255): they are the context's that sends under that REMOTE_LINK. -/
def State.takeCredit (s : State) (port : LinkId) (link blocks : Half) : State :=
  match s.fab.ctxs.find? fun c => c.port.val = port.val && c.remoteLink = link with
  | none => s
  | some c => s.updCtx c.link fun c => { c with outCredit := c.outCredit + blocks.toNat }

/-- CREDIT (R255): the far end returns blocks for the contexts of up to five links. -/
def execCredit (t : Nat) (port : LinkId) (pairs : List (Half × Half)) (s : State) : Host.Outcome State Fault Refusal :=
  let s := s.advance t
  .next (if ¬ s.fab.ports[port].used then s
    else (pairs.take 5).foldl (fun s x => s.takeCredit port x.1 x.2) (s.heard port))

/-- DEPART (R410, Table 10.12): the far end leaves. -/
def execDepart (t : Nat) (port : LinkId) (s : State) : Host.Outcome State Fault Refusal :=
  let s := s.advance t
  .next (if s.fab.ports[port].used then (s.heard port).updPort port fun q => { q with departSeen := true } else s)

/-- BLOCK_LOCK_LOSS (R238). -/
def execBlockLockLoss (t : Nat) (port : LinkId) (s : State) : Host.Outcome State Fault Refusal :=
  let s := s.advance t
  .next (if s.fab.ports[port].lock then s.linkLost port else s)

/-- UNCORRECTABLE_CODEWORD (R238): the eighth in a row takes the port down. -/
def execUncorrectableCodeword (t : Nat) (port : LinkId) (s : State) : Host.Outcome State Fault Refusal :=
  let s := s.advance t
  .next (if ¬ s.fab.ports[port].lock then s
    else
      let s := s.updPort port fun q => { q with fecUncorr := bump 32 q.fecUncorr 1, uncorrRun := q.uncorrRun + 1 }
      if 8 ≤ s.fab.ports[port].uncorrRun then s.linkLost port else s)

/-- NO_BLOCK_TIMEOUT (R238): 9,000 cycles in which no block has arrived. -/
def execNoBlockTimeout (t : Nat) (port : LinkId) (s : State) : Host.Outcome State Fault Refusal :=
  let s := s.advance t
  .next (if s.fab.ports[port].lock ∧ s.fab.ports[port].lastBlock + 9000 ≤ s.now then s.linkLost port else s)

/-- A port in block lock: IDENT is the first block that it sends (R238). -/
def State.lockPort (s : State) (port : LinkId) : State :=
  let q := s.fab.ports[port]
  if ¬ q.used ∨ q.lock ∨ ¬ s.host.hpReady then s
  else s.updPort port fun q =>
    { q with lock := true, lastBlock := s.now, identSeen := false, departSeen := false
             state := if q.state = .fencedId then .fencedId else .locked
             blocks := [.ident s.sec.identity (BitVec.ofNat 8 port.val)], identAt := some s.now }

/-- RETRAIN_COMPLETE (R238): the port holds block lock. -/
def execRetrainComplete (t : Nat) (port : LinkId) (s : State) : Host.Outcome State Fault Refusal :=
  .next ((s.advance t).lockPort port)

/-- The control blocks that wait on a port sent, with more after them (R237). -/
def State.sendBlocks (s : State) (port : LinkId) (more : List TxBlock) : State :=
  s.updPort port fun q => { q with blocks := [], sentBlocks := q.blocks ++ more, lastSent := s.now }

/-- IDENT_SEND (R237): the module says what it is, first after block lock and every 90,000,000 cycles. -/
def execIdentSend (t : Nat) (port : LinkId) (s : State) : Host.Outcome State Fault Refusal :=
  let s := s.advance t
  let q := s.fab.ports[port]
  let mine := TxBlock.ident s.sec.identity (BitVec.ofNat 8 port.val)
  .next (if ¬ q.lock then s
    else if q.blocks.contains mine then s.sendBlocks port []
    else if q.identAt.all fun c => decide (c + 90000000 ≤ s.now) then
      (s.sendBlocks port [mine]).updPort port fun q => { q with identAt := some s.now }
    else s)

/-! Egress (R256). -/

/-- Whether an epoch of a context is used up: nothing more is sent on it until a new one is installed (R247). -/
def Ctx.spent (c : Ctx) : Bool := !c.clear && c.txEpoch = sendEpoch c && decide (0xFFFFFF00 ≤ c.tx.toNat)

/-- The class of a packet in the order of egress (R256). -/
def TxClass.rank : TxClass → Nat
  | .refusal => 0
  | .output => 1
  | .response => 2
  | .other => 3

/-- Whether a packet is a request that the module awaits an answer to. -/
def TxPkt.asks (x : TxPkt) : Bool := x.cls = .output || x.cls = .other

/-- Whether a packet may leave: the epoch of its context is not used up, at most 4,096 operations are outstanding, a packet that is no
job output finds credit, and an active's output lies within 8 of the last report acknowledged (R247, R255, R256, R314). -/
def State.maySend (s : State) (x : TxPkt) : Bool :=
  match x.ctx with
  | none => true
  | some l => match s.ctx? (BitVec.ofNat 16 l) with
    | none => !x.asks
    | some c =>
      !c.spent && (!x.asks || decide (s.fab.outstanding.length < 4096))
        && (x.cls ≠ .other || decide (creditBlocks x.pkt.payload.length ≤ c.outCredit))
        && (x.cls ≠ .output || !s.hasStandby || decide (x.pkt.outputSeq.toNat ≤ s.twin.acked[x.part] + 8))

/-- The packet that leaves next: of the first class that has one that may, the oldest (R256). -/
def State.nextTx (s : State) (q : Port) : Option TxPkt :=
  let able := q.queue.filter s.maySend
  (List.range 4).findSome? fun k => able.find? fun x => x.cls.rank = k

/-- Whether a packet is on the wire of a port. -/
def State.wireBusy (s : State) (q : Port) : Bool := match q.wire with
  | some (_, until') => decide (s.now < until')
  | none => false

/-- IDLE_SEND (R237): where no packet can leave and no other block is due, IDLE; the blocks that are due leave in its place. -/
def execIdleSend (t : Nat) (port : LinkId) (s : State) : Host.Outcome State Fault Refusal :=
  let s := s.advance t
  let q := s.fab.ports[port]
  .next (if ¬ q.lock ∨ s.wireBusy q then s
    else if ¬ q.blocks.isEmpty then s.sendBlocks port []
    else if (s.nextTx q).any fun x => q.state = .openPort || x.cls = .refusal then s
    else s.sendBlocks port [.idle])

/-- Cycles that a packet takes on the wire: 25 bytes a nanosecond (R241). -/
def wireCycles (payload : Nat) : Nat := ceilDiv (packetBytes payload * 9) 250

/-- The PKT_SEQ of the next packet of a context, and the context with it used (R247). -/
def Ctx.nextSeq (c : Ctx) : Word × Ctx :=
  let e := sendEpoch c
  let n : Word := if c.txEpoch = e then c.tx + 1 else 1
  (n, { c with tx := n, txEpoch := e })

/-- A packet as it goes on the wire: under a context, numbered in the newest epoch and sealed with its key; then its CRC-32C (R241, R242, R247). -/
def sealPkt (op : Byte) (c : Option Ctx) (p : Packet) : Packet :=
  let p : Packet := match c with
    | none => p
    | some c => match c.clear, c.key.installed with
      | false, k :: _ =>
        let p := { p with pktSeq := c.nextSeq.1, epoch := BitVec.ofNat 16 k.1 }
        let (ct, tag) := gcmSeal k.2 (packetNonce 1 p) (headerBytes op p) p.payload
        { p with payload := ct, gcmTag := BitVec.ofNat 128 (leNat tag) }
      | _, _ => p
  { p with crc := BitVec.ofNat 32 (packetCrc op p) }

/-- A packet put on the wire: its PKT_SEQ, its seal, its credit, what is awaited, and the end that a job's output has reached (R36, R242, R247,
R255, R256). -/
def State.launch (s : State) (port : PortId) (x : TxPkt) : State :=
  let c := x.ctx.bind fun l => s.ctx? (BitVec.ofNat 16 l)
  let x : TxPkt := { x with pkt := sealPkt x.op c x.pkt }
  let s := match c with
    | none => s
    | some c => s.updCtx c.link fun c =>
      let c : Ctx := if c.clear then c else c.nextSeq.2
      if x.cls = TxClass.other then { c with outCredit := c.outCredit - creditBlocks x.pkt.payload.length } else c
  let s := if x.asks then s.updFab fun b => { b with outstanding := b.outstanding ++
      [{ port := port, tag := x.pkt.tag, limit := s.now + ((c.map Ctx.timeout).getD 90000), op := x.op, pkt := x.pkt, part := x.part }] }
    else s
  let s := match x.job with
    | none => s
    | some id => s.updJob id fun j => { j with outEnd := max j.outEnd s.now }
  s.updPort (portLink port) fun q => { q with wire := some (x, s.now + wireCycles x.pkt.payload.length), lastSent := s.now, sentBlocks := q.blocks, blocks := [] }

/-- EGRESS_PACKET_START (R256): the port is open, no packet is on its wire, and the first of the queue's packets that may leave does.
A clear response also leaves a port that is locked or fenced. A module that has given up sends nothing (R317). -/
def execEgressPacketStart (t : Nat) (port : PortId) (s : State) : Host.Outcome State Fault Refusal :=
  let s := (s.advance t).drainHeld
  let q := s.fab.ports[portLink port]
  .next (if ¬ q.lock ∨ s.wireBusy q ∨ s.twin.role = .gaveUp then s
    else match s.nextTx q with
      | none => s
      | some x =>
        if q.state ≠ .openPort ∧ x.cls ≠ .refusal then s
        else (s.updPort (portLink port) fun q => { q with queue := q.queue.erase x }).launch port x)

/-! Responses (R256). -/

/-- The operation that a response answers: its TAG and OP, sent under the far end's link number given (R253; log entry 44). -/
def State.answers (s : State) (port : PortId) (op : Byte) (p : Packet) (link : Half) : Option OutOp :=
  s.fab.outstanding.find? fun o => o.port = port && o.tag = p.tag && op = responseOp o.op && o.pkt.link = link

/-- An operation that the module awaited has ended with a status (R256). -/
def State.endOp (s : State) (o : OutOp) (st : Status) : State :=
  let s := s.updFab fun b => { b with outstanding := b.outstanding.erase o }
  if st = stOk then s else s.deadLetter o.part (headerBytes o.op o.pkt) st o.port.val true

/-- RESPONSE (R243, R253, R256): a clear response of check 2 carries the request's own LINK; any other passes checks 2 to 5. One that answers nothing
is dropped. -/
def execResponse (t : Nat) (port : PortId) (op : Byte) (p : Packet) (s : State) : Host.Outcome State Fault Refusal :=
  let s := (s.advance t).heard (portLink port)
  .next (
    if s.fab.ports[portLink port].state ≠ .openPort ∨ s.pwr.ejectAt.isSome then s
    else if p.crc.toNat ≠ packetCrc op p then s.dropPkt port 1
    else match if hasBit p.flags 1 ∧ p.epoch = 0 then s.answers port op p p.link else none with
      | some o => s.endOp o p.kvSeq
      | none => match s.linkCtx port p.link with
        | none => s
        | some c => match s.authPkt port c op p true with
          | .error s => s
          | .ok (s, c, p) => match s.answers port op p c.remoteLink with
            | none => s
            | some o => s.endOp o p.kvSeq)

/-- REMOTE_TIMEOUT (R256): no response within the context's time. -/
def execRemoteTimeout (t : Nat) (port : PortId) (tag : Word) (s : State) : Host.Outcome State Fault Refusal :=
  let s := s.advance t
  .next (match s.fab.outstanding.find? fun o => o.port = port && o.tag = tag with
    | none => s
    | some o => if o.limit ≤ s.now then s.endOp o stRemoteTimeout else s)

/-! Periods (R257, R405). -/

/-- A context's buckets at the start of a period (R257). -/
def Ctx.refill (c : Ctx) : Ctx :=
  { c with
    opsTok := if c.opsRate = 0 then c.opsTok else min c.opsBurst (c.opsTok + c.opsRate)
    bytesTok := if c.bytesRate = 0 then c.bytesTok else min c.bytesBurst (c.bytesTok + c.bytesRate) }

/-- TOKEN_PERIOD (R257): the start of a 4,096-cycle period, once. -/
def execTokenPeriod (t : Nat) (s : State) : Host.Outcome State Fault Refusal :=
  let s := s.advance t
  .next (if s.frameTime % 4096 ≠ 0 ∨ s.fab.tokenAt = some s.now then s
    else s.updFab fun b => { b with ctxs := b.ctxs.map Ctx.refill, tokenAt := some s.now })

/-- REFUSAL_CAP_PERIOD (R405): every port may send 8 clear responses again. -/
def execRefusalCapPeriod (t : Nat) (s : State) : Host.Outcome State Fault Refusal :=
  let s := s.advance t
  .next (if s.now % 4096 ≠ 0 then s
    else s.updFab fun b => { b with ports := b.ports.map fun q => { q with clearLeft := 8 } })

end Sys2Proof.Machine
end

