-- ==== Sys2Proof/Machine/TwinCore.lean ====
section
/-! DEFINITION. The active's give-up (R317, Table 13.4). -/

namespace Sys2Proof.Machine

/-- The twin source of SAFE_STOP driven (R316). -/
def State.driveTwin (s : State) : State := s.updTwin fun t => { t with stop := driveStop t.stop s.now }

/-- An active with a standby in step gives up (R317): admission and emission stop, GIVEUP is sent, SAFE_STOP is driven and CLAIM_OUT
released. Without a standby in step nothing comes of it. -/
def State.giveUp (s : State) : State :=
  if ¬ s.hasStandby then s
  else ((s.twinSend 9).driveTwin).updTwin fun t =>
    { t with role := .gaveUp, claimOut := false, peerInStep := false, event := setBit t.event 0, unreported := [] }

end Sys2Proof.Machine
end

