-- ==== Sys2Proof/Machine/VidCmds.lean ====
section
/-! DEFINITION. Opening, closing and asking a video stream (R329, R332, R337, R342, R346, Tables 14.2, 14.3, 14.10). -/

namespace Sys2Proof.Machine

/-- The video slots that a partition owns (R330). -/
def State.vidOwned (s : State) (p : PartId) : List Nat := (List.range 16).filter fun i => hasBit s.part[p].vidSlots i

/-- Whether a pigeonhole of the number given is the partition's. -/
def State.ownPgh (s : State) (p : PartId) (n : Nat) : Bool := (s.pghIndex p n).isSome

/-- R_max of the tensor ring: the most rows of a band (R337). -/
def rMax (codec q : Nat) : Nat := ceilDiv (if codec = 1 then 64 else 16) q + 1

/-- The least SLOT_LINES of a stream (R337). -/
def slotLines (codec q pitch width : Nat) : Nat :=
  1 + rMax codec q * pitch + ceilDiv (width / 16 * (if codec = 1 then 4 else 1) * 16) 64

/-- Whether the arguments of VIDEO_DEC_OPEN lie in their ranges (Table 14.3). -/
def decRanges (r : MbxReq) : Bool :=
  decide (r.arg 1 1 ≤ 1 ∧ r.arg 2 1 ≤ 1 ∧ r.arg 3 1 < 8 ∧ 16 ≤ r.arg 4 2 ∧ r.arg 4 2 ≤ 4096 ∧ r.arg 4 2 % 16 = 0)
    && decide (16 ≤ r.arg 6 2 ∧ r.arg 6 2 ≤ 2304 ∧ r.arg 6 2 % 16 = 0 ∧ r.arg 12 4 % 512 = 0 ∧ 65536 ≤ r.arg 12 4)
    && decide (2 ≤ r.arg 16 1 ∧ r.arg 16 1 ≤ 32 ∧ r.arg 17 1 ≤ 1 ∧ r.arg 24 1 ≤ 5 ∧ r.arg 25 1 ≤ 2 ∧ r.arg 26 1 ≤ 3)
    && [1, 2, 4].contains (r.arg 27 1)
    && decide (r.arg 28 1 ≤ 1 ∧ 2 ≤ r.arg 29 1 ∧ r.arg 29 1 ≤ 16 ∧ r.arg 42 2 ≤ 4095)

/-- Whether the pigeonholes of VIDEO_DEC_OPEN are the partition's (R332, Table 14.3). -/
def State.decPghs (s : State) (p : PartId) (r : MbxReq) : Bool :=
  let out := bitAt (r.arg 3 1) 2
  s.ownPgh p (r.arg 18 2) && s.ownPgh p (r.arg 30 2) && s.ownPgh p (r.arg 44 2)
    && if out then s.ownPgh p (r.arg 20 2) && s.ownPgh p (r.arg 22 2) else r.arg 20 2 = 0xFFFF && r.arg 22 2 = 0xFFFF

/-- Whether the tensor ring of VIDEO_DEC_OPEN fits (R332, R337). -/
def decRing (r : MbxReq) : Bool :=
  let q := 2 ^ r.arg 25 1 * r.arg 27 1
  !bitAt (r.arg 3 1) 0 || decide (r.arg 32 4 + r.arg 29 1 * r.arg 36 4 ≤ 393216
    ∧ slotLines (r.arg 2 1) q (r.arg 40 2) (r.arg 4 2) ≤ r.arg 36 4)

/-- A stream opened under the lowest free number (log entry 10), with its answer and its area's header; its unit's domain
switches on (R399). -/
def State.openStream (s : State) (v : Stream) : Answer :=
  match firstFree (fun n => (s.stream? n).isNone) 36 with
  | none => ends s stBusy
  | some n =>
    let d := 139 + v.unit.val
    let s := if hasBit s.pwr.domains d ∨ s.pwr.ramping.contains d then s else s.updPwr fun p => { p with ramping := p.ramping ++ [d] }
    let s := s.updVid fun x => { x with streams := x.streams ++ [{ v with num := n }] }
    gives (s.vidHeader n) [BitVec.ofNat 8 n, 0, 0, 0]

/-- VIDEO_DEC_OPEN (R332). -/
def bodyVideoDecOpen : Body := fun s _ _ r =>
  match s.compOf (r.arg 0 1) with
  | none => ends s stBadArg
  | some p =>
    if h : r.arg 1 1 < 3 then
      let u : VidId := ⟨r.arg 1 1, h⟩
      let v : Stream := { num := 0, unit := u, part := p, args := r.args, freeBands := r.arg 29 1 }
      if ¬ r.form 48 [(46, 2)] ∨ ¬ decRanges r ∨ ¬ s.decPghs p r ∨ ¬ decRing r
          ∨ regionBytes s.part[p] < v.base + v.frameAt (r.arg 16 1)
          ∨ (bitAt (r.arg 3 1) 1 ∧ ¬ bitAt (r.arg 3 1) 0) then ends s stBadArg
      else if s.unitFenced (96 + u.val) then ends s stFenced
      else if s.resetting (.video u) then ends s stNotReady
      else if 16 ≤ (s.vid.streams.filter fun x => x.unit = u).length ∨ (s.vidOwned p).isEmpty then ends s stBusy
      else s.openStream v
    else ends s stBadArg

/-- VIDEO_DEC_OPEN (R332). -/
def execVideoDecOpen (t : Nat) (r : MbxReq) (s : State) : Host.Outcome State Fault Refusal :=
  .next (s.ring t 0x0600 r bodyVideoDecOpen)

/-- The blocks per picture of an encode stream. -/
def encBlocks (w h : Nat) : Nat := ceilDiv w 16 * ceilDiv h 16

/-- A sum of fractions, as numerator and denominator. -/
def fracSum : List (Nat × Nat) → Nat × Nat
  | [] => (0, 1)
  | (a, b) :: l =>
    let (c, d) := fracSum l
    (a * d + c * b, b * d)

/-- Whether the arguments of VIDEO_ENC_OPEN lie in their ranges (Tables 14.1, 14.10; a frame rate has no zero). -/
def encRanges (r : MbxReq) : Bool :=
  decide (r.arg 1 1 ≤ 1 ∧ r.arg 2 1 ≤ 1 ∧ r.arg 3 1 ≤ (if r.arg 1 1 = 0 then 51 else 153))
    && decide (64 ≤ r.arg 4 2 ∧ r.arg 4 2 ≤ 4096 ∧ r.arg 4 2 % 2 = 0 ∧ 64 ≤ r.arg 6 2 ∧ r.arg 6 2 ≤ 2304 ∧ r.arg 6 2 % 2 = 0)
    && decide (r.arg 10 2 ≠ 0 ∧ r.arg 24 2 ≠ 0 ∧ r.arg 26 1 ≤ r.arg 27 1 ∧ r.arg 27 1 ≤ 51 ∧ r.arg 32 4 % 512 = 0)
    && decide (16384 + r.arg 4 2 * r.arg 6 2 ≤ 2 * r.arg 16 4 ∧ r.arg 20 4 ≤ r.arg 16 4 ∧ r.arg 16 4 ≤ 4 * r.arg 32 4)

/-- Whether the encoder's capacity, in the slots that the partition owns, holds the streams given (R342). -/
def State.encFits (s : State) (p : PartId) (l : List Stream) : Bool :=
  let (n, d) := fracSum (l.map fun v => (encBlocks (v.arg 4 2) (v.arg 6 2) * v.arg 8 2, v.arg 10 2))
  decide (16 * n ≤ 1984375 * (s.vidOwned p).length * d)

/-- VIDEO_ENC_OPEN (R342). -/
def bodyVideoEncOpen : Body := fun s _ _ r =>
  match s.compOf (r.arg 0 1) with
  | none => ends s stBadArg
  | some p =>
    let v : Stream := { num := 0, unit := 2, part := p, args := r.args, encoding := true }
    let mine := s.vid.streams.filter fun x => x.encoding
    if ¬ r.form 48 [(42, 6)] ∨ ¬ encRanges r ∨ regionBytes s.part[p] < v.base + 0x1000 + r.arg 32 4
        ∨ ¬ (s.ownPgh p (r.arg 36 2) && s.ownPgh p (r.arg 38 2) && s.ownPgh p (r.arg 40 2)) then ends s stBadArg
    else if s.unitFenced 98 then ends s stFenced
    else if s.resetting (.video 2) then ends s stNotReady
    else if 4 ≤ mine.length ∨ (s.vidOwned p).isEmpty ∨ ¬ s.encFits p (v :: mine.filter fun x => x.part = p) then ends s stBusy
    else s.openStream v

/-- VIDEO_ENC_OPEN (R342). -/
def execVideoEncOpen (t : Nat) (r : MbxReq) (s : State) : Host.Outcome State Fault Refusal :=
  .next (s.ring t 0x0601 r bodyVideoEncOpen)

/-- VIDEO_CLOSE (R346): the stream ends with STATE 3, and its picture in progress with it. -/
def bodyVideoClose : Body := fun s _ _ r =>
  match s.stream? (r.arg 0 1) with
  | none => ends s stBadArg
  | some v =>
    if ¬ r.form 4 [(1, 3)] then ends s stBadArg
    else
      let s := (s.updStream v.num fun v => { v with state := 3, current := none }).vidHeader v.num
      let s := s.updVid fun x =>
        { x with streams := x.streams.filter fun w => w.num ≠ v.num, working := x.working.filter fun w => w.2 ≠ v.num }
      let d := 139 + v.unit.val
      if s.vid.streams.any fun w => w.unit = v.unit then gives s
      else gives (s.updPwr fun p =>
        { p with domains := p.domains &&& ~~~ BitVec.ofNat 162 (2 ^ d), ramping := p.ramping.erase d })

/-- VIDEO_CLOSE (R346). -/
def execVideoClose (t : Nat) (r : MbxReq) (s : State) : Host.Outcome State Fault Refusal :=
  .next (s.ring t 0x0602 r bodyVideoClose)

/-- VIDEO_QUERY (R346). -/
def bodyVideoQuery : Body := fun s _ _ r =>
  match s.stream? (r.arg 0 1) with
  | none => ends s stBadArg
  | some v =>
    if ¬ r.form 4 [(1, 3)] then ends s stBadArg
    else if s.vidBarred v 0 64 then ends s stFenced
    else gives s (s.vidGet v 0 64)

/-- VIDEO_QUERY (R346). -/
def execVideoQuery (t : Nat) (r : MbxReq) (s : State) : Host.Outcome State Fault Refusal :=
  .next (s.ring t 0x0603 r bodyVideoQuery)

end Sys2Proof.Machine
end

