-- ==== Sys2Proof/Machine/Power.lean ====
section
/-! DEFINITION. Power-up, start-up, domains, EJECT and the loss of power (R39, R101, R102, R201, R239, R283, R285, R298, R385, R396-R405,
R410-R413, R424, R433, R435, Tables 18.1-18.4). -/

namespace Sys2Proof.Machine

/-! Supply. -/

/-- Whether any of the tray is powered. -/
def State.powerOn (s : State) : Bool := s.pwr.phase ≠ .unpowered

/-- POWER_UP (R396, R398, R409): the power stage starts, and the postmark is 0 at power-good. A tray that is not there, or an EPO
asserted, undoes the latch of a thermal trip. -/
def execPowerUp (t : Nat) (c : PowerUpCond) (s : State) : Host.Outcome State Fault Refusal :=
  let s := s.advance t
  .next (if s.powerOn then s
    else if c.epo ∨ ¬ c.present then s.updPwr fun p => { p with vin := c.vin, epo := c.epo, latchedOpen := false }
    else if s.pwr.latchedOpen ∨ ¬ c.heldOneSecond ∨ c.vin.toNat < 4800 ∨ 6000 < c.vin.toNat then
      s.updPwr fun p => { p with vin := c.vin }
    else { s.wiped { phase := .starting, vin := c.vin, poweredS := s.pwr.poweredS } s.sms.unpowered with now := 0 })

/-- CLOCK_SOURCE_SELECT (R400): the root PLL takes the reference or the fallback oscillator and locks, which is power-good. -/
def execClockSourceSelect (t : Nat) (inRange : Bool) (s : State) : Host.Outcome State Fault Refusal :=
  let s := s.advance t
  .next (if s.pwr.phase ≠ .starting then s
    else { s.updPwr fun p => { p with source := !inRange, rootLocked := true, domains := alwaysOn } with now := 0 })

/-- REF_LOST (R401): holdover; the module serves on. -/
def execRefLost (t : Nat) (s : State) : Host.Outcome State Fault Refusal :=
  let s := s.advance t
  .next (if s.powerOn then s.updPwr fun p => { p with refLost := true } else s)

/-- UV_WARN (R397). -/
def execUvWarn (t : Nat) (vin : Half) (s : State) : Host.Outcome State Fault Refusal :=
  let s := s.advance t
  .next (if ¬ s.powerOn ∨ 4700 ≤ vin.toNat then s
    else s.updPwr fun p => { p with vin := vin, event := setBit p.event 0 })

/-- OVERVOLTAGE (R397): the input protection opens the power stage. -/
def execOvervoltage (t : Nat) (vin : Half) (s : State) : Host.Outcome State Fault Refusal :=
  let s := s.advance t
  .next (if vin.toNat ≤ 6200 then s else (s.updPwr fun p => { p with vin := vin }).cutPower false)

/-- EPO (R411, R433). It undoes the latch of a thermal trip once released (R409). -/
def execEpo (t : Nat) (s : State) : Host.Outcome State Fault Refusal :=
  let s := (s.advance t).cutPower false
  .next (s.updPwr fun p => { p with epo := true, latchedOpen := false })

/-- THERMAL_TRIP (R409): power is cut, and the stage stays open. -/
def execThermalTrip (t : Nat) (s : State) : Host.Outcome State Fault Refusal :=
  let s := s.advance t
  .next (if s.powerOn then s.cutPower true else s)

/-! Start-up (Table 18.3). -/

/-- SLOT_ID from the twelve straps and SLOT_PAR: odd parity, else 0xFFFF (R435). -/
def slotIdOf (straps : BitVec 12) (par : Bool) : Half :=
  let ones := ((List.range 12).filter fun i => hasBit straps i).length + if par then 1 else 0
  if ones % 2 = 1 then BitVec.ofNat 16 straps.toNat else 0xFFFF

/-- The system partition as it exists from ROM start (R283), its keys drawn (R285, R286). -/
def systemPartition (draw : Nat) : Partition :=
  { isThere := true, regionBase := 120, regionGib := 4, pghCount := 4096, ctxMax := 256, winMax := 512, lpSlots := 1
    cvuSlots := 0x0101, xtsKey := some draw, kemKey := some (draw + 1) }

/-- ROM_START (R208, R217, R218, R283, R285, R286, R298, R403, R435). After an EJECT that ends in a restart the module starts its ROM
once its history is programmed (R421). -/
def execRomStart (t : Nat) (straps : BitVec 12) (par : Bool) (fuseOk : Bool) (s : State) : Host.Outcome State Fault Refusal :=
  let s := s.advance t
  let s := if s.pwr.phase = .ejecting ∧ s.pwr.rebootFrom.isSome then s.restart else s
  .next (if s.pwr.phase ≠ .starting then s
    else
      let k := s.sec.draws
      let (nonce, s) := s.draw 8
      let full : Bool := s.sec.epoch.toNat = 4095
      let s := s.updSec fun c =>
        { c with
          draws := c.draws + 2, nonce := BitVec.ofNat 64 (leNat nonce), xmssNext := 0, reservedTo := 0
          epoch := if full ∨ ¬ fuseOk then c.epoch else c.epoch + 1, exhausted := full || !fuseOk }
      let s := s.updPart 0 fun _ => systemPartition (k + 1)
      (s.updHost fun h => { h with hpReady := true }).updPwr fun p =>
        { p with phase := .rom, slotId := slotIdOf straps par, rootLocked := true, domains := p.domains ||| alwaysOn })

/-- The settings copy that the boot NOR holds, where valid: WRITE_COUNT and FORMAT (R414, R423, Table 19.6). -/
def settingsCopy (nor : Mem) (copy : Nat) : Option (Nat × List Byte) :=
  let b := memRead nor (0x50000 + 0x8000 * copy) 432
  if field b 0 4 = 0x54544553 ∧ field b 428 4 = crc32c (b.take 428) then some (field b 8 4, b) else none

/-- The settings copy in use at power-up, its WRITE_COUNT and its record (R414, R423). -/
def settingsInUse (nor : Mem) : Option (Nat × Nat × List Byte) :=
  match settingsCopy nor 0, settingsCopy nor 1 with
  | none, none => none
  | some x, none => some (0, x)
  | none, some y => some (1, y)
  | some x, some y => if laterCount y.1 x.1 then some (1, y) else some (0, x)

/-- BST_CONFIG (Table 17.7). -/
def Bist.config (b : Bist) : Nat :=
  (if b.stagger then 1 else 0) + (if b.gate then 2 else 0) + 4 * b.maxConcurrent.toNat + if b.periodic then 32 else 0

/-- A write of BST_CONFIG (Table 17.7): one that clears both STAGGER and GATE is ignored, and so is a MAX_CONCURRENT outside 1-6. -/
def Bist.setConfig (b : Bist) (v : Nat) : Bist :=
  if v % 4 = 0 then b
  else
    let n := v / 4 % 8
    { b with
      stagger := v % 2 = 1, gate := v / 2 % 2 = 1, periodic := v / 32 % 2 = 1
      maxConcurrent := if 1 ≤ n ∧ n ≤ 6 then BitVec.ofNat 3 n else b.maxConcurrent }

/-- A settings record of the registers as they stand (Table 19.6). -/
def State.settingsRecord (s : State) (format count : Nat) : List Byte :=
  let b := natLe 0x54544553 4 ++ natLe format 2 ++ natLe 0 2 ++ natLe count 4 ++ natLe s.bist.config 4
    ++ (engines.flatMap fun e => s.eng[e].dlClass.toList.flatMap fun v => natLe v.toNat 4)
    ++ (engines.flatMap fun e => natLe s.eng[e].rerunMask.toNat 4) ++ natLe 0 4
  b ++ natLe (crc32c b) 4

/-- The settings written into the settings copy not in use (R423). -/
def State.saveSettings (s : State) (format : Nat) : State :=
  let (c, n) := nextCopy s.fw.settingsCopy
  { s with fw := { s.fw with
    nor := memWrite s.fw.nor (0x50000 + 0x8000 * c) (s.settingsRecord format n), settingsCopy := some (c, n) } }

/-- The stored settings put into their registers (R423); a class value with STOP_RELEVANT and SHEDDABLE is ignored (R48). -/
def State.applySettings (s : State) (b : List Byte) : State :=
  let s := s.updBist fun x => x.setConfig (field b 12 4)
  engines.foldl (fun s e => s.updEng e fun g =>
    { g with
      dlClass := Vector.ofFn fun i =>
        let v : Word := BitVec.ofNat 32 (field b (16 + 64 * e.val + 4 * i.val) 4) &&& 0xFFFF0007
        if hasBit v 0 ∧ hasBit v 2 then g.dlClass[i] else v
      rerunMask := BitVec.ofNat 16 (field b (400 + 4 * e.val) 4) }) s

/-- The settings read, or defaulted (R423). -/
def State.readSettings (s : State) : State :=
  let format := s.fw.format
  match settingsInUse s.fw.nor with
  | some (c, n, b) =>
    let s := { s with fw := { s.fw with settingsCopy := some (c, n) } }
    if field b 4 2 = format then s.applySettings b
    else (s.saveSettings format).updPwr fun p => { p with settingsDefaulted := true }
  | none => (s.saveSettings format).updPwr fun p => { p with settingsDefaulted := true }

/-- ROM recovery mode (R424): `bad` lists 0 for the loader and the types of the slots that fail. -/
def State.recover (s : State) (bad : List Nat) : State :=
  let s := s.updPwr fun p => { p with phase := .recovery, bootStatus := stFwBadSignature, loaderBad := bad.contains 0, startSrc := true }
  { s with fw := { s.fw with running := [], invalid := bad.filter (· ≠ 0) } }

/-- The images that run and the plan selected from the boot NOR (R414, R415): their copies and their values. -/
def State.loadImages (s : State) (heads : List ImageHead) (plan : Option (Nat × Nat × Plan)) : State :=
  let copy : Option (Nat × Nat) := plan.map fun (x : Nat × Nat × Plan) => (x.1, x.2.1)
  let run : List (Nat × Word × Half) := heads.zipIdx.map fun (x : ImageHead × Nat) => (x.2 + 1, x.1.version, x.1.iface)
  let use : Option Plan := plan.map fun (x : Nat × Nat × Plan) => x.2.2
  let s := { s with fw := { s.fw with planCopy := copy, running := run, format := (heads.headD (imageHead [])).settings } }
  s.updFab fun b => { b with plan := use }

/-- The ports that the plan uses begin to train, the others stay unused (R239). -/
def State.trainPorts (s : State) : State :=
  let s := s.updFab fun b => { b with ports := Vector.ofFn fun i =>
    { b.ports[i] with state := if (s.planPort i.val).mode = 0 then .unused else .training } }
  s.updPwr fun p => { p with ramping := (List.range 9).filterMap fun i => if (s.planPort i).mode = 0 then none else some (114 + i) }

/-- IMAGES_VERIFIED (R403, R404, R423-R425): the loader, the four slots and the settings. -/
def execImagesVerified (t : Nat) (bad : List (Fin 5)) (s : State) : Host.Outcome State Fault Refusal :=
  let s := s.advance t
  .next (if s.pwr.phase ≠ .rom then s
    else if bad ≠ [] ∨ s.fw.torn ≠ [] then s.recover (bad.map Fin.val ++ s.fw.torn).eraseDups
    else
      ((s.loadImages s.installed (planInUse s.fw.nor)).readSettings.trainPorts).updPwr fun p =>
        { p with phase := .imagesVerified })

/-- The latest TYPE 2 or 3 record of a group in NAND (R201). -/
def History.latestFence (h : History) (grp : Nat) : Option HistRec :=
  ((h.fenceTable ++ h.ring).filter fun r => (r.type = 2 || r.type = 3) && eventGroup r = grp).foldl (fun m r => match m with
    | none => some r
    | some x => if laterRec x r then m else some r) none

/-- The classification that the programmed TYPE 1 records of a group give, as they came (R200, R201). -/
def History.classNow (h : History) (grp : Nat) : Nat :=
  let evs := h.events grp
  (evs.map fun r => classOf (within30 (evs.filter fun x => !laterRec x r) r)).foldl max 0

/-- The fence and the classification of a unit other than an engine loaded: its latest TYPE 2 or 3 record decides, and where R200 applied again to
its programmed TYPE 1 records makes it permanent anew, the records of that are created (R201, R455). -/
def State.loadUnit (s : State) (grp : Nat) : State :=
  let unit := grp - 256
  let fenced : Bool := (s.hist.latestFence grp).any fun r => r.type = 2
  let cls := if fenced then 2 else s.hist.classNow grp
  let anew : Bool := decide (cls = 2) && !fenced
  let bars : Bool := fenced || anew && fenceable unit
  let now : UnitState := { unit := BitVec.ofNat 8 unit, classification := cls, fenced := bars }
  let s : State := { s with units := s.units ++ [now] }
  match (s.hist.events grp).getLast? with
  | none => s
  | some r =>
    if ¬ anew then s
    else
      let s := s.recordF { r with type := 4, unit := BitVec.ofNat 8 unit, classification := 2, rep := 0 }
      if bars then s.recordF { r with type := 2, unit := BitVec.ofNat 8 unit, classification := 2, status := stFenced, rep := 0 } else s

/-- Fences and classifications loaded from NAND (R201, R455); a fenced port reads as one fenced by identity (Table 08.17). -/
def State.loadFences (s : State) : State :=
  let s := engines.foldl (fun s e =>
    let fenced : Bool := (s.hist.latestFence e.val).any fun r => r.type = 2
    let cls := s.hist.classNow e.val
    let evs := s.hist.events e.val
    let recent := match evs.getLast? with
      | none => 0
      | some r => eventCount (within30 evs r)
    let s := s.updEng e fun g =>
      { g with fenced := fenced, classification := if fenced then 2 else BitVec.ofNat 2 (min 1 cls)
               events30 := BitVec.ofNat 6 (min 63 recent) }
    if cls = 2 ∧ ¬ fenced then
      match evs.getLast? with
      | none => s
      | some r => s.fenceEngine e r.unit.toNat (s.record 2 r.unit.toNat r.opClass r.mechanism stFenced none 0xFFFF r.detail r.dataClass)
    else s) s
  let units := ((s.hist.ring ++ s.hist.fenceTable).map fun r => eventGroup r).eraseDups.filter fun g => decide (256 ≤ g)
  let s : State := { s with units := [] }
  let s := units.foldl State.loadUnit s
  (List.finRange 9).foldl (fun s (n : LinkId) =>
    if s.unitFenced (128 + n.val) ∧ s.fab.ports[n].state ≠ .unused then s.updPort n fun q => { q with state := .fencedId } else s) s

/-- The rows kept as spared or marked and those that store MBIST finds bad on an engine spared, or the engine fenced by a 33rd (R101, R404). -/
def State.sparePowerUp (s : State) (e : EngId) (found : List Nat) : State :=
  let rows := (s.eng[e].mem.keptRows ++ found).eraseDups
  let s := s.updEng e fun g => { g with mem := { g.mem with spared := rows.take 32, keptRows := [] } }
  match rows.drop 32 with
  | [] => s
  | row :: _ => s.fenceEngine e (48 + e.val) (s.record 2 (48 + e.val) 7 6 stFenced none 0xFFFF (BitVec.ofNat 32 row) 0)

/-- STORE_TESTED (R101, R102, R201, R385, R403, R404). -/
def execStoreTested (t : Nat) (res : List (EngId × List Nat)) (goldenOk : Bool) (s : State) : Host.Outcome State Fault Refusal :=
  let s := s.advance t
  .next (if s.pwr.phase ≠ .imagesVerified then s
    else
      let s := engines.foldl (fun s e => s.updEng e fun g =>
        { g with store := [], act := [], mem := { keptRows := g.mem.keptRows }, clkNominal := true }) s
      let s := s.loadFences
      let s := engines.foldl (fun s e => s.sparePowerUp e (((res.filter fun x => x.1 = e).map Prod.snd).flatten)) s
      let s := s.updBist fun b => { b with goldenValid := goldenOk }
      s.updPwr fun p => { p with phase := .storeTested, domains := (List.range 6).foldl (fun d e => d ||| engineDomains e) p.domains })

/-- MEMORY_TRAINED (R403, R404). -/
def execMemoryTrained (t : Nat) (failed : Bool) (s : State) : Host.Outcome State Fault Refusal :=
  let s := s.advance t
  .next (if s.pwr.phase ≠ .storeTested ∨ s.pwr.bootStatus ≠ stOk then s
    else if failed then s.updPwr fun p => { p with bootStatus := stBistFail }
    else (s.updPart 0 fun q => { q with region := [] }).updPwr fun p => { p with phase := .memoryTrained, trained := true })

/-- PORTS_LOCKED (R403): the ports that hold block lock by then. -/
def execPortsLocked (t : Nat) (locked : List LinkId) (s : State) : Host.Outcome State Fault Refusal :=
  let s := s.advance t
  .next (if s.pwr.phase ≠ .memoryTrained then s
    else (locked.foldl State.lockPort s).updPwr fun p => { p with phase := .portsLocked })

/-! Domains (R399). -/

/-- DOMAIN_RAMP (R399, R413): the domain is on, its memory zero. A ramp asked for during EJECT is refused. -/
def execDomainRamp (t : Nat) (d : Fin 162) (s : State) : Host.Outcome State Fault Refusal :=
  let s := s.advance t
  .next (if ¬ s.powerOn ∨ s.pwr.ejectAt.isSome ∨ hasBit s.pwr.domains d.val then s
    else
      let s := s.updPwr fun p => { p with domains := setBit p.domains d.val, ramping := p.ramping.erase d.val }
      match domainEngine d.val with
      | none => s
      | some e => s.updEng e fun g => g.zeroDomain d.val)

/-- The opening of a video stream ended with ST_FENCED where its answer is still due (R399). -/
def State.unopen (s : State) (u : VidId) : State :=
  let s := s.updVid fun x => { x with streams := x.streams.filter fun v => v.unit ≠ u }
  (List.finRange 64).foldl (fun s (i : Fin 64) =>
    let m : MbxId := ⟨i.val, by omega⟩
    match s.host.mbx[m].cmd with
    | none => s
    | some c =>
      if (c.opcode = 0x0600 ∧ c.req.arg 1 1 = u.val) ∨ (c.opcode = 0x0601 ∧ u.val = 2) then
        s.updMbx m fun b => { b with cmd := b.cmd.map fun c => { c with result := c.result.map fun x => if x.1 = stOk then (stFenced, []) else x } }
      else s) s

/-- DOMAIN_FAULT (R399): the domain stays off; its engine is fenced, or what needed it ends with ST_FENCED. -/
def execDomainFault (t : Nat) (d : Fin 162) (s : State) : Host.Outcome State Fault Refusal :=
  let s := s.advance t
  .next (if ¬ s.powerOn ∨ hasBit s.pwr.domains d.val then s
    else
      let s := s.updPwr fun p => { p with event := setBit p.event 1, ramping := p.ramping.erase d.val }
      match domainEngine d.val with
      | some e => s.fenceEngine e e.val (s.record 2 e.val 7 6 stFenced none 0xFFFF (BitVec.ofNat 32 d.val) 0)
      | none =>
        if h : 114 ≤ d.val ∧ d.val < 122 then s.endOutstanding ⟨d.val - 114, by omega⟩ stFenced
        else if h : 139 ≤ d.val ∧ d.val < 142 then s.unopen ⟨d.val - 139, by omega⟩
        else if h : 142 ≤ d.val ∧ d.val < 146 then (s.cvuFlush ⟨d.val - 142, by omega⟩ stFenced).1
        else s)

/-! EJECT (R410). -/

/-- Every waiting history record programmed (R410 step 4). -/
def History.flush (h : History) : Nat → History
  | 0 => h
  | n + 1 => h.programNext.flush n

/-- DEPART queued on every open port (R410 step 1). -/
def State.departAll (s : State) : State :=
  s.updFab fun b => { b with ports := b.ports.map fun q => if q.state = .openPort then { q with blocks := q.blocks ++ [.depart] } else q }

/-- EJECT from its cycle e (R261, R410 steps 1, 2 and 4, Table 11.7): admission stops, an active gives up, envelopes abort, jobs end, commands
that run and operations of partners get no response, tests are abandoned, and the history is programmed. -/
def State.beginEject (s : State) (reboot : Bool) : State :=
  let quiet : Bool := s.pwr.level = 3
  let s := s.updPwr fun p => { p with phase := .ejecting, ejectAt := some s.now, rebootFrom := if reboot then some s.now else none }
  let s := if quiet then s else s.giveUp
  let s := (s.abortEnvs (fun _ => true) 5).departAll
  let s := s.endAll ((s.jobs.filter fun j => j.early.isNone).map Job.id) stEjected
  let s := s.updBist fun b => { b with kats := [], sweeps := [], scans := [] }
  let s := engines.foldl (fun s e => s.updEng e Engine.dropSlice) s
  let s := s.updHost fun h => { h with resets := [], mbx := h.mbx.map fun b => { b with cmd := none } }
  let s := s.updFab fun b =>
    { b with
      ctxs := b.ctxs.map fun c => { c with held := [] }
      ports := b.ports.map fun q => { q with queue := q.queue.filter fun x => decide (x.cls ≠ .response ∧ x.cls ≠ .refusal) }
      outstanding := [] }
  { s with hist := s.hist.flush (s.hist.waitingF.length + s.hist.waiting1.length) }

/-- EJECT (R397, R410, R413): once begun it cannot be reversed. -/
def execEject (t : Nat) (c : EjectCause) (s : State) : Host.Outcome State Fault Refusal :=
  let s := s.advance t
  .next (if ¬ s.powerOn then (if c = EjectCause.presence then s.updPwr fun p => { p with latchedOpen := false } else s)
    else match s.pwr.ejectAt with
      | some _ => s.updPwr fun p => { p with rebootFrom := none }
      | none => s.beginEject false)

end Sys2Proof.Machine
end

