-- ==== Sys2Proof/Machine/Heat.lean ====
section
/-! DEFINITION. Heat, the entry into SERVICE, coolant and the rack manager (R239, R294, R345, R403, R404, R406-R408, R412, R413, R438, R442,
Tables 18.5, 18.6). -/

namespace Sys2Proof.Machine

/-! The thermal levels (R406-R408). -/

/-- The entry value of a level in units of 0.25 degC: 95, 100 and 105 degC (Table 18.5). -/
def levelEntry (k : Nat) : Int := [380, 400, 420].getD (k - 1) 420

/-- The greatest reading of a sample. -/
def hottest (sensors : List (BitVec 12)) : Int := maxSensor sensors 0 38

/-- Whether a reading is less than 3 degC below the entry value of level `k + 1` (R406). -/
def nearLevel (k : Nat) (sensors : List (BitVec 12)) : Bool := decide (levelEntry (k + 1) - 12 < hottest sensors)

/-- Jobs that have neither ended nor issued END on every engine (R50, R407), where `sel` holds, ended with ST_THERMAL_SHED. -/
def State.shedJobs (s : State) (sel : Job → Bool) : State :=
  s.endAll ((s.jobs.filter fun j => j.early.isNone && !j.allEnded (s.now + 1) && sel j).map Job.id) stThermalShed

/-- Whether a job's class is sheddable (R407). -/
def State.sheddable (s : State) (j : Job) : Bool := match j.cls with
  | none => false
  | some c => hasBit (s.policy j.engines.head? c) 2

/-- VENC0 stops (R345): each picture in progress ends without output. -/
def State.stopEncoder (s : State) : State :=
  (s.vid.streams.filter fun v => v.encoding && decide (v.written < v.consumed)).foldl (fun s v =>
    (s.endPicture v.num stThermalShed).vidEvent 4) s

/-- What a level does in the cycle in which it is entered (R407, R408, R318): a standby in step does no shedding, and leaves step at
level 3. -/
def State.heatEffects (s : State) (level : Nat) : State :=
  if ¬ s.inService ∨ level < 2 then s
  else if level = 2 then (if s.isStandby then s else (s.shedJobs s.sheddable).stopEncoder)
  else if s.hasStandby then ((s.shedJobs s.sheddable).stopEncoder).giveUp
  else
    let s := (s.leaveStep.shedJobs fun _ => true).stopEncoder
    s.updPwr fun p => { p with thmStop := driveStop p.thmStop s.now }

/-- THERMAL_SAMPLE (R406): the levels that the greatest reading reaches are entered. -/
def execThermalSample (t : Nat) (sensors : List (BitVec 12)) (s : State) : Host.Outcome State Fault Refusal :=
  let s := s.advance t
  .next (if ¬ s.powerOn then s
    else
      let tj := hottest sensors
      let old := s.pwr.level.toNat
      let reached := ((List.range 4).filter fun k => 1 ≤ k && decide (levelEntry k ≤ tj)).foldl max 0
      let s := s.updPwr fun p =>
        { p with
          sensors := sensors
          tjMax := BitVec.ofInt 12 tj
          windowMax := if p.windowMax.toInt < tj then BitVec.ofInt 12 tj else p.windowMax
          coolSince := Vector.ofFn fun (k : Fin 3) => if nearLevel k p.sensors then s.now else p.coolSince[k]
          level := BitVec.ofNat 2 (max old reached)
          thmEvent := (List.range 4).foldl (fun v k => if old < k ∧ k ≤ reached then setBit v (k - 1) else v) p.thmEvent }
      if reached ≤ old then s else s.heatEffects reached)

/-- THERMAL_LEVEL_EXIT (R406, R408): the levels below whose entry value the reading has stayed by 3 degC for 100 ms are left. Below
level 3 a CLEAR that was remembered takes effect. -/
def execThermalLevelExit (t : Nat) (s : State) : Host.Outcome State Fault Refusal :=
  let s := s.advance t
  let stay := ((List.finRange 3).filter fun (k : Fin 3) => decide (k.val + 1 ≤ s.pwr.level.toNat)
      && (nearLevel k s.pwr.sensors || decide (s.now < s.pwr.coolSince[k] + 90000000))).map fun k => k.val + 1
  let level := stay.foldl max 0
  .next (if level = s.pwr.level.toNat then s
    else s.updPwr fun p =>
      { p with level := BitVec.ofNat 2 level, thmStop := if level < 3 then expireStop p.thmStop s.now else p.thmStop })

/-! SERVICE (R403, R404). -/

/-- Whether a coolant inlet temperature lies in 15-45 degC. -/
def coolantOk (c : BitVec 12) : Bool := decide (60 ≤ c.toInt ∧ c.toInt ≤ 180)

/-- PHASE 6 (R46, R239, R404, R413): the plan checked against the straps, ports opened, the start-up source of SAFE_STOP released, and the
thermal level in force. -/
def State.enterService (s : State) : State :=
  let denied : Bool := s.pwr.slotId = 0xFFFF || (s.fab.plan.isSome && !s.planFits)
  let s := s.updPwr fun p => { p with phase := .service, startSrc := false, bootStatus := if denied then stDenied else stOk }
  let s := (List.finRange 9).foldl State.checkFarEnd s
  s.heatEffects s.pwr.level.toNat

/-- SERVICE (R403, R404). -/
def execService (t : Nat) (c : BitVec 12) (s : State) : Host.Outcome State Fault Refusal :=
  let s := s.advance t
  .next (if s.pwr.phase ≠ .portsLocked ∨ s.pwr.bootStatus = stCoolantRange then s
    else
      let s := s.updPwr fun p => { p with coolant := c }
      if coolantOk c then s.enterService
      else s.updPwr fun p => { p with bootStatus := stCoolantRange, thmEvent := setBit p.thmEvent 3 })

/-- COOLANT_RECHECK (R404): SERVICE is entered once the inlet lies inside; while it lies outside, COOLANT_RANGE is set
(Table 18.13). -/
def execCoolantRecheck (t : Nat) (c : BitVec 12) (s : State) : Host.Outcome State Fault Refusal :=
  let s := s.advance t
  .next (if s.pwr.phase ≠ .portsLocked ∨ s.pwr.bootStatus ≠ stCoolantRange then s
    else
      let s := s.updPwr fun p => { p with coolant := c }
      if coolantOk c then s.enterService else s.updPwr fun p => { p with thmEvent := setBit p.thmEvent 3 })

/-- COOLANT_INLET_RANGE (R442): in service an inlet outside changes nothing else. -/
def execCoolantInletRange (t : Nat) (c : BitVec 12) (s : State) : Host.Outcome State Fault Refusal :=
  let s := s.advance t
  .next (if ¬ s.inService then s
    else s.updPwr fun p => { p with coolant := c, thmEvent := if coolantOk c then p.thmEvent else setBit p.thmEvent 3 })

/-! The rack manager (R412, R438). -/

/-- TELEMETRY_REFRESH (R412): the telemetry of Table 18.6, at full resolution as it is kept. The module's power is measured, a free value. -/
def execTelemetryRefresh (t : Nat) (s : State) : Host.Outcome State Fault Refusal :=
  let s := s.advance t
  .next (if ¬ s.powerOn then s
    else
      let (n, s) := s.fresh
      let watts := Config.freeNat n % 4096
      s.updPwr fun p =>
        { p with
          watts := BitVec.ofNat 12 watts
          lastWindow := p.windowMax
          windowMax := BitVec.ofInt 12 (hottest p.sensors)
          telemetry := natLe p.vin.toNat 2 ++ natLe watts 2 ++ natLe (wrapInt 16 p.windowMax.toInt) 2 ++ natLe (wrapInt 16 p.coolant.toInt) 2
            ++ [BitVec.ofNat 8 p.phase.code, BitVec.ofNat 8 p.level.toNat, if s.safeStop then 1 else 0, BitVec.ofNat 8 s.twin.role.rowCode] })

/-- A telemetry item as it is published: while a confidential partition exists, power in multiples of 8 W and temperature in whole degrees
(R294). -/
def State.publishedItem (s : State) (i : Nat) : List Byte :=
  let data := (s.pwr.telemetry.drop (2 * i)).take 2
  let step := if i = 1 then 8 else if i = 2 then 4 else 1
  if s.anyConfidential ∧ data.length = 2 then natLe (wrapInt 16 ((BitVec.ofNat 16 (leNat data)).toInt / step * step)) 2 else data

/-- SMBUS_READ (R412, R438): items 0-7 are those of Table 18.6 in its order, every other item is FRU data of the part (log entry 50). -/
def execSmbusRead (t : Nat) (item : Byte) (s : State) : Host.Outcome State Fault Refusal :=
  let s := s.advance t
  .next (if ¬ s.powerOn then s
    else
      let i := item.toNat
      let data : List Byte :=
        if i < 4 then s.publishedItem i
        else if i < 8 then (s.pwr.telemetry.drop (4 + i)).take 1
        else [Config.partByte 30 i]
      s.updPwr fun p => { p with smbData := data, smbAck := true })

/-- SMBUS_WRITE (R438): not acknowledged. -/
def execSmbusWrite (t : Nat) (s : State) : Host.Outcome State Fault Refusal :=
  .next ((s.advance t).updPwr fun p => { p with smbAck := false })

/-- SMBUS_TIMEOUT (R438): the sideband releases the bus, and nothing else is affected. -/
def execSmbusTimeout (t : Nat) (s : State) : Host.Outcome State Fault Refusal := .next (s.advance t)

end Sys2Proof.Machine
end

