-- ==== Sys2Proof/Machine/FwCmds.lean ====
section
/-! DEFINITION. Firmware update, settings and ROM recovery (R415-R425, Tables 19.3-19.7). -/

namespace Sys2Proof.Machine

/-- The offset of the staging area in the boot NOR (Table 19.1). -/
def stagingBase : Nat := 0x1D00000

/-- The length of a block that REC_STAGE has staged as chunks: those that follow one another without a gap. -/
def chunkLength (chunks : List (Nat × Nat × Nat)) (block : Nat) : Nat → Nat → Nat
  | 0, len => len
  | n + 1, len => match chunks.find? fun c => c.1 = block && c.2.1 * 1024 = len with
    | none => len
    | some c => chunkLength chunks block n (len + c.2.2)

/-- The blocks staged with their lengths. -/
def Firmware.blocks (f : Firmware) : List (Nat × Nat) :=
  f.staged ++ ((f.chunks.map fun c => c.1).eraseDups.filter fun b => (assoc b f.staged).isNone).filterMap fun b =>
    let n := chunkLength f.chunks b 64 0
    if n = 0 then none else some (b, n)

/-- The header of the staged image. -/
def Firmware.stagedHead (f : Firmware) : ImageHead := imageHead (memRead f.nor stagingBase 64)

/-- Check 1 of R418: every block staged, and a valid header of the type. -/
def Firmware.stagedOk (f : Firmware) (type : Nat) : Bool :=
  f.stagedType = type && headOk f.stagedHead type 0xB1 (slotOf type).2 && blocksOk f.blocks f.stagedHead.bytes

/-- The state with the firmware unit changed. -/
def State.updFw (s : State) (f : Firmware → Firmware) : State := { s with fw := f s.fw }

/-- FW_STAGE (R417, R422, Table 19.3). -/
def bodyFwStage : Body := fun s _ _ r =>
  let type := r.arg 0 1
  let block := r.arg 2 2
  let n := r.arg 4 4
  if ¬ r.form 24 [(1, 1), (12, 4)] ∨ type = 0 ∨ 4 < type ∨ 127 < block ∨ n = 0 ∨ 65536 < n ∨ r.arg 16 8 % 64 ≠ 0 then ends s stBadArg
  else match bulkAt (r.arg 16 8) n with
    | none => ends s stBadArg
    | some (a, b) =>
      if a ≠ 0 then ends s stBadArg
      else if s.fw.activating.isSome then ends s stBusy
      else if block ≠ 0 ∧ type ≠ s.fw.stagedType then ends s stBadArg
      else
        let (s, bs) := s.bulkRead 0 b n
        let s := s.updFw fun f =>
          { f with
            verified := false, stagedType := type
            staged := if block = 0 then [] else assocDel block f.staged
            chunks := if block = 0 then [] else f.chunks.filter fun c => c.1 ≠ block }
        if crc32c bs ≠ r.arg 8 4 then ends s stFwBadBlock
        else if r.aux ≠ 0 then ends (s.updFw fun f => { f with nor := memWrite f.nor (stagingBase + 65536 * block) bs }) stFwBadBlock
        else gives (s.updFw fun f =>
          { f with nor := memWrite f.nor (stagingBase + 65536 * block) bs, staged := assocSet block n f.staged })

/-- FW_STAGE (R417). -/
def execFwStage (t : Nat) (r : MbxReq) (s : State) : Host.Outcome State Fault Refusal := .next (s.ring t 0x0B00 r bodyFwStage)

/-- The checks of R418 in their order: the status that decides, or that all hold. -/
def State.verifyStaged (s : State) (type : Nat) (signed : Bool) : Status :=
  if ¬ s.fw.stagedOk type then stFwBadBlock
  else if ¬ signed then stFwBadSignature
  else if ¬ s.fits s.fw.stagedHead then stFwIncompatible
  else stOk

/-- FW_VERIFY (R418, R422). -/
def bodyFwVerify : Body := fun s _ _ r =>
  let type := r.arg 0 1
  if ¬ r.form 4 [(1, 3)] ∨ type = 0 ∨ 4 < type then ends s stBadArg
  else if s.fw.activating.isSome then ends s stBusy
  else
    let st := s.verifyStaged type r.verdict
    if st ≠ stOk then ends (s.updFw fun f => { f with verified := false }) st
    else
      let h := s.fw.stagedHead
      gives (s.updFw fun f => { f with verified := true }) (verifyResponse h (memRead s.fw.nor stagingBase h.bytes))

/-- FW_VERIFY (R418). -/
def execFwVerify (t : Nat) (r : MbxReq) (s : State) : Host.Outcome State Fault Refusal := .next (s.ring t 0x0B01 r bodyFwVerify)

/-- The loader begins to overwrite a slot: until it has read it back, the slot is invalid (R419, R422). -/
def State.beginActivate (s : State) (type : Nat) (m : MbxId) : State :=
  s.updFw fun f =>
    { f with
      activating := some m.val, invalid := type :: f.invalid.filter (· ≠ type), torn := type :: f.torn.filter (· ≠ type) }

/-- FW_ACTIVATE (R419, R422): it completes once the slot has been read back. -/
def bodyFwActivate : Body := fun s m _ r =>
  let type := r.arg 0 1
  if ¬ r.form 4 [(1, 3)] ∨ type = 0 ∨ 4 < type then ends s stBadArg
  else if s.fw.activating.isSome then ends s stBusy
  else if ¬ s.fw.verified ∨ s.fw.stagedType ≠ type then ends s stBadArg
  else if ¬ s.fits s.fw.stagedHead then ends s stFwIncompatible
  else (s.beginActivate type m, none)

/-- FW_ACTIVATE (R419). -/
def execFwActivate (t : Nat) (r : MbxReq) (s : State) : Host.Outcome State Fault Refusal := .next (s.ring t 0x0B02 r bodyFwActivate)

/-- An activation completed: the slot holds the staged image, valid where its read-back agrees (R419). -/
def State.pollActivate (s : State) (m : MbxId) (r : MbxReq) : State :=
  if s.fw.activating ≠ some m.val then s
  else
    let type := s.fw.stagedType
    let s := s.updFw fun f =>
      { f with
        activating := none
        nor := memWrite f.nor (slotOf type).1 (memRead f.nor stagingBase f.stagedHead.bytes)
        invalid := if r.aux = 0 then f.invalid.filter (· ≠ type) else f.invalid
        torn := if r.aux = 0 then f.torn.filter (· ≠ type) else f.torn }
    s.mbxAnswer m (if r.aux = 0 then stOk else stFwBadBlock)

/-- The response of FW_STATUS (Table 19.4). -/
def State.fwStatus (s : State) : List Byte :=
  let blocks := s.fw.blocks
  let state : Byte := if s.fw.verified then 2
    else if s.fw.stagedType ≠ 0 ∧ headOk s.fw.stagedHead s.fw.stagedType 0xB1 (slotOf s.fw.stagedType).2
        ∧ blocksOk blocks s.fw.stagedHead.bytes then 1 else 0
  (s.installed.zipIdx.flatMap fun x =>
    let h : ImageHead := x.1
    let bad := s.fw.invalid.contains (x.2 + 1)
    let (v, i) := (assoc (x.2 + 1) s.fw.running).getD (0, 0)
    natLe v.toNat 4 ++ natLe (if bad then 0 else h.version.toNat) 4 ++ natLe i.toNat 2 ++ natLe (if bad then 0 else h.iface.toNat) 2
      ++ natLe 0 4)
    ++ [BitVec.ofNat 8 s.fw.stagedType, state] ++ natLe blocks.length 2 ++ natLe 0 12

/-- FW_STATUS (R420). -/
def bodyFwStatus : Body := fun s _ _ r => if ¬ r.form 4 [(0, 4)] then ends s stBadArg else gives s s.fwStatus

/-- FW_STATUS (R420). -/
def execFwStatus (t : Nat) (r : MbxReq) (s : State) : Host.Outcome State Fault Refusal := .next (s.ring t 0x0B03 r bodyFwStatus)

/-- FW_RESTART (R421, R422): steps 1-4 of EJECT, and then the ROM starts again. -/
def bodyFwRestart : Body := fun s _ _ r =>
  if ¬ r.form 4 [(0, 4)] then ends s stBadArg
  else if s.fw.activating.isSome then ends s stBusy
  else (s.beginEject true, none)

/-- FW_RESTART (R421). -/
def execFwRestart (t : Nat) (r : MbxReq) (s : State) : Host.Outcome State Fault Refusal := .next (s.ring t 0x0B04 r bodyFwRestart)

/-- SETTINGS_SAVE (R423): in the format of the running PM image. -/
def bodySettingsSave : Body := fun s _ _ r =>
  if ¬ r.form 4 [(0, 4)] then ends s stBadArg else gives (s.saveSettings s.fw.format)

/-- SETTINGS_SAVE (R423). -/
def execSettingsSave (t : Nat) (r : MbxReq) (s : State) : Host.Outcome State Fault Refusal :=
  .next (s.ring t 0x0B05 r bodySettingsSave)

/-! ROM recovery mode (R424, R425, Table 19.7). -/

/-- REC_INFO (R424): FW_STATUS with the RUNNING fields 0, as nothing runs. -/
def bodyRecInfo : Body := fun s _ _ r => if ¬ r.form 4 [(0, 4)] then ends s stBadArg else gives s s.fwStatus

/-- REC_INFO (R424). -/
def execRecInfo (t : Nat) (r : MbxReq) (s : State) : Host.Outcome State Fault Refusal := .next (s.ring t 0x0F00 r bodyRecInfo)

/-- REC_STAGE (R417, R424). Chunk 0 of block 0 begins a new staging. -/
def bodyRecStage : Body := fun s _ _ r =>
  let type := r.arg 0 1
  let block := r.arg 2 2
  let chunk := r.arg 4 2
  let n := r.arg 6 2
  if s.pwr.loaderBad then ends s stDenied
  else if ¬ r.form (16 + n) [(1, 1), (12, 4)] ∨ type = 0 ∨ 4 < type ∨ 127 < block ∨ 63 < chunk ∨ n = 0 ∨ 1024 < n then ends s stBadArg
  else if s.fw.activating.isSome then ends s stBusy
  else
    let first : Bool := block = 0 && chunk = 0
    if ¬ first ∧ type ≠ s.fw.stagedType then ends s stBadArg
    else
      let bs := (r.args.drop 16).take n
      let bad : Bool := crc32c bs ≠ r.arg 8 4 || r.aux ≠ 0
      let s := s.updFw fun f =>
        { f with
          verified := false, stagedType := type
          staged := if first then [] else if bad then assocDel block f.staged else f.staged
          chunks := if first then [] else f.chunks.filter fun c => !(c.1 = block && c.2.1 = chunk) }
      if bad then ends s stFwBadBlock
      else gives (s.updFw fun f =>
        { f with nor := memWrite f.nor (stagingBase + 65536 * block + 1024 * chunk) bs, chunks := f.chunks ++ [(block, chunk, n)] })

/-- REC_STAGE (R424). -/
def execRecStage (t : Nat) (r : MbxReq) (s : State) : Host.Outcome State Fault Refusal := .next (s.ring t 0x0F01 r bodyRecStage)

/-- REC_INSTALL (R424, R425): the checks of R418, then the slot is overwritten as R419 gives. -/
def bodyRecInstall : Body := fun s m _ r =>
  let type := r.arg 0 1
  if s.pwr.loaderBad then ends s stDenied
  else if ¬ r.form 4 [(1, 3)] ∨ type = 0 ∨ 4 < type then ends s stBadArg
  else if s.fw.activating.isSome then ends s stBusy
  else
    let st := s.verifyStaged type r.verdict
    if st ≠ stOk then ends s st else (s.beginActivate type m, none)

/-- REC_INSTALL (R424). -/
def execRecInstall (t : Nat) (r : MbxReq) (s : State) : Host.Outcome State Fault Refusal := .next (s.ring t 0x0F02 r bodyRecInstall)

/-- REC_RESTART (R421, R424): the ROM starts again. -/
def bodyRecRestart : Body := fun s _ _ r => if ¬ r.form 4 [(0, 4)] then ends s stBadArg else (s.restart, none)

/-- REC_RESTART (R424). -/
def execRecRestart (t : Nat) (r : MbxReq) (s : State) : Host.Outcome State Fault Refusal := .next (s.ring t 0x0F03 r bodyRecRestart)

end Sys2Proof.Machine
end

