-- ==== Sys2Proof/Machine/RegFile.lean ====
section
/-! DEFINITION. The register blocks as the host reads and writes them, and the ID rows (R9, R11, R211, R214, R217, R293, R388, Tables 09.4,
09.5, 12.7 and the register tables of every chapter). -/

namespace Sys2Proof.Machine

/-! Registers as words: each block lists (offset, 32-bit value); an offset not listed has no register. -/

/-- A word put together from its fields, each with its least bit. -/
def pack (l : List (Nat × Nat)) : Nat := (l.map fun x => x.2 * 2 ^ x.1).sum

/-- A 64-bit register as two words. -/
def twoWords (o v : Nat) : List (Nat × Nat) := [(o, v % 2 ^ 32), (o + 4, v / 2 ^ 32 % 2 ^ 32)]

/-- A number rounded down to a multiple of 65,536 where asked (R292). -/
def roundIf (coarsely : Bool) (v : Nat) : Nat := if coarsely then coarse v else v

/-- Whether a job homed on an engine runs (Table 02.10). -/
def State.homeRuns (s : State) (e : EngId) : Bool := s.jobs.any fun j => j.engines.head? = some e && j.started.isSome

/-- The engine register block (Tables 02.9-02.12, 03.7, 03.8, 04.5-04.13, 07.18, 08.8-08.14). -/
def State.engRegs (s : State) (e : EngId) (coarsely : Bool := false) : List (Nat × Nat) :=
  let g := s.eng[e]
  let m := g.mem
  let d := g.digests
  ((List.range 16).map fun n => (0x400 + 4 * n, (g.dlClass.toList.getD n 0).toNat))
    ++ [(0x440, pack [(0, (g.dlMissWas || g.dlMiss).toNat), (1, g.dlLastClass.toNat), (5, (s.homeRuns e).toNat), (6, (s.queueOf e).length)]),
      (0x444, g.dlMissCountWas.toNat)] ++ twoWords 0x448 (roundIf coarsely g.dlLastMiss.toNat)
    ++ [(0x500, (g.arithExcWas ||| g.arithExc).toNat), (0x504, g.satCountWas.toNat),
      (0x600, pack [(0, g.kvSteps.toNat), (4, kvFirstRow g.kvSteps.toNat)]),
      (0x604, pack [(0, (m.storeCeWas || m.storeCe).toNat), (1, (m.storeUeWas || m.storeUe).toNat), (2, (!m.storeMarked.isEmpty).toNat)]),
      (0x608, m.storeCeCountWas.toNat), (0x60C, pack [(0, m.ueRow.toNat), (31, m.ueRowValid.toNat)]),
      (0x610, pack [(0, m.spared.length), (6, min 63 m.storeMarked.length)]),
      (0x614, pack [(0, d.valid.toNat), (1, (d.mismatchWas || d.mismatch).toNat), (2, d.row.toNat), (15, (!d.stale.isEmpty).toNat)])]
    ++ twoWords 0x618 d.value.toNat
    ++ [(0x700, pack [(0, (m.actCeWas || m.actCe).toNat), (1, (m.actUeWas || m.actUe).toNat)]), (0x704, m.actCeCountWas.toNat),
      (0x708, pack [(0, m.ueAddr.toNat), (31, m.ueAddrValid.toNat)]), (0x70C, m.collisionsWas.toNat),
      (0x800, pack [(0, g.pageQueue.length), (9, g.walk.isSome.toNat)]),
      (0x900, (g.chkStatusWas ||| g.chkStatus).toNat), (0x904, g.chkCountWas.toNat)] ++ twoWords 0x908 (roundIf coarsely g.chkLast.toNat)
    ++ [(0x910, pack [(0, g.classification.toNat), (2, g.events30.toNat)]), (0x914, g.rerunMask.toNat)]

/-- The KV register block of a partition (Tables 07.10-07.17). -/
def State.kvRegs (s : State) (p : PartId) : List (Nat × Nat) :=
  let k := s.part[p].kv
  let full : Bool := k.spillPages ≠ 0 && decide (k.spillPages ≤ k.slots.length)
  let tableFull : Bool := k.valid && decide (k.tableEntries < k.entries + k.layers)
  [(0x000, pack [(0, k.valid.toNat), (1, decide (k.spillPages ≠ 0) |>.toNat), (2, full.toNat), (3, tableFull.toNat),
      (16, (k.seqs.filter fun q => q.state = 2).length)]),
    (0x004, (k.eventWas ||| k.event).toNat), (0x008, k.gen.toNat), (0x00C, (k.seqs.filter fun q => q.state = 1).length), (0x010, k.slots.length),
    (0x014, k.fullCountWas.toNat)]
    ++ engines.map (fun e =>
      let transit := (k.pages.filter fun x => x.1.1 = e && match x.2 with
        | .transit _ => true
        | _ => false).length
      (0x020 + 4 * e.val, if s.owns p e then pack [(0, (s.freePages p e).length), (12, transit), (24, s.eng[e].staging.length)] else 0))
    ++ [(0x040, k.reserve.toNat)]

/-- The host-port register block (Tables 02.7, 02.8, 02.13, 09.16-09.22). -/
def State.hostRegs (s : State) : List (Nat × Nat) :=
  let h := s.host
  [(0x100, s.now % 2 ^ 32), (0x104, h.postmarkHi.toNat),
    (0x110, pack [(0, s.safeStop.toNat), (1, s.pwr.deadlineStop.active.toNat), (3, s.pwr.stopEngine.toNat), (6, s.pwr.startSrc.toNat)]),
    (0x120, h.utcLo.toNat), (0x124, h.utcHi.toNat), (0x200, (h.errWas ||| h.err).toNat)] ++ twoWords 0x208 h.mbxDone.toNat
    ++ ((List.finRange 16).map fun n => (0x300 + 4 * n.val, pack [(0, h.win[n].rate.toNat), (16, h.win[n].burst.toNat)]))
    ++ ((List.finRange 16).map fun n =>
      let w := h.win[n]
      (0x340 + 4 * n.val, pack [(0, w.bound.isSome.toNat), (1, w.isSealed.toNat), (2, (w.bound.map Fin.val).getD 0), (5, w.engine.val),
        (8, w.tokens.toNat)]))
    ++ (List.finRange 7).map fun a =>
      let b := h.bulk[a]
      (0x380 + 4 * a.val, pack [(0, 64 - (b.frames.filter fun f => !f.clean).length),
        (7, (b.frames.filter fun f => f.dirtySince.isSome && !f.fetching).length),
        (14, min 8 (b.frames.filter fun f => f.fetching).length), (18, b.dropsWas.toNat)])

/-- STATE of a port (Table 10.12). -/
def PortState.code : PortState → Nat
  | .down => 0
  | .training => 1
  | .locked => 2
  | .openPort => 3
  | .fencedId => 4
  | .unused => 5

/-- A dead-letter entry (Table 10.10). -/
def DlqEntry.bytes (d : DlqEntry) : List Byte :=
  padTo 48 d.header ++ natLe d.status.toNat 2 ++ [BitVec.ofNat 8 d.port, if d.sent then 1 else 0] ++ natLe 0 4 ++ natLe d.postmark 8

/-- The CRR_ block (Tables 10.10, 10.12-10.19). -/
def State.crrRegs (s : State) : List (Nat × Nat) :=
  let f := s.fab
  ((List.finRange 9).flatMap fun n =>
    let q := f.ports[n]
    let o := 0x100 * n.val
    [(o, pack [(0, q.state.code), (3, q.departSeen.toNat), (4, (q.serves.map Fin.val).getD 7),
        (16, (f.ctxs.filter fun c => c.port.val = n.val).length)])] ++ twoWords (o + 8) q.farId.toNat
      ++ [(o + 0x10, q.fecCorrWas.toNat), (o + 0x14, q.fecUncorrWas.toNat),
        (o + 0x18, pack [(0, q.dropCrcWas.toNat), (8, q.dropAuthWas.toNat), (16, q.dropReplayWas.toNat), (24, q.dropOverrunWas.toNat)]),
        (o + 0x1C, q.refusalDropsWas.toNat)])
    ++ ((List.finRange 7).map fun p =>
      let d := f.dlq[p]
      (0x1000 + 0x10 * p.val, pack [(0, d.head.toNat), (8, d.tail.toNat), (14, d.full.toNat), (16, d.dropsWas.toNat)]))
    ++ [(0x1100, pack [(0, f.outstanding.length), (16, f.ctxs.length)])]
    ++ (List.finRange 7).flatMap fun p => (List.range 1024).map fun i =>
      (0x8000 + 0x1000 * p.val + 4 * i, match assoc (i / 16) f.dlq[p].slots with
        | none => 0
        | some d => field d.bytes (4 * (i % 16)) 4)

/-- The ENV_ block (Tables 11.8-11.11). -/
def State.envRegs (s : State) : List (Nat × Nat) :=
  ((List.finRange 7).flatMap fun p =>
    [(0x10 * p.val, pack [(0, (s.env.opens.filter fun v => v.part = p).length), (9, 256 - s.actShadow p)]),
      (0x10 * p.val + 4, pack [(0, 16384 - s.lpddrShadow p), (31, (!s.part[p].shadow.isEmpty).toNat)])])
    ++ [(0x100, (s.env.eventWas ||| s.env.event).toNat), (0x104, s.env.abortCountWas.toNat)]

/-- The owners of 16 slots, three bits each: 7 where no partition owns one (Tables 14.15, 16.7). -/
def State.slotOwners (s : State) (mask : Partition → Half) (own0 : Nat → Bool) : Nat :=
  pack ((List.range 16).map fun n =>
    (3 * n, if own0 n then 0 else
      match (List.finRange 7).find? fun (p : PartId) => p ≠ 0 && s.part[p].isThere && hasBit (mask s.part[p]) n with
      | none => 7
      | some p => p.val))

/-- The CVU_ block (Tables 16.5-16.7). -/
def State.cvuRegs (s : State) : List (Nat × Nat) :=
  ((List.finRange 4).map fun n =>
    let c := s.cvu.units[n]
    (4 * n.val, pack [(0, c.running.isSome.toNat), (1, (c.running.map fun j => j.part.val).getD 7),
      (4, c.queue.length + c.running.isSome.toNat)]))
    ++ [(0x10, (s.cvu.eventWas ||| s.cvu.event).toNat)] ++ twoWords 0x20 (s.slotOwners Partition.cvuSlots fun n => n % 8 = 0)

/-- The VID_ block (Tables 14.12-14.15). -/
def State.vidRegs (s : State) : List (Nat × Nat) :=
  ((List.finRange 3).map fun n =>
    (4 * n.val, pack [(0, (s.vid.streams.filter fun v => v.unit = n).length), (5, decide (n = 2 ∧ 2 ≤ s.pwr.level.toNat) |>.toNat),
      (6, (s.vid.working.any fun w => w.1 = n && assoc w.1 s.vid.slotAt = some s.vidStart).toNat)]))
    ++ [(0x10, (s.vid.eventWas ||| s.vid.event).toNat), (0x14, s.vid.damagedCountWas.toNat)] ++ twoWords 0x20 (s.slotOwners Partition.vidSlots fun _ => false)

/-- The SMS_ block (Tables 15.14-15.19): the offsets at which it has registers. -/
def State.smsRegs (s : State) : List (Nat × Nat) :=
  let b := s.sms.block
  ([0x00, 0x04, 0x08, 0x0C] ++ (List.range 4).map (0x20 + 4 * ·) ++ (List.range 8).map (0x40 + 4 * ·)
    ++ (List.range 16).map (0x80 + 4 * ·)).map fun o => (o, field b o 4)

/-- The debug bits in effect: those of confidential partitions read 0 (Table 12.12). -/
def State.debugBits (s : State) : Nat :=
  ((List.finRange 7).map fun p => if hasBit s.sec.debug p.val ∧ ¬ s.part[p].confidential then 2 ^ p.val else 0).sum

/-- The SEC_ block (Tables 12.10-12.15). -/
def State.secRegs (s : State) : List (Nat × Nat) :=
  let c := s.sec
  [(0x00, pack [(0, c.lifecycle.toNat), (3, c.debugFused.toNat)])] ++ twoWords 0x08 c.nonce.toNat ++ [(0x10, s.debugBits)]
    ++ ((List.finRange 7).map fun p =>
      let q := s.part[p]
      (0x20 + 4 * p.val, pack [(0, q.isThere.toNat), (1, q.confidential.toNat), (2, q.dissolving.isSome.toNat), (3, q.owner.isSome.toNat),
        (4, q.engines.toNat), (10, q.kvSteps.toNat)]))
    ++ twoWords 0x40 (pack [(0, c.xmssNext.toNat), (28, c.epoch.toNat), (40, c.exhausted.toNat)]) ++ [(0x50, (c.eventWas ||| c.event).toNat)]

/-- The BST_ block (Tables 17.7-17.10). -/
def State.bstRegs (s : State) : List (Nat × Nat) :=
  let b := s.bist
  let left := if b.granted = 0 then 0 else ceilDiv (b.grantEnd - s.now) (1000 * cycMs)
  [(0x00, b.config),
    (0x04, pack [(0, b.goldenValid.toNat), (1, s.engMask fun g => g.bist.inSlice.isSome), (7, b.granted.toNat), (13, left),
      (25, (b.failedWas || b.failed).toNat)])]
    ++ (engines.map fun e => (0x10 + 4 * e.val, pack [(0, s.eng[e].bist.position.toNat), (10, s.eng[e].bist.rotations.toNat)]))
    ++ [(0x40, b.skippedWas.toNat)]

/-- The PWR_ block (Tables 18.8-18.10): power in multiples of 8 W while a confidential partition exists (R294). -/
def State.pwrRegs (s : State) : List (Nat × Nat) :=
  let watts := if s.anyConfidential then s.pwr.watts.toNat / 8 * 8 else s.pwr.watts.toNat
  [(0x00, pack [(0, s.pwr.vin.toNat), (16, watts)]), (0x04, (s.pwr.eventWas ||| s.pwr.event).toNat)]
    ++ (List.range 6).map fun n => (0x10 + 4 * n, s.pwr.domains.toNat / 2 ^ (32 * n) % 2 ^ 32)

/-- The CLK_ block (Table 18.11). -/
def State.clkRegs (s : State) : List (Nat × Nat) :=
  [(0x00, pack [(0, s.pwr.source.toNat), (1, (s.pwr.refLostWas || s.pwr.refLost).toNat), (2, s.pwr.rootLocked.toNat), (3, s.engMask fun g => g.clkNominal)])]

/-- The THM_ block (Tables 18.12-18.14): while a confidential partition exists, the maximum of the last window in whole degrees (R294). -/
def State.thmRegs (s : State) : List (Nat × Nat) :=
  let tj := if s.anyConfidential then BitVec.ofInt 12 (s.pwr.lastWindow.toInt / 4 * 4) else s.pwr.tjMax
  [(0x00, pack [(0, s.pwr.level.toNat), (4, tj.toNat), (16, s.pwr.coolant.toNat), (28, s.pwr.thmStop.active.toNat)]),
    (0x04, (s.pwr.thmEventWas ||| s.pwr.thmEvent).toNat), (0x08, 0)]

/-- ROLE of TWN_STATUS (Table 13.6). -/
def TwinRole.code : TwinRole → Nat
  | .unpaired => 0
  | .active => 1
  | .inStep => 2
  | .joining => 3
  | .outOfStep => 4
  | .gaveUp => 5

/-- The TWN_ block (Tables 13.6-13.10). -/
def State.twnRegs (s : State) : List (Nat × Nat) :=
  let w := s.twin
  [(0x00, pack [(0, w.role.code), (3, w.claimOut.toNat), (4, w.claimIn.toNat), (5, decide (s.fab.ports[twinLink].state = .openPort) |>.toNat),
      (6, (decide (w.role = .active) && w.peerInStep).toNat), (7, w.stop.active.toNat)]),
    (0x04, (w.eventWas ||| w.event).toNat), (0x08, 0)] ++ twoWords 0x10 w.lastTakeover.toNat
    ++ [(0x18, pack [(0, w.phase.toNat), (2, w.pass.toNat), (10, w.abandoned.toNat), (17, w.pending.toNat)])]

/-- The registers of block `k` of Table 09.4, in its order: CRR_, SWT_, ENV_, PGH_, CVU_, VID_, SMS_, SEC_, BST_, PWR_, CLK_, THM_, TWN_. SWT_ has
none. -/
def State.blockRegs (s : State) (k : Nat) : List (Nat × Nat) := match k with
  | 0 => s.crrRegs
  | 2 => s.envRegs
  | 3 => [(0, pack [(0, (s.fab.pghSatWas || s.fab.pghSat).toNat), (16, s.fab.pghLast.toNat)])]
  | 4 => s.cvuRegs
  | 5 => s.vidRegs
  | 6 => s.smsRegs
  | 7 => s.secRegs
  | 8 => s.bstRegs
  | 9 => s.pwrRegs
  | 10 => s.clkRegs
  | 11 => s.thmRegs
  | 12 => s.twnRegs
  | _ => []

/-! Where a register lies (Table 09.4). -/

/-- The register blocks. -/
inductive RegBlock where
  | host
  | eng (e : EngId)
  | kv (p : PartId)
  | block (k : Nat)
  deriving DecidableEq, Repr

/-- The register block that an address lies in, and the offset of its word. -/
def regAt (addr : Nat) : Option (RegBlock × Nat) :=
  let o := addr % 65536 / 4 * 4
  let hi := addr / 65536
  if hi = 1 then some (.host, o)
  else if h : 0x40 ≤ hi ∧ hi < 0x46 then some (.eng ⟨hi - 0x40, by omega⟩, o)
  else if h : hi = 0x50 ∧ o < 0x6000 then some (.kv ⟨o / 0x1000 + 1, by omega⟩, o % 0x1000)
  else if 0x60 ≤ hi ∧ hi < 0x6D then some (.block (hi - 0x60), o)
  else none

/-- The words of a block. -/
def State.regsOf (s : State) : RegBlock → List (Nat × Nat)
  | .host => s.hostRegs
  | .eng e => s.engRegs e
  | .kv p => s.kvRegs p
  | .block k => s.blockRegs k

/-- Whether a partition is confidential. -/
def State.secret (s : State) (p : PartId) : Bool := s.part[p].isThere && s.part[p].confidential

/-- Whether the host's view of a confidential partition leaves a register out: it reads 0 and ignores writes (R293, Table 12.7). -/
def State.hidden (s : State) : RegBlock → Nat → Bool
  | .eng e, o => (s.keeper e).any s.secret && !(decide (0x400 ≤ o ∧ o < 0x440) || o = 0x910 || o = 0x914)
  | .kv p, _ => s.secret p
  | .block k, o => k = 2 && o % 16 ≤ 4 && if h : o / 16 < 7 then s.secret ⟨o / 16, h⟩ else false
  | .host, _ => false

/-- The word of a register as the host reads it; none where no register is defined (R211, R214). -/
def State.regWord (s : State) (addr : Nat) : Option Nat := match regAt addr with
  | none => none
  | some (b, o) => (assoc o (s.regsOf b)).map fun v => if s.hidden b o then 0 else v

/-! RC fields (R11, R214). -/

/-- An engine's RC fields once `v` has been read. -/
def Engine.rcRead (g : Engine) (o v : Nat) : Engine := match o with
  | 0x444 => { g with dlMissCountWas := rcTake g.dlMissCountWas v }
  | 0x504 => { g with satCountWas := rcTake g.satCountWas v }
  | 0x608 => { g with mem := { g.mem with storeCeCountWas := rcTake g.mem.storeCeCountWas v } }
  | 0x704 => { g with mem := { g.mem with actCeCountWas := rcTake g.mem.actCeCountWas v } }
  | 0x70C => { g with mem := { g.mem with collisionsWas := rcTake g.mem.collisionsWas v } }
  | 0x904 => { g with chkCountWas := rcTake g.chkCountWas v }
  | _ => g

/-- A port's RC fields once `v` has been read. -/
def Port.rcRead (q : Port) (o v : Nat) : Port := match o with
  | 0x10 => { q with fecCorrWas := rcTake q.fecCorrWas v }
  | 0x14 => { q with fecUncorrWas := rcTake q.fecUncorrWas v }
  | 0x18 => { q with
      dropCrcWas := rcTake q.dropCrcWas (v % 256), dropAuthWas := rcTake q.dropAuthWas (v / 2 ^ 8 % 256)
      dropReplayWas := rcTake q.dropReplayWas (v / 2 ^ 16 % 256), dropOverrunWas := rcTake q.dropOverrunWas (v / 2 ^ 24) }
  | 0x1C => { q with refusalDropsWas := rcTake q.refusalDropsWas v }
  | _ => q

/-- The state once the word `v` of a register has been read: the RC fields in it lose what was returned, and HST_POSTMARK_LO latches the
upper half (R40, R214). -/
def State.rcRead (s : State) (b : RegBlock) (o v : Nat) : State := match b with
  | .eng e => s.updEng e fun g => g.rcRead o v
  | .kv p => if o = 0x014 then s.updKv p fun k => { k with fullCountWas := rcTake k.fullCountWas v } else s
  | .host =>
    if o = 0x100 then s.updHost fun h => { h with postmarkHi := BitVec.ofNat 32 (s.now / 2 ^ 32) }
    else if h : 0x380 ≤ o ∧ o < 0x39C then
      s.updBulk ⟨(o - 0x380) / 4, by omega⟩ fun b => { b with dropsWas := rcTake b.dropsWas (v / 2 ^ 18) }
    else s
  | .block k =>
    if k = 0 then
      if h : o < 0x900 then s.updPort ⟨o / 0x100, by omega⟩ fun q => q.rcRead (o % 0x100) v
      else if h : 0x1000 ≤ o ∧ o < 0x1070 ∧ o % 16 = 0 then
        let p : PartId := ⟨(o - 0x1000) / 16, by omega⟩
        s.updFab fun b => { b with dlq := b.dlq.set p { b.dlq[p] with dropsWas := rcTake b.dlq[p].dropsWas (v / 2 ^ 16) } }
      else s
    else if k = 2 ∧ o = 0x104 then s.updEnv fun u => { u with abortCountWas := rcTake u.abortCountWas v }
    else if k = 5 ∧ o = 0x14 then s.updVid fun x => { x with damagedCountWas := rcTake x.damagedCountWas v }
    else if k = 8 ∧ o = 0x40 then s.updBist fun b => { b with skippedWas := rcTake b.skippedWas v }
    else s

/-! Writes (R9, R11): reserved bits are ignored, and so is a write of a read-only field. -/

/-- A write of a register of an engine block. -/
def Engine.regWrite (g : Engine) (o v : Nat) : Engine :=
  if h : 0x400 ≤ o ∧ o < 0x440 then
    if v % 2 = 1 ∧ v / 4 % 2 = 1 then g else { g with dlClass := g.dlClass.set ((o - 0x400) / 4) (BitVec.ofNat 32 v &&& 0xFFFF0007) (by omega) }
  else match o with
    | 0x440 => { g with dlMissWas := g.dlMissWas && !bitAt v 0 }
    | 0x500 => { g with arithExcWas := w1c g.arithExcWas v }
    | 0x604 => { g with mem := { g.mem with storeCeWas := g.mem.storeCeWas && !bitAt v 0, storeUeWas := g.mem.storeUeWas && !bitAt v 1 } }
    | 0x614 => { g with digests := { g.digests with mismatchWas := g.digests.mismatchWas && !bitAt v 1 } }
    | 0x700 => { g with mem := { g.mem with actCeWas := g.mem.actCeWas && !bitAt v 0, actUeWas := g.mem.actUeWas && !bitAt v 1 } }
    | 0x900 => { g with chkStatusWas := w1c g.chkStatusWas v }
    | 0x914 => { g with rerunMask := BitVec.ofNat 16 v }
    | _ => g

/-- A write of a register of the KV block. -/
def KvPool.regWrite (k : KvPool) (o v : Nat) : KvPool := match o with
  | 0x004 => { k with eventWas := w1c k.eventWas v }
  | 0x040 => if v % 128 ≤ 64 then { k with reserve := BitVec.ofNat 7 v } else k
  | _ => k

/-- A CLEAR of a source of SAFE_STOP with its own register; the thermal source is released below level 3 alone (R46, R316, R408). -/
def State.takeClear (s : State) (src : StopSrc) : State := match src with
  | .deadline => s.updPwr fun p => { p with deadlineStop := clearStop p.deadlineStop s.now }
  | .twin => s.updTwin fun w => { w with stop := clearStop w.stop s.now }
  | .thermal => s.updPwr fun p =>
    { p with thmStop := if p.level = 3 then (if p.thmStop.active then { p.thmStop with remembered := true } else p.thmStop)
        else clearStop p.thmStop s.now }

/-- A write of HST_UTC_HI sets UTC (R235, Table 09.17). -/
def State.setUtc (s : State) (v : Nat) : State := s.updHost fun h =>
  { h with utcHi := BitVec.ofNat 32 v, utcBase := some (h.utcLo.toNat + 2 ^ 32 * (v % 2 ^ 32), s.now) }

/-- A write of HST_DWINn_QUOTA: a BURST of 0 is ignored, and the bucket is full (R236, Table 09.20). -/
def State.setQuota (s : State) (w : WinId) (v : Nat) : State := s.updWin w fun x =>
  let burst := if v / 65536 % 256 = 0 then x.burst else BitVec.ofNat 8 (v / 65536)
  { x with rate := BitVec.ofNat 16 v, burst := burst, tokens := burst }

/-- A write of a ring's HEAD frees what has been read (R260, Table 10.18). The value that it holds frees nothing (log entry 52). -/
def State.setHead (s : State) (p : PartId) (v : Nat) : State := s.updFab fun b =>
  let d := b.dlq[p]
  let head := BitVec.ofNat 6 v
  { b with dlq := b.dlq.set p { d with head := head, full := d.full && decide (head = d.head) } }

/-- A write of a register of the host-port block. -/
def State.hostRegWrite (s : State) (o v : Nat) : State :=
  if h : 0x300 ≤ o ∧ o < 0x340 then s.setQuota ⟨(o - 0x300) / 4, by omega⟩ v
  else match o with
    | 0x110 => if bitAt v 2 then s.takeClear .deadline else s
    | 0x120 => s.updHost fun h => { h with utcLo := BitVec.ofNat 32 v }
    | 0x124 => s.setUtc v
    | 0x200 => s.updHost fun h => { h with errWas := w1c h.errWas v }
    | _ => s

/-- Whether a write of a BST_ register is accepted (R388). -/
def State.bstWritable (s : State) : Bool :=
  s.sec.lifecycle = 1 || s.sec.lifecycle = 4 || (s.sec.lifecycle = 3 && s.bist.granted ≠ 0)

/-- A write of a register of block `k` of Table 09.4. -/
def State.blockRegWrite (s : State) (k o v : Nat) : State := match k, o with
  | 0, o => if h : 0x1000 ≤ o ∧ o < 0x1070 ∧ o % 16 = 0 then s.setHead ⟨(o - 0x1000) / 16, by omega⟩ v else s
  | 2, 0x100 => s.updEnv fun u => { u with eventWas := w1c u.eventWas v }
  | 3, 0 => s.updFab fun b => { b with pghSatWas := b.pghSatWas && !bitAt v 0 }
  | 4, 0x10 => { s with cvu := { s.cvu with eventWas := w1c s.cvu.eventWas v } }
  | 5, 0x10 => s.updVid fun x => { x with eventWas := w1c x.eventWas v }
  | 7, 0x10 => s.updSec fun c => { c with debug := BitVec.ofNat 7 ((List.finRange 7).map fun (p : PartId) =>
      if (if s.part[p].confidential then hasBit c.debug p.val else bitAt v p.val) then 2 ^ p.val else 0).sum }
  | 7, 0x50 => s.updSec fun c => { c with eventWas := w1c c.eventWas v }
  | 8, 0x00 => if s.bstWritable then s.updBist fun b => b.setConfig v else s
  | 8, 0x04 => if s.bstWritable then s.updBist fun b => { b with failedWas := b.failedWas && !bitAt v 25 } else s
  | 9, 0x04 => s.updPwr fun p => { p with eventWas := w1c p.eventWas v }
  | 10, 0x00 => s.updPwr fun p => { p with refLostWas := p.refLostWas && !bitAt v 1 }
  | 11, 0x04 => s.updPwr fun p => { p with thmEventWas := w1c p.thmEventWas v }
  | 11, 0x08 => if bitAt v 0 then s.takeClear .thermal else s
  | 12, 0x04 => s.updTwin fun w => { w with eventWas := w1c w.eventWas v }
  | 12, 0x08 => if bitAt v 0 then s.takeClear .twin else s
  | _, _ => s

/-- A write of the register at a word of a block, by the access types of its fields. -/
def State.regWrite (s : State) (b : RegBlock) (o v : Nat) : State :=
  if s.hidden b o then s
  else match b with
    | .host => s.hostRegWrite o v
    | .eng e => s.updEng e fun g => g.regWrite o v
    | .kv p => s.updKv p fun k => k.regWrite o v
    | .block k => s.blockRegWrite k o v

/-! ID rows (Table 09.5). -/

/-- ASCII "MW-XB6-L54-A" padded to 16 bytes. -/
def partNumber : List Byte :=
  padTo 16 [0x4D, 0x57, 0x2D, 0x58, 0x42, 0x36, 0x2D, 0x4C, 0x35, 0x34, 0x2D, 0x41]

/-- FW_VERSIONS: the images that run, and the SM image of the metrology die. -/
def State.fwVersions (s : State) : List Byte :=
  ((List.range 4).flatMap fun i => natLe (((assoc (i + 1) s.fw.running).map fun (x : Word × Half) => x.1.toNat).getD 0) 4) 
    ++ natLe (imageHead (memRead s.sms.nor (smsSlot s.sms.slotB) 64)).version.toNat 4

/-- The ID rows' bytes (R217). -/
def State.idRows (s : State) : List Byte :=
  padTo 0x100 (partNumber ++ [0x03, 0xB1, 0xA2, BitVec.ofNat 8 s.sec.lifecycle.toNat] ++ natLe s.pwr.slotId.toNat 2 ++ [1, 0]
    ++ padTo 16 s.sec.serial ++ s.fwVersions) ++ s.sms.swid

end Sys2Proof.Machine
end

