-- ==== Sys2Proof/Machine/HostRows.lean ====
section
/-! DEFINITION. What the host does at the host port: mode registers, register reads and writes, direct windows and the bulk area (R40, R46,
R205, R208-R214, R219-R226, R235, R236, R260, R289, R316, R408, R440, Tables 09.2, 09.3, 09.8, 12.5). -/

namespace Sys2Proof.Machine

/-- The not-ready pattern (R211). -/
def notReadyBytes (n : Nat) : List Byte := List.replicate n 0xE7

/-- A read answered (R211). -/
def State.answer (s : State) (bs : List Byte) : State := s.updHost fun h => { h with answered := true, rdata := bs }

/-- A bit of HST_ERR set. -/
def State.hostErr (s : State) (i : Nat) : State := s.updHost fun h => { h with err := setBit h.err i }

/-- Whether only the ID rows, the status row and the recovery mailbox are mapped (R214, R424). -/
def State.recovering (s : State) : Bool := s.pwr.phase = .recovery

/-! The LPDDR5 device (R208-R210, R440). -/

/-- MODE_REGISTER_WRITE (R209). -/
def execModeRegisterWrite (t : Nat) (ch : Fin 2) (mr v : Byte) (supported : Bool) (s : State) : Host.Outcome State Fault Refusal :=
  let s := s.advance t
  .next (if ¬ s.host.hpReady then s
    else if supported then s.updHost fun h => { h with modeRegs := h.modeRegs.set ch (assocSet mr v h.modeRegs[ch]) }
    else s.hostErr 0)

/-- A mode register as it reads (Table 09.2). The encodings and defaults of JESD209-5B are values of the part. -/
def State.modeReg (s : State) (ch : Fin 2) (mr : Byte) : Byte :=
  if mr = 5 then 0x5D else if mr = 6 then 0xB1 else if mr = 7 then 0x03
  else if mr = 8 then Config.partByte 31 8
  else (assoc mr s.host.modeRegs[ch]).getD (Config.partByte 31 mr.toNat)

/-- MODE_REGISTER_READ (R210). -/
def execModeRegisterRead (t : Nat) (ch : Fin 2) (mr : Byte) (s : State) : Host.Outcome State Fault Refusal :=
  let s := s.advance t
  .next (if s.host.hpReady then s.answer [s.modeReg ch mr] else s)

/-- UNSUPPORTED_COMMAND (R209). -/
def execUnsupportedCommand (t : Nat) (_ch : Fin 2) (s : State) : Host.Outcome State Fault Refusal :=
  let s := s.advance t
  .next (if s.host.hpReady then s.hostErr 0 else s)

/-- REFRESH (Table 09.1): accepted, with no effect. -/
def execRefresh (t : Nat) (_ch : Fin 2) (s : State) : Host.Outcome State Fault Refusal := .next (s.advance t)

/-- HOST_PORT_TRAINING (Table 09.1). -/
def execHostPortTraining (t : Nat) (ch : Fin 2) (s : State) : Host.Outcome State Fault Refusal :=
  let s := s.advance t
  .next (if s.host.hpReady then s.updHost fun h => { h with trained := h.trained.set ch true } else s)

/-- RESET_N (R440): the channel's mode registers and training are lost, and nothing else. -/
def execResetN (t : Nat) (ch : Fin 2) (s : State) : Host.Outcome State Fault Refusal :=
  .next ((s.advance t).updHost fun h => { h with modeRegs := h.modeRegs.set ch [], trained := h.trained.set ch false })

/-! Reading an address (Table 09.3). -/

/-- A mailbox's 4 KiB as the host reads them (R211, Table 09.10): the request half as written, its 106 reserved bytes in their places. -/
def Mailbox.page (b : Mailbox) : List Byte :=
  let req : List Byte := match b.request with
    | none => []
    | some (op, r) =>
      let spare := padTo 106 r.reserved
      natLe op.toNat 2 ++ natLe r.argBytes.toNat 2 ++ natLe r.env.toNat 2 ++ spare.take 2 ++ natLe r.tag.toNat 4
        ++ (spare.drop 2).take 4 ++ natLe r.respAddr.toNat 8 ++ (spare.drop 6).take 40 ++ padTo 1920 r.args ++ natLe r.doorbell.toNat 4
        ++ spare.drop 46
  let resp : List Byte :=
    if b.resp.valid then
      padTo 64 (natLe b.resp.doneSeq.toNat 4 ++ natLe b.resp.status.toNat 2 ++ natLe b.resp.respBytes.toNat 2 ++ natLe b.resp.tag.toNat 4
        ++ natLe 0 4 ++ natLe b.resp.postmark.toNat 8) ++ padTo 1984 b.resp.bytes
    else if b.lastDoorbell = 0 then List.replicate 2048 0
    else notReadyBytes 2048
  padTo 2048 req ++ resp

/-- `n` bytes of a window's rows as the host reads them in cycle `now` (R219, R221, R223): a trigger row reads zero. -/
def DWin.read (w : DWin) (now a n : Nat) : List Byte :=
  if a / 64 ≥ 1008 then List.replicate n 0
  else if w.hides (a / 64) now then notReadyBytes n
  else memRead w.rows a n

/-- The sealed window of a partition (R224). -/
def State.sealedWin (s : State) (p : PartId) : Option WinId :=
  (List.finRange 16).find? fun (w : WinId) => s.host.win[w].bound = some p && s.host.win[w].isSealed

/-- What a bulk page reads as: its bytes, or the not-ready pattern (R226). -/
def State.bulkSeen (s : State) (a : PartId) (off n : Nat) : List Byte := match s.host.bulk[a].frame? (off / 4096) with
  | none => notReadyBytes n
  | some f => if f.fetching then notReadyBytes n else memRead f.bytes (off % 4096) n

/-- The `n` bytes that the host reads at an address, inside one row (Table 09.3). -/
def State.seen (s : State) (addr n : Nat) : List Byte :=
  let cut := fun (l : List Byte) (o : Nat) => padTo n (l.drop o)
  if addr < 0x1000 then cut s.idRows addr
  else if addr < 0x2000 then cut s.statusRow (addr - 0x1000)
  else if 0xFFF000 ≤ addr ∧ addr < 0x1000000 then cut (s.host.mbx[(64 : MbxId)]).page (addr - 0xFFF000)
  else if s.recovering then List.replicate n 0
  else if h : 0x100000 ≤ addr ∧ addr < 0x140000 then cut (s.host.mbx[(⟨(addr - 0x100000) / 4096, by omega⟩ : MbxId)]).page (addr % 4096)
  else if h : 0x200000 ≤ addr ∧ addr < 0x300000 then
    let w := s.host.win[(⟨(addr - 0x200000) / 65536, by omega⟩ : WinId)]
    if w.isSealed then List.replicate n 0 else w.read s.now (addr % 65536) n
  else if h : 0x10000000 ≤ addr ∧ addr < 0x1E000000 then
    let p : PartId := ⟨(addr - 0x10000000) / 2 ^ 25, by omega⟩
    let off := (addr - 0x10000000) % 2 ^ 25
    if off < 65536 then (match s.sealedWin p with
      | none => List.replicate n 0
      | some w => s.host.win[w].read s.now off n)
    else s.bulkSeen p (off - 65536) n
  else match s.regWord (addr / 4 * 4) with
    | none => List.replicate n 0
    | some v => cut (natLe v 4) (addr % 4)

/-- HST_POSTMARK_LO_READ (R40, Table 02.7). -/
def execHstPostmarkLoRead (t : Nat) (s : State) : Host.Outcome State Fault Refusal :=
  let s := s.advance t
  .next (if ¬ s.host.hpReady then s
    else if s.recovering then s.answer (List.replicate 4 0)
    else (s.answer (natLe s.now 4)).rcRead .host 0x100 (s.now % 2 ^ 32))

/-- RC_FIELD_READ (R214): the word at the address is returned, and exactly that is subtracted from its RC fields. -/
def execRcFieldRead (t : Nat) (addr : Word) (s : State) : Host.Outcome State Fault Refusal :=
  let s := s.advance t
  let a := addr.toNat / 4 * 4
  .next (if ¬ s.host.hpReady then s
    else
      let r := s.answer (s.seen a 4)
      match regAt a, s.regWord a with
      | some (b, o), some v => if s.recovering then r else r.rcRead b o v
      | _, _ => r)

/-! Writing a register (R9, R11, R211). -/

/-- Whether a write of an address is ignored and noted in HST_ERR.UNMAPPED_WRITE (R211, R214, R224). -/
def State.unmapped (s : State) (addr : Nat) : Bool :=
  if addr < 0x2000 then true
  else if 0xFFF000 ≤ addr ∧ addr < 0x1000000 then decide (0x800 ≤ addr % 4096)
  else if s.recovering then true
  else if 0x100000 ≤ addr ∧ addr < 0x140000 then decide (0x800 ≤ addr % 4096)
  else if 0x200000 ≤ addr ∧ addr < 0x300000 then decide (960 ≤ addr % 65536 / 64 ∧ addr % 65536 / 64 < 1008)
  else if h : 0x10000000 ≤ addr ∧ addr < 0x1E000000 then
    let p : PartId := ⟨(addr - 0x10000000) / 2 ^ 25, by omega⟩
    let off := (addr - 0x10000000) % 2 ^ 25
    if off < 65536 then (s.sealedWin p).isNone || decide (960 ≤ off / 64 ∧ off / 64 < 1008)
    else !s.part[p].isThere
  else (s.regWord addr).isNone

/-- A word written to an address by the host: to its register, or ignored. -/
def State.hostWrite (s : State) (addr v : Nat) : State :=
  if ¬ s.host.hpReady then s
  else if s.unmapped addr then s.hostErr 1
  else match regAt addr with
    | none => s
    | some (b, o) => s.regWrite b o v

/-- REGISTER_WRITE (R9, R11). -/
def execRegisterWrite (t : Nat) (addr : Word) (v : Dword) (s : State) : Host.Outcome State Fault Refusal :=
  .next ((s.advance t).hostWrite addr.toNat (v.toNat % 2 ^ 32))

/-- UNMAPPED_WRITE (R211). -/
def execUnmappedWrite (t : Nat) (addr : Word) (s : State) : Host.Outcome State Fault Refusal :=
  let s := s.advance t
  .next (if s.host.hpReady ∧ s.unmapped addr.toNat then s.hostErr 1 else s)

/-- HST_SAFE_STOP_CLEAR (R46, Table 02.13). -/
def execHstSafeStopClear (t : Nat) (v : Word) (s : State) : Host.Outcome State Fault Refusal :=
  .next ((s.advance t).hostWrite 0x10110 v.toNat)

/-- TWN_CONTROL_CLEAR_STOP (R316, Table 13.8). -/
def execTwnControlClearStop (t : Nat) (v : Word) (s : State) : Host.Outcome State Fault Refusal :=
  .next ((s.advance t).hostWrite 0x6C0008 v.toNat)

/-- THM_CONTROL_CLEAR_STOP (R408, Table 18.14). -/
def execThmControlClearStop (t : Nat) (v : Word) (s : State) : Host.Outcome State Fault Refusal :=
  .next ((s.advance t).hostWrite 0x6B0008 v.toNat)

/-- HST_UTC_HI_WRITE (R235, Table 09.17). -/
def execHstUtcHiWrite (t : Nat) (v : Word) (s : State) : Host.Outcome State Fault Refusal :=
  .next ((s.advance t).hostWrite 0x10124 v.toNat)

/-- HST_DWIN_QUOTA_WRITE (R236, Table 09.20). -/
def execHstDwinQuotaWrite (t : Nat) (w : WinId) (v : Word) (s : State) : Host.Outcome State Fault Refusal :=
  .next ((s.advance t).hostWrite (0x10300 + 4 * w.val) v.toNat)

/-- CRR_DLQ_HEAD_WRITE (R260, Table 10.18). -/
def execCrrDlqHeadWrite (t : Nat) (p : PartId) (v : Word) (s : State) : Host.Outcome State Fault Refusal :=
  .next ((s.advance t).hostWrite (0x601000 + 0x10 * p.val) v.toNat)

/-- A window's bucket at the start of a period (R236). -/
def DWin.refill (w : DWin) : DWin :=
  if w.rate = 0 then w else { w with tokens := BitVec.ofNat 8 (min w.burst.toNat (w.tokens.toNat + w.rate.toNat)) }

/-- DWIN_QUOTA_PERIOD (R236): the start of a 65,536-cycle period, once. -/
def execDwinQuotaPeriod (t : Nat) (s : State) : Host.Outcome State Fault Refusal :=
  let s := s.advance t
  .next (if s.now % 65536 ≠ 0 ∨ s.host.quotaAt = some s.now then s
    else s.updHost fun h => { h with win := h.win.map DWin.refill, quotaAt := some s.now })

/-! Direct windows. -/

/-- Bytes of a data row sent on to activation SRAM, while the engine takes them (R97, R220, R233). -/
def State.forwardRow (s : State) (d : DWin) (row off : Nat) (bs : List Byte) (f : Flt) : State :=
  if d.inputRows ≤ row ∨ s.eng[d.engine].fenced ∨ s.resetting (.engine d.engine) then s
  else (s.sideWrite d.engine (64 * (d.inputLine + row) + off) bs f).1

/-- HOST_DATA_ROW_WRITE (R214, R220, R223, R224): a row of a sealed window is forwarded by its seal entry. -/
def execHostDataRowWrite (t : Nat) (w : WinId) (row : Nat) (off : Nat) (bs : List Byte) (f : Flt) (s : State) :
    Host.Outcome State Fault Refusal :=
  let s := s.advance t
  let d := s.host.win[w]
  .next (if s.host.hpReady ∧ s.recovering then s.hostErr 1
    else if ¬ s.host.hpReady ∨ d.bound.isNone ∨ 960 ≤ row ∨ 64 < off + bs.length then s
    else
      let s := s.updWin w fun x => (x.store (64 * row + off) bs).ready [row]
      if d.isSealed then s else s.forwardRow d row off bs f)

/-- A trigger refused: its status row says so (R51, R222). The refusal is decided in cycle 12, 20 cycles later through a sealed window
(R28), and is readable 12 cycles after that. -/
def State.refuseRow (s : State) (w : WinId) (row : Nat) (tag : Word) (st : Status) (predicted : Nat := 0) : State :=
  let c := s.now + if s.host.win[w].isSealed then 32 else 12
  s.jobRow w row st tag c predicted 0xFF (c + 12)

/-- The trigger of a window that has passed R221: quota, gates and admission (R49, R51, R163, R236). Through a sealed window the input
takes 20 cycles more (R28; log entry 53). -/
def State.windowTrigger (s : State) (w : WinId) (row : Nat) (tag : Word) (c : Schedule) (seq budget : Nat) : State :=
  let d := s.host.win[w]
  if d.rate ≠ 0 ∧ d.tokens = 0 then s.refuseRow w row tag stRefusedQuota
  else
    let s := if d.rate = 0 then s else s.updWin w fun x => { x with tokens := x.tokens - 1 }
    let late := if d.isSealed then 20 else 0
    match s.triggerGate c with
    | some st => s.refuseRow w row tag st
    | none => match s.takeJob (s.offerOf c s.now (16 + late) budget seq (.window w row tag)) (some (s.now + 14 + late)) with
      | .inl (s, st, k) => s.refuseRow w row tag st k
      | .inr (s, _) => s

/-- TRIGGER_RECORD (R214, R220-R222, R289, Table 09.8). -/
def execTriggerRecord (t : Nat) (w : WinId) (bs : List Byte) (s : State) : Host.Outcome State Fault Refusal :=
  let s := s.advance t
  let d := s.host.win[w]
  let row := field bs 12 2
  let tag : Word := BitVec.ofNat 32 (field bs 8 4)
  .next (if ¬ s.host.hpReady then s
    else if s.recovering then s.hostErr 1
    else match d.bound with
      | none => s.hostErr 3
      | some p =>
        if d.releasing.isSome ∨ row < 960 ∨ 1007 < row then s.hostErr 3
        else
          let s := s.updWin w fun x => { x.unready [row] with failedEntry := false }
          match s.trigger? p (field bs 0 2) with
          | none => s.refuseRow w row tag stBadArg
          | some c =>
            if ¬ allZero (bs.drop 14) then s.refuseRow w row tag stBadArg
            else if d.failedEntry then s.refuseRow w row tag stDenied
            else s.windowTrigger w row tag c (field bs 2 2) (field bs 4 4))

/-- Plaintext rows forwarded one after another. -/
def State.forwardRows (s : State) (d : DWin) (row : Nat) : Nat → List Byte → State
  | 0, _ => s
  | n + 1, bs => (s.forwardRow d row 0 (bs.take 64) {}).forwardRows d (row + 1) n (bs.drop 64)

/-- The plaintext that a host seal entry opens, and the state with its MSG_SEQ accepted (R289, Table 12.5): the tag is checked over the ciphertext of
its rows with bytes 0-15 of the entry. -/
def State.openEntry (s : State) (w : WinId) (p : PartId) (bs : List Byte) : Option (State × List Byte) :=
  let seq := field bs 0 8
  let first := field bs 8 2
  let rows := field bs 10 2
  let ep := field bs 12 2
  if 927 < first ∨ rows = 0 ∨ 928 < first + rows ∨ field bs 14 2 ≠ 0 ∨ ¬ recordFresh s.part[p] w.val ep seq then none
  else match assoc ep s.part[p].host.installed with
    | none => none
    | some key =>
      (gcmOpen key (sealNonce 0 w.val seq) (bs.take 16) (memRead s.host.win[w].rows (64 * first) (64 * rows)) ((bs.drop 16).take 16)).map
        fun plain => (s.updPart p fun q => { q with series := assocSet (w.val, 0, ep) (BitVec.ofNat 64 seq) q.series }, plain)

/-- SEAL_ENTRY (R214, R289): its rows are forwarded once the tag has been checked. -/
def execSealEntry (t : Nat) (w : WinId) (entry : Nat) (bs : List Byte) (s : State) : Host.Outcome State Fault Refusal :=
  let s := s.advance t
  let d := s.host.win[w]
  .next (if s.host.hpReady ∧ s.recovering then s.hostErr 1 else match d.bound with
    | none => s
    | some p =>
      if ¬ s.host.hpReady ∨ ¬ d.isSealed ∨ 32 ≤ entry then s
      else
        let bs := padTo 32 bs
        let s := s.updWin w fun x => (x.store (64 * 928 + 32 * entry) bs).ready [928 + entry / 2]
        match s.openEntry w p bs with
          | none => (s.updSec fun c => { c with event := setBit c.event 2 }).updWin w fun x => { x with failedEntry := true }
          | some (s, plain) => s.forwardRows d (field bs 8 2) (field bs 10 2) plain)

/-! The bulk area (R225, R226). -/

/-- Whether an aperture has a bulk area that the host reaches. -/
def State.bulkMapped (s : State) (a : PartId) : Bool := s.host.hpReady && !s.recovering && s.part[a].isThere

/-- Bytes of one page written by the host. -/
def State.hostBulkPut (s : State) (a : PartId) (page off : Nat) (bs : List Byte) : State :=
  let put := fun (s : State) (f : Frame) => s.updBulk a fun b => b.put
    { f with
      bytes := memWrite f.bytes off bs, lastUse := s.now, dirtySince := some (f.dirtySince.getD s.now)
      mask := if f.fetching then f.mask ||| (BitVec.ofNat 4096 (2 ^ bs.length - 1) <<< off) else f.mask }
  match s.host.bulk[a].frame? page with
  | some f => put s f
  | none => match s.host.bulk[a].room with
    | some b => put (s.updBulk a fun _ => b) { page := page, fetching := true }
    | none => (s.updBulk a fun b => { b with drops := bump 14 b.drops 1 }).hostErr 4

/-- The pages that `n` bytes from an offset meet: of each its number, the first byte of it and how many (R226). -/
def pageRuns (off n : Nat) : List (Nat × Nat × Nat) :=
  (List.range ((off % 4096 + n + 4095) / 4096)).map fun i =>
    let lo := max off (4096 * (off / 4096 + i))
    (off / 4096 + i, lo, min (off + n) (4096 * (off / 4096 + i + 1)) - lo)

/-- BULK_WRITE (R226), page by page. -/
def execBulkWrite (t : Nat) (a : PartId) (off : Nat) (bs : List Byte) (s : State) : Host.Outcome State Fault Refusal :=
  let s := s.advance t
  .next (if ¬ s.host.hpReady then s
    else if ¬ s.bulkMapped a then s.hostErr 1
    else (pageRuns off bs.length).foldl (fun s x => s.hostBulkPut a x.1 (x.2.1 % 4096) ((bs.drop (x.2.1 - off)).take x.2.2)) s)

/-- The use of a page, and the fetch that a read of a page that is not resident starts (R226). -/
def State.touchPage (s : State) (a : PartId) (page : Nat) : State :=
  let b := s.host.bulk[a]
  match b.frame? page with
  | some f => s.updBulk a fun b => b.put { f with lastUse := s.now }
  | none => match b.room with
    | none => s
    | some c =>
      if 8 ≤ (b.frames.filter fun f => f.fetching).length then s
      else s.updBulk a fun _ => c.put { page := page, fetching := true, lastUse := s.now }

/-- BULK_READ (R226), page by page. -/
def execBulkRead (t : Nat) (a : PartId) (off n : Nat) (s : State) : Host.Outcome State Fault Refusal :=
  let s := s.advance t
  .next (if ¬ s.host.hpReady then s
    else if ¬ s.bulkMapped a then s.answer (List.replicate n 0)
    else
      let runs := pageRuns off n
      runs.foldl (fun s x => s.touchPage a x.1) (s.answer (runs.flatMap fun x => s.bulkSeen a x.2.1 x.2.2)))

/-- BULK_FETCH_DONE (R225, R226, R300, R452): once its read has been served, the page is in its frame, what was written meanwhile kept. -/
def execBulkFetchDone (t : Nat) (a : PartId) (page : Nat) (s : State) : Host.Outcome State Fault Refusal :=
  let s := s.advance t
  .next (match s.host.bulk[a].frame? page with
    | none => s
    | some f =>
      if ¬ f.fetching ∨ ¬ s.pwr.trained ∨ ¬ s.lpServed a 150 ∨ s.lpFenced (bulkBase s.part[a] (4096 * page)) 4096 then s
      else s.updBulk a fun b => b.put (f.fetched (s.pageBytes a page)))

end Sys2Proof.Machine
end

