-- ==== Sys2Proof/Machine/Scrub.lean ====
section
/-! DEFINITION. LPDDR5X slots, the scrubbers, the digest epochs and the lockstep of the postmaster core (R33, R98-R101, R192, R203-R205,
R225, R315, R376, R452). -/

namespace Sys2Proof.Machine

/-! LPDDR5X slots (R33, R452). -/

/-- The owner of an LPDDR5X slot: slot 0 is the system's (R33). -/
def State.slotOwner (s : State) (slot : Fin 32) : Option PartId :=
  if slot.val = 0 then some 0
  else (List.finRange 7).find? fun (p : PartId) => p ≠ 0 && s.part[p].isThere && s.part[p].dissolving.isNone && hasBit s.part[p].lpSlots slot.val

/-- The transfers after a controller has moved its next unit: that of the oldest transfer with one on it (R452). -/
def takeUnit (ctl : Nat) : List Xfer → List Xfer
  | [] => []
  | x :: l => match x.units.find? fun u => u % 16 = ctl with
    | none => x :: takeUnit ctl l
    | some u => { x with units := x.units.erase u } :: l

/-- An engine's transfers after a slot: a transfer with no unit left is complete 150 cycles after the slot's start for a read, 100 for a
write (R33). -/
def slotXfers (start : Nat) (l : List Xfer) : List Xfer :=
  ((List.range 16).foldl (fun l ctl => takeUnit ctl l) l).map fun x =>
    if x.units.isEmpty ∧ x.doneAt.isNone then { x with doneAt := some (start + if x.isRead then 150 else 100) } else x

/-- The engine that a slot of a partition serves: the next after the one served last with a transfer pending, one that is leaving the partition
among them (R270, R452). -/
def State.slotEngine (s : State) (p : PartId) : Option EngId :=
  ((List.range 6).map fun i => (⟨(s.part[p].lastEngine + 1 + i) % 6, by omega⟩ : EngId)).find? fun (e : EngId) =>
    (s.owns p e || s.eng[e].lastOf == some p) && s.eng[e].seq.xfers.any fun x => !x.units.isEmpty

/-- A slot of a partition that goes to its other accesses (R452): the oldest dirty frame of its aperture is written back, and the GETs and atomics
that have waited for a slot are carried out (R225, R254). -/
def State.openSlot (s : State) (p : PartId) : State :=
  let s := s.updFab fun b => { b with lpFree := (p, s.now) :: b.lpFree.filter fun x => decide (s.now < x.2 + 2300) }
  let s := match oldestDirty s.host.bulk[p].frames with
    | none => s
    | some f => if s.lpFenced (bulkBase s.part[p] (4096 * f.page)) 4096 then s else s.writeBack p f
  s.drainHeld

/-- LPDDR_SLOT (R33, R225, R452): LDR and LDW first, else the partition's other accesses. -/
def execLpddrSlot (t : Nat) (slot : Fin 32) (s : State) : Host.Outcome State Fault Refusal :=
  let s := s.advance t
  .next (if ¬ s.pwr.trained ∨ s.frameTime % 1024 ≠ 32 * slot.val ∨ s.fab.lpSlotAt = some s.now then s
    else
      let s := s.updFab fun b => { b with lpSlotAt := some s.now }
      match s.slotOwner slot with
      | none => s
      | some p => match s.slotEngine p with
        | some e =>
          (s.updPart p fun q => { q with lastEngine := e.val }).updEng e fun g =>
            { g with seq := { g.seq with xfers := slotXfers s.now g.seq.xfers } }
        | none => s.openSlot p)

/-- A complete transfer's data moved: into activation SRAM, or out of it into the region (R111, R120). An LDW reads words that are corrected, or
found uncorrectable; a beat whose CRC fails ends the job and is discarded (R98, R99, R192). -/
def State.moveXfer (s : State) (e : EngId) (j : Job) (x : Xfer) (f : Flt) : State :=
  let s := s.updEng e fun g => { g with seq := { g.seq with xfers := updWhere (fun y => y.id = x.id) (fun y => { y with moved := true }) g.seq.xfers } }
  let ctl := 15 + x.regionByte / 512 % 16
  if x.isRead then
    let bs := if x.zeros then List.replicate x.length 0 else regionRead s.part[j.part] x.regionByte x.length
    if f.mechs.contains 9 then s.failAt e j s.now (beatFail ctl e.val [] (bs.take 32) f)
    else (s.sideWrite e (64 * x.line) bs).1
  else
    let g := s.eng[e]
    let as := (List.range x.length).map (64 * x.line + ·)
    let s := s.corrected e true f.corrected
    match badPlace g f as with
    | some (_, w) => s.failAt e j s.now (actFail f w)
    | none =>
      let bs := g.sideGets s.now as
      if f.mechs.contains 9 then s.failAt e j s.now (beatFail e.val ctl [] (bs.take 32) f)
      else s.updPart j.part fun q => regionWrite q x.regionByte bs

/-- LPDDR_TRANSFER_DONE (R33): what is complete by now has been moved, oldest first. -/
def execLpddrTransferDone (t : Nat) (e : EngId) (f : Flt) (s : State) : Host.Outcome State Fault Refusal :=
  let s := s.advance t
  .next ((s.eng[e].seq.xfers.filter fun x => !x.moved && x.doneAt.any fun c => decide (c ≤ s.now)).foldl (fun s x =>
    match s.running e with
    | none => s
    | some j => if j.id = x.job ∧ (j.early.all fun (y : Nat × Status) => y.1 = s.now) then s.moveXfer e j x f else s) s)

/-! Scrubbing (R98-R101, R203, R376). -/

/-- Whether a store row is a weight row for the digests: below KV_FIRST_ROW, and referenced by an armed schedule or written by MODEL_LOAD
(R203). -/
def State.digestRow (s : State) (e : EngId) (row : Nat) : Bool :=
  decide (row < kvFirstRow s.eng[e].kvSteps.toNat) &&
    ((assoc row s.eng[e].digests.reference).isSome || match s.holder e with
      | none => false
      | some p => s.rowArmed p e row)

/-- A scrubbed row passed to the check-value units: the buffer holds 64 (R376). -/
def State.passRow (s : State) (e : EngId) (row : Nat) : State :=
  if ¬ s.digestRow e row then s
  else if 64 ≤ s.cvu.digestRows.length then { s with cvu := { s.cvu with event := setBit s.cvu.event 4 } }
  else
    let d : Dword := BitVec.ofNat 64 (rowDigest row (memRead s.eng[e].store (16384 * row) 16384))
    { s with cvu := { s.cvu with digestRows := s.cvu.digestRows ++ [(e, row, d)] } }

/-- A store that has corrupted a byte of a row beyond what SEC-DED sees (R205): mechanism 7 of the operand, the byte in its DETAIL and the
pattern in its DATA_CLASS. -/
def State.corruptRow (s : State) (e : EngId) (row : Nat) (f : Flt) : State :=
  if ¬ f.mechs.contains 7 then s
  else
    let a := 16384 * row + f.detail.toNat % 16384
    s.updEng e fun g => { g with store := memSet g.store a (memGet g.store a ^^^ f.dataClass) }

/-- A row scrubbed in cycle `now`: it counts in the pass, a corrected one is to be written back in the next cycle, and the third pass in a row
that has corrected it marks it for sparing (R100, R101). -/
def MemHealth.scrubbed (m : MemHealth) (now row : Nat) (fixed : Bool) : MemHealth :=
  let n := if fixed then (assoc row m.storeStreak).getD 0 + 1 else 0
  let seen := if m.scrubSeen = BitVec.allOnes 8192 then 0 else m.scrubSeen
  { m with
    scrubSeen := setBit seen row
    scrubAt := some now
    scrubPending := if fixed then some (row, now + 1) else none
    storeStreak := if fixed then assocSet row n m.storeStreak else assocDel row m.storeStreak
    storeMarked := if 3 ≤ n ∧ ¬ m.storeMarked.contains row then row :: m.storeMarked else m.storeMarked }

/-- Whether the scrubber may read a row in cycle `now`: the store port is free, and this pass has not read the row yet (R84, R100). -/
def Engine.mayScrub (g : Engine) (now row : Nat) : Bool :=
  g.clkNominal && decide (row < 8192) && g.portFree now && (!hasBit g.mem.scrubSeen row || g.mem.scrubSeen = BitVec.allOnes 8192)

/-- STORE_SCRUB (R84, R99-R101, R203, R205). -/
def execStoreScrub (t : Nat) (e : EngId) (row : Nat) (f : Flt) (s : State) : Host.Outcome State Fault Refusal :=
  let s := s.advance t
  .next (if ¬ s.eng[e].mayScrub s.now row then s
    else if f.uncorrectable = some row ∨ s.eng[e].mem.storeBad.contains row then
      (s.storeUe e row none 0xFFFF).updEng e fun g => { g.takePort s.now with mem := g.mem.scrubbed s.now row false }
    else
      let fixed : Bool := decide (0 < f.corrected)
      let s := (s.corrected e false f.corrected).updEng e fun g =>
        { g.takePort (if fixed then s.now + 1 else s.now) with mem := g.mem.scrubbed s.now row fixed }
      (s.corruptRow e row f).passRow e row)

/-- ACT_SCRUB (R99, R100): the next line of each bank, every 1,024 cycles. -/
def execActScrub (t : Nat) (e : EngId) (f : Flt) (s : State) : Host.Outcome State Fault Refusal :=
  let s := s.advance t
  let line := s.eng[e].mem.scrubLine
  .next (if ¬ s.eng[e].clkNominal ∨ s.frameTime % 1024 ≠ 0 ∨ s.eng[e].mem.actScrubAt = some s.now then s
    else
      let s := s.updEng e fun g => { g with mem := { g.mem with scrubLine := (line + 1) % 6144, actScrubAt := some s.now } }
      match f.uncorrectable.filter fun w => w / 4096 = line with
      | some w => s.actUe e w none 0xFFFF
      | none => s.corrected e true f.corrected)

/-! Digest epochs (R203, R204, R315). -/

/-- The cycles of a digest epoch. -/
def epochCycles : Nat := 90000000

/-- The digests of rows combined. -/
def xorAll (l : List Dword) : Dword := l.foldl (· ^^^ ·) 0

/-- The rows whose reading differs from its reference, lowest first (R204). -/
def Digests.wrong (d : Digests) : List Nat :=
  ((List.range 8192).filter fun row => match assoc row d.reading, assoc row d.reference with
    | some x, some y => x ≠ y
    | _, _ => false)

/-- What the readings would combine to with every row as its reference has it. -/
def Digests.wanted (d : Digests) : Dword := xorAll (d.reading.map fun x => (assoc x.1 d.reference).getD x.2)

/-- An engine's epoch ended (R203, R204, Table 09.15): its combined digest, and an event that names the lowest row that differs. -/
def State.endEpoch (s : State) (e : EngId) : State :=
  let d := s.eng[e].digests
  if d.abandoned then s.updEng e fun g => { g with digests := { g.digests with abandoned := false, reading := [] } }
  else
    let bad := d.wrong
    let s := s.updEng e fun g => { g with digests := { g.digests with
      valid := true, value := xorAll (d.reading.map Prod.snd), reading := []
      stale := bad ++ g.digests.stale.filter fun r => !bad.contains r
      mismatch := g.digests.mismatch || !bad.isEmpty
      row := match bad with
        | [] => g.digests.row
        | r :: _ => BitVec.ofNat 13 r } }
    match bad with
    | [] => s
    | r :: _ => s.event (48 + e.val) 8 7 stDigestMismatch none 0xFFFF (BitVec.ofNat 32 r)
        (onesClass (memRead s.eng[e].store (16384 * r) 16384))

/-- The engine digests of the pair compared, once both have been given for one epoch (R315, R316, Table 13.4): a standby in step leaves
step where they differ; the active gives up where its own rows are wrong and the standby's are right, and else drives SAFE_STOP. -/
def State.compareEpochs (s : State) : State := match s.twin.ownEpoch, s.twin.peerEpoch with
  | some (n, own), some (m, peer) =>
    if n ≠ m ∨ own.map Prod.fst = peer then s
    else
      let s := s.updTwin fun t => { t with peerEpoch := none }
      if s.isStandby then s.leaveStep
      else if s.twin.role ≠ .active then s
      else
        let s := s.updTwin fun t => { t with event := setBit t.event 4 }
        if own.map Prod.fst ≠ own.map Prod.snd ∧ own.map Prod.snd = peer ∧ s.hasStandby then s.giveUp else s.driveTwin
  | _, _ => s

/-- DIGEST_EPOCH (R203, R204, R315): the epoch that ends, on every engine; a pair then exchanges its digests. -/
def execDigestEpoch (t : Nat) (s : State) : Host.Outcome State Fault Refusal :=
  let s := s.advance t
  .next (if ¬ s.inService ∨ s.frameTime = 0 ∨ s.frameTime % epochCycles ≠ 0 then s
    else
      let wanted := engines.map fun e => s.eng[e].digests.wanted
      let s := engines.foldl State.endEpoch s
      if s.forwards ∨ s.isStandby then
        ((s.twinSend 7).updTwin fun w =>
          { w with ownEpoch := some (s.frameTime / epochCycles, (engines.map fun e => s.eng[e].digests.value).zip wanted) }).compareEpochs
      else s)

/-- LOCKSTEP_MISMATCH (R192, R317): an active with a standby in step gives up, and the module restarts through its ROM, which holds SAFE_STOP
active. The event is recorded first, and what waits is programmed. -/
def execLockstepMismatch (t : Nat) (s : State) : Host.Outcome State Fault Refusal :=
  let s := s.advance t
  .next (if ¬ s.host.hpReady then s
    else
      let s := (s.event 160 13 10 stCheckMismatch none 0xFFFF 0 0).giveUp
      let sent := s.twin.outbox
      let s := { s with hist := s.hist.flush (s.hist.waitingF.length + s.hist.waiting1.length) }
      s.restart.updTwin fun w => { w with outbox := sent })

end Sys2Proof.Machine
end

