-- ==== Sys2Proof/Machine/TwinCmds.lean ====
section
/-! DEFINITION. The commands of a pair: TWIN_PAIR, TWIN_RESYNC, TWIN_ADMIT and TWIN_GIVEUP (R302-R305, R308, R317, R325). -/

namespace Sys2Proof.Machine

/-- What TWIN_PAIR learns of the twin, bit by bit (R302, R304). -/
def twinSays (r : MbxReq) (i : Nat) : Bool := bitAt (r.extra.headD 0).toNat i

/-- Whether a direct window is bound. -/
def State.anyBound (s : State) : Bool := s.host.win.toList.any fun w => w.bound.isSome

/-- The conditions of R302, with the status that refuses a TWIN_PAIR. -/
def State.pairBar (s : State) (r : MbxReq) : Option Status :=
  let bit := twinSays r
  let plan : Bool := match s.fab.plan with
    | none => false
    | some p => p.twinSlot ≠ 0xFFFF && (s.planPort 8).mode = 3
  if s.pwr.source ∨ bit 3 ∨ s.sec.lifecycle ≠ 3 ∨ bit 4 ∨ bit 2 then some stDenied
  else if s.anyBound ∨ bit 5 then some stBusy
  else if ¬ plan ∨ s.fab.ports[twinLink].state ≠ .openPort ∨ bit 6 then some stBadArg
  else none

/-- A pairing completed: the exchange begins both record sequences anew (R304, R309). -/
def State.startPair (s : State) (role : TwinRole) : State :=
  s.updTwin fun t =>
    { t with
      role := role, twinPaired := true, peerInStep := false, txSeq := 1, rxSeq := 0, refreshed := s.now, wiringRun := 0
      gaveUpSeen := false, silent := false, lastReport := s.now, unreported := [], sentReports := [], expected := [], ownDigests := []
      held := [], ownEpoch := none, peerEpoch := none, forwarded := [], outbox := [], aborts := [], abortAnswers := [], phase := 0
      pass := 0, abandoned := 0, pending := 0, resyncMbx := none }

/-- TWIN_PAIR (R302-R304, R310, Table 13.1). -/
def bodyTwinPair : Body := fun s _ _ r =>
  let bit := twinSays r
  if ¬ r.form 4 [(1, 3)] ∨ ¬ (r.arg 0 1 = 1 ∨ r.arg 0 1 = 2) then ends s stBadArg
  else match s.pairBar r with
    | some st => ends s st
    | none =>
      if r.arg 0 1 = 1 then
        if s.twin.role = .gaveUp then ends s stTwinStandby
        else if s.twin.claimIn then ends s stBusy
        else if ¬ r.verdict ∨ bit 0 ∨ bit 1 then ends s stDenied
        else if ¬ pairLimits s.fab.ctxs then ends s stBusy
        else gives ((s.startPair .active).updTwin fun t => { t with claimOut := true })
      else if (List.finRange 7).any fun (p : PartId) => decide (p ≠ 0) && s.part[p].isThere then ends s stBusy
      else if ¬ s.twin.claimIn then ends s stBadArg
      else if ¬ r.verdict then ends s stDenied
      else gives ((s.startPair .joining).updTwin fun t => { t with claimOut := false })

/-- TWIN_PAIR (R303). -/
def execTwinPair (t : Nat) (r : MbxReq) (s : State) : Host.Outcome State Fault Refusal := .next (s.ring t 0x0A00 r bodyTwinPair)

/-- TWIN_RESYNC (R308, R325): the copy begins; it is answered once the standby is in step or the resync has ended otherwise. -/
def bodyTwinResync : Body := fun s m _ r =>
  if ¬ r.form 4 [(0, 4)] then ends s stBadArg
  else match s.twin.role with
    | .inStep => gives s
    | .joining | .outOfStep =>
      if s.twin.resyncMbx.isSome then ends s stBusy
      else if ¬ s.twin.claimIn ∧ s.twin.twinClaims then ends s stDenied
      else (s.updTwin fun t => { t with role := .joining, phase := 1, pass := 0, abandoned := 0, pending := 0, resyncMbx := some m }, none)
    | _ => ends s stBadArg

/-- TWIN_RESYNC (R325). -/
def execTwinResync (t : Nat) (r : MbxReq) (s : State) : Host.Outcome State Fault Refusal := .next (s.ring t 0x0A01 r bodyTwinResync)

/-- TWIN_ADMIT (R305): the owner of a confidential partition allows its keys to go to the standby named. -/
def bodyTwinPermit : Body := fun s _ own r =>
  if ¬ r.form 16 [(8, 8)] then ends s stBadArg
  else match own with
    | none => ends s stDenied
    | some p => gives (s.updPart p fun q => { q with permitted := some (BitVec.ofNat 64 (r.arg 0 8)) })

/-- TWIN_ADMIT (R305). -/
def execTwinPermit (t : Nat) (r : MbxReq) (s : State) : Host.Outcome State Fault Refusal := .next (s.ring t 0x0A02 r bodyTwinPermit)

/-- TWIN_GIVEUP (R317, Table 13.4): without a standby in step it is not ready to give up. -/
def bodyTwinGiveup : Body := fun s _ _ r =>
  if ¬ r.form 4 [(0, 4)] then ends s stBadArg
  else if ¬ s.hasStandby then ends s stNotReady
  else gives s.giveUp

/-- TWIN_GIVEUP (R317). -/
def execTwinGiveup (t : Nat) (r : MbxReq) (s : State) : Host.Outcome State Fault Refusal := .next (s.ring t 0x0A03 r bodyTwinGiveup)

end Sys2Proof.Machine
end

