-- ==== Sys2Proof/Machine/Commands.lean ====
section
/-! DEFINITION. COUNTERS_READ, ATTEST and OWNER_CMD, which command each opcode names, the start of a command that waited, and the delivery of
a response (R228, R230, R291, R292, R296-R299, R446, Tables 12.6-12.9, 21.1, 21.2). -/

namespace Sys2Proof.Machine

/-! COUNTERS_READ. -/

/-- The first 4 KiB of a register block as bytes. -/
def blockBytes (regs : List (Nat × Nat)) : List Byte := (List.range 1024).flatMap fun i => natLe ((assoc (4 * i) regs).getD 0) 4

/-- COUNTERS_READ (R292): the blocks of the partition's engines in order, then its KV block, with every cycle rounded down. -/
def bodyCountersRead : Body := fun s _ _ r =>
  match s.compOf (r.arg 0 1) with
  | none => ends s stBadArg
  | some p =>
    if ¬ r.form 4 [(1, 3)] then ends s stBadArg
    else
      let mine := engines.filter fun e => s.owns p e
      gives s ((mine.flatMap fun e => blockBytes (s.engRegs e true)) ++ blockBytes (s.kvRegs p))

/-- COUNTERS_READ (R292). -/
def execCountersRead (t : Nat) (r : MbxReq) (s : State) : Host.Outcome State Fault Refusal :=
  .next (s.ring t 0x0107 r bodyCountersRead)

/-! ATTEST. -/

/-- The first 16 bytes of SHAKE256 over "XB6-OWNER" and the owner key; zero without one (Table 12.9). -/
def ownerKeyId (q : Partition) : List Byte := match q.owner with
  | none => List.replicate 16 0
  | some k => (shake256 ([0x58, 0x42, 0x36, 0x2D, 0x4F, 0x57, 0x4E, 0x45, 0x52] ++ k.key)).take 16

/-- A partition's entry of the report (Table 12.9); zero for one that does not exist. -/
def State.partEntry (s : State) (p : PartId) : List Byte :=
  let q := s.part[p]
  if ¬ q.isThere then List.replicate 32 0
  else
    let live := ((s.live p).map fun e => 2 ^ e.val).sum
    [BitVec.ofNat 8 (1 + 2 * q.confidential.toNat + 4 * q.dissolving.isSome.toNat), BitVec.ofNat 8 live, q.kvSteps.setWidth 8, 0]
      ++ natLe q.regionGib 2 ++ natLe ((q.owner.map OwnerKey.epoch).getD 0) 2 ++ natLe q.createAt 8 ++ ownerKeyId q

/-- FW_DIGESTS (Table 12.8): the digests of the images of PM, EU, LK and VD that run are the part's own. -/
def State.fwDigests (s : State) : List Byte :=
  ((List.range 4).flatMap fun i =>
    let v := ((assoc (i + 1) s.fw.running).map fun (x : Word × Half) => x.1.toNat).getD 0
    (List.range 32).map fun k => Config.partByte (44 + i) (32 * v + k)) ++ s.sms.digest

/-- Bytes 0 to 1,887 of the attestation report (Table 12.8). -/
def State.report' (s : State) (nonce : List Byte) (subject : PartId) : List Byte :=
  let c := s.sec
  let kem := (s.part[subject].kemKey).getD 0
  natLe 0x54525441 4 ++ [1, 0, 0, 0] ++ natLe 1888 4 ++ natLe 0 4 ++ natLe c.identity.toNat 8 ++ partNumber ++ padTo 16 c.serial
    ++ [c.lifecycle.setWidth 8, 0xB1, 0xA2, 0x03]
    ++ natLe ((if 2 ≤ c.lifecycle.toNat then 1 else 0) + 2 * c.debugFused.toNat + 4 * c.epoch.toNat) 4 ++ natLe s.debugBits 4 ++ natLe 0 4
    ++ (List.range 32).map (Config.partByte 40) ++ (List.range 32).map (Config.partByte 41) ++ s.fwDigests ++ s.fwVersions ++ natLe 0 4
    ++ (match s.fab.plan with
      | none => List.replicate 32 0
      | some p => shake256 p.bytes)
    ++ (List.finRange 7).flatMap s.partEntry ++ s.sms.swid ++ nonce ++ natLe s.now 8 ++ natLe s.utc 8
    ++ [BitVec.ofNat 8 subject.val] ++ List.replicate 7 0 ++ (List.range 1184).map (fun i => Config.partByte 43 (1184 * kem + i))
    ++ List.replicate 8 0

/-- An index of the identity key taken (R298, R299): none where no signature can be made, or where the reservation of a new block does
not verify. -/
def State.takeIndex (s : State) (verified : Bool) : Option (Nat × State) :=
  let c := s.sec
  let i := c.xmssNext.toNat
  let fresh : Bool := decide (c.reservedTo ≤ i)
  if c.exhausted ∨ ¬ c.seedHeld ∨ (fresh ∧ ¬ verified) then none
  else some (c.epoch.toNat * 2 ^ 28 + i, s.updSec fun c =>
    { c with
      xmssNext := if i + 1 = 2 ^ 28 then c.xmssNext else c.xmssNext + 1
      exhausted := decide (i + 1 = 2 ^ 28), reservedTo := if fresh then i + 256 else c.reservedTo })

/-- ATTEST (R296-R299, Tables 12.8 and 12.9). The signature's index has its low byte first (R8; log entry 75). -/
def bodyAttest : Body := fun s _ _ r =>
  match s.partOf (r.arg 32 1) with
  | none => ends s stBadArg
  | some p =>
    if ¬ r.form 40 [(33, 7)] then ends s stBadArg
    else match s.takeIndex r.verdict with
      | none => ends s stXmssExhausted
      | some (idx, s) =>
        let body := s.report' (padTo 32 (r.args.take 32)) p
        gives s (body ++ natLe idx 5 ++ (List.range 9888).map (Config.signByte 0 idx body))

/-- ATTEST (R296). -/
def execAttest (t : Nat) (r : MbxReq) (s : State) : Host.Outcome State Fault Refusal := .next (s.ring t 0x0104 r bodyAttest)

/-! Opcodes. -/

/-- What an opcode does that belongs to no command. -/
def bodyUnknown : Body := fun s _ _ _ => ends s stBadArg

/-- The commands of Tables 21.1 and 21.2 but OWNER_CMD. -/
def bodyInner (op : Nat) : Body := match op with
  | 0x0001 => bodyEcho
  | 0x0002 => bodyFuncReset
  | 0x0003 => bodyModelLoad
  | 0x0004 => bodyDwinBind
  | 0x0005 => bodyDwinRelease
  | 0x0006 => bodyHistoryRead
  | 0x0007 => bodyCkptConfig
  | 0x0008 => bodyCkptRestore
  | 0x0100 => bodyPartitionCreate
  | 0x0101 => bodyPartitionDissolve
  | 0x0102 => bodyPartitionLayout
  | 0x0103 => bodyKeyInstall
  | 0x0104 => bodyAttest
  | 0x0105 => bodyLifecycleAdvance
  | 0x0107 => bodyCountersRead
  | 0x0200 => bodyPartnerOpen
  | 0x0201 => bodyPartnerClose
  | 0x0202 => bodyWindowGrant
  | 0x0203 => bodyPlanLoad
  | 0x0300 => bodyEnvOpen
  | 0x0301 => bodyEnvCommit
  | 0x0302 => bodyEnvAbort
  | 0x0303 => bodyEnvStatus
  | 0x0400 => bodyScheduleArm
  | 0x0401 => bodyScheduleDisarm
  | 0x0500 => bodyKvPoolConfig
  | 0x0501 => bodyKvBind
  | 0x0502 => bodyKvSeqOpen
  | 0x0503 => bodyKvSeqTruncate
  | 0x0504 => bodyKvSeqFree
  | 0x0505 => bodyKvSeqQuery
  | 0x0600 => bodyVideoDecOpen
  | 0x0601 => bodyVideoEncOpen
  | 0x0602 => bodyVideoClose
  | 0x0603 => bodyVideoQuery
  | 0x0700 => bodySmsQuery
  | 0x0800 => bodyCvuSubmit
  | 0x0900 => bodyTestKat
  | 0x0901 => bodyBistSlice
  | 0x0902 => bodyMarginSweep
  | 0x0903 => bodyScanRun
  | 0x0904 => bodyFenceLift
  | 0x0905 => bodyMaintGrant
  | 0x0A00 => bodyTwinPair
  | 0x0A01 => bodyTwinResync
  | 0x0A02 => bodyTwinPermit
  | 0x0A03 => bodyTwinGiveup
  | 0x0B00 => bodyFwStage
  | 0x0B01 => bodyFwVerify
  | 0x0B02 => bodyFwActivate
  | 0x0B03 => bodyFwStatus
  | 0x0B04 => bodyFwRestart
  | 0x0B05 => bodySettingsSave
  | 0x0F00 => bodyRecInfo
  | 0x0F01 => bodyRecStage
  | 0x0F02 => bodyRecInstall
  | 0x0F03 => bodyRecRestart
  | _ => bodyUnknown

/-- The opcode and request of the command inside an OWNER_CMD (Table 12.6). -/
def innerReq (r : MbxReq) : Nat × MbxReq :=
  let n := r.arg 4 2
  (r.arg 2 2, { r with argBytes := BitVec.ofNat 16 n, args := (r.args.drop 16).take n, aux := r.aux })

/-- Whether an OWNER_CMD's tag, key epoch and sequence are right (R291): the tag is over bytes 0 to 15 + INNER_BYTES. -/
def ownerOk (p : PartId) (k : OwnerKey) (r : MbxReq) : Bool :=
  let n := 16 + r.arg 4 2
  let nonce := [0, BitVec.ofNat 8 p.val, 0, 0] ++ natLe (r.arg 8 8) 8
  (gcmOpen k.key nonce (padTo n (r.args.take n)) [] (padTo 16 ((r.args.drop n).take 16))).isSome
    && r.arg 6 2 = k.epoch && decide (k.lastSeq.toNat < r.arg 8 8)

/-- An OWNER_CMD refused: the envelope that it names is doomed (R267). -/
def State.ownerEnds (s : State) (p : PartId) (r : MbxReq) (st : Status) : Answer := ends (s.doomNamed (some p) r.env st) st

/-- OWNER_CMD (R291, R446, Table 12.6): the inner command runs as its own chapter lays down. -/
def bodyOwnerCmd : Body := fun s m _ r =>
  match s.compOf (r.arg 0 1) with
  | none => ends s stBadArg
  | some p =>
    if ¬ s.part[p].confidential ∨ 1888 < r.arg 4 2 ∨ ¬ r.form (32 + r.arg 4 2) [(1, 1)] then s.ownerEnds p r stBadArg
    else match s.part[p].owner with
      | none => s.ownerEnds p r stDenied
      | some k =>
        if ¬ ownerOk p k r then (s.updSec fun c => { c with event := setBit c.event 1 }).ownerEnds p r stDenied
        else
          let seq : Dword := BitVec.ofNat 64 (r.arg 8 8)
          let s := s.updPart p fun q => { q with owner := some { k with lastSeq := seq } }
          let s := s.updMbx m fun b => { b with cmd := b.cmd.map fun c => { c with owner := some (p, seq) } }
          let (op, q) := innerReq r
          s.runBody m (some p) op q (opcodes64.contains op && op ≠ 0x0106) false (bodyInner op)

/-- OWNER_CMD (R291). -/
def execOwnerCmd (t : Nat) (r : MbxReq) (s : State) : Host.Outcome State Fault Refusal := .next (s.ring t 0x0106 r bodyOwnerCmd)

/-- The command that an opcode names. -/
def bodyOf (op : Nat) : Body := if op = 0x0106 then bodyOwnerCmd else bodyInner op

/-! Starting what waited, and answering (R228, R230). -/

/-- COMMAND_WAIT_START (R230): the first in acceptance order of the commands that may start. -/
def execCommandWaitStart (t : Nat) (m : MbxId) (s : State) : Host.Outcome State Fault Refusal :=
  let s := s.advance t
  .next (match s.host.mbx[m].cmd with
    | none => s
    | some c =>
      if ¬ c.waiting ∨ ¬ s.mayStart c ∨ (s.accepted.any fun d => d.waiting && decide (d.order < c.order) && s.mayStart d) then s
      else s.startCmd m c.opcode.toNat c.req (bodyOf c.opcode.toNat))

/-- The opcode and request of what a mailbox runs, inside its OWNER_CMD where it came in one. -/
def RunCmd.inner (c : RunCmd) : Nat × MbxReq := if c.owner.isSome then innerReq c.req else (c.opcode.toNat, c.req)

/-- A running command that completes with what it waits for completed where that has come about. -/
def State.poll (s : State) (m : MbxId) (c : RunCmd) : State :=
  if c.waiting ∨ c.result.isSome then s
  else
    let (op, r) := c.inner
    if op = 0x0005 then s.pollRelease m
    else if op = 0x0101 then s.pollDissolve m r
    else if op = 0x0401 then s.pollDisarm m r
    else if op = 0x0202 then s.pollRevoke m r
    else if op = 0x0903 then s.pollScan m
    else if op = 0x0B02 ∨ op = 0x0F02 then s.pollActivate m r
    else s

/-- Whether an ENV_ABORT's answer waits for its ABORT to be acknowledged (R323). -/
def State.abortHeld (s : State) (c : RunCmd) : Bool :=
  let (op, r) := c.inner
  op = 0x0302 && match s.partOf (r.arg 0 1) with
    | none => false
    | some p => s.abortOut p (BitVec.ofNat 16 (r.arg 2 2))

/-- MAILBOX_RESPONSE (R228). -/
def execMailboxResponse (t : Nat) (m : MbxId) (s : State) : Host.Outcome State Fault Refusal :=
  let s := s.advance t
  .next (match s.host.mbx[m].cmd with
    | none => s
    | some c => if s.abortHeld c then s else (s.poll m c).deliver m)

end Sys2Proof.Machine
end

