-- ==== Sys2Proof/Machine/EngineLoad.lean ====
section
/-! DEFINITION. The LOAD and MAT slots: LDV, TLD, KVT, KVA and MAT (Tables 05.10-05.12, R54-R72, R89, R90, R98, R99,
R115, R116, R166, R168, R170, R182-R187). -/

namespace Sys2Proof.Machine

/-- LDV (R115): lines into the broadcast register, from its first byte; they land one cycle later. -/
def execLdv (t : Nat) (e : EngId) (vline vlen : Nat) (f : Flt) (s : State) : Host.Outcome State Fault Refusal :=
  .next (s.engineOp t e f fun s j =>
    let g := s.eng[e]
    let as := addrsFrom (lineAddr vline) (64 * (vlen + 1))
    if 15 < vlen ∨ ¬ inAct as then s.badOp j
    else match badPlace g f as with
      | some (_, w) => s.failAt e j s.now (actFail f w)
      | none => (s.corrected e true f.corrected).pend e j false [(s.now + 1, .bcast (g.unitGets s.now as))])

/-- The rows of a tile from store row `row` on, as they land in a tile register in the cycles from `t` (R87, R90). The load holds the store
port in those cycles, so that no write comes between (R83). -/
def tileLandings (store : Mem) (t row : Nat) (reg : Bool) (sh : TileShape) (n : Nat) : List (Nat × LandEff) :=
  (List.range n).map fun r =>
    (t + r, .tileRow reg (r = 0) sh
      (cellsFrom (16384 * r) (memRead store (16384 * (row + r)) (min 16384 (tileBytes sh - 16384 * r)))))

/-- A tile load from store row `row` (R89, R90): rows land until the first that is uncorrectable, which ends the
job in the cycle of its read (R99). -/
def State.loadTile (s : State) (e : EngId) (j : Job) (row : Nat) (reg : Bool) (sh : TileShape) (kv : Option KvDesc)
    (kvRow : Nat) (f : Flt) : State :=
  let g := s.eng[e]
  let n := tileRows sh
  let bad := (List.range n).find? fun r =>
    g.mem.storeBad.contains (row + r) || f.uncorrectable == some (row + r)
  let s := s.updEng e fun g => { g.setTile reg { g.tile reg with kv := kv, kvRow := kvRow, kvaCount := 0 } with portFrom := s.now + n }
  let s := s.corrected e false f.corrected
  let s := s.pend e j false (tileLandings g.store s.now row reg sh (bad.getD n))
  match bad with
  | none => s
  | some r => s.failAt e j (s.now + r) (rowFail f (row + r))

/-- TLD (R89, R90). A load met while an earlier one holds the store port would break R115 (log entry 21). -/
def execTld (t : Nat) (e : EngId) (row : Nat) (reg : Bool) (shape : Nat) (f : Flt) (s : State) :
    Host.Outcome State Fault Refusal :=
  .next (s.engineOp t e f fun s j =>
    match (imageOn j e).shapes[shape]? with
    | none => s.badOp j
    | some sh =>
      if 8192 < row + tileRows sh ∨ s.now < s.eng[e].portFrom then s.badOp j else s.loadTile e j row reg sh none 0 f)

/-- The job ends with ST_KV_UNDERRUN (R166, Table 07.11). -/
def State.kvUnderrun (s : State) (j : Job) : State :=
  (s.endEarly j.id stKvUnderrun).updKv j.part fun k => { k with event := setBit k.event 2 }

/-- The head of the page queue removed (R166); a staging page is then free for the ring (R175). -/
def Engine.popPage (g : Engine) : Engine := match g.pageQueue with
  | [] => g
  | d :: q =>
    { g with
      pageQueue := q, popped := g.popped + 1
      staging := if d.isStaged then g.staging.filter fun x => x.2.1 ≠ d.pageRow else g.staging }

/-- KVT (R166, R168): the tile of the page that the head descriptor names, which the register records. -/
def execKvt (t : Nat) (e : EngId) (row : Nat) (reg : Bool) (shape : Nat) (pop : Bool) (f : Flt) (s : State) :
    Host.Outcome State Fault Refusal :=
  .next (s.engineOp t e f fun s j =>
    match s.eng[e].pageQueue with
    | [] => s.kvUnderrun j
    | d :: _ => match (imageOn j e).shapes[shape]? with
      | none => s.badOp j
      | some sh =>
        if 8192 < d.pageRow + row + tileRows sh ∨ s.now < s.eng[e].portFrom then s.badOp j
        else
          let s := s.loadTile e j (d.pageRow + row) reg sh (some d) row f
          if pop then s.updEng e Engine.popPage else s)

/-- Row `r` of a tile of a page with the append register merged in (R170): the elements of the slot, and in the
tile that holds the mask block the slot's mark and the marks above it. Bytes are numbered within the tile. -/
def mergedRow (fmt d slot : Nat) (p : PageTile) (old code : Nat → Byte) (r : Nat) : List Byte :=
  let sh := p.shape
  let lo := 16384 * r
  let n := min 16384 (tileBytes sh - lo)
  -- the elements that this row receives, as (byte, place in the byte, code)
  let elems : List (Nat × Nat × Nat) :=
    if p.isScore then
      let own := (List.range sh.kt).filterMap fun k =>
        if p.base + k < d then
          let (o, h) := elemPlace sh k slot
          some (o, h, (code (p.base + k)).toNat)
        else none
      let marks := if p.base ≤ d ∧ d < p.base + sh.kt then
          (List.range (64 - slot)).map fun i =>
            let (o, h) := elemPlace sh (d - p.base) (slot + i)
            (o, h, if i = 0 then 0 else maskCode fmt)
        else []
      own ++ marks
    else (List.range sh.nt).map fun k =>
      let (o, h) := elemPlace sh slot k
      (o, h, (code (p.base + k)).toNat)
  let mine := elems.filter fun x => decide (lo ≤ x.1 ∧ x.1 < lo + n)
  let base := (List.range n).map fun i => (lo + i, old (lo + i))
  (mine.foldl (fun (m : List Host.Cell) x =>
    updWhere (fun c => c.1 = x.1) (fun c => (c.1, putElem fmt x.2.1 c.2 x.2.2)) m) base).map Prod.snd

/-- KVA (R170): one merged row of the tile that the register's last KVT loaded, into the register one cycle later
and into the store at once, but for a DISCARD descriptor. A register without a recorded descriptor is the case of
R166 (log entry 23). -/
def execKva (t : Nat) (e : EngId) (reg : Bool) (f : Flt) (s : State) : Host.Outcome State Fault Refusal :=
  .next (s.engineOp t e f fun s j =>
    let g := s.eng[e]
    let tr := g.tile reg
    if s.now < g.portFrom then s.badOp j else
    match tr.kv with
    | none => s.kvUnderrun j
    | some d =>
      let k := s.part[j.part].kv
      match (pageTiles k.fmt k.d).find? fun p => p.first = tr.kvRow with
      | none => s.badOp j
      | some p =>
        if tileRows p.shape ≤ tr.kvaCount ∨ p.shape ≠ tr.shape then s.badOp j
        else
          let r := tr.kvaCount
          let image := (rfRead tr.image 0 (tileBytes p.shape)).toArray
          let bs := mergedRow k.fmt k.d d.slot p (fun a => image.getD a 0) g.append.code r
          let s := s.updEng e fun g => { g.setTile reg { g.tile reg with kvaCount := r + 1 } with portFrom := s.now + 1 }
          let row := d.pageRow + tr.kvRow + r
          let s := if d.isDiscard then s else
            s.updEng e fun g =>
              { g with store := memWrite g.store (16384 * row) bs, mem := g.mem.rowWritten row }
          s.pend e j false [(s.now + 1, .tileMerge reg (cellsFrom (16384 * r) bs))])

/-- The emission of an entry in one of the two forms of R72, with the flags of Table 03.7. -/
def emission (cls : ChainClass) (fp32 : Bool) (a : AccEntry) : MatOut × BitVec 8 :=
  if fp32 then
    let l := a.cols.map (emitFp32 cls)
    ({ fp32 := true, words := l.map fun o => BitVec.ofNat 32 o.code }, laneFlags l)
  else ({ fp32 := false, cells := a.cols }, 0)

/-- The OP_CLASS of a MAT (Table 08.5). -/
def matClass : ChainClass → Nat
  | .int => 0
  | .fp8 => 1
  | .block => 2
  | .half => 3

/-- Whether a MAT of a job has failed its check: then no later MAT of the job counts (R187). -/
def matFailed (g : Engine) (id : Nat) : Bool :=
  g.landings.any fun l => l.job = id && match l.eff with
    | .fail ev => ev.unitKind = 0
    | _ => false

/-- Whether the fields of a MAT, the chain it names and the tile it reads are allowed (Tables 03.4 and 05.12, R55, R72, R116); against a page
tile its vector is in an 8-bit MX format (R156). -/
def matOk (m : MatSlot) (cls : ChainClass) (old : AccEntry) (tr : TileReg) : Bool :=
  (!m.emit || m.fp32 || cls = .int) && (!m.wr || (m.emit && m.fp32))
    && (m.start || old.cls.isNone || old.cls = some cls) && decide (tr.shape.kt ≤ pairK tr.shape.fmt m.afmt.toNat)
    && (tr.kv.isNone || decide (4 ≤ m.afmt.toNat ∧ m.afmt.toNat ≤ 8))

/-- The mechanisms of a MAT whose check fails, each with what Table 08.15 has it find: those of the operand that guard its class, and those
that the comparison of the checksum column or row itself finds (R183-R187). -/
def matFailures (cls : ChainClass) (sh : TileShape) (f : Flt) (columns : Bool) (readback : Option Nat) : List (Nat × Nat) :=
  (f.mechs.filter (matMechs cls).contains).map (fun k => (k, f.detail.toNat % if k = 5 then max sh.kt 1 else max sh.nt 1))
    ++ (if columns then [] else [(if cls = .half then 1 else 0, 384)])
    ++ match readback with
      | none => []
      | some j => [(2, j)]

/-- EXTREME of a MAT: a weight or an element of its vector holds the largest magnitude of its format (R198). -/
def matExtreme (sh : TileShape) (afmt : Nat) (b v : Nat → Nat) : Bool :=
  (List.range sh.kt).any fun k =>
    largest afmt (packedCode v (widthOf afmt) k) || (List.range sh.nt).any fun j => largest sh.fmt (tileCode b sh k j)

/-- MAT (R54, R55, R116): the chain's entry, the checks two cycles before the depth (R187), and the emission at
issue + depth. -/
def execMat (t : Nat) (e : EngId) (m : MatSlot) (f : Flt) (s : State) : Host.Outcome State Fault Refusal :=
  .next (s.engineOp t e f fun s j =>
    let g := s.eng[e]
    let tr := g.tile m.reg
    let sh := tr.shape
    let afmt := m.afmt.toNat
    let old := g.acc[m.entry]
    match pairClass sh.fmt afmt with
    | none => s.badOp j
    | some cls =>
      let lines := ceilDiv (4 * sh.nt) 64
      if ¬ matOk m cls old tr ∨ (m.wr ∧ actSize < lineAddr (m.dest.toNat + lines)) then s.badOp j
      else if matFailed g j.id then s
      else
        let cells := rfRead tr.image 0 (tileBytes sh)
        let bits := rfRead g.bcast 0 (packedBytes (widthOf afmt) sh.kt + if isBlockFmt afmt then ceilDiv sh.kt 32 else 0)
        let image := (cells.map BitVec.toNat).toArray
        let vector := (bits.map BitVec.toNat).toArray
        let b := fun a => image.getD a 0
        let x := fun a => vector.getD a 0
        let new := matEntry cls m.start old sh afmt b x
        let s := s.updEng e fun g => { g with acc := g.acc.set m.entry new, pathMat := bits }
        let columns := (checkPasses cls new || (old.seed.isSome && !m.start)) && (cls ≠ .block || blocksPass sh afmt b x)
        let bad := matFailures cls sh f columns (if tr.image.seed.isSome then none else readbackFails sh b tr.sums)
        let mechs := bad.map Prod.fst
        let due := s.now + classDepth cls
        if ¬ bad.isEmpty then
          s.failAt e j (due - 2)
            { status := stCheckMismatch, unitKind := 0, opClass := matClass cls, mechs := mechs
              detail := detailOf mechs (BitVec.ofNat 32 ((assoc (namedMech mechs) bad).getD 0))
              dataClass := dataClassOf g.pathMat bits (bits ++ cells) (matExtreme sh afmt b x), bundle := f.bundle }
        else if ¬ m.emit then s
        else
          let (out, flags) := emission cls m.fp32 new
          let cells := if m.wr then
              [(due, LandEff.act (cellsFrom (lineAddr m.dest.toNat)
                ((List.range (16 * lines)).flatMap fun i => natLe (out.words.getD i 0).toNat 4)))]
            else []
          s.pend e j false ([(due, .matOut out), (due, .arith flags 0)] ++ cells))

end Sys2Proof.Machine
end

