-- ==== Sys2Proof/Machine/TwinRecords.lean ====
section
/-! DEFINITION. The records that arrive on T0 (R305, R308-R326, Tables 13.2, 13.3, 13.5). -/

namespace Sys2Proof.Machine

/-! How a record is taken. -/

/-- The cycles that a block takes from one twin to the other (R30). -/
def twinLatency : Nat := 205

/-- The distance of a mirror cycle (R311). -/
def mirrorLag : Nat := 1152

/-- A cycle of the active in this module's postmark. -/
def State.here (s : State) (c : Nat) : Nat := ((c : Int) + s.twin.skew).toNat

/-- The mirror cycle of a cycle of the active (R311). -/
def State.mirrorOf (s : State) (c : Nat) : Nat := s.here (c + mirrorLag)

/-- A record arrives: it is accepted where its tag is right and its RECORD_SEQ follows; a gap takes a standby out of step (R309, R318). -/
def State.recordIn (s : State) (t : Nat) (h : TwinHdr) (k : State → State) : State :=
  let s := s.advance t
  if s.fab.ports[twinLink].state ≠ .openPort ∨ s.twin.role = .unpaired ∨ s.twin.role = .gaveUp then s
  else
    let s := s.heard twinLink
    if ¬ h.tagOk then s
    else if h.recordSeq = s.twin.rxSeq + 1 then k (s.updTwin fun w => { w with rxSeq := h.recordSeq })
    else if s.twin.rxSeq.toNat < h.recordSeq.toNat then s.leaveStep
    else s

/-- Whether the module follows its active: in step, or at the cutover (R325). -/
def State.follows (s : State) : Bool := s.isStandby || (s.twin.role = .joining && s.twin.phase = 2)

/-- An event kept for its cycle; a record that comes after its mirror cycle takes a standby out of step, or abandons the cutover (R318,
R325). -/
def State.keepEvent (s : State) (due : Nat) (ev : FwdEvent) : State :=
  if ¬ s.follows then s
  else if due < s.now then s.leaveStep.updTwin fun t => { t with pending := t.pending + 1 }
  else s.updTwin fun t => { t with forwarded := t.forwarded ++ [(due, ev)] }

/-- The standby acknowledges a record (R309). -/
def State.sendAck (s : State) : State := s.twinSend 10

/-! Forwarded events. -/

/-- ADMIT (R309). -/
def execTwinAdmission (t : Nat) (h : TwinHdr) (port : PortId) (op : Byte) (p : Packet) (last predicted : Dword) (s : State) :
    Host.Outcome State Fault Refusal :=
  .next (s.recordIn t h fun s => s.keepEvent (s.mirrorOf h.cycle.toNat) (.admission port op p last predicted))

/-- RELEASE (R309). -/
def execTwinRelease (t : Nat) (h : TwinHdr) (e : EngId) (job bundle : Nat) (s : State) : Host.Outcome State Fault Refusal :=
  .next (s.recordIn t h fun s => s.keepEvent (s.mirrorOf h.cycle.toNat) (.release e job bundle))

/-- COMMAND (R309). A fence that reaches the standby is opcode 0 with the engine as its argument (R317). -/
def execTwinCommand (t : Nat) (h : TwinHdr) (opcode : Half) (r : MbxReq) (s : State) : Host.Outcome State Fault Refusal :=
  .next (s.recordIn t h fun s => s.keepEvent (s.mirrorOf h.cycle.toNat) (.command opcode r))

/-- PREPARE (R323): acknowledged at once; the commit is mirrored from the cycle in which the acknowledgement arrives. -/
def execTwinPrepare (t : Nat) (h : TwinHdr) (handle : Half) (s : State) : Host.Outcome State Fault Refusal :=
  .next (s.recordIn t h fun s =>
    if ¬ s.follows then s
    else ((s.sendAck.updEnvelope h.part handle fun v => { v with prepared := some h.recordSeq }).keepEvent
      (s.now + twinLatency + mirrorLag) (.commit h.part handle)))

/-- ABORT (R323): acknowledged at once; the commit that its PREPARE promised does not come. -/
def execTwinAbort (t : Nat) (h : TwinHdr) (handle : Half) (s : State) : Host.Outcome State Fault Refusal :=
  .next (s.recordIn t h fun s =>
    if ¬ s.follows then s
    else
      let s := s.sendAck.updTwin fun w => { w with forwarded := w.forwarded.filter fun x => decide (x.2 ≠ .commit h.part handle) }
      s.keepEvent (s.mirrorOf h.cycle.toNat) (.abort h.part handle))

/-! Reports and digests (R314-R316). -/

/-- One reported result digest against the standby's own, now or once it has made the message (R315). -/
def State.checkDigest (s : State) (x : PartId × Nat × Dword) : State :=
  match s.twin.ownDigests.find? fun (y : PartId × Nat × Dword) => y.1 = x.1 && y.2.1 = x.2.1 with
  | none => s.updTwin fun t => { t with expected := t.expected ++ [x] }
  | some y =>
    let s := s.updTwin fun t => { t with ownDigests := t.ownDigests.filter fun z => decide (z ≠ y) }
    if y.2.2 = x.2.2 then s else s.leaveStep

/-- What a report tells a standby: how far the active has come, and the digests of its messages. -/
def State.takeReport (s : State) (b : ReportBody) : State :=
  let s := s.updTwin fun t =>
    let rep := b.lastSeq.foldl (fun (v : Vector Nat 7) (x : PartId × Nat) => v.set x.1 x.2) t.reported
    { t with
      reported := rep
      reportedCtx := b.ctxs.foldl (fun (l : List (Half × Word × Word)) (x : Half × Word × Word) =>
        x :: l.filter fun (y : Half × Word × Word) => decide (y.1 ≠ x.1)) t.reportedCtx
      held := t.held.filter fun (x : PortId × TxPkt) => decide (rep[x.2.part] < x.2.pkt.outputSeq.toNat) }
  b.digests.foldl State.checkDigest s

/-- REPORT (R314, R315). -/
def execTwinReport (t : Nat) (h : TwinHdr) (b : ReportBody) (s : State) : Host.Outcome State Fault Refusal :=
  .next (s.recordIn t h fun s => if s.isStandby then s.sendAck.takeReport b else s)

/-- DIGEST (R315, R316). -/
def execTwinDigest (t : Nat) (h : TwinHdr) (epoch : Nat) (digests : List Dword) (s : State) : Host.Outcome State Fault Refusal :=
  .next (s.recordIn t h fun s => (s.updTwin fun w => { w with peerEpoch := some (epoch, digests) }).compareEpochs)

/-! Heartbeats (R306, R308). -/

/-- HEARTBEAT (R308): the claim that the twin reports against this module's own CLAIM_IN. The joining standby takes the distance of the two
postmarks from it (R311). -/
def execTwinHeartbeat (t : Nat) (h : TwinHdr) (claimOut _claimIn : Bool) (s : State) : Host.Outcome State Fault Refusal :=
  .next (s.recordIn t h fun s =>
    let n := if claimOut = s.twin.claimIn then 0 else s.twin.wiringRun + 1
    let active : Bool := s.twin.role = .active
    let s := s.updTwin fun w =>
      { w with
        twinClaims := claimOut, wiringRun := n, twinPaired := true, silent := false
        skew := if w.role = .joining then (s.now : Int) - (h.cycle.toNat + twinLatency : Nat) else w.skew }
    if n < 3 then s
    else
      let s := s.updTwin fun w => { w with event := setBit w.event 8, wiringBad := w.wiringBad || !active }
      if active then s else s.leaveStep)

/-! Give-up, loss, and leaving step (R317-R320, R326). -/

/-- The partitions that exist, as bits. -/
def State.compMask (s : State) : BitVec 7 :=
  BitVec.ofNat 7 (((List.finRange 7).map fun (p : PartId) => if p ≠ 0 ∧ s.part[p].isThere then 2 ^ p.val else 0).sum)

/-- The active is gone before the resync has completed (R326): what has been copied stays, every partition is to be restored. -/
def State.resyncLost (s : State) : State :=
  let s := match s.twin.resyncMbx with
    | none => s
    | some m => s.mbxAnswer m stTwinResyncLost
  s.driveTwin.updTwin fun t =>
    { t with
      event := setBit t.event 6, role := .unpaired, twinPaired := false, phase := 0, pending := 0, resyncMbx := none, lost := s.compMask
      forwarded := [], held := [], expected := [], ownDigests := [] }

/-- GIVEUP (R317, R320, R326): with it comes the active's last report. -/
def execTwinGiveupRecord (t : Nat) (h : TwinHdr) (_cause : Byte) (b : ReportBody) (s : State) : Host.Outcome State Fault Refusal :=
  .next (s.recordIn t h fun s =>
    if s.isStandby then (s.updTwin fun w => { w with gaveUpSeen := true }).takeReport b
    else if s.twin.role = .joining then s.resyncLost else s)

/-- The answers of ENV_ABORTs whose ABORT needs no further acknowledgement (R323). -/
def State.answerAborts (s : State) (l : List (Dword × PortId × Packet)) : State :=
  l.foldl (fun s (x : Dword × PortId × Packet) => match s.ctx? x.2.2.link with
    | none => s
    | some c => s.respond x.2.1 c 0x12 x.2.2 stOk) s

/-- ACK (R309, R314, R323): of a PREPARE, an ABORT or a REPORT. -/
def execTwinAck (t : Nat) (h : TwinHdr) (seq : Dword) (s : State) : Host.Outcome State Fault Refusal :=
  .next (s.recordIn t h fun s =>
    if s.twin.role ≠ .active then s
    else
      let s := s.updEnv fun u => { u with opens := updWhere (fun v => decide (v.prepared = some seq)) (fun v => { v with acked := true }) u.opens }
      let due := s.twin.abortAnswers.filter fun (x : Dword × PortId × Packet) => x.1 = seq
      let done := s.twin.sentReports.filter fun (x : Dword × List (PartId × Nat)) => x.1 = seq
      let s := s.updTwin fun w =>
        { w with
          aborts := w.aborts.filter fun (x : Dword × PartId × Half) => decide (x.1 ≠ seq)
          abortAnswers := w.abortAnswers.filter fun (x : Dword × PortId × Packet) => decide (x.1 ≠ seq)
          sentReports := w.sentReports.filter fun (x : Dword × List (PartId × Nat)) => decide (x.1 ≠ seq)
          acked := (done.flatMap Prod.snd).foldl (fun (v : Vector Nat 7) (x : PartId × Nat) => v.set x.1 (max v[x.1] x.2)) w.acked }
      s.answerAborts due)

/-- An active whose standby is in step no longer: the limits that it set end with it (R314, R319, R323). -/
def State.dropStandby (s : State) : State :=
  let due := s.twin.abortAnswers
  (s.updTwin fun w => { w with peerInStep := false, aborts := [], abortAnswers := [], sentReports := [] }).answerAborts due

/-- STEP_LEFT (R316, R318): a result digest that differs, cause 5, drives SAFE_STOP. -/
def execTwinStepLeft (t : Nat) (h : TwinHdr) (cause : Byte) (s : State) : Host.Outcome State Fault Refusal :=
  .next (s.recordIn t h fun s =>
    if s.twin.role ≠ .active then s
    else
      let s := s.dropStandby.updTwin fun w => { w with event := setBit w.event 5 }
      if cause = 5 then s.driveTwin.updTwin fun w => { w with event := setBit w.event 3 } else s)

/-! Resync (R325). -/

/-- A command that the pair's other module has run, run here: its package or rows come with it (R309, R311, R325). -/
def State.mirrorCmd (s : State) (opcode : Half) (r : MbxReq) : State :=
  let op := opcode.toNat
  if op = 0 then (if h : r.arg 0 1 < 6 then
      let e : EngId := ⟨r.arg 0 1, h⟩
      s.fenceEngine e (32 + e.val) (s.record 2 (32 + e.val) 13 0 stFenced none 0xFFFF 0 0)
    else s)
  else if op = 0x0003 ∧ r.env = 0xFFFF then (if h : r.arg 1 1 < 6 then
      let e : EngId := ⟨r.arg 1 1, h⟩
      if r.arg 2 1 = 0 then s.writeRows e (r.arg 4 4) (r.arg 8 4) r.extra else (s.sideWrite e (lineAddr (r.arg 4 4)) r.extra).1
    else s)
  else
    let body : Body := if op = 0x0400 then fun s _ _ r => s.changeOrStage 0x0400 r r.extra changeArm else bodyInner op
    (s.runBody r.mailbox none op r (opcodes64.contains op) true body).1

/-- A page list of a copied sequence. -/
def copiedList (l : List (Bool × EngId × Nat)) : List PageRef :=
  l.map fun (x : Bool × EngId × Nat) => if x.1 then .resident x.2.1 x.2.2 else .spilled x.2.1 x.2.2

/-- An item of the copy put in its place; none for a store row that its reference digest rejects (R325). -/
def State.copyItem (s : State) : CopyItem → Option State
  | .setting opcode r => some (s.mirrorCmd opcode r)
  | .kvSeq p num state reason handle length gen lists =>
    let q : KvSeq :=
      { num := num, state := state, reason := reason, handle := handle, length := length, editGen := gen
        lists := lists.map fun (x : Nat × List (Bool × EngId × Nat)) => (x.1, copiedList x.2) }
    some (s.updKv p fun k => { k with seqs := q :: k.seqs.filter fun x => x.num ≠ num })
  | .kvPage p e page last => some (s.updKv p fun k => { k with pages := assocSet (e, page) (.owned last) k.pages })
  | .outcome p handle opener committed misses staged reason postmark =>
    some (s.updEnv fun u => { u with outcomes :=
      { part := p, handle := handle, opener := opener, committed := committed, casMisses := misses, staged := staged
        reason := reason, postmark := postmark } :: u.outcomes.filter fun o => !(o.part = p && o.handle = handle) })
  | .storeRow e row bs digest => if BitVec.ofNat 64 (rowDigest row bs) = digest then some (s.writeRow e row bs) else none
  | .actPage e page bs => some (s.sideWrite e (4096 * page) (padTo 4096 bs)).1
  | .lpddrPage p page bs => some (s.updPart p fun q => regionWrite q (4096 * page) (padTo 4096 bs))
  | .pigeonhole n v => some (s.pghSet n v.toNat)
  | .passEnd left => some (s.updTwin fun t =>
      { t with pass := bump 8 t.pass 1, phase := if left ≤ 256 then 2 else 1, pending := BitVec.ofNat 15 (min left 0x7FFF) })

/-- COPY (R325). -/
def execTwinCopy (t : Nat) (h : TwinHdr) (item : CopyItem) (s : State) : Host.Outcome State Fault Refusal :=
  .next (s.recordIn t h fun s =>
    if s.twin.role ≠ .joining ∨ s.twin.phase = 0 then s
    else
      let ends' : Bool := match item with
        | .passEnd _ => true
        | _ => false
      match s.copyItem item with
      | none => s
      | some s => if ends' ∨ s.twin.phase ≠ 2 then s else s.updTwin fun w => { w with pending := w.pending - if w.pending = 0 then 0 else 1 })

end Sys2Proof.Machine
end

