-- ==== Sys2Proof/Machine/Mirror.lean ====
section
/-! DEFINITION. What a pair does in its own time: the mirrored events, heartbeats and reports, the claim, takeover and the cutover of a
resync (R305-R307, R311, R314, R319-R323, R325, R326, Table 13.5). -/

namespace Sys2Proof.Machine

/-! Mirrored events (R311). -/

/-- A forwarded trigger's job (R309, R311, R322): it starts in the mirror cycle of the predicted start; after a takeover its last
collection lies 1,152 cycles earlier. -/
def State.mirrorJob (s : State) (port : PortId) (sch : Schedule) (op : Byte) (p : Packet) (t : Target) (last predicted : Nat)
    (rel : Option Nat) : State × Nat :=
  let o := s.pktOffer port sch op p t
  s.placeJob { o with last := if s.isStandby then s.mirrorOf last else s.here last } (s.mirrorOf predicted + o.w) rel

/-- An operation that the active has admitted (R309, R311): it takes its tokens and has its effect; nothing is checked again. -/
def State.mirrorOp (s : State) (port : PortId) (op : Byte) (p : Packet) (last predicted : Nat) : State :=
  match s.ctx? p.link with
  | none => s
  | some c =>
    let c : Ctx := (c.takeTokens op p).getD c
    let c : Ctx := if c.clear then c else { c with rx := assocSet p.epoch.toNat p.pktSeq c.rx }
    let s := s.updCtx c.link fun _ => c
    if 6 < op.toNat then s.envPkt port c op p
    else match s.target c op p with
      | .error _ => s
      | .ok t =>
        if stages op p then s.stagePkt port c op p t
        else
          let h := s.stamped c { port := port, op := op, pkt := p, space := t.space, addr := t.addr }
          match s.pktTrigger c op p with
          | none => s.execOp c h
          | some sch =>
            let waits : Bool := !c.held.isEmpty || s.mustWait c h
            let (s, id) := s.mirrorJob port sch op p t last predicted (if waits then none else some (s.now + 9))
            s.execOp c { h with job := some id }

/-- A standby in step sends nothing on its ports for what it mirrors (R312). -/
def State.silently (s : State) (k : State → State) : State :=
  let ports := s.fab.ports
  let quiet := s.isStandby
  let s := k s
  if quiet then s.updFab fun b => { b with ports := ports } else s

/-- A forwarded event in its mirror cycle (R311). -/
def State.mirror (s : State) : FwdEvent → State
  | .admission port op p last predicted => s.silently fun s => s.mirrorOp port op p last.toNat predicted.toNat
  | .release e _ _ => s.mirrorRelease e
  | .command opcode r => s.mirrorCmd opcode r
  | .commit p h => s.silently fun s => match s.env? p h with
    | none => s
    | some v => s.settleEnv v
  | .abort p h => s.silently fun s => s.abortNow p h 1

/-- A dissolve that the active's host driver asked for, completed here (R300, R311). -/
def State.mirrorDissolve (s : State) (p : PartId) : State := match s.part[p].dissolving with
  | none => s
  | some d => if d.keysGone ∧ d.d + 16 + 8192 ≤ s.now then s.finishDissolve p else s

/-- MIRROR_EXECUTE (R311): what has been forwarded and is due, in order. -/
def execMirrorExecute (t : Nat) (s : State) : Host.Outcome State Fault Refusal :=
  let s := s.advance t
  .next (
    let due := s.twin.forwarded.filter fun (x : Nat × FwdEvent) => decide (x.1 ≤ s.now)
    if s.twin.role ≠ .inStep ∧ s.twin.role ≠ .active then s
    else
      let s := s.updTwin fun w => { w with forwarded := w.forwarded.filter fun (x : Nat × FwdEvent) => decide (s.now < x.1) }
      let s := due.foldl (fun s (x : Nat × FwdEvent) => s.mirror x.2) s
      if s.isStandby then (List.finRange 7).foldl State.mirrorDissolve s else s)

/-! Heartbeats, reports, the claim (R306, R307, R314). -/

/-- HEARTBEAT_SEND (R306): every 256 cycles, with the watchdog refreshed in the same cycle. -/
def execHeartbeatSend (t : Nat) (s : State) : Host.Outcome State Fault Refusal :=
  let s := s.advance t
  .next (if s.twin.role = .unpaired ∨ s.twin.role = .gaveUp ∨ s.now < s.twin.refreshed + 256 then s
    else (s.twinSend 8).updTwin fun w => { w with refreshed := s.now })

/-- The last OUTPUT_SEQ of a partition that has been emitted: that before the first that still waits at egress. -/
def State.emitted (s : State) (p : PartId) : Nat :=
  (s.fab.ports.toList.flatMap fun q => q.queue.filter fun x => x.cls = .output && x.part = p).foldl
    (fun n x => min n x.pkt.outputSeq.toNat) (s.part[p].outSeq + 1) - 1

/-- REPORT_SEND (R314): 256 cycles after the previous report, or as soon as 8 messages of a partition are unreported. -/
def execReportSend (t : Nat) (s : State) : Host.Outcome State Fault Refusal :=
  let s := s.advance t
  .next (
    let full : Bool := (List.finRange 7).any fun (p : PartId) =>
      decide (8 ≤ (s.twin.unreported.filter fun (x : PartId × Nat × Dword) => x.1 = p).length)
    if ¬ s.hasStandby ∨ (s.now < s.twin.lastReport + 256 ∧ ¬ full) then s
    else (s.updTwin fun w =>
      { w with
        lastReport := s.now, unreported := []
        sentReports := w.sentReports ++ [(w.txSeq, (List.finRange 7).map fun (p : PartId) => (p, s.emitted p))] }).twinSend 6)

/-- CLAIM_WATCHDOG_EXPIRY (R306): 2,048 cycles without a refresh. -/
def execClaimWatchdogExpiry (t : Nat) (s : State) : Host.Outcome State Fault Refusal :=
  let s := s.advance t
  .next (if s.twin.claimOut ∧ s.twin.refreshed + 2048 ≤ s.now then s.updTwin fun w => { w with claimOut := false } else s)

/-- CLAIM_IN_CHANGE (R307): how long it has read so is counted from here. -/
def execClaimInChange (t : Nat) (level : Bool) (s : State) : Host.Outcome State Fault Refusal :=
  let s := s.advance t
  .next (if s.twin.claimIn = level then s else s.updTwin fun w => { w with claimIn := level, claimInSince := s.now })

/-- HEARTBEAT_LOSS (R319, R326): no block from the twin for 4,096 cycles. -/
def execHeartbeatLoss (t : Nat) (s : State) : Host.Outcome State Fault Refusal :=
  let s := s.advance t
  .next (if s.now < s.fab.ports[twinLink].lastBlock + 4096 then s
    else match s.twin.role with
      | .active => s.dropStandby.updTwin fun w => { w with twinPaired := false }
      | .inStep =>
        let s := s.updTwin fun w => { w with silent := true, event := setBit w.event 2 }
        if s.twin.claimIn then s.leaveStep.updTwin fun w => { w with event := setBit w.event 7 } else s
      | .joining => s.resyncLost
      | _ => s)

/-! Takeover (R307, R320-R323). -/

/-- Whether a standby may claim (R307, R308). -/
def State.mayClaim (s : State) : Bool :=
  s.isStandby && !s.twin.claimIn && decide (s.twin.claimInSince + 64 ≤ s.now) && (s.twin.gaveUpSeen || s.twin.silent) && !s.twin.wiringBad

/-- A held packet put in its place in the order of OUTPUT_SEQ. -/
def insertHeld (x : PortId × TxPkt) : List (PortId × TxPkt) → List (PortId × TxPkt)
  | [] => [x]
  | y :: l => if x.2.pkt.outputSeq.toNat < y.2.pkt.outputSeq.toNat then x :: y :: l else y :: insertHeld x l

/-- The held messages queued in the order of OUTPUT_SEQ, those at most 8 above the last report with REEMIT (R321). -/
def State.emitHeld (s : State) : State :=
  let rep := s.twin.reported
  let l := s.twin.held.foldl (fun l x => insertHeld x l) []
  let s := s.updTwin fun w => { w with held := [], reemit := rep.map (· + 8) }
  l.foldl (fun s (x : PortId × TxPkt) =>
    let again : Bool := decide (x.2.pkt.outputSeq.toNat ≤ rep[x.2.part] + 8)
    s.queueTx x.1 { x.2 with pkt := { x.2.pkt with flags := if again then x.2.pkt.flags ||| 4 else x.2.pkt.flags } }) s

/-- The sequence numbers of a context at takeover (R322). -/
def Ctx.takenOver (c : Ctx) (sent accepted : Word) : Ctx :=
  let e := sendEpoch c
  { c with tx := sent + 4096, txEpoch := e, rx := assocSet e (BitVec.ofNat 32 (max accepted.toNat ((assoc e c.rx).getD 0).toNat)) c.rx }

/-- An open envelope at takeover (Table 13.5). -/
def State.envAtTakeover (s : State) (aborted : List (PartId × Half)) (v : Envelope) : State :=
  if v.prepared.isNone then s.abortNow v.part v.handle 5
  else if aborted.contains (v.part, v.handle) then s.abortNow v.part v.handle 1
  else s.settleEnv v

/-- TAKEOVER (R320-R323): the standby becomes the active. -/
def execTakeover (t : Nat) (s : State) : Host.Outcome State Fault Refusal :=
  let s := s.advance t
  .next (if ¬ s.mayClaim then s
    else
      let aborted : List (PartId × Half) := s.twin.forwarded.filterMap fun (x : Nat × FwdEvent) => match x.2 with
        | .abort p h => some (p, h)
        | _ => none
      let s := s.updTwin fun w =>
        { w with
          role := .active, claimOut := true, refreshed := s.now, twinPaired := false, peerInStep := false, gaveUpSeen := false, silent := false
          event := setBit w.event 1, lastTakeover := BitVec.ofNat 64 s.now, phase := 0, expected := [], ownDigests := [], lastReport := s.now
          forwarded := w.forwarded.filter fun (x : Nat × FwdEvent) => match x.2 with
            | .abort _ _ => false
            | .commit _ _ => false
            | _ => true }
      let s := s.twin.reportedCtx.foldl (fun s (x : Half × Word × Word) => s.updCtx x.1 fun c => c.takenOver x.2.1 x.2.2) s
      let s := { s with jobs := s.jobs.map fun (j : Job) => { j with last := j.last - mirrorLag } }
      (s.env.opens.foldl (fun (s : State) v => s.envAtTakeover aborted v) s).emitHeld)

/-! The cutover (R305, R325). -/

/-- Whether the owner of every confidential partition allows its keys to go to the twin (R305). -/
def State.allPermitted (s : State) : Bool := (List.finRange 7).all fun (p : PartId) =>
  !s.part[p].isThere || !s.part[p].confidential || s.part[p].permitted = some s.fab.ports[twinLink].farId

/-- The standby at its cutover: in step with everything there, else the cutover is abandoned, at most 64 times. -/
def State.cutover (s : State) : State :=
  let answer := fun (s : State) (st : Status) => match s.twin.resyncMbx with
    | none => s
    | some m => (s.mbxAnswer m st).updTwin fun w => { w with resyncMbx := none }
  if s.twin.pending = 0 then
    answer (s.updTwin fun w =>
      { w with role := .inStep, phase := 3, shift := w.skew + (mirrorLag : Nat), wiringBad := false, wiringRun := 0, gaveUpSeen := false
               silent := false }) stOk
  else
    let s := s.updTwin fun w => { w with abandoned := w.abandoned + 1, phase := 1, forwarded := [] }
    if s.twin.abandoned.toNat < 64 then s else answer (s.updTwin fun w => { w with phase := 0 }) stBusy

/-- RESYNC_CUTOVER (R325): on the standby after a pass with at most 256 pages and rows left; on the active the standby is in step from
here on. -/
def execResyncCutover (t : Nat) (s : State) : Host.Outcome State Fault Refusal :=
  let s := s.advance t
  .next (match s.twin.role with
    | .joining => if s.twin.phase = 2 then s.cutover else s
    | .active =>
      if ¬ s.twin.twinPaired ∨ s.twin.peerInStep ∨ ¬ s.allPermitted then s
      else s.updTwin fun w =>
        { w with peerInStep := true, unreported := [], sentReports := [], lastReport := s.now, acked := Vector.ofFn fun p => s.emitted p }
    | _ => s)

end Sys2Proof.Machine
end

