-- ==== Sys2Proof/Machine/VecFloat.lean ====
section
/-! DEFINITION. The vector operations on FP32 lanes and the conversions (Tables 05.14 and 05.24, R74, R76-R79). -/

namespace Sys2Proof.Machine

/-- VADD (R74). -/
def execVadd (t : Nat) (e : EngId) (v : VecSlot) (f : Flt) (s : State) : Host.Outcome State Fault Refusal :=
  .next (s.vecOp t e 0x08 v f)

/-- VSUB (R74). -/
def execVsub (t : Nat) (e : EngId) (v : VecSlot) (f : Flt) (s : State) : Host.Outcome State Fault Refusal :=
  .next (s.vecOp t e 0x09 v f)

/-- VMUL (R74). -/
def execVmul (t : Nat) (e : EngId) (v : VecSlot) (f : Flt) (s : State) : Host.Outcome State Fault Refusal :=
  .next (s.vecOp t e 0x0A v f)

/-- VFMA (R74, R118). -/
def execVfma (t : Nat) (e : EngId) (v : VecSlot) (f : Flt) (s : State) : Host.Outcome State Fault Refusal :=
  .next (s.vecOp t e 0x0B v f)

/-- VMAX (R78, R148). -/
def execVmax (t : Nat) (e : EngId) (v : VecSlot) (f : Flt) (s : State) : Host.Outcome State Fault Refusal :=
  .next (s.vecOp t e 0x0C v f)

/-- VMIN (R78). -/
def execVmin (t : Nat) (e : EngId) (v : VecSlot) (f : Flt) (s : State) : Host.Outcome State Fault Refusal :=
  .next (s.vecOp t e 0x0D v f)

/-- VEXP2 (R79). -/
def execVexp2 (t : Nat) (e : EngId) (v : VecSlot) (f : Flt) (s : State) : Host.Outcome State Fault Refusal :=
  .next (s.vecOp t e 0x10 v f)

/-- VLOG2 (R79). -/
def execVlog2 (t : Nat) (e : EngId) (v : VecSlot) (f : Flt) (s : State) : Host.Outcome State Fault Refusal :=
  .next (s.vecOp t e 0x11 v f)

/-- VRCP (R79). -/
def execVrcp (t : Nat) (e : EngId) (v : VecSlot) (f : Flt) (s : State) : Host.Outcome State Fault Refusal :=
  .next (s.vecOp t e 0x12 v f)

/-- VRSQRT (R79). -/
def execVrsqrt (t : Nat) (e : EngId) (v : VecSlot) (f : Flt) (s : State) : Host.Outcome State Fault Refusal :=
  .next (s.vecOp t e 0x13 v f)

/-- VRSUM (R78). -/
def execVrsum (t : Nat) (e : EngId) (v : VecSlot) (f : Flt) (s : State) : Host.Outcome State Fault Refusal :=
  .next (s.vecOp t e 0x18 v f)

/-- VRMAX (R78). -/
def execVrmax (t : Nat) (e : EngId) (v : VecSlot) (f : Flt) (s : State) : Host.Outcome State Fault Refusal :=
  .next (s.vecOp t e 0x19 v f)

/-- VRMIN (R78). -/
def execVrmin (t : Nat) (e : EngId) (v : VecSlot) (f : Flt) (s : State) : Host.Outcome State Fault Refusal :=
  .next (s.vecOp t e 0x1A v f)

/-- VCVT (R76). -/
def execVcvt (t : Nat) (e : EngId) (v : VecSlot) (f : Flt) (s : State) : Host.Outcome State Fault Refusal :=
  .next (s.vecOp t e 0x20 v f)

/-- VCVTMX (R77, R62). -/
def execVcvtmx (t : Nat) (e : EngId) (v : VecSlot) (f : Flt) (s : State) : Host.Outcome State Fault Refusal :=
  .next (s.vecOp t e 0x21 v f)

/-- VEXT (Table 05.14, R117). -/
def execVext (t : Nat) (e : EngId) (v : VecSlot) (f : Flt) (s : State) : Host.Outcome State Fault Refusal :=
  .next (s.vecOp t e 0x22 v f)

end Sys2Proof.Machine
end

