-- ==== Sys2Proof/Machine/VecInt.lean ====
section
/-! DEFINITION. The integer vector operations, requantisation, moves and the parameter file (Tables 05.13-05.15 and
05.24, R75, R80, R117, R119). -/

namespace Sys2Proof.Machine

/-- VPLD (Table 05.14, R119). -/
def execVpld (t : Nat) (e : EngId) (v : VecSlot) (f : Flt) (s : State) : Host.Outcome State Fault Refusal :=
  .next (s.vecOp t e 0x01 v f)

/-- REQ (R75, R119): accumulators from the matrix output register with MO, else INT32 lanes. -/
def execReq (t : Nat) (e : EngId) (v : VecSlot) (f : Flt) (s : State) : Host.Outcome State Fault Refusal :=
  .next (s.vecOp t e 0x02 v f)

/-- IADD (R80). -/
def execIadd (t : Nat) (e : EngId) (v : VecSlot) (f : Flt) (s : State) : Host.Outcome State Fault Refusal :=
  .next (s.vecOp t e 0x28 v f)

/-- ISUB (R80). -/
def execIsub (t : Nat) (e : EngId) (v : VecSlot) (f : Flt) (s : State) : Host.Outcome State Fault Refusal :=
  .next (s.vecOp t e 0x29 v f)

/-- IMUL (R80). -/
def execImul (t : Nat) (e : EngId) (v : VecSlot) (f : Flt) (s : State) : Host.Outcome State Fault Refusal :=
  .next (s.vecOp t e 0x2A v f)

/-- ISHL (R80). -/
def execIshl (t : Nat) (e : EngId) (v : VecSlot) (f : Flt) (s : State) : Host.Outcome State Fault Refusal :=
  .next (s.vecOp t e 0x2B v f)

/-- ISHR (R80). -/
def execIshr (t : Nat) (e : EngId) (v : VecSlot) (f : Flt) (s : State) : Host.Outcome State Fault Refusal :=
  .next (s.vecOp t e 0x2C v f)

/-- ISRA (R80). -/
def execIsra (t : Nat) (e : EngId) (v : VecSlot) (f : Flt) (s : State) : Host.Outcome State Fault Refusal :=
  .next (s.vecOp t e 0x2D v f)

/-- IAND (R80). -/
def execIand (t : Nat) (e : EngId) (v : VecSlot) (f : Flt) (s : State) : Host.Outcome State Fault Refusal :=
  .next (s.vecOp t e 0x2E v f)

/-- IOR (R80). -/
def execIor (t : Nat) (e : EngId) (v : VecSlot) (f : Flt) (s : State) : Host.Outcome State Fault Refusal :=
  .next (s.vecOp t e 0x2F v f)

/-- IXOR (R80). -/
def execIxor (t : Nat) (e : EngId) (v : VecSlot) (f : Flt) (s : State) : Host.Outcome State Fault Refusal :=
  .next (s.vecOp t e 0x30 v f)

/-- IMIN (R80). -/
def execImin (t : Nat) (e : EngId) (v : VecSlot) (f : Flt) (s : State) : Host.Outcome State Fault Refusal :=
  .next (s.vecOp t e 0x31 v f)

/-- IMAX (R80). -/
def execImax (t : Nat) (e : EngId) (v : VecSlot) (f : Flt) (s : State) : Host.Outcome State Fault Refusal :=
  .next (s.vecOp t e 0x32 v f)

/-- ICMP (R80). -/
def execIcmp (t : Nat) (e : EngId) (v : VecSlot) (f : Flt) (s : State) : Host.Outcome State Fault Refusal :=
  .next (s.vecOp t e 0x33 v f)

/-- IADDS (R80). -/
def execIadds (t : Nat) (e : EngId) (v : VecSlot) (f : Flt) (s : State) : Host.Outcome State Fault Refusal :=
  .next (s.vecOp t e 0x34 v f)

/-- ISUBS (R80). -/
def execIsubs (t : Nat) (e : EngId) (v : VecSlot) (f : Flt) (s : State) : Host.Outcome State Fault Refusal :=
  .next (s.vecOp t e 0x35 v f)

/-- VSEL: a where the destination's old lane is nonzero, else b (Table 05.14). -/
def execVsel (t : Nat) (e : EngId) (v : VecSlot) (f : Flt) (s : State) : Host.Outcome State Fault Refusal :=
  .next (s.vecOp t e 0x38 v f)

/-- VBCAST: lane 0 of a to every lane (Table 05.14). -/
def execVbcast (t : Nat) (e : EngId) (v : VecSlot) (f : Flt) (s : State) : Host.Outcome State Fault Refusal :=
  .next (s.vecOp t e 0x39 v f)

/-- VARGMAX (R151, R152). -/
def execVargmax (t : Nat) (e : EngId) (v : VecSlot) (f : Flt) (s : State) : Host.Outcome State Fault Refusal :=
  .next (s.vecOp t e 0x40 v f)

/-- VWIN (R145-R147). -/
def execVwin (t : Nat) (e : EngId) (v : VecSlot) (f : Flt) (s : State) : Host.Outcome State Fault Refusal :=
  .next (s.vecOp t e 0x41 v f)

/-- VS2D (R143, R144). -/
def execVs2d (t : Nat) (e : EngId) (v : VecSlot) (f : Flt) (s : State) : Host.Outcome State Fault Refusal :=
  .next (s.vecOp t e 0x42 v f)

/-- VD2S (R143, R144). -/
def execVd2s (t : Nat) (e : EngId) (v : VecSlot) (f : Flt) (s : State) : Host.Outcome State Fault Refusal :=
  .next (s.vecOp t e 0x43 v f)

/-- VKVP (R155). -/
def execVkvp (t : Nat) (e : EngId) (v : VecSlot) (f : Flt) (s : State) : Host.Outcome State Fault Refusal :=
  .next (s.vecOp t e 0x48 v f)

end Sys2Proof.Machine
end

