-- ==== Sys2Proof/Machine/VidRun.lean ====
section
/-! DEFINITION. The work of the video units: slots and turns, chunks, pictures and frames, tensor bands, and access units (R330,
R333-R337, R339-R341, R343-R345, Tables 14.4-14.9, 14.11). -/

namespace Sys2Proof.Machine

/-! Tensor bands (R335-R337). -/

/-- The side of a tensor pixel's box of luma samples: s and f of a decode stream. -/
def Stream.scale (v : Stream) : Nat := 2 ^ v.arg 25 1

/-- The channels of a tensor pixel before space-to-depth (R335). -/
def Stream.chans (v : Stream) : Nat := if v.arg 26 1 = 0 then 1 else 3

/-- The elements of a tensor record: CH of R335. -/
def Stream.record (v : Stream) : Nat := v.chans * v.arg 27 1 * v.arg 27 1

/-- The pixels of a tensor row of a picture of a width (R335). -/
def Stream.tensorWidth (v : Stream) (w : Nat) : Nat := w / v.scale / v.arg 27 1

/-- The tensor rows of a picture of a height (R335). -/
def Stream.tensorHeight (v : Stream) (h : Nat) : Nat := h / v.scale / v.arg 27 1

/-- A sample at 8 bits (R335 step 1). -/
def sample8 (ten : Bool) (x : Nat) : Nat := if ten then min ((x + 2) / 4) 255 else x

/-- A sample of a plane; beyond what the band brings it is 0. -/
def planeAt (l : List (List Nat)) (y x : Nat) : Nat := (l.getD y []).getD x 0

/-- The mean of a box of samples (R335 step 2). -/
def boxMean (l : List (List Nat)) (k y x : Nat) : Nat :=
  (((List.range k).map fun dy => ((List.range k).map fun dx => planeAt l (k * y + dy) (k * x + dx)).sum).sum + k * k / 2) / (k * k)

/-- A chroma value at a scaled pixel (R335 step 2). -/
def chromaAt (l : List (List Nat)) (scale y x : Nat) : Nat :=
  if scale = 1 then planeAt l (y / 2) (x / 2) else if scale = 2 then planeAt l y x else boxMean l 2 y x

/-- A colour value: the sum rounded, shifted and clipped (Table 14.6). -/
def clip8 (x : Int) : Nat := min ((x + 128) / 256).toNat 255

/-- R, G and B of a pixel (Table 14.6). -/
def rgbOf (bt601 full : Bool) (y cb cr : Nat) : List Nat :=
  let b : Int := (cb : Int) - 128
  let r : Int := (cr : Int) - 128
  let k : Int := if full then 256 * (y : Int) else 298 * ((y : Int) - 16)
  match bt601, full with
  | true, false => [clip8 (k + 409 * r), clip8 (k - 100 * b - 208 * r), clip8 (k + 516 * b)]
  | true, true => [clip8 (k + 359 * r), clip8 (k - 88 * b - 183 * r), clip8 (k + 454 * b)]
  | false, false => [clip8 (k + 459 * r), clip8 (k - 55 * b - 136 * r), clip8 (k + 541 * b)]
  | false, true => [clip8 (k + 403 * r), clip8 (k - 48 * b - 120 * r), clip8 (k + 475 * b)]

/-- The channels of a scaled pixel (R335 step 3). -/
def Stream.pixel (v : Stream) (b : BandSrc) (y x : Nat) : List Nat :=
  let k := v.scale
  let lum := boxMean b.luma k y x
  let c := v.arg 26 1
  if c = 0 then [lum]
  else
    let m601 : Bool := c = 1 || (c = 3 && b.bt601)
    rgbOf m601 b.fullRange lum (chromaAt b.cb k y x) (chromaAt b.cr k y x)

/-- An element as it is stored (R335 step 5). -/
def Stream.element (v : Stream) (x : Nat) : Byte := BitVec.ofNat 8 (if v.arg 28 1 = 1 then x + 128 else x)

/-- Tensor row `j` of a band (R335 steps 4 and 5, R143). -/
def Stream.tensorRow (v : Stream) (b : BandSrc) (w j : Nat) : List Byte :=
  let f := v.arg 27 1
  (List.range (v.tensorWidth w)).flatMap fun x => (List.range f).flatMap fun dy => (List.range f).flatMap fun dx =>
    (v.pixel b (j * f + dy) (x * f + dx)).map v.element

/-- The source of a band at 8 bits (R335 step 1). -/
def eightBits (b : BandSrc) : BandSrc :=
  let f := fun (l : List (List Nat)) => l.map fun r => r.map (sample8 b.depth10)
  { b with luma := f b.luma, cb := f b.cb, cr := f b.cr }

/-- The first tensor row of band `r` (R336). -/
def Stream.bandFirst (v : Stream) (ctb r : Nat) : Nat := (ctb * r - 4) / (v.scale * v.arg 27 1)

/-- The tensor rows of band `r` of a picture of a height (R336). -/
def Stream.bandRows (v : Stream) (ctb r h : Nat) (last : Bool) : Nat :=
  let all := v.tensorHeight h
  (if last then all else min all (v.bandFirst ctb (r + 1))) - v.bandFirst ctb r

/-- The band header (Table 14.7). -/
def bandHeader (q : Picture) (b : BandSrc) (first rows at' : Nat) : List Byte :=
  natLe q.index 4 ++ natLe q.poc.toNat 4 ++ natLe q.bands 2 ++ natLe rows 2 ++ natLe first 2 ++ natLe b.stats.length 2
    ++ [BitVec.ofNat 8 ((if b.last then 1 else 0) + (if q.reason ≠ 0 then 2 else 0) + if q.inherited then 4 else 0), b.reason]
    ++ List.replicate 6 0 ++ natLe at' 8 ++ List.replicate 32 0

/-- A run of bytes written inside a tensor slot; one that would leave it is suppressed and counted (R340). -/
def State.slotWrite (s : State) (v : Stream) (e : EngId) (line off : Nat) (bs : List Byte) (f : Flt) : State :=
  if 64 * v.arg 36 4 < off + bs.length then s.vidEvent 2 else (s.sideWrite e (64 * line + off) bs f).1

/-- A band written to the ring slot of its number (R337). Words that its writes cover in part are merged, as the environment finds them
(R97, R98). -/
def State.bandOut (s : State) (v : Stream) (q : Picture) (e : EngId) (b : BandSrc) (f : Flt) : State :=
  let b := { eightBits b with stats := if bitAt (v.arg 3 1) 1 then b.stats else [] }
  let line := v.arg 32 4 + v.nextBand % v.arg 29 1 * v.arg 36 4
  let pitch := v.arg 40 2
  let first := v.bandFirst b.ctb q.bands
  let rows := v.bandRows b.ctb q.bands q.height b.last
  let s := (List.range rows).foldl (fun s j =>
    s.slotWrite v e line (64 * (1 + j * pitch) + v.arg 42 2) (v.tensorRow b q.width j) f) s
  let stat := 64 * (1 + rMax (v.arg 2 1) (v.scale * v.arg 27 1) * pitch)
  let s := s.slotWrite v e line stat (b.stats.flatMap (padTo 16)) f
  let s := s.slotWrite v e line 0 (bandHeader q b first rows s.now) f
  s.pghNotify v.part (v.arg 30 2) 1 (s.now + 1)

/-- BAND_WRITE (R337, Table 14.11): a band of the picture in progress, in a turn of its stream. A stream that has no free slot waits, and says
so in its area. -/
def execBandWrite (t : Nat) (stream : Fin 36) (b : BandSrc) (f : Flt) (s : State) : Host.Outcome State Fault Refusal :=
  let s := s.advance t
  .next (match s.stream? stream.val with
    | none => s
    | some v => match v.current with
      | none => s
      | some q =>
        let n := v.num
        let passed := fun (s : State) => s.updStream n fun v =>
          { v with nextBand := v.nextBand + 1, current := some { q with bands := q.bands + 1 } }
        if ¬ bitAt (v.arg 3 1) 0 ∨ ¬ s.vidTurn v then s
        else match (s.live v.part)[v.arg 24 1]? with
          | none => (passed s).vidEvent 3
          | some e =>
            if s.resetting (.engine e) then (passed s).vidEvent 3
            else if v.freeBands = 0 then if ¬ s.vidServed v then s else (s.updStream n fun v => { v with state := 2, forBand := true }).vidHeader n
            else
              let s := s.bandOut v q e b f
              (passed s).updStream n fun v => { v with freeBands := v.freeBands - 1 })

/-! Decode work in a slot. -/

/-- A stream seeks a random-access point for a reason (R341): its picture in progress is given up. -/
def State.seekAccess (s : State) (n : Nat) (reason : Byte) : State :=
  let s := s.dropPicture n stStreamDamaged
  ((s.updStream n fun v => { v with state := 1, lastReason := reason }).vidHeader n).vidEvent 1

/-- A chunk taken and wholly parsed (R333). An entry that leaves the data area is reason 6 (R341). -/
def State.takeChunk (s : State) (v : Stream) : State :=
  if s.pghCount v.part (v.arg 18 2) = 0 ∨ s.resetting (.video v.unit) then s
  else if s.vidBarred v (0x1000 + 8 * (v.consumed % 512)) 8 then s.endPicture v.num stFenced
  else
    let entry := s.vidGet v (0x1000 + 8 * (v.consumed % 512)) 8
    let s := s.pghTake v.part (v.arg 18 2) 1
    let s := (s.updStream v.num fun v => { v with consumed := v.consumed + 1 }).vidHeader v.num
    if v.arg 12 4 < field entry 0 4 + field entry 4 4 then s.seekAccess v.num 6 else s

/-- A picture begins in the lowest free frame, or the stream waits for one (R334, R335, R341). -/
def State.startPicture (s : State) (v : Stream) (poc : Word) (w h : Nat) (longTerm shortTerm inherited : Bool) : State :=
  let wide : Bool := bitAt (v.arg 3 1) 0 && decide (64 * v.arg 40 2 < v.arg 42 2 + v.tensorWidth w * v.record)
  if v.state = 1 ∨ v.current.isSome then s
  else if v.arg 4 2 < w ∨ v.arg 6 2 < h ∨ wide then s.seekAccess v.num 5
  else match firstFree (fun k => v.mark k = 0) (v.arg 16 1) with
    | none => (s.updStream v.num fun v => { v with state := 2, forBand := false }).vidHeader v.num
    | some k =>
      let mark : Byte := BitVec.ofNat 8
        (1 + (if shortTerm then 2 else 0) + (if longTerm then 4 else 0) + if bitAt (v.arg 3 1) 2 then 8 else 0)
      let q : Picture := { frame := k, index := v.pictures, poc := poc, width := w, height := h, inherited := inherited }
      let v := { v.setMark k mark with current := some q, numbers := assocSet k v.pictures v.numbers }
      (s.updStream v.num fun _ => v).vidEntry v q stOk 0

/-- CTUs of the picture in progress concealed for a reason (R341). -/
def State.concealCtus (s : State) (v : Stream) (reason : Byte) (k : Nat) : State := match v.current with
  | none => s
  | some q =>
    let q := { q with reason := if q.reason = 0 then reason else q.reason, concealed := q.concealed + k }
    let s := s.updStream v.num fun v => { v with current := some q, lastReason := reason }
    (s.updVid fun x => { x with damagedCount := bump 32 x.damagedCount k }).vidHeader v.num

/-- Samples of the picture in progress put in its frame buffer; one outside it is suppressed (R340), and one whose controller is fenced ends the
picture (R455). -/
def State.putSamples (s : State) (v : Stream) (off : Nat) (bs : List Byte) : State := match v.current with
  | none => s
  | some q =>
    let at' := v.frameAt q.frame + off
    let kept := bs.take (v.frameBytes - off)
    let s := if s.vidBarred v at' kept.length then s.endPicture v.num stFenced else s.vidPut v at' kept
    if v.frameBytes < off + bs.length then s.vidEvent 2 else s

/-- The picture in progress completes (R334, R341, Table 14.5). -/
def State.finishPicture (s : State) (v : Stream) : State := match v.current with
  | none => s
  | some q =>
    let bad : Bool := q.reason ≠ 0
    let v := { v.setMark q.frame (v.mark q.frame &&& 0xFE) with
      current := none, pictures := v.pictures + 1, damaged := if bad then bump 32 v.damaged 1 else v.damaged }
    let s := ((s.updStream v.num fun _ => v).vidEntry v q (if bad then stStreamDamaged else stOk) s.now).vidHeader v.num
    if bad then s.vidEvent 0 else s

/-- A picture given out in output order (R334). -/
def State.outputPicture (s : State) (v : Stream) (k : Nat) : State :=
  if ¬ bitAt (v.arg 3 1) 2 ∨ ¬ hasBit (v.mark k) 3 ∨ v.outList.contains k then s
  else
    let s := s.vidPut v (0x440 + 8 * (v.outIndex % 64))
      ([BitVec.ofNat 8 k, 0, 0, 0] ++ natLe ((assoc k v.numbers).getD 0) 4)
    let s := s.updStream v.num fun v => { v with outIndex := v.outIndex + 1, outList := v.outList ++ [k] }
    s.pghNotify v.part (v.arg 20 2) 1 s.now

/-- An input frame taken by the encoder (R343, R345). At the shedding level it completes at once without output. -/
def State.takeInput (s : State) (v : Stream) : State :=
  if ¬ v.encoding ∨ v.written < v.consumed ∨ s.pghCount v.part (v.arg 36 2) = 0 ∨ s.resetting (.video v.unit) then s
  else
    let s := s.pghTake v.part (v.arg 36 2) 1
    let s := (s.updStream v.num fun v => { v with consumed := v.consumed + 1 }).vidHeader v.num
    if 2 ≤ s.pwr.level.toNat then (s.encodeEnd v.num stThermalShed v.outPos 0 false).vidEvent 4 else s

/-- One piece of work of a stream. -/
def State.vidWork (s : State) (n : Nat) (w : VidWork) : State := match s.stream? n with
  | none => s
  | some v =>
    if v.encoding then
      match w with
      | .encodeTake => s.takeInput v
      | _ => s
    else match w with
      | .chunkParsed => s.takeChunk v
      | .unsupported => s.seekAccess n 5
      | .randomAccess => if v.state = 1 then (s.updStream n fun v => { v with state := 0 }).vidHeader n else s
      | .pictureStart poc w h lt st inh => s.startPicture v poc w h lt st inh
      | .conceal reason k => s.concealCtus v reason k
      | .samples off bs => s.putSamples v off bs
      | .pictureDone => s.finishPicture v
      | .unmark k => s.vidMark n k (v.mark k &&& 0xF9)
      | .outputNext k => s.outputPicture v k
      | .encodeTake => s

/-! Slots and turns (R330). -/

/-- Frames that the consumer has returned are unmarked, in output order (R334). -/
def State.drainFrames (s : State) (v : Stream) : State :=
  let k := min (s.pghCount v.part (v.arg 22 2)) v.outList.length
  let s := (v.outList.take k).foldl (fun s f => match s.stream? v.num with
    | none => s
    | some x => s.vidMark v.num f (x.mark f &&& 0xF7)) s
  (s.updStream v.num fun x => { x with outList := x.outList.drop k }).pghTake v.part (v.arg 22 2) k

/-- What the consumers of a stream have returned is taken: frames, tensor slots, output space (R334, R337, R343). A stream
that waited for what has come back waits no longer. -/
def State.drainStream (s : State) (v : Stream) : State :=
  let s :=
    if v.encoding then
      let k := min (s.pghCount v.part (v.arg 40 2)) v.unread.length
      (s.updStream v.num fun x => { x with unread := x.unread.drop k }).pghTake v.part (v.arg 40 2) k
    else
      let s := if bitAt (v.arg 3 1) 2 then s.drainFrames v else s
      if ¬ bitAt (v.arg 3 1) 0 then s
      else
        let k := s.pghCount v.part (v.arg 44 2)
        (s.updStream v.num fun x => { x with freeBands := x.freeBands + k }).pghTake v.part (v.arg 44 2) k
  match s.stream? v.num with
  | none => s
  | some x =>
    let free : Bool := if x.encoding then true else if x.forBand then decide (0 < x.freeBands)
      else (firstFree (fun k => x.mark k = 0) (x.arg 16 1)).isSome
    if x.state = 2 ∧ free then (s.updStream v.num fun x => { x with state := 0, forBand := false }).vidHeader v.num else s

/-- The stream whose turn it is among those with work: the next after the last one in order of number (R330). -/
def nextTurn (last : Nat) (l : List Nat) : Option Nat :=
  ((List.range 36).map fun i => (last + 1 + i) % 36).find? l.contains

/-- The partition that owns the video slot that runs now (R330). -/
def State.vidOwner (s : State) : Option PartId :=
  (List.finRange 7).find? fun p => s.part[p].isThere && hasBit s.part[p].vidSlots (s.now / 10240 % 16)

/-- A slot of a unit begins: the turn goes to one stream of the slot's owner, among those that `work` names and that wait for nothing once what
their consumers have returned is counted (R330). -/
def State.beginVidSlot (s : State) (u : VidId) (p : PartId) (work : List (Fin 36 × VidWork)) : State :=
  let mine := s.vid.streams.filter fun v => v.unit = u && v.part = p
  let seen := mine.foldl (fun s v => s.drainStream v) s
  let able := (seen.vid.streams.filter fun v => v.unit = u && v.part = p && v.state ≠ 2).map Stream.num
  match nextTurn ((assoc (u, p) s.vid.lastTurn).getD 35) (able.filter fun n => work.any fun w => w.1.val = n) with
  | none => s
  | some n => s.updVid fun x => { x with working := (u, n) :: x.working, lastTurn := assocSet (u, p) n x.lastTurn }

/-- Work of a unit in its slot, once its LPDDR5X traffic is served (R331): what the stream's consumers have returned is taken, and what its
content asks is done. -/
def State.vidTurnWork (s : State) (u : VidId) (work : List (Fin 36 × VidWork)) : State :=
  match s.vid.streams.find? fun v => v.unit = u && s.vidServed v with
  | none => s
  | some v =>
    let s := s.drainStream v
    if (s.stream? v.num).all fun x => x.state = 2 then s
    else (work.filter fun w => w.1.val = v.num).foldl (fun s w => s.vidWork v.num w.2) s

/-- VIDEO_SLOT (R330, R331): given at the start of a slot, it gives the turn to one of the owner's streams; given in the slot after that, it does
work of that stream until the slot ends. `work` is what the streams' content asks. -/
def execVideoSlot (t : Nat) (u : VidId) (work : List (Fin 36 × VidWork)) (s : State) : Host.Outcome State Fault Refusal :=
  let s := s.advance t
  .next (if s.unitFenced (96 + u.val) ∨ ¬ s.inService then s
    else if assoc u s.vid.slotAt = some s.vidStart then s.vidTurnWork u work
    else if s.now ≠ s.vidStart then s
    else
      let s := s.updVid fun x => { x with working := x.working.filter fun w => w.1 ≠ u, slotAt := assocSet u s.now x.slotAt }
      match s.vidOwner with
      | none => s
      | some p => s.beginVidSlot u p work)

/-! Access units (R343-R345). -/

/-- Where an access unit of `len` bytes goes: after the last one, or at 0 where it would not fit before the end. -/
def Stream.place (v : Stream) (len : Nat) : Nat := if v.outPos + len ≤ v.arg 32 4 then v.outPos else 0

/-- Whether the space that the consumer has freed holds CPB_BITS / 8 bytes, and the place given is free (R343). -/
def Stream.roomFor (v : Stream) (off len : Nat) : Bool :=
  decide (v.arg 16 4 ≤ 8 * (v.arg 32 4 - (v.unread.map Prod.snd).sum)) && decide (off + len ≤ v.arg 32 4)
    && v.unread.all fun x => decide (x.2 = 0 ∨ x.1 + x.2 ≤ off ∨ off + len ≤ x.1)

/-- ACCESS_UNIT_WRITE (R331, R343-R345): the access unit of the picture in progress in a turn of its stream, or its end at the shedding level
or at a fenced controller. -/
def execAccessUnitWrite (t : Nat) (stream : Fin 36) (bs : List Byte) (s : State) : Host.Outcome State Fault Refusal :=
  let s := s.advance t
  .next (match s.stream? stream.val with
    | none => s
    | some v =>
      if ¬ v.encoding ∨ v.consumed ≤ v.written ∨ ¬ s.vidServed v then s
      else if 2 ≤ s.pwr.level.toNat then (s.encodeEnd v.num stThermalShed v.outPos 0 false).vidEvent 4
      else
        let off := v.place bs.length
        if s.vidBarred v (0x1000 + off) bs.length then s.endPicture v.num stFenced
        else if ¬ v.roomFor off bs.length then (s.updStream v.num fun v => { v with state := 2 }).vidHeader v.num
        else
          let idr : Bool := v.restart || decide (v.arg 24 2 ≤ v.sinceIdr)
          let s := s.vidPut v (0x1000 + off) bs
          let s := s.updStream v.num fun v => { v with state := 0 }
          s.encodeEnd v.num stOk off bs.length idr)

end Sys2Proof.Machine
end

