-- ==== Sys2Proof/Machine/Dispatch.lean ====
section
/-! DEFINITION. One arm for each command of the table. -/

namespace Sys2Proof.Machine

/-- The effect of a command on everything but the queue. -/
def exec (i : Instr) (s : State) : Host.Outcome State Fault Refusal :=
  match i with
  | .echo t r => Sys2Proof.Machine.execEcho t r s
  | .funcReset t r => Sys2Proof.Machine.execFuncReset t r s
  | .funcResetQuiesce t fn => Sys2Proof.Machine.execFuncResetQuiesce t fn s
  | .modelLoad t r => Sys2Proof.Machine.execModelLoad t r s
  | .dwinBind t r => Sys2Proof.Machine.execDwinBind t r s
  | .dwinRelease t r => Sys2Proof.Machine.execDwinRelease t r s
  | .historyRead t r => Sys2Proof.Machine.execHistoryRead t r s
  | .ckptConfig t r => Sys2Proof.Machine.execCkptConfig t r s
  | .ckptRestore t r => Sys2Proof.Machine.execCkptRestore t r s
  | .partitionCreate t r => Sys2Proof.Machine.execPartitionCreate t r s
  | .partitionDissolve t r => Sys2Proof.Machine.execPartitionDissolve t r s
  | .partitionLayout t r => Sys2Proof.Machine.execPartitionLayout t r s
  | .keyInstall t r => Sys2Proof.Machine.execKeyInstall t r s
  | .attest t r => Sys2Proof.Machine.execAttest t r s
  | .lifecycleAdvance t r => Sys2Proof.Machine.execLifecycleAdvance t r s
  | .ownerCmd t r => Sys2Proof.Machine.execOwnerCmd t r s
  | .countersRead t r => Sys2Proof.Machine.execCountersRead t r s
  | .partnerOpen t r => Sys2Proof.Machine.execPartnerOpen t r s
  | .partnerClose t r => Sys2Proof.Machine.execPartnerClose t r s
  | .windowGrant t r => Sys2Proof.Machine.execWindowGrant t r s
  | .planLoad t r => Sys2Proof.Machine.execPlanLoad t r s
  | .envOpen t r => Sys2Proof.Machine.execEnvOpen t r s
  | .envCommit t r => Sys2Proof.Machine.execEnvCommit t r s
  | .envAbort t r => Sys2Proof.Machine.execEnvAbort t r s
  | .envStatus t r => Sys2Proof.Machine.execEnvStatus t r s
  | .scheduleArm t r => Sys2Proof.Machine.execScheduleArm t r s
  | .scheduleDisarm t r => Sys2Proof.Machine.execScheduleDisarm t r s
  | .kvPoolConfig t r => Sys2Proof.Machine.execKvPoolConfig t r s
  | .kvBind t r => Sys2Proof.Machine.execKvBind t r s
  | .kvSeqOpen t r => Sys2Proof.Machine.execKvSeqOpen t r s
  | .kvSeqTruncate t r => Sys2Proof.Machine.execKvSeqTruncate t r s
  | .kvSeqFree t r => Sys2Proof.Machine.execKvSeqFree t r s
  | .kvSeqQuery t r => Sys2Proof.Machine.execKvSeqQuery t r s
  | .videoDecOpen t r => Sys2Proof.Machine.execVideoDecOpen t r s
  | .videoEncOpen t r => Sys2Proof.Machine.execVideoEncOpen t r s
  | .videoClose t r => Sys2Proof.Machine.execVideoClose t r s
  | .videoQuery t r => Sys2Proof.Machine.execVideoQuery t r s
  | .smsStatus t r => Sys2Proof.Machine.execSmsStatus t r s
  | .smsFrank t r => Sys2Proof.Machine.execSmsFrank t r s
  | .smsZero t r => Sys2Proof.Machine.execSmsZero t r s
  | .smsTare t r => Sys2Proof.Machine.execSmsTare t r s
  | .smsPresetTare t r => Sys2Proof.Machine.execSmsPresetTare t r s
  | .smsTareClear t r => Sys2Proof.Machine.execSmsTareClear t r s
  | .smsRecords t r => Sys2Proof.Machine.execSmsRecords t r s
  | .smsCheckpoint t r => Sys2Proof.Machine.execSmsCheckpoint t r s
  | .smsSwid t r => Sys2Proof.Machine.execSmsSwid t r s
  | .smsParamLoad t r => Sys2Proof.Machine.execSmsParamLoad t r s
  | .smStage t r => Sys2Proof.Machine.execSmStage t r s
  | .smVerify t r => Sys2Proof.Machine.execSmVerify t r s
  | .smActivate t r => Sys2Proof.Machine.execSmActivate t r s
  | .cvuSubmit t r => Sys2Proof.Machine.execCvuSubmit t r s
  | .testKat t r res => Sys2Proof.Machine.execTestKat t r res s
  | .bistSlice t r => Sys2Proof.Machine.execBistSlice t r s
  | .marginSweep t r => Sys2Proof.Machine.execMarginSweep t r s
  | .scanRun t r => Sys2Proof.Machine.execScanRun t r s
  | .fenceLift t r => Sys2Proof.Machine.execFenceLift t r s
  | .maintGrant t r => Sys2Proof.Machine.execMaintGrant t r s
  | .twinPair t r => Sys2Proof.Machine.execTwinPair t r s
  | .twinResync t r => Sys2Proof.Machine.execTwinResync t r s
  | .twinPermit t r => Sys2Proof.Machine.execTwinPermit t r s
  | .twinGiveup t r => Sys2Proof.Machine.execTwinGiveup t r s
  | .fwStage t r => Sys2Proof.Machine.execFwStage t r s
  | .fwVerify t r => Sys2Proof.Machine.execFwVerify t r s
  | .fwActivate t r => Sys2Proof.Machine.execFwActivate t r s
  | .fwStatus t r => Sys2Proof.Machine.execFwStatus t r s
  | .fwRestart t r => Sys2Proof.Machine.execFwRestart t r s
  | .settingsSave t r => Sys2Proof.Machine.execSettingsSave t r s
  | .recInfo t r => Sys2Proof.Machine.execRecInfo t r s
  | .recStage t r => Sys2Proof.Machine.execRecStage t r s
  | .recInstall t r => Sys2Proof.Machine.execRecInstall t r s
  | .recRestart t r => Sys2Proof.Machine.execRecRestart t r s
  | .commandWaitStart t m => Sys2Proof.Machine.execCommandWaitStart t m s
  | .mailboxResponse t m => Sys2Proof.Machine.execMailboxResponse t m s
  | .put t port p => Sys2Proof.Machine.execPut t port p s
  | .putNotify t port p => Sys2Proof.Machine.execPutNotify t port p s
  | .get t port p f => Sys2Proof.Machine.execGet t port p f s
  | .fetchAdd t port p => Sys2Proof.Machine.execFetchAdd t port p s
  | .cas t port p => Sys2Proof.Machine.execCas t port p s
  | .notify t port p => Sys2Proof.Machine.execNotify t port p s
  | .envOpenOp t port p => Sys2Proof.Machine.execEnvOpenOp t port p s
  | .envCommitOp t port p => Sys2Proof.Machine.execEnvCommitOp t port p s
  | .envAbortOp t port p => Sys2Proof.Machine.execEnvAbortOp t port p s
  | .envStatusOp t port p => Sys2Proof.Machine.execEnvStatusOp t port p s
  | .frame t port p => Sys2Proof.Machine.execFrame t port p s
  | .response t port op p => Sys2Proof.Machine.execResponse t port op p s
  | .ident t port identity farPort => Sys2Proof.Machine.execIdent t port identity farPort s
  | .idle t port => Sys2Proof.Machine.execIdle t port s
  | .credit t port pairs => Sys2Proof.Machine.execCredit t port pairs s
  | .depart t port => Sys2Proof.Machine.execDepart t port s
  | .blockLockLoss t port => Sys2Proof.Machine.execBlockLockLoss t port s
  | .uncorrectableCodeword t port => Sys2Proof.Machine.execUncorrectableCodeword t port s
  | .noBlockTimeout t port => Sys2Proof.Machine.execNoBlockTimeout t port s
  | .retrainComplete t port => Sys2Proof.Machine.execRetrainComplete t port s
  | .identSend t port => Sys2Proof.Machine.execIdentSend t port s
  | .idleSend t port => Sys2Proof.Machine.execIdleSend t port s
  | .egressPacketStart t port => Sys2Proof.Machine.execEgressPacketStart t port s
  | .remoteTimeout t port tag => Sys2Proof.Machine.execRemoteTimeout t port tag s
  | .tokenPeriod t => Sys2Proof.Machine.execTokenPeriod t s
  | .dwinQuotaPeriod t => Sys2Proof.Machine.execDwinQuotaPeriod t s
  | .refusalCapPeriod t => Sys2Proof.Machine.execRefusalCapPeriod t s
  | .modeRegisterWrite t ch mr v supported => Sys2Proof.Machine.execModeRegisterWrite t ch mr v supported s
  | .modeRegisterRead t ch mr => Sys2Proof.Machine.execModeRegisterRead t ch mr s
  | .unsupportedCommand t ch => Sys2Proof.Machine.execUnsupportedCommand t ch s
  | .refresh t ch => Sys2Proof.Machine.execRefresh t ch s
  | .resetN t ch => Sys2Proof.Machine.execResetN t ch s
  | .hostDataRowWrite t w row off bs f => Sys2Proof.Machine.execHostDataRowWrite t w row off bs f s
  | .triggerRecord t w bs => Sys2Proof.Machine.execTriggerRecord t w bs s
  | .sealEntry t w entry bs => Sys2Proof.Machine.execSealEntry t w entry bs s
  | .bulkWrite t a off bs => Sys2Proof.Machine.execBulkWrite t a off bs s
  | .bulkRead t a off n => Sys2Proof.Machine.execBulkRead t a off n s
  | .bulkFetchDone t a page => Sys2Proof.Machine.execBulkFetchDone t a page s
  | .unmappedWrite t addr => Sys2Proof.Machine.execUnmappedWrite t addr s
  | .hstPostmarkLoRead t => Sys2Proof.Machine.execHstPostmarkLoRead t s
  | .rcFieldRead t addr => Sys2Proof.Machine.execRcFieldRead t addr s
  | .hstSafeStopClear t v => Sys2Proof.Machine.execHstSafeStopClear t v s
  | .twnControlClearStop t v => Sys2Proof.Machine.execTwnControlClearStop t v s
  | .thmControlClearStop t v => Sys2Proof.Machine.execThmControlClearStop t v s
  | .hstUtcHiWrite t v => Sys2Proof.Machine.execHstUtcHiWrite t v s
  | .hstDwinQuotaWrite t w v => Sys2Proof.Machine.execHstDwinQuotaWrite t w v s
  | .crrDlqHeadWrite t p v => Sys2Proof.Machine.execCrrDlqHeadWrite t p v s
  | .registerWrite t addr v => Sys2Proof.Machine.execRegisterWrite t addr v s
  | .jobStart t e => Sys2Proof.Machine.execJobStart t e s
  | .ldv t e vline vlen f => Sys2Proof.Machine.execLdv t e vline vlen f s
  | .tld t e row reg shape f => Sys2Proof.Machine.execTld t e row reg shape f s
  | .kvt t e row reg shape pop f => Sys2Proof.Machine.execKvt t e row reg shape pop f s
  | .kva t e reg f => Sys2Proof.Machine.execKva t e reg f s
  | .mat t e m f => Sys2Proof.Machine.execMat t e m f s
  | .vpld t e v f => Sys2Proof.Machine.execVpld t e v f s
  | .req t e v f => Sys2Proof.Machine.execReq t e v f s
  | .vadd t e v f => Sys2Proof.Machine.execVadd t e v f s
  | .vsub t e v f => Sys2Proof.Machine.execVsub t e v f s
  | .vmul t e v f => Sys2Proof.Machine.execVmul t e v f s
  | .vfma t e v f => Sys2Proof.Machine.execVfma t e v f s
  | .vmax t e v f => Sys2Proof.Machine.execVmax t e v f s
  | .vmin t e v f => Sys2Proof.Machine.execVmin t e v f s
  | .vexp2 t e v f => Sys2Proof.Machine.execVexp2 t e v f s
  | .vlog2 t e v f => Sys2Proof.Machine.execVlog2 t e v f s
  | .vrcp t e v f => Sys2Proof.Machine.execVrcp t e v f s
  | .vrsqrt t e v f => Sys2Proof.Machine.execVrsqrt t e v f s
  | .vrsum t e v f => Sys2Proof.Machine.execVrsum t e v f s
  | .vrmax t e v f => Sys2Proof.Machine.execVrmax t e v f s
  | .vrmin t e v f => Sys2Proof.Machine.execVrmin t e v f s
  | .vcvt t e v f => Sys2Proof.Machine.execVcvt t e v f s
  | .vcvtmx t e v f => Sys2Proof.Machine.execVcvtmx t e v f s
  | .vext t e v f => Sys2Proof.Machine.execVext t e v f s
  | .iadd t e v f => Sys2Proof.Machine.execIadd t e v f s
  | .isub t e v f => Sys2Proof.Machine.execIsub t e v f s
  | .imul t e v f => Sys2Proof.Machine.execImul t e v f s
  | .ishl t e v f => Sys2Proof.Machine.execIshl t e v f s
  | .ishr t e v f => Sys2Proof.Machine.execIshr t e v f s
  | .isra t e v f => Sys2Proof.Machine.execIsra t e v f s
  | .iand t e v f => Sys2Proof.Machine.execIand t e v f s
  | .ior t e v f => Sys2Proof.Machine.execIor t e v f s
  | .ixor t e v f => Sys2Proof.Machine.execIxor t e v f s
  | .imin t e v f => Sys2Proof.Machine.execImin t e v f s
  | .imax t e v f => Sys2Proof.Machine.execImax t e v f s
  | .icmp t e v f => Sys2Proof.Machine.execIcmp t e v f s
  | .iadds t e v f => Sys2Proof.Machine.execIadds t e v f s
  | .isubs t e v f => Sys2Proof.Machine.execIsubs t e v f s
  | .vsel t e v f => Sys2Proof.Machine.execVsel t e v f s
  | .vbcast t e v f => Sys2Proof.Machine.execVbcast t e v f s
  | .vargmax t e v f => Sys2Proof.Machine.execVargmax t e v f s
  | .vwin t e v f => Sys2Proof.Machine.execVwin t e v f s
  | .vs2d t e v f => Sys2Proof.Machine.execVs2d t e v f s
  | .vd2s t e v f => Sys2Proof.Machine.execVd2s t e v f s
  | .vkvp t e v f => Sys2Proof.Machine.execVkvp t e v f s
  | .out t e line len route last f => Sys2Proof.Machine.execOut t e line len route last f s
  | .outn t e line len route last f => Sys2Proof.Machine.execOutn t e line len route last f s
  | .ldr t e line route f => Sys2Proof.Machine.execLdr t e line route f s
  | .ldw t e line route f => Sys2Proof.Machine.execLdw t e line route f s
  | .wait t e handle count f => Sys2Proof.Machine.execWait t e handle count f s
  | .note t e handle count f => Sys2Proof.Machine.execNote t e handle count f s
  | .waitl t e f => Sys2Proof.Machine.execWaitl t e f s
  | .loop t e arg f => Sys2Proof.Machine.execLoop t e arg f s
  | .test t e arg f => Sys2Proof.Machine.execTest t e arg f s
  | .endJob t e f => Sys2Proof.Machine.execEndJob t e f s
  | .waitRelease t e => Sys2Proof.Machine.execWaitRelease t e s
  | .waitlRelease t e => Sys2Proof.Machine.execWaitlRelease t e s
  | .egressCreditRelease t e => Sys2Proof.Machine.execEgressCreditRelease t e s
  | .waitTimeout t e => Sys2Proof.Machine.execWaitTimeout t e s
  | .lpddrSlot t slot => Sys2Proof.Machine.execLpddrSlot t slot s
  | .lpddrTransferDone t e f => Sys2Proof.Machine.execLpddrTransferDone t e f s
  | .jobCompletion t job => Sys2Proof.Machine.execJobCompletion t job s
  | .deadlineMiss t job => Sys2Proof.Machine.execDeadlineMiss t job s
  | .safeStopMinExpiry t src => Sys2Proof.Machine.execSafeStopMinExpiry t src s
  | .checkpointSeal t p => Sys2Proof.Machine.execCheckpointSeal t p s
  | .checkpointMirror t p => Sys2Proof.Machine.execCheckpointMirror t p s
  | .storeScrub t e row f => Sys2Proof.Machine.execStoreScrub t e row f s
  | .actScrub t e f => Sys2Proof.Machine.execActScrub t e f s
  | .digestEpoch t => Sys2Proof.Machine.execDigestEpoch t s
  | .historyProgram t => Sys2Proof.Machine.execHistoryProgram t s
  | .lockstepMismatch t => Sys2Proof.Machine.execLockstepMismatch t s
  | .kvWalkStart t e => Sys2Proof.Machine.execKvWalkStart t e s
  | .kvDescriptorEmit t e => Sys2Proof.Machine.execKvDescriptorEmit t e s
  | .kvPrefetch t e => Sys2Proof.Machine.execKvPrefetch t e s
  | .kvSpillDone t e f => Sys2Proof.Machine.execKvSpillDone t e f s
  | .kvPageReturn t e page => Sys2Proof.Machine.execKvPageReturn t e page s
  | .envCommitCycle t p h => Sys2Proof.Machine.execEnvCommitCycle t p h s
  | .envApply t e f => Sys2Proof.Machine.execEnvApply t e f s
  | .envCopyBack t p => Sys2Proof.Machine.execEnvCopyBack t p s
  | .envLifetimeExpiry t p h => Sys2Proof.Machine.execEnvLifetimeExpiry t p h s
  | .twinAdmission t h port op p last predicted => Sys2Proof.Machine.execTwinAdmission t h port op p last predicted s
  | .twinRelease t h e job bundle => Sys2Proof.Machine.execTwinRelease t h e job bundle s
  | .twinCommand t h opcode r => Sys2Proof.Machine.execTwinCommand t h opcode r s
  | .twinPrepare t h handle => Sys2Proof.Machine.execTwinPrepare t h handle s
  | .twinAbort t h handle => Sys2Proof.Machine.execTwinAbort t h handle s
  | .twinReport t h b => Sys2Proof.Machine.execTwinReport t h b s
  | .twinDigest t h epoch digests => Sys2Proof.Machine.execTwinDigest t h epoch digests s
  | .twinHeartbeat t h claimOut claimIn => Sys2Proof.Machine.execTwinHeartbeat t h claimOut claimIn s
  | .twinGiveupRecord t h cause b => Sys2Proof.Machine.execTwinGiveupRecord t h cause b s
  | .twinAck t h seq => Sys2Proof.Machine.execTwinAck t h seq s
  | .twinCopy t h item => Sys2Proof.Machine.execTwinCopy t h item s
  | .twinStepLeft t h cause => Sys2Proof.Machine.execTwinStepLeft t h cause s
  | .mirrorExecute t => Sys2Proof.Machine.execMirrorExecute t s
  | .heartbeatSend t => Sys2Proof.Machine.execHeartbeatSend t s
  | .reportSend t => Sys2Proof.Machine.execReportSend t s
  | .claimWatchdogExpiry t => Sys2Proof.Machine.execClaimWatchdogExpiry t s
  | .heartbeatLoss t => Sys2Proof.Machine.execHeartbeatLoss t s
  | .claimInChange t level => Sys2Proof.Machine.execClaimInChange t level s
  | .takeover t => Sys2Proof.Machine.execTakeover t s
  | .resyncCutover t => Sys2Proof.Machine.execResyncCutover t s
  | .videoSlot t u work => Sys2Proof.Machine.execVideoSlot t u work s
  | .bandWrite t stream b f => Sys2Proof.Machine.execBandWrite t stream b f s
  | .accessUnitWrite t stream bs => Sys2Proof.Machine.execAccessUnitWrite t stream bs s
  | .cvuSlot t u => Sys2Proof.Machine.execCvuSlot t u s
  | .cvuJobStart t u => Sys2Proof.Machine.execCvuJobStart t u s
  | .cvuJobEnd t u f => Sys2Proof.Machine.execCvuJobEnd t u f s
  | .cvuOverrun t u blocks => Sys2Proof.Machine.execCvuOverrun t u blocks s
  | .sampleFrame t c => Sys2Proof.Machine.execSampleFrame t c s
  | .channelFaultTimeout t c => Sys2Proof.Machine.execChannelFaultTimeout t c s
  | .zeroTracking t inst => Sys2Proof.Machine.execZeroTracking t inst s
  | .recordToken t => Sys2Proof.Machine.execRecordToken t s
  | .smsCheckpointSign t => Sys2Proof.Machine.execSmsCheckpointSign t s
  | .adjEn t active => Sys2Proof.Machine.execAdjEn t active s
  | .smsClockFault t => Sys2Proof.Machine.execSmsClockFault t s
  | .smsStart t ok => Sys2Proof.Machine.execSmsStart t ok s
  | .slice t e => Sys2Proof.Machine.execSlice t e s
  | .sliceEnd t e res => Sys2Proof.Machine.execSliceEnd t e res s
  | .maintGrantExpiry t => Sys2Proof.Machine.execMaintGrantExpiry t s
  | .powerUp t c => Sys2Proof.Machine.execPowerUp t c s
  | .clockSourceSelect t inRange => Sys2Proof.Machine.execClockSourceSelect t inRange s
  | .romStart t straps par fuseOk => Sys2Proof.Machine.execRomStart t straps par fuseOk s
  | .imagesVerified t bad => Sys2Proof.Machine.execImagesVerified t bad s
  | .storeTested t res goldenOk => Sys2Proof.Machine.execStoreTested t res goldenOk s
  | .memoryTrained t failed => Sys2Proof.Machine.execMemoryTrained t failed s
  | .portsLocked t locked => Sys2Proof.Machine.execPortsLocked t locked s
  | .service t c => Sys2Proof.Machine.execService t c s
  | .coolantRecheck t c => Sys2Proof.Machine.execCoolantRecheck t c s
  | .domainRamp t d => Sys2Proof.Machine.execDomainRamp t d s
  | .domainFault t d => Sys2Proof.Machine.execDomainFault t d s
  | .uvWarn t vin => Sys2Proof.Machine.execUvWarn t vin s
  | .eject t c => Sys2Proof.Machine.execEject t c s
  | .overvoltage t vin => Sys2Proof.Machine.execOvervoltage t vin s
  | .epo t => Sys2Proof.Machine.execEpo t s
  | .refLost t => Sys2Proof.Machine.execRefLost t s
  | .thermalSample t sensors => Sys2Proof.Machine.execThermalSample t sensors s
  | .thermalLevelExit t => Sys2Proof.Machine.execThermalLevelExit t s
  | .thermalTrip t => Sys2Proof.Machine.execThermalTrip t s
  | .keyDestroy t p => Sys2Proof.Machine.execKeyDestroy t p s
  | .smbusRead t item => Sys2Proof.Machine.execSmbusRead t item s
  | .smbusWrite t => Sys2Proof.Machine.execSmbusWrite t s
  | .smbusTimeout t => Sys2Proof.Machine.execSmbusTimeout t s
  | .telemetryRefresh t => Sys2Proof.Machine.execTelemetryRefresh t s
  | .engineZeroingDone t e => Sys2Proof.Machine.execEngineZeroingDone t e s
  | .coolantInletRange t c => Sys2Proof.Machine.execCoolantInletRange t c s
  | .hostPortTraining t ch => Sys2Proof.Machine.execHostPortTraining t ch s

end Sys2Proof.Machine
end

