-- ==== Sys2Proof/WellFormed.lean ====
section
/-! DEFINITION. The ranges that the manual gives the operands of a command. -/

namespace Sys2Proof

/-- Lines of an activation SRAM (R93). -/
def actLines : Nat := 393216

/-- Bytes of a bulk area (R225). -/
def bulkBytes : Nat := 33488896

/-- The argument area of a mailbox holds 1,920 bytes, and its request half has 106 reserved ones (Table 09.10). -/
def MbxReq.wf (r : MbxReq) : Bool := decide (r.args.length ≤ 1920 ∧ r.reserved.length ≤ 106)

/-- A packet carries LENGTH payload bytes, at most 4,096 (R241). An OP in place of its row's is a reserved one (Table 10.5). -/
def Packet.wf (p : Packet) : Bool :=
  decide (p.payload.length = p.length.toNat ∧ p.length.toNat ≤ 4096)
    && p.opCode.all fun o => !([1, 2, 3, 4, 5, 6, 0x10, 0x11, 0x12, 0x13, 0x20] : List Byte).contains (o &&& 0x7F)

/-- The lines of a VEC slot lie in the activation SRAM (Table 05.13). -/
def VecSlot.wf (v : VecSlot) : Bool :=
  decide (v.srcA.toNat < actLines ∧ v.srcB.toNat < actLines ∧ v.dst.toNat < actLines)

/-- Whether every operand of a command lies in the range that the manual gives it. -/
def wellFormed (i : Instr) : Bool :=
  match i with
  | .echo _ r => r.wf
  | .funcReset _ r => r.wf
  | .funcResetQuiesce _ _ => true
  | .modelLoad _ r => r.wf
  | .dwinBind _ r => r.wf
  | .dwinRelease _ r => r.wf
  | .historyRead _ r => r.wf
  | .ckptConfig _ r => r.wf
  | .ckptRestore _ r => r.wf
  | .partitionCreate _ r => r.wf
  | .partitionDissolve _ r => r.wf
  | .partitionLayout _ r => r.wf
  | .keyInstall _ r => r.wf
  | .attest _ r => r.wf
  | .lifecycleAdvance _ r => r.wf
  | .ownerCmd _ r => r.wf
  | .countersRead _ r => r.wf
  | .partnerOpen _ r => r.wf
  | .partnerClose _ r => r.wf
  | .windowGrant _ r => r.wf
  | .planLoad _ r => r.wf
  | .envOpen _ r => r.wf
  | .envCommit _ r => r.wf
  | .envAbort _ r => r.wf
  | .envStatus _ r => r.wf
  | .scheduleArm _ r => r.wf
  | .scheduleDisarm _ r => r.wf
  | .kvPoolConfig _ r => r.wf
  | .kvBind _ r => r.wf
  | .kvSeqOpen _ r => r.wf
  | .kvSeqTruncate _ r => r.wf
  | .kvSeqFree _ r => r.wf
  | .kvSeqQuery _ r => r.wf
  | .videoDecOpen _ r => r.wf
  | .videoEncOpen _ r => r.wf
  | .videoClose _ r => r.wf
  | .videoQuery _ r => r.wf
  | .smsStatus _ r => r.wf
  | .smsFrank _ r => r.wf
  | .smsZero _ r => r.wf
  | .smsTare _ r => r.wf
  | .smsPresetTare _ r => r.wf
  | .smsTareClear _ r => r.wf
  | .smsRecords _ r => r.wf
  | .smsCheckpoint _ r => r.wf
  | .smsSwid _ r => r.wf
  | .smsParamLoad _ r => r.wf
  | .smStage _ r => r.wf
  | .smVerify _ r => r.wf
  | .smActivate _ r => r.wf
  | .cvuSubmit _ r => r.wf
  | .testKat _ r _ => r.wf
  | .bistSlice _ r => r.wf
  | .marginSweep _ r => r.wf
  | .scanRun _ r => r.wf
  | .fenceLift _ r => r.wf
  | .maintGrant _ r => r.wf
  | .twinPair _ r => r.wf
  | .twinResync _ r => r.wf
  | .twinPermit _ r => r.wf
  | .twinGiveup _ r => r.wf
  | .fwStage _ r => r.wf
  | .fwVerify _ r => r.wf
  | .fwActivate _ r => r.wf
  | .fwStatus _ r => r.wf
  | .fwRestart _ r => r.wf
  | .settingsSave _ r => r.wf
  | .recInfo _ r => r.wf
  | .recStage _ r => r.wf
  | .recInstall _ r => r.wf
  | .recRestart _ r => r.wf
  | .commandWaitStart _ _ => true
  | .mailboxResponse _ _ => true
  | .put _ _ p => p.wf
  | .putNotify _ _ p => p.wf
  | .get _ _ p _ => p.wf
  | .fetchAdd _ _ p => p.wf
  | .cas _ _ p => p.wf
  | .notify _ _ p => p.wf
  | .envOpenOp _ _ p => p.wf
  | .envCommitOp _ _ p => p.wf
  | .envAbortOp _ _ p => p.wf
  | .envStatusOp _ _ p => p.wf
  | .frame _ _ p => p.wf
  | .response _ _ _ p => p.wf
  | .ident _ _ _ _ => true
  | .idle _ _ => true
  | .credit _ _ pairs => decide (pairs.length ≤ 5)
  | .depart _ _ => true
  | .blockLockLoss _ _ => true
  | .uncorrectableCodeword _ _ => true
  | .noBlockTimeout _ _ => true
  | .retrainComplete _ _ => true
  | .identSend _ _ => true
  | .idleSend _ _ => true
  | .egressPacketStart _ _ => true
  | .remoteTimeout _ _ _ => true
  | .tokenPeriod _ => true
  | .dwinQuotaPeriod _ => true
  | .refusalCapPeriod _ => true
  | .modeRegisterWrite _ _ _ _ _ => true
  | .modeRegisterRead _ _ _ => true
  | .unsupportedCommand _ _ => true
  | .refresh _ _ => true
  | .resetN _ _ => true
  | .hostDataRowWrite _ _ row off bs _ => decide (row < 960 ∧ off + bs.length ≤ 64)
  | .triggerRecord _ _ bs => decide (32 ≤ bs.length ∧ bs.length ≤ 64)
  | .sealEntry _ _ entry bs => decide (entry < 32 ∧ bs.length = 32)
  | .bulkWrite _ _ off bs => decide (off + bs.length ≤ bulkBytes)
  | .bulkRead _ _ off n => decide (off + n ≤ bulkBytes)
  | .bulkFetchDone _ _ page => decide (page < 8176)
  | .unmappedWrite _ _ => true
  | .hstPostmarkLoRead _ => true
  | .rcFieldRead _ _ => true
  | .hstSafeStopClear _ _ => true
  | .twnControlClearStop _ _ => true
  | .thmControlClearStop _ _ => true
  | .hstUtcHiWrite _ _ => true
  | .hstDwinQuotaWrite _ _ _ => true
  | .crrDlqHeadWrite _ _ _ => true
  | .registerWrite _ _ _ => true
  | .jobStart _ _ => true
  | .ldv _ _ vline vlen _ => decide (vline + vlen < actLines ∧ vlen < 16)
  | .tld _ _ row _ shape _ => decide (row < 8192 ∧ shape < 64)
  | .kvt _ _ row _ shape _ _ => decide (row < 8192 ∧ shape < 64)
  | .kva _ _ _ _ => true
  | .mat _ _ m _ => decide (m.afmt.toNat < 13 ∧ m.dest.toNat < actLines)
  | .vpld _ _ v _ => v.wf
  | .req _ _ v _ => v.wf
  | .vadd _ _ v _ => v.wf
  | .vsub _ _ v _ => v.wf
  | .vmul _ _ v _ => v.wf
  | .vfma _ _ v _ => v.wf
  | .vmax _ _ v _ => v.wf
  | .vmin _ _ v _ => v.wf
  | .vexp2 _ _ v _ => v.wf
  | .vlog2 _ _ v _ => v.wf
  | .vrcp _ _ v _ => v.wf
  | .vrsqrt _ _ v _ => v.wf
  | .vrsum _ _ v _ => v.wf
  | .vrmax _ _ v _ => v.wf
  | .vrmin _ _ v _ => v.wf
  | .vcvt _ _ v _ => v.wf
  | .vcvtmx _ _ v _ => v.wf
  | .vext _ _ v _ => v.wf
  | .iadd _ _ v _ => v.wf
  | .isub _ _ v _ => v.wf
  | .imul _ _ v _ => v.wf
  | .ishl _ _ v _ => v.wf
  | .ishr _ _ v _ => v.wf
  | .isra _ _ v _ => v.wf
  | .iand _ _ v _ => v.wf
  | .ior _ _ v _ => v.wf
  | .ixor _ _ v _ => v.wf
  | .imin _ _ v _ => v.wf
  | .imax _ _ v _ => v.wf
  | .icmp _ _ v _ => v.wf
  | .iadds _ _ v _ => v.wf
  | .isubs _ _ v _ => v.wf
  | .vsel _ _ v _ => v.wf
  | .vbcast _ _ v _ => v.wf
  | .vargmax _ _ v _ => v.wf
  | .vwin _ _ v _ => v.wf
  | .vs2d _ _ v _ => v.wf
  | .vd2s _ _ v _ => v.wf
  | .vkvp _ _ v _ => v.wf
  | .out _ _ line len route _ _ => decide (line + len < actLines ∧ len < 2 ∧ route < 1024)
  | .outn _ _ line len route _ _ => decide (line + len < actLines ∧ len < 2 ∧ route < 1024)
  | .ldr _ _ line route _ => decide (line < actLines ∧ route < 1024)
  | .ldw _ _ line route _ => decide (line < actLines ∧ route < 1024)
  | .wait _ _ handle count _ => decide (handle < 1024 ∧ 0 < count ∧ count < 256)
  | .note _ _ handle count _ => decide (handle < 1024 ∧ 0 < count ∧ count < 256)
  | .waitl _ _ _ => true
  | .loop _ _ arg _ => decide (arg < 256)
  | .test _ _ arg _ => decide (arg < 255)
  | .endJob _ _ _ => true
  | .waitRelease _ _ => true
  | .waitlRelease _ _ => true
  | .egressCreditRelease _ _ => true
  | .waitTimeout _ _ => true
  | .lpddrSlot _ _ => true
  | .lpddrTransferDone _ _ _ => true
  | .jobCompletion _ _ => true
  | .deadlineMiss _ _ => true
  | .safeStopMinExpiry _ _ => true
  | .checkpointSeal _ _ => true
  | .checkpointMirror _ _ => true
  | .storeScrub _ _ row _ => decide (row < 8192)
  | .actScrub _ _ _ => true
  | .digestEpoch _ => true
  | .historyProgram _ => true
  | .lockstepMismatch _ => true
  | .kvWalkStart _ _ => true
  | .kvDescriptorEmit _ _ => true
  | .kvPrefetch _ _ => true
  | .kvSpillDone _ _ _ => true
  | .kvPageReturn _ _ _ => true
  | .envCommitCycle _ _ _ => true
  | .envApply _ _ _ => true
  | .envCopyBack _ _ => true
  | .envLifetimeExpiry _ _ _ => true
  | .twinAdmission _ _ _ _ p _ _ => p.wf
  | .twinRelease _ _ _ _ _ => true
  | .twinCommand _ _ _ r => r.wf
  | .twinPrepare _ _ _ => true
  | .twinAbort _ _ _ => true
  | .twinReport _ _ _ => true
  | .twinDigest _ _ _ _ => true
  | .twinHeartbeat _ _ _ _ => true
  | .twinGiveupRecord _ _ _ _ => true
  | .twinAck _ _ _ => true
  | .twinCopy _ _ _ => true
  | .twinStepLeft _ _ _ => true
  | .mirrorExecute _ => true
  | .heartbeatSend _ => true
  | .reportSend _ => true
  | .claimWatchdogExpiry _ => true
  | .heartbeatLoss _ => true
  | .claimInChange _ _ => true
  | .takeover _ => true
  | .resyncCutover _ => true
  | .videoSlot _ _ _ => true
  | .bandWrite _ _ _ _ => true
  | .accessUnitWrite _ _ _ => true
  | .cvuSlot _ _ => true
  | .cvuJobStart _ _ => true
  | .cvuJobEnd _ _ _ => true
  | .cvuOverrun _ _ _ => true
  | .sampleFrame _ _ => true
  | .channelFaultTimeout _ _ => true
  | .zeroTracking _ _ => true
  | .recordToken _ => true
  | .smsCheckpointSign _ => true
  | .adjEn _ _ => true
  | .smsClockFault _ => true
  | .smsStart _ _ => true
  | .slice _ _ => true
  | .sliceEnd _ _ _ => true
  | .maintGrantExpiry _ => true
  | .powerUp _ _ => true
  | .clockSourceSelect _ _ => true
  | .romStart _ _ _ _ => true
  | .imagesVerified _ _ => true
  | .storeTested _ _ _ => true
  | .memoryTrained _ _ => true
  | .portsLocked _ _ => true
  | .service _ _ => true
  | .coolantRecheck _ _ => true
  | .domainRamp _ _ => true
  | .domainFault _ _ => true
  | .uvWarn _ _ => true
  | .eject _ _ => true
  | .overvoltage _ _ => true
  | .epo _ => true
  | .refLost _ => true
  | .thermalSample _ sensors => decide (sensors.length = 38)
  | .thermalLevelExit _ => true
  | .thermalTrip _ => true
  | .keyDestroy _ _ => true
  | .smbusRead _ _ => true
  | .smbusWrite _ => true
  | .smbusTimeout _ => true
  | .telemetryRefresh _ => true
  | .engineZeroingDone _ _ => true
  | .coolantInletRange _ _ => true
  | .hostPortTraining _ _ => true

end Sys2Proof
end

