-- ==== Sys2Proof/Certificates/Slice0/Obligations.lean ====
section
/-! DEFINITION. The statements about the model. `Cert` holds what several of them share: the conditions under which a
command takes its effect, and the states that it then leaves. -/

open Sys2Proof Sys2Proof.Machine


/-! The machine as a whole. -/

/-- A step is the front command's exec on the state with the rest of the queue; an empty queue idles (log entry 2, the model's choice). -/
def Obligations.StepRunsTheFrontCommand : Prop :=
  ∀ (c : Instr) (rest : List Instr) (s : State),
    step { s with pending := c :: rest } = exec c { s with pending := rest }
      ∧ step { s with pending := [] } = .next { s with pending := [] }

/-- Every command completes in every state, and leaves exactly the rest of the queue. -/
def Obligations.EveryStepKeepsTheRestOfTheQueue : Prop :=
  ∀ (s : State) (c : Instr) (rest : List Instr), s.pending = c :: rest →
    ∃ s', step s = .next s' ∧ s'.pending = rest

/-- Every byte memory of the module is in canonical form: addresses rise, and no zero byte is listed. -/
def Cert.MemInv (s : State) : Prop :=
  (∀ e : EngId, memWf s.eng[e].store = true ∧ memWf s.eng[e].act = true ∧ memWf s.eng[e].rowBuf = true
      ∧ memWf s.eng[e].params = true)
    ∧ (∀ w : WinId, memWf s.host.win[w].rows = true)
    ∧ (∀ a : PartId, ∀ f ∈ s.host.bulk[a].frames, memWf f.bytes = true)
    ∧ (∀ p : PartId, memWf s.part[p].region = true)
    ∧ memWf s.fw.nor = true ∧ memWf s.sms.nor = true

/-- The canonical form of every memory is kept by every step, from every state that has it. -/
def Obligations.EveryStepKeepsTheMemoriesCanonical : Prop :=
  ∀ s s' : State, Cert.MemInv s → step s = .next s' → Cert.MemInv s'

/-- Reset memory is canonical and reads zero everywhere. -/
def Obligations.ResetMemoriesReadZero : Prop :=
  Cert.MemInv State.reset
    ∧ ∀ a : Nat, (∀ e : EngId, memGet State.reset.eng[e].store a = 0 ∧ memGet State.reset.eng[e].act a = 0)
      ∧ (∀ w : WinId, memGet State.reset.host.win[w].rows a = 0) ∧ ∀ p : PartId, memGet State.reset.part[p].region a = 0

/-! Time (R39, R114). -/

/-- Nothing that the passing of time brings about stands open but landings: no job has ended, no schedule waits to be freed, no envelope
waits to abort, no margin sweep runs, no EJECT is under way. -/
def Cert.Quiet (s : State) : Prop :=
  (∀ j ∈ s.jobs, j.early = none ∧ j.ends = [] ∧ j.engines ≠ []) ∧ (∀ c ∈ s.scheds, c.disarming = false)
    ∧ (∀ v ∈ s.env.opens, v.closing = none) ∧ s.bist.sweeps = [] ∧ s.pwr.ejectAt = none

/-- No landing is due by cycle `n`. -/
def Cert.NothingDue (s : State) (n : Nat) : Prop := ∀ e : EngId, ∀ l ∈ s.eng[e].landings, n < l.due

/-- With nothing due, time changes the postmark (and the status row, where a field of it differs, and the place where events of a past cycle
are kept) and nothing else. -/
def Obligations.TimePassesWhileNothingIsDue : Prop :=
  ∀ (s : State) (t : Nat), Cert.Quiet s → Cert.NothingDue s (max s.now t) →
    s.advance t = s.rewriteStatus.moveTo t
      ∧ (s.now ≥ t → s.advance t = s.rewriteStatus)
      ∧ (s.now < t → s.advance t = { s.rewriteStatus.hold with now := t })

/-- The effects that land in the engine's own registers and activation SRAM. -/
def Cert.inEngine : LandEff → Bool
  | .bcast _ | .act _ | .tileRow _ _ _ _ | .tileMerge _ _ | .matOut _ | .params _ | .append _ | .argmax _ | .arith _ _ => true
  | _ => false

/-- A landing takes effect by its cycle, in its engine alone. -/
def Obligations.DueResultsLand : Prop :=
  ∀ (s : State) (t : Nat) (e : EngId) (l : Landing), Cert.Quiet s → s.eng[e].landings = [l] → Cert.inEngine l.eff = true →
    l.due ≤ max s.now t → (∀ x : EngId, x ≠ e → ∀ k ∈ s.eng[x].landings, max s.now t < k.due) →
      let w := s.rewriteStatus.moveTo l.due
      s.advance t = { w with eng := w.eng.set e ({ w.eng[e] with landings := [] }.land l.due l.vec l.eff) }.moveTo t

/-! Vector operations (chapters 03, 05, 06). -/

/-- The operation codes of Table 05.14. -/
def Cert.vecOps : List Nat :=
  [0x01, 0x02, 0x08, 0x09, 0x0A, 0x0B, 0x0C, 0x0D, 0x10, 0x11, 0x12, 0x13, 0x18, 0x19, 0x1A, 0x20, 0x21, 0x22, 0x28, 0x29,
   0x2A, 0x2B, 0x2C, 0x2D, 0x2E, 0x2F, 0x30, 0x31, 0x32, 0x33, 0x34, 0x35, 0x38, 0x39, 0x40, 0x41, 0x42, 0x43, 0x48]

/-- The command of an operation code (Table 05.14). -/
def Cert.vecCmd (op t : Nat) (e : EngId) (v : VecSlot) : Instr := match op with
  | 0x01 => .vpld t e v {}
  | 0x02 => .req t e v {}
  | 0x08 => .vadd t e v {}
  | 0x09 => .vsub t e v {}
  | 0x0A => .vmul t e v {}
  | 0x0B => .vfma t e v {}
  | 0x0C => .vmax t e v {}
  | 0x0D => .vmin t e v {}
  | 0x10 => .vexp2 t e v {}
  | 0x11 => .vlog2 t e v {}
  | 0x12 => .vrcp t e v {}
  | 0x13 => .vrsqrt t e v {}
  | 0x18 => .vrsum t e v {}
  | 0x19 => .vrmax t e v {}
  | 0x1A => .vrmin t e v {}
  | 0x20 => .vcvt t e v {}
  | 0x21 => .vcvtmx t e v {}
  | 0x22 => .vext t e v {}
  | 0x28 => .iadd t e v {}
  | 0x29 => .isub t e v {}
  | 0x2A => .imul t e v {}
  | 0x2B => .ishl t e v {}
  | 0x2C => .ishr t e v {}
  | 0x2D => .isra t e v {}
  | 0x2E => .iand t e v {}
  | 0x2F => .ior t e v {}
  | 0x30 => .ixor t e v {}
  | 0x31 => .imin t e v {}
  | 0x32 => .imax t e v {}
  | 0x33 => .icmp t e v {}
  | 0x34 => .iadds t e v {}
  | 0x35 => .isubs t e v {}
  | 0x38 => .vsel t e v {}
  | 0x39 => .vbcast t e v {}
  | 0x40 => .vargmax t e v {}
  | 0x41 => .vwin t e v {}
  | 0x42 => .vs2d t e v {}
  | 0x43 => .vd2s t e v {}
  | _ => .vkvp t e v {}

/-- What an operation code makes of what it works on (Table 05.14). -/
def Cert.vecRun (op : Nat) (v : VecSlot) (x : VecIn) : VecRes := match op with
  | 0x01 => vpldRes v x.a
  | 0x02 => reqRes v x.accs x.params
  | 0x08 => binRes v (fpAdd v.rm.toNat) x.a x.b
  | 0x09 => binRes v (fpSub v.rm.toNat) x.a x.b
  | 0x0A => binRes v (fpMul v.rm.toNat) x.a x.b
  | 0x0B => triRes v (fpFma v.rm.toNat) x.a x.b x.d
  | 0x0C => binRes v (fun a b => { code := fpMax a b }) x.a x.b
  | 0x0D => binRes v (fun a b => { code := fpMin a b }) x.a x.b
  | 0x10 => unRes v fpExp2 x.a
  | 0x11 => unRes v fpLog2 x.a
  | 0x12 => unRes v fpRcp x.a
  | 0x13 => unRes v fpRsqrt x.a
  | 0x18 => reduceRes v (sumNode v.rm.toNat) x.a
  | 0x19 => reduceRes v (fun p q => { code := fpMax p.code q.code }) x.a
  | 0x1A => reduceRes v (fun p q => { code := fpMin p.code q.code }) x.a
  | 0x20 => vcvtRes v x.a
  | 0x21 => vcvtmxRes v x.a
  | 0x22 => vextRes v x.a
  | 0x38 => triRes v (fun a b d => { code := if d = 0 then b else a }) x.a x.b x.d
  | 0x39 => laneRes v 32 (List.replicate (lanesOf v) { code := field x.a 0 4 })
  | 0x40 => vargmaxRes x.geo v x.arg x.a
  | 0x41 => match winSpans x.geo v with
      | none => { bad := true }
      | some l => vwinRes x.geo v (winLanes (widthOf v.ity.toNat) (lanesOf v) l.length x.a)
  | 0x42 => moveRes false v x
  | 0x43 => moveRes true v x
  | 0x48 => vkvpRes v x.fmt x.dim x.sigma x.a
  | _ => binRes v (intLane op v.rm.toNat v.sat) x.a x.b

/-- The geometry record that an operation names (R141). -/
def Cert.vecGeo (g : Engine) (op : Nat) (v : VecSlot) : Geo :=
  if 0x40 ≤ op ∧ op ≤ 0x43 then geoOf g.params v else ⟨0, 0, 0, 0, 0, 0, 0⟩

/-- The bytes of source b that an operation reads (Table 05.13). -/
def Cert.srcB (op : Nat) (v : VecSlot) : List Nat := if readsB op then addrsFrom (lineAddr v.srcB.toNat) (4 * lanesOf v) else []

/-- The old destination bytes that an operation reads (Table 05.14). -/
def Cert.srcD (op : Nat) (v : VecSlot) : List Nat := if readsD op then addrsFrom (lineAddr v.dst.toNat) (4 * lanesOf v) else []

/-- Whether an operation takes a free value from the matrix output register: it asks for the form that the register does not hold
(R72, log entry 22, the model's choice). -/
def Cert.takesFree (g : Engine) (op : Nat) (v : VecSlot) : Bool := v.mo && g.matOut.fp32 = decide (op = 2)

/-- Every source address of an operation in its read order: those of a, of b, of d (log entry 74, the model's choice). -/
def Cert.srcAll (op : Nat) (v : VecSlot) (as : List Nat) : List Nat := as ++ Cert.srcB op v ++ Cert.srcD op v

/-- What a vector operation of job `j` on engine `e` takes as it issues: the matrix output register, the parameter file, the argmax pair and the
pool's constants. -/
def Cert.vecHeld (u : State) (e : EngId) (j : Job) (op : Nat) (v : VecSlot) : VecIn :=
  let g := u.eng[e]
  let n := lanesOf v
  let free := if Cert.takesFree g op v then u.free else 0
  let pool := u.part[j.part].kv
  { a := if v.mo then (List.range n).flatMap fun i => natLe (g.matOut.word free i) 4 else []
    accs := if v.mo then (List.range n).map (g.matOut.acc free) else []
    params := g.params, geo := Cert.vecGeo g op v, arg := g.argmax.read, fmt := pool.fmt, dim := pool.d, sigma := pool.sigma }

/-- The issue cycles of a vector operation: one for each 2,048 bytes that it reads or writes (R118). -/
def Cert.vecCycles (g : Engine) (op : Nat) (v : VecSlot) (as : List Nat) : Nat :=
  max 1 (max (ceilDiv (Cert.srcAll op v as).length 2048) (ceilDiv (dstBytes op (Cert.vecGeo g op v) v) 2048))

/-- A vector operation issued in the cycle of `u`, no byte read yet: it lands as many cycles after its last issue cycle as its latency says
(R118, Table 05.14). -/
def Cert.vecOpened (u : State) (e : EngId) (j : Job) (op : Nat) (v : VecSlot) (as : List Nat) : VecOpen :=
  ⟨op, v, {}, Cert.vecHeld u e j op v, [], Cert.srcAll op v as, as.length, (Cert.srcB op v).length, u.now,
    u.now + Cert.vecCycles u.eng[e] op v as - 1 + vecLatency op⟩

/-- What an operation works on, once the bytes `got` have been read. -/
def Cert.vecIn (o : VecOpen) (got : List Byte) : VecIn :=
  { o.x with
    a := if o.v.mo then o.x.a else got.take o.na
    b := (got.drop o.na).take o.nb
    d := got.drop (o.na + o.nb)
    accs := if o.v.mo then o.x.accs else (unpackLanes 32 (lanesOf o.v) (got.take o.na)).map s32 }

/-- The result of an operation on the bytes `got`. -/
def Cert.vecOut (o : VecOpen) (got : List Byte) : VecRes := Cert.vecRun o.op o.v (Cert.vecIn o got)

/-- An operation that meets no limit and no failing check: its record is legal, its bytes lie in activation SRAM, those of a geometric operation in
lines of different banks in each cycle (R95, R142), and its own check passes. -/
def Cert.vecGood (o : VecOpen) (got : List Byte) : Prop :=
  let r := Cert.vecOut o got
  let to' := landAddrs r.effs
  r.bad = false ∧ landsInAct r.effs = true ∧ r.failLane = none
    ∧ (0x40 ≤ o.op → o.op ≤ 0x43 → chunksApart (to'.length / 2048 + 1) to' = true)

/-- The state in which an operation that has read all its bytes leaves its results to land, and nothing else has changed but the source bytes
that its path remembers (R198). -/
def Cert.vecLanding (u : State) (e : EngId) (j : Job) (o : VecOpen) (got : List Byte) : State :=
  let x := Cert.vecIn o got
  let r := Cert.vecOut o got
  let g := u.eng[e]
  { u with eng := u.eng.set e { g with
      pathVec := x.a ++ x.b ++ x.d
      landings := g.landings ++ (r.effs ++ [LandEff.arith r.flags r.sats]).map fun y =>
        { due := o.due, job := j.id, vec := true, eff := y } } }

/-- A vector operation's effect is its landings: completion, result and frame. -/
def Obligations.VectorOperationsLandTheirResults : Prop :=
  (∀ op ∈ Cert.vecOps, ∀ (s : State) (t : Nat) (e : EngId) (v : VecSlot) (j : Job) (as : List Nat),
      let u := s.advance t
      let g := u.eng[e]
      let all := Cert.srcAll op v as
      let o := Cert.vecOpened u e j op v as
      let got := g.unitGets u.now (all.take 2048)
      let w : State := { u with
        free := if Cert.takesFree g op v then u.free + 1 else u.free
        eng := u.eng.set e { g with seq := { g.seq with vecFrom := u.now + Cert.vecCycles g op v as } } }
      u.issuing e = some j → g.seq.vecFrom ≤ u.now → vecFieldsOk op v = true → vecUnusedOk op v = true →
      winFieldsOk op (Cert.vecGeo g op v) v = true → srcAAddrs op (Cert.vecGeo g op v) v = some as → inAct all = true →
      (0x40 ≤ op → op ≤ 0x43 → chunksApart (all.length / 2048 + 1) all = true) → badPlace g {} (all.take 2048) = none →
        (all.length ≤ 2048 → Cert.vecGood o got → exec (Cert.vecCmd op t e v) s = .next (Cert.vecLanding w e j o got))
        ∧ (2048 < all.length → exec (Cert.vecCmd op t e v) s = .next { w with eng := w.eng.set e { w.eng[e] with
            landings := w.eng[e].landings ++
              [{ due := u.now + 1, job := j.id, vec := true, eff := .vecRead { o with got := got, rest := all.drop 2048 } }] } }))
  ∧ ∀ op ∈ Cert.vecOps, ∀ (u : State) (e : EngId) (j : Job) (o : VecOpen),
      let got := o.got ++ u.eng[e].unitGets u.now o.rest
      o.op = op → o.flt = {} → o.rest.length ≤ 2048 → u.now < o.due → badPlace u.eng[e] {} o.rest = none → Cert.vecGood o got →
        u.vecStep e j o = Cert.vecLanding u e j o got

/-- A disallowed field ends the job (log entry 21 for the fields that R119 does not name itself). -/
def Obligations.VectorFieldsOutOfTableEndTheJob : Prop :=
  ∀ op ∈ Cert.vecOps, ∀ (s : State) (t : Nat) (e : EngId) (v : VecSlot) (j : Job),
      (s.advance t).issuing e = some j → vecFieldsOk op v = false ∨ vecUnusedOk op v = false →
        exec (Cert.vecCmd op t e v) s = .next ((s.advance t).endEarly j.id stBadArg)

/-- A 32-bit lane with no flag. -/
def Cert.lane (x : BitVec 32) : LaneOut := { code := x.toNat }

/-- An exact result that does not saturate, or the bound that it saturates at with SATURATED (bit 7) and a count of one (R80). -/
def Cert.saturated (i : Int) : LaneOut :=
  if i < -(2 ^ 31) then { code := 0x80000000, flags := 0x80, sats := 1 }
  else if 2 ^ 31 - 1 < i then { code := 0x7FFFFFFF, flags := 0x80, sats := 1 }
  else { code := (BitVec.ofInt 32 i).toNat }

/-- R80, the integer lanes. -/
def Obligations.IntegerLanesFollowTheRule : Prop :=
  (∀ (x y : BitVec 32) (rm : Nat),
    let op := fun (code : Nat) (sat : Bool) => intLane code rm sat x.toNat y.toNat
    op 0x28 false = Cert.lane (x + y) ∧ op 0x29 false = Cert.lane (x - y) ∧ op 0x2A false = Cert.lane (x * y)
      ∧ op 0x2B false = Cert.lane (x <<< (y.toNat % 32)) ∧ op 0x28 true = Cert.saturated (x.toInt + y.toInt)
      ∧ op 0x29 true = Cert.saturated (x.toInt - y.toInt) ∧ op 0x2A true = Cert.saturated (x.toInt * y.toInt)
      ∧ op 0x2B true = Cert.saturated (x.toInt * 2 ^ (y.toNat % 32))
      ∧ op 0x2C false = Cert.lane (x >>> (y.toNat % 32)) ∧ op 0x2D false = Cert.lane (x.sshiftRight (y.toNat % 32))
      ∧ op 0x2E false = Cert.lane (x &&& y) ∧ op 0x2F false = Cert.lane (x ||| y) ∧ op 0x30 false = Cert.lane (x ^^^ y)
      ∧ op 0x31 false = Cert.lane (if x.toInt ≤ y.toInt then x else y)
      ∧ op 0x32 false = Cert.lane (if y.toInt ≤ x.toInt then x else y)
      ∧ op 0x34 false = Cert.saturated (x.toInt + y.toInt) ∧ op 0x35 false = Cert.saturated (x.toInt - y.toInt))
    ∧ (∀ (x y : BitVec 32) (rm : BitVec 2), intLane 0x33 rm.toNat false x.toNat y.toNat =
        Cert.lane (if (rm = 0 ∧ x = y) ∨ (rm = 1 ∧ x.toInt < y.toInt) ∨ (rm = 2 ∧ x.toInt ≤ y.toInt) ∨ (rm = 3 ∧ x ≠ y) then 1 else 0))
    ∧ (∀ (op : Nat) (v : VecSlot), 0x2C ≤ op → op ≤ 0x35 → v.sat = true → vecFieldsOk op v = false)
    ∧ ∀ (g : Engine) (d : Nat) (vec : Bool) (flags : BitVec 8) (n : Nat),
        (g.land d vec (.arith flags n)).arithExc = g.arithExc ||| flags
          ∧ (g.land d vec (.arith flags n)).satCount.toNat = min (g.satCount.toNat + n) 0xFFFFFFFF

/-- A value saturated to an integer type of `w` bits and its range, as REQ's last line gives it (R75). -/
def Cert.toRange (w : Nat) (lo hi y : Int) : LaneOut :=
  if y < lo then { code := (BitVec.ofInt w lo).toNat, flags := 0x80, sats := 1 }
  else if hi < y then { code := (BitVec.ofInt w hi).toNat, flags := 0x80, sats := 1 }
  else { code := (BitVec.ofInt w y).toNat }

/-- One channel of REQ (R75), and the records that R119 refuses. -/
def Obligations.RequantiseChannelFollowsTheFormula : Prop :=
  ∀ (acc : BitVec 96) (m : BitVec 32) (sh rsv : Byte) (zp lo hi : BitVec 16) (tail : Word),
    let r := natLe m.toNat 4 ++ [sh, rsv] ++ natLe zp.toNat 2 ++ natLe lo.toNat 2 ++ natLe hi.toNat 2 ++ natLe tail.toNat 4
    let p := acc.toInt * m.toInt
    let t := (if sh = 0 then p else (p + 2 ^ (sh.toNat - 1)) / 2 ^ sh.toNat) + zp.toInt
    let y := min (max t lo.toInt) hi.toInt
    if sh.toNat ≤ 95 ∧ lo.toInt ≤ hi.toInt ∧ rsv = 0 ∧ tail = 0 then
      reqLane 0 acc.toInt r = some (Cert.toRange 8 (-128) 127 y) ∧ reqLane 1 acc.toInt r = some (Cert.toRange 8 0 255 y)
        ∧ reqLane 15 acc.toInt r = some (Cert.toRange 16 (-32768) 32767 y) ∧ reqLane 16 acc.toInt r = some (Cert.toRange 4 (-8) 7 y)
    else ∀ ot : Nat, reqLane ot acc.toInt r = none

/-- The formats of Table 03.3. -/
def Cert.formats : List FFmt := [fp32, bf16, fp16, e4m3, e5m2, e3m2, e2m3, e2m1]

/-- Exact values are not changed by rounding. -/
def Obligations.ExactValuesConvertToThemselves : Prop :=
  ∀ f ∈ Cert.formats, ∀ (rm code : Nat) (sat neg : Bool) (m : Nat) (e : Int), code < 2 ^ (1 + f.ebits + f.mbits) →
    decodeFlt f code = .fin neg m e → encodeFlt f rm sat (.fin neg m e) = { code := code }

/-- NaN in and out of the FP32 lanes, and the order of the zeros. -/
def Obligations.NanLanesAreQuiet : Prop :=
  (∀ f ∈ [fpAdd, fpSub, fpMul], ∀ rm a b : Nat, a < 2 ^ 32 → b < 2 ^ 32 →
      if fpIsNan a || fpIsNan b then f rm a b = { code := 0x7FC00000 }
      else fpIsNan (f rm a b).code = true → f rm a b = { code := 0x7FC00000, flags := 8 })
    ∧ (∀ a b : Nat, a < 2 ^ 32 → b < 2 ^ 32 →
      if fpIsNan a || fpIsNan b then fpMax a b = 0x7FC00000 ∧ fpMin a b = 0x7FC00000
      else (fpMax a b = a ∨ fpMax a b = b) ∧ (fpMin a b = a ∨ fpMin a b = b)
        ∧ fpMax 0x80000000 0 = 0 ∧ fpMax 0 0x80000000 = 0 ∧ fpMin 0x80000000 0 = 0x80000000 ∧ fpMin 0 0x80000000 = 0x80000000)

/-! The LOAD and MAT slots (chapters 03, 04, 05, 07, 08). -/

/-- The state with landings added to engine `e`, all due in one cycle and of job `j`. -/
def Cert.landing (u : State) (e : EngId) (j : Job) (due : Nat) (l : List LandEff) : State :=
  { u with eng := u.eng.set e { u.eng[e] with
    landings := u.eng[e].landings ++ l.map fun x => { due := due, job := j.id, eff := x } } }

/-- LDV: its landing, its frame, and an uncorrectable word. -/
def Obligations.LdvLoadsTheBroadcastRegister : Prop :=
  ∀ (s : State) (t : Nat) (e : EngId) (line len : Nat) (j : Job),
    let u := s.advance t
    let as := addrsFrom (64 * line) (64 * (len + 1))
    u.issuing e = some j → len < 16 → 64 * line + 64 * (len + 1) ≤ 25165824 →
      (badPlace u.eng[e] {} as = none → exec (.ldv t e line len {}) s =
        .next (Cert.landing u e j (u.now + 1) [.bcast (u.eng[e].unitGets u.now as)]))
      ∧ (u.eng[e].sideAt ≠ u.now → u.eng[e].unitGets u.now as = memRead u.eng[e].act (64 * line) (64 * (len + 1)))
      ∧ ∀ i w : Nat, badPlace u.eng[e] {} as = some (i, w) → exec (.ldv t e line len {}) s =
        .next (u.failAt e j u.now
          { status := stMemUncorrectable, unitKind := 4, opClass := 7, mechs := [6], detail := BitVec.ofNat 32 w
            dataClass := 0, bundle := 0xFFFF })

/-- Row `r` of the tile of shape `sh` that begins at store row `row`, as it lands in tile register `reg`. -/
def Cert.tileRow (store : Mem) (row : Nat) (reg : Bool) (sh : TileShape) (r : Nat) : LandEff :=
  .tileRow reg (r = 0) sh (cellsFrom (16384 * r) (memRead store (16384 * (row + r)) (min 16384 (tileBytes sh - 16384 * r))))

/-- Engine `e` of `u` after a tile load into register `reg`: the register names what was loaded, its first row is there, each
further row is due one cycle after the one before (R90), and the load holds the store port for its rows (R83). -/
def Cert.loading (u : State) (e : EngId) (j : Job) (row : Nat) (reg : Bool) (sh : TileShape) (kv : Option KvDesc) (kvRow : Nat) : State :=
  let g := u.eng[e].setTile reg { u.eng[e].tile reg with kv := kv, kvRow := kvRow, kvaCount := 0 }
  let g := g.land u.now false (Cert.tileRow u.eng[e].store row reg sh 0)
  let rest : List Landing := (List.range (tileRows sh - 1)).map fun r =>
    { due := u.now + (r + 1), job := j.id, eff := Cert.tileRow u.eng[e].store row reg sh (r + 1) }
  { u with eng := u.eng.set e { g with landings := g.landings ++ rest, portFrom := u.now + tileRows sh } }

/-- TLD and KVT. -/
def Obligations.TileLoadsBringOneRowPerCycle : Prop :=
  ∀ (s : State) (t : Nat) (e : EngId) (row : Nat) (reg : Bool) (shape : Nat) (sh : TileShape) (j : Job),
    let u := s.advance t
    let g := u.eng[e]
    let good := fun (first : Nat) => first + tileRows sh ≤ 8192 ∧ ∀ r < tileRows sh, first + r ∉ g.mem.storeBad
    u.issuing e = some j → (imageOn j e).shapes[shape]? = some sh → 0 < tileRows sh → g.portFrom ≤ u.now →
      (good row → exec (.tld t e row reg shape {}) s = .next (Cert.loading u e j row reg sh none 0))
      ∧ (∀ (d : KvDesc) (q : List KvDesc), g.pageQueue = d :: q → good (d.pageRow + row) →
        exec (.kvt t e row reg shape false {}) s = .next (Cert.loading u e j (d.pageRow + row) reg sh (some d) row)
          ∧ exec (.kvt t e row reg shape true {}) s =
            .next ((Cert.loading u e j (d.pageRow + row) reg sh (some d) row).updEng e Engine.popPage))
      ∧ (g.pageQueue = [] → ∀ pop : Bool, exec (.kvt t e row reg shape pop {}) s =
        .next ((u.endEarly j.id stKvUnderrun).updKv j.part fun k => { k with event := setBit k.event 2 }))

/-- KVA: what it merges, where, and what stays (log entry 23 for a register without a descriptor). -/
def Obligations.KvaMergesOneRow : Prop :=
  ∀ (s : State) (t : Nat) (e : EngId) (reg : Bool) (j : Job),
    let u := s.advance t
    let g := u.eng[e]
    let k := u.part[j.part].kv
    let tr := g.tile reg
    let r := tr.kvaCount
    u.issuing e = some j → g.portFrom ≤ u.now →
      (tr.kv = none → exec (.kva t e reg {}) s =
        .next ((u.endEarly j.id stKvUnderrun).updKv j.part fun k => { k with event := setBit k.event 2 }))
      ∧ ∀ (d : KvDesc) (p : PageTile), tr.kv = some d → ((pageTiles k.fmt k.d).find? fun p => p.first = tr.kvRow) = some p →
        r < tileRows p.shape → p.shape = tr.shape →
          let image := fun a => (rfRead tr.image 0 (tileBytes p.shape)).getD a 0
          let bs := mergedRow k.fmt k.d d.slot p image g.append.code r
          let row := d.pageRow + tr.kvRow + r
          ∃ s', exec (.kva t e reg {}) s = .next s' ∧
            s' = { u with eng := u.eng.set e s'.eng[e] }
            ∧ s'.eng[e] = { g.setTile reg { tr with kvaCount := r + 1 } with
                store := if d.isDiscard then g.store else memWrite g.store (16384 * row) bs
                mem := if d.isDiscard then g.mem else g.mem.rowWritten row
                portFrom := u.now + 1
                landings := g.landings ++ [{ due := u.now + 1, job := j.id, eff := .tileMerge reg (cellsFrom (16384 * r) bs) }] }
            ∧ ∀ a : Nat, d.isDiscard = true ∨ a < 16384 * row ∨ 16384 * row + bs.length ≤ a →
                memGet s'.eng[e].store a = memGet g.store a

/-- The tile bytes that a MAT reads. -/
def Cert.matTile (g : Engine) (m : MatSlot) (a : Nat) : Nat :=
  ((rfRead (g.tile m.reg).image 0 (tileBytes (g.tile m.reg).shape)).map BitVec.toNat).getD a 0

/-- The bytes of its vector that a MAT takes from the broadcast register: the elements, and the scales of a block-scaled one. -/
def Cert.matBits (g : Engine) (m : MatSlot) : List Byte :=
  let kt := (g.tile m.reg).shape.kt
  rfRead g.bcast 0 (packedBytes (widthOf m.afmt.toNat) kt + if isBlockFmt m.afmt.toNat then ceilDiv kt 32 else 0)

/-- One of those bytes. -/
def Cert.matVec (g : Engine) (m : MatSlot) (a : Nat) : Nat := ((Cert.matBits g m).map BitVec.toNat).getD a 0

/-- The accumulator entry that a MAT of job data on engine `g` leaves: the chain started or continued with the products of the broadcast
register and the tile. -/
def Cert.matNew (g : Engine) (m : MatSlot) (cls : ChainClass) : AccEntry :=
  matEntry cls m.start g.acc[m.entry] (g.tile m.reg).shape m.afmt.toNat (Cert.matTile g m) (Cert.matVec g m)

/-- The checks of a MAT pass: the checksum column, block by block where the class is block-scaled, and the column sums formed as the tile was
loaded. A chain continued on an entry that a test window left undefined is not compared, nor is a tile register so left. -/
def Cert.matPasses (g : Engine) (m : MatSlot) (cls : ChainClass) : Prop :=
  (checkPasses cls (Cert.matNew g m cls) = true ∨ (g.acc[m.entry].seed.isSome = true ∧ m.start = false))
    ∧ (cls = .block → blocksPass (g.tile m.reg).shape m.afmt.toNat (Cert.matTile g m) (Cert.matVec g m) = true)
    ∧ ((g.tile m.reg).image.seed = none → readbackFails (g.tile m.reg).shape (Cert.matTile g m) (g.tile m.reg).sums = none)

/-- What a MAT that emits leaves to land: the emission, its flags, and with WR its lines. -/
def Cert.matEmits (g : Engine) (m : MatSlot) (cls : ChainClass) : List LandEff :=
  let out := emission cls m.fp32 (Cert.matNew g m cls)
  [.matOut out.1, .arith out.2 0] ++
    if m.wr then [.act (cellsFrom (64 * m.dest.toNat)
      ((List.range (16 * ceilDiv (4 * (g.tile m.reg).shape.nt) 64)).flatMap fun i => natLe (out.1.words.getD i 0).toNat 4))] else []

/-- MAT: entry, emission, frame. -/
def Obligations.MatAccumulatesAndEmits : Prop :=
  ∀ (s : State) (t : Nat) (e : EngId) (m : MatSlot) (j : Job) (cls : ChainClass),
    let u := s.advance t
    let g := u.eng[e]
    u.issuing e = some j → pairClass (g.tile m.reg).shape.fmt m.afmt.toNat = some cls → matOk m cls g.acc[m.entry] (g.tile m.reg) = true →
      (m.wr = true → 64 * (m.dest.toNat + ceilDiv (4 * (g.tile m.reg).shape.nt) 64) ≤ 25165824) → matFailed g j.id = false →
      Cert.matPasses g m cls →
        exec (.mat t e m {}) s = .next { u with eng := u.eng.set e { g with
          acc := g.acc.set m.entry (Cert.matNew g m cls)
          pathMat := Cert.matBits g m
          landings := g.landings ++ (if m.emit then Cert.matEmits g m cls else []).map fun x =>
            { due := u.now + (match cls with
                | .int => 12
                | .fp8 => 12
                | .block => 14
                | .half => 18), job := j.id, eff := x } } }

/-- Integer chains are exact dot products. -/
def Obligations.IntegerChainsAreExactDotProducts : Prop :=
  ∀ (start : Bool) (old : AccEntry) (t : TileShape) (afmt : Nat) (b v : Nat → Nat) (j : Nat), t.fmt = 0 → afmt ≤ 1 → j < t.nt →
    let x := fun (k : Nat) => if afmt = 0 then sgn 8 (v k) else (v k % 256 : Nat)
    let dot := ((List.range t.kt).map fun k => x k * sgn 8 (b (k * t.nt + j))).sum
    let o := accCol old j
    (matEntry .int start old t afmt b v).cols[j]? =
      some { val := (if start then 0 else o.val) + BitVec.ofInt 96 dot, nan := !start && o.nan, pinf := !start && o.pinf
             ninf := !start && o.ninf }

/-- The exact checksum never accuses an undisturbed MAT. -/
def Obligations.UndisturbedMatsPassTheirCheck : Prop :=
  (∀ (cls : ChainClass) (start : Bool) (old : AccEntry) (t : TileShape) (afmt : Nat) (b v : Nat → Nat),
      cls = .int ∨ cls = .fp8 → pairClass t.fmt afmt = some cls → (start = true ∨ (old.seed = none ∧ checkPasses cls old = true)) →
        checkPasses cls (matEntry cls start old t afmt b v) = true)
    ∧ (∀ (t : TileShape) (afmt : Nat) (b v : Nat → Nat), pairClass t.fmt afmt = some .block → blocksPass t afmt b v = true)
    ∧ ∀ (g : Engine) (d : Nat) (reg first : Bool) (sh : TileShape) (ws : List Host.Cell),
        let tr := (g.land d false (.tileRow reg first sh ws)).tile reg
        readbackFails tr.shape (fun a => ((rfRead tr.image 0 (tileBytes tr.shape)).map BitVec.toNat).getD a 0) tr.sums = none

/-! The MOV, SYNC and CTL slots and the wait points (chapters 02 and 05). -/

/-- OUT and OUTN. -/
def Obligations.BeatsReachTheirPortOneCycleLater : Prop :=
  ∀ (s : State) (t : Nat) (e : EngId) (line len route : Nat) (last : Bool) (j : Job) (r : RouteEntry),
    let u := s.advance t
    let size := 64 * (len + 1)
    let bs := u.eng[e].unitGets u.now (addrsFrom (64 * line) size)
    let handed := fun (w : State) (note : Bool) =>
      (Cert.landing w e j (u.now + 1) [.beat route last note bs]).updEng e fun g => { g with pathOut := bs }
    let both := fun (f : Bool → State) =>
      exec (.out t e line len route last {}) s = .next (f false) ∧ exec (.outn t e line len route last {}) s = .next (f true)
    u.issuing e = some j → (imageOn j e).routes[route]? = some r → len ≤ 1 → 64 * line + size ≤ 25165824 →
      badPlace u.eng[e] {} (addrsFrom (64 * line) size) = none → u.isStandby = false →
      u.eng[e].unchecked u.now (64 * line) size = false →
        (r.kind = 2 ∨ r.kind = 3 → both (handed u))
        ∧ (r.kind = 1 → u.outCtx j r = none → both fun _ => u.endEarly j.id stNoWindow)
        ∧ (r.kind = 1 → ∀ c : Ctx, u.outCtx j r = some c →
          let n := u.beatBlocks e route size
          (u.eng[e].seq.granted = some (route, n) →
            both (handed (u.updEng e fun g => { g with seq := { g.seq with granted := none } })))
          ∧ (u.eng[e].seq.granted ≠ some (route, n) → u.portHeld j.part c.port = false → n ≤ c.outCredit →
            both (handed (u.updCtx c.link fun x => { x with outCredit := x.outCredit - n })))
          ∧ (u.eng[e].seq.granted ≠ some (route, n) → u.portHeld j.part c.port = true ∨ c.outCredit < n →
            (r.bound = 0 → both fun _ => u.endEarly j.id stWaitTimeout)
            ∧ (r.bound ≠ 0 → both fun _ => u.updEng e fun g => { g with seq := { g.seq with
                wait := some (.egress c.port.val c.link.toNat route size u.now (u.now + r.bound)) } })))

/-- The state with a transfer of job `j` on engine `e` begun: it waits for its units' slots (R120, R452). -/
def Cert.transfer (u : State) (e : EngId) (j : Job) (isRead : Bool) (line a n : Nat) (zeros : Bool) : State :=
  let x : Xfer := { id := u.nextXfer, job := j.id, isRead := isRead, line := line, regionByte := a, length := n, zeros := zeros
                    units := unitsOf a n, doneAt := none, moved := false }
  { u with
    nextXfer := u.nextXfer + 1
    eng := u.eng.set e { u.eng[e] with seq := { u.eng[e].seq with
      xfers := u.eng[e].seq.xfers ++ [x], sinceWaitl := u.eng[e].seq.sinceWaitl ++ [u.nextXfer] } } }

/-- LDR, LDW, LPDDR_SLOT and LPDDR_TRANSFER_DONE. -/
def Obligations.TransfersMoveTheirBytes : Prop :=
  ∀ (s : State) (t : Nat) (e : EngId) (j : Job),
    let u := s.advance t
    (∀ (line route : Nat) (r : RouteEntry), u.issuing e = some j → (imageOn j e).routes[route]? = some r →
      64 * line + r.bound ≤ 25165824 →
        let read := fun (w : State) => exec (.ldr t e line route {}) s = .next w
        let write := fun (w : State) => u.eng[e].unchecked u.now (64 * line) r.bound = false → exec (.ldw t e line route {}) s = .next w
        (r.kind = 4 → 512 * r.offset + r.bound ≤ regionBytes u.part[j.part] →
          if u.lpFenced (512 * r.offset) r.bound then read (u.endEarly j.id stFenced) ∧ write (u.endEarly j.id stFenced)
          else read (Cert.transfer u e j true line (512 * r.offset) r.bound false)
            ∧ write (Cert.transfer u e j false line (512 * r.offset) r.bound false))
        ∧ (r.kind = 5 → u.part[j.part].ckpt = none → read (u.endEarly j.id stCkptBad) ∧ write (u.endEarly j.id stCkptBad))
        ∧ (r.kind = 5 → ∀ c : Ckpt, u.part[j.part].ckpt = some c → 512 * r.offset + r.bound ≤ c.length →
          let slot := fun (b : Bool) => 512 * (if b then c.offB else c.offA) + 512 * r.offset
          let free := fun (a : Nat) => a + r.bound ≤ regionBytes u.part[j.part] ∧ u.lpFenced a r.bound = false
          (free (slot c.underB) → write (Cert.transfer u e j false line (slot c.underB) r.bound false))
          ∧ (c.sealedSlot = none → free (slot (!c.underB)) → read (Cert.transfer u e j true line (slot (!c.underB)) r.bound true))
          ∧ ∀ b : Bool, c.sealedSlot = some b → free (slot b) → read (Cert.transfer u e j true line (slot b) r.bound false)))
    ∧ (∀ (slot : Fin 32) (p : PartId), u.pwr.trained = true → u.frameTime % 1024 = 32 * slot.val → u.fab.lpSlotAt ≠ some u.now →
        u.slotOwner slot = some p →
          (u.slotEngine p = some e → exec (.lpddrSlot t slot) s = .next { u with
            fab := { u.fab with lpSlotAt := some u.now }
            part := u.part.set p { u.part[p] with lastEngine := e.val }
            eng := u.eng.set e { u.eng[e] with seq := { u.eng[e].seq with xfers := slotXfers u.now u.eng[e].seq.xfers } } })
          ∧ (u.slotEngine p = none → (∀ c ∈ u.fab.ctxs, c.held = []) → oldestDirty u.host.bulk[p].frames = none →
            exec (.lpddrSlot t slot) s = .next { u with
              fab := { u.fab with
                lpSlotAt := some u.now, lpFree := (p, u.now) :: u.fab.lpFree.filter fun x => decide (u.now < x.2 + 2300) } }))
    ∧ ∀ (x : Xfer) (c : Nat), u.eng[e].seq.xfers = [x] → x.moved = false → x.doneAt = some c → c ≤ u.now → u.running e = some j →
        j.id = x.job → (∀ c st, j.early = some (c, st) → c = u.now) →
          (x.isRead = true → u.eng[e].mem.actBad = [] → ∃ s', exec (.lpddrTransferDone t e {}) s = .next s'
            ∧ s' = { u with eng := u.eng.set e s'.eng[e] }
            ∧ s'.eng[e] = { u.eng[e] with
                act := s'.eng[e].act, mem := s'.eng[e].mem, sideAt := u.now, sideOld := s'.eng[e].sideOld
                seq := { u.eng[e].seq with xfers := [{ x with moved := true }] } }
            ∧ memRead s'.eng[e].act (64 * x.line) x.length =
                (if x.zeros then List.replicate x.length 0 else regionRead u.part[j.part] x.regionByte x.length)
            ∧ ∀ a : Nat, a < 64 * x.line ∨ 64 * x.line + x.length ≤ a → memGet s'.eng[e].act a = memGet u.eng[e].act a)
          ∧ (x.isRead = false → badPlace u.eng[e] {} ((List.range x.length).map (64 * x.line + ·)) = none →
            exec (.lpddrTransferDone t e {}) s = .next { u with
              part := u.part.set j.part (regionWrite u.part[j.part] x.regionByte (u.eng[e].sideGets u.now ((List.range x.length).map (64 * x.line + ·))))
              eng := u.eng.set e { u.eng[e] with seq := { u.eng[e].seq with xfers := [{ x with moved := true }] } } })

/-- The state with pigeonhole `g` taken down by `n`: an active tells its standby (R125, R309). -/
def Cert.takenDown (u : State) (g n : Nat) : State := (u.pghSet g (u.pghAt g - n)).twinForward 2

/-- The state with the wait of engine `e` set. -/
def Cert.waits (u : State) (e : EngId) (w : SeqWait) : State :=
  { u with eng := u.eng.set e { u.eng[e] with seq := { u.eng[e].seq with wait := some w } } }

/-- WAIT, NOTE, WAIT_RELEASE, WAIT_TIMEOUT. -/
def Obligations.WaitsTakeTheirCount : Prop :=
  ∀ (s : State) (t : Nat) (e : EngId) (j : Job),
    let u := s.advance t
    (∀ (handle n bound count g : Nat), u.issuing e = some j → (imageOn j e).pghs[handle]? = some (n, bound) →
      u.pghIndex j.part n = some g → 1 ≤ count → count ≤ 255 → u.isStandby = false →
        exec (.note t e handle count {}) s = .next (Cert.landing u e j (u.now + 1) [.note n count])
        ∧ (count ≤ u.pghSeen g → exec (.wait t e handle count {}) s =
            .next ((Cert.takenDown u g count).updEng e fun x => { x with seq := { x.seq with wait := none } }))
        ∧ (u.pghSeen g < count → exec (.wait t e handle count {}) s =
            .next (if bound = 0 then u.endEarly j.id stWaitTimeout else Cert.waits u e (.pgh n count u.now (u.now + bound)))))
    ∧ (∀ n count issued limit g : Nat, u.waiting e = some (j, .pgh n count issued limit) → u.pghIndex j.part n = some g →
        u.isStandby = false →
          (count ≤ u.pghSeen g → issued < u.now → u.now ≤ limit → exec (.waitRelease t e) s =
            .next ((Cert.takenDown u g count).updEng e fun x => { x with seq := x.seq.released u.now }))
          ∧ (limit ≤ u.now → u.pghSeen g < count → exec (.waitTimeout t e) s = .next (u.endEarly j.id stWaitTimeout))
          ∧ (limit = u.now → count ≤ u.pghSeen g → issued < u.now → exec (.waitTimeout t e) s =
            .next ((Cert.takenDown u g count).updEng e fun x => { x with seq := x.seq.released u.now }))
          ∧ (u.pghSeen g < count → u.now < limit → exec (.waitRelease t e) s = .next u)
          ∧ (u.now < limit → exec (.waitTimeout t e) s = .next u))
    ∧ (u.waiting e = none → exec (.waitRelease t e) s = .next u ∧ exec (.waitTimeout t e) s = .next u)

/-- WAITL, WAITL_RELEASE, EGRESS_CREDIT_RELEASE and their timeouts. -/
def Obligations.TransferAndCreditWaits : Prop :=
  ∀ (s : State) (t : Nat) (e : EngId) (j : Job),
    let u := s.advance t
    let q := u.eng[e].seq
    (u.issuing e = some j →
      (q.xfersDone = true → exec (.waitl t e {}) s =
        .next { u with eng := u.eng.set e { u.eng[e] with seq := { q with sinceWaitl := [], xfers := [] } } })
      ∧ (q.xfersDone = false → u.waitlBound e j ≠ 0 → exec (.waitl t e {}) s =
        .next { u with eng := u.eng.set e { u.eng[e] with seq := { q with
          sinceWaitl := [], wait := some (.xfers u.now (u.now + u.waitlBound e j)) } } }))
    ∧ (∀ issued limit : Nat, u.waiting e = some (j, .xfers issued limit) →
        (u.now ≤ limit → q.xfersDone = true → exec (.waitlRelease t e) s =
          .next { u with eng := u.eng.set e { u.eng[e] with seq := { q.released u.now with xfers := [] } } })
        ∧ (u.now ≤ limit → q.xfersDone = false → exec (.waitlRelease t e) s = .next u)
        ∧ (limit < u.now → exec (.waitlRelease t e) s = .next (u.endEarly j.id stWaitTimeout))
        ∧ (limit ≤ u.now → q.xfersDone = false ∨ limit < u.now →
            exec (.waitTimeout t e) s = .next (u.endEarly j.id stWaitTimeout)))
    ∧ ∀ port link route bytes issued limit : Nat, u.waiting e = some (j, .egress port link route bytes issued limit) →
        (∀ c : Ctx, u.now ≤ limit → u.ctx? (BitVec.ofNat 16 link) = some c → u.isStandby = false →
          let n := u.beatBlocks e route bytes
          (u.portHeld j.part c.port = false → n ≤ c.outCredit → exec (.egressCreditRelease t e) s =
            .next (((u.updCtx c.link fun x => { x with outCredit := x.outCredit - n }).twinForward 2).updEng e fun g =>
              { g with seq := { g.seq.released u.now with granted := some (route, n) } }))
          ∧ (u.portHeld j.part c.port = true ∨ c.outCredit < n → exec (.egressCreditRelease t e) s = .next u
            ∧ (limit = u.now → exec (.waitTimeout t e) s = .next (u.endEarly j.id stWaitTimeout))))
        ∧ (limit < u.now → exec (.egressCreditRelease t e) s = .next (u.endEarly j.id stWaitTimeout)
            ∧ exec (.waitTimeout t e) s = .next (u.endEarly j.id stWaitTimeout))

/-- LOOP, TEST, END. -/
def Obligations.LoopTestEnd : Prop :=
  ∀ (s : State) (t : Nat) (e : EngId) (j : Job) (i : Nat),
    let u := s.advance t
    let g := u.eng[e]
    u.issuing e = some j →
      (∀ l : LoopEntry, (imageOn j e).loops[i]? = some l →
        let encloses := fun (x : Nat × Nat) =>
          let o := (imageOn j e).loops.getD x.1 ⟨0, 0, 0, []⟩
          x.1 ≠ i && decide (o.first ≤ l.first ∧ l.last ≤ o.last)
        let goes := fun (k : Nat) => exec (.loop t e i {}) s =
          .next { u with eng := u.eng.set e { g with seq := { g.seq with loops := (i, k) :: g.seq.loops.filter encloses } } }
        (assoc i g.seq.loops = none → goes 0)
        ∧ ∀ k : Nat, assoc i g.seq.loops = some k → goes (if k + 1 < l.count then k + 1 else 0))
      ∧ (∀ steps : Nat, (imageOn j e).windows[i]? = some steps → ∃ g' : Engine,
          exec (.test t e i {}) s = .next { u with free := u.free + 76, eng := u.eng.set e g' }
          ∧ g' = { g with tileA := g'.tileA, tileB := g'.tileB, bcast := g'.bcast, acc := g'.acc, matOut := g'.matOut
                          append := g'.append, argmax := g'.argmax, seq := { g.seq with testUntil := u.now + 256 * steps } }
          ∧ g'.tileA.image = { seed := some u.free } ∧ g'.tileB.image = { seed := some (u.free + 1) }
          ∧ g'.bcast = { seed := some (u.free + 2) } ∧ (∀ k : Fin 64, g'.acc[k] = { seed := some (u.free + 3 + k.val) })
          ∧ g'.matOut = { seed := some (u.free + 67) } ∧ g'.append = { seed := some (u.free + 68) }
          ∧ g'.argmax = { seed := some (u.free + 69) })
      ∧ ((imageOn j e).loops[i]? = none → exec (.loop t e i {}) s = .next (u.endEarly j.id stBadArg))
      ∧ ((imageOn j e).windows[i]? = none → exec (.test t e i {}) s = .next (u.endEarly j.id stBadArg))
      ∧ (assoc e j.ends = none → exec (.endJob t e {}) s = .next (u.updJob j.id fun x => { x with ends := assocSet e u.now x.ends }))
      ∧ ((assoc e j.ends).isSome = true → exec (.endJob t e {}) s = .next u)

/-! Jobs, misses, SAFE_STOP, checks, scrubbing and the KV walk (chapters 02, 04, 07, 08). -/

/-- The engines of a list changed by one function, the others as they were. -/
def Cert.onEngines (u : State) (es : List EngId) (f : EngId → Engine → Engine) : State :=
  { u with eng := Vector.ofFn fun x => if x ∈ es then f x u.eng[x] else u.eng[x] }

/-- JOB_START and JOB_COMPLETION. -/
def Obligations.JobsStartTogetherAndComplete : Prop :=
  ∀ (s : State) (t : Nat) (j : Job),
    let u := s.advance t
    (∀ (e : EngId) (rest : List Job) (c : Nat), u.queueOf e = j :: rest → j.released = some c → j.started = none → j.early = none →
      (∀ k ∈ u.scheds, k.binds = []) → u.job? j.id = some j → j.kvStatus = none → j.engines.Nodup →
        (c + 2 ≤ u.now → (∀ x ∈ j.engines, u.engineFree j x = true) →
          (∀ x ∈ j.engines, ∀ r ∈ preloadRows (imageOn j x), r ∉ u.eng[x].mem.storeBad) → exec (.jobStart t e) s =
          .next { Cert.onEngines (u.updJob j.id fun k => { k with started := some u.now }) j.engines fun x g =>
              { g with
                argmax := { seed := some (u.free + j.engines.idxOf x) }
                seq := { job := some j.id, freeFrom := g.seq.freeFrom, testUntil := g.seq.testUntil } }
            with free := u.free + j.engines.length })
        ∧ (u.now < c + 2 ∨ (∃ x ∈ j.engines, u.engineFree j x = false) → exec (.jobStart t e) s = .next u))
    ∧ (u.job? j.id = some j → j.walkGen = none → j.kvStatus = none → j.missed = false → u.part[j.part].ckpt = none →
        (u.isComplete j = false → exec (.jobCompletion t j.id) s = .next u)
        ∧ (u.isComplete j = true → j.completion ≤ j.last →
          let left := { Cert.onEngines u j.engines (fun _ g => g.forget j.id none) with jobs := u.jobs.filter fun x => x.id ≠ j.id }
          (j.source = .internal → exec (.jobCompletion t j.id) s = .next left)
          ∧ ∀ (w : WinId) (row : Nat) (tag : Word), j.source = .window w row tag → exec (.jobCompletion t j.id) s =
            .next (left.jobRow w row stOk tag j.completion 0 j.sealEntry (j.statusSeen j.completion))))

/-- A packet queued for a job that has missed: marked ST_DEADLINE_MISS in its header (R43; log entry 86, the model's choice of the field). -/
def Cert.marked (j : Job) (x : TxPkt) : TxPkt :=
  if x.job = some j.id then { x with pkt := { x.pkt with kvSeq := stDeadlineMiss } } else x

/-- A miss of job `j` noted in cycle `c` on its home engine (R42, Table 02.10), and what it still sends marked (R43). -/
def Cert.missNoted (u : State) (j : Job) (home : EngId) (cls : BitVec 4) (c : Nat) : State :=
  { u with
    jobs := updWhere (fun x => x.id = j.id) (fun x => { x with missed := true }) u.jobs
    fab := { u.fab with ports := u.fab.ports.map fun p => { p with queue := p.queue.map (Cert.marked j) } }
    eng := u.eng.set home { u.eng[home] with
      dlMiss := true, dlLastClass := cls, dlMissCount := bump 32 u.eng[home].dlMissCount 1, dlLastMiss := BitVec.ofNat 64 c } }

/-- DEADLINE_MISS. -/
def Obligations.MissesAreRecordedAndStop : Prop :=
  ∀ (s : State) (t : Nat) (j : Job) (home : EngId) (cls : BitVec 4),
    let u := s.advance t
    let pol := u.eng[home].dlClass[cls.toFin]
    let c := j.last + 1
    let noted := Cert.missNoted u j home cls c
    let stopped := { noted with pwr := { u.pwr with
      deadlineStop := { active := true, minEnd := c + 900000, remembered := false }, stopEngine := BitVec.ofNat 3 home.val } }
    let row := exec (.deadlineMiss t j.id) s
    u.job? j.id = some j → j.engines.head? = some home → j.cls = some cls → j.early = none → j.missed = false →
      (u.now ≤ j.last → row = .next u)
      ∧ (u.isComplete j = true → j.completion ≤ j.last → row = .next u)
      ∧ (j.last < u.now → u.isComplete j = false ∨ j.last < j.completion →
        (u.isStandby = true → row = .next ({ noted with free := u.free + 1 }.twinSend (Config.freeNat u.free)))
        ∧ (u.isStandby = false → hasBit pol 1 = false → row = .next (if hasBit pol 0 then stopped else noted))
        ∧ (u.isStandby = false → hasBit pol 1 = true → j.source = .internal →
          row = .next ((if hasBit pol 0 then stopped else noted).pghNotify 0 (pol.toNat / 65536) 1 c)))

/-- The host reaches the registers: the host port is ready, and the module is not in recovery. -/
def Cert.hostOn (u : State) : Prop := u.host.hpReady = true ∧ u.pwr.phase ≠ .recovery

/-- A source of SAFE_STOP after a CLEAR written in cycle `n` (R46). -/
def Cert.cleared (c : StopSource) (n : Nat) : StopSource :=
  match c.active, decide (c.minEnd ≤ n) with
  | false, _ => c
  | true, true => { active := false, minEnd := 0, remembered := false }
  | true, false => { c with remembered := true }

/-- A source of SAFE_STOP once its minimum may have ended (R46). -/
def Cert.expired (c : StopSource) (n : Nat) : StopSource :=
  match c.active && c.remembered, decide (c.minEnd ≤ n) with
  | true, true => { active := false, minEnd := 0, remembered := false }
  | _, _ => c

/-- R46 for the three sources with a CLEAR, and SAFE_STOP itself. -/
def Obligations.ClearReleasesAfterTheMinimum : Prop :=
  (∀ (s : State) (t : Nat) (v : Word),
    let u := s.advance t
    let p := u.pwr
    Cert.hostOn u →
      exec (.hstSafeStopClear t v) s =
          .next (if v.getLsbD 2 then { u with pwr := { p with deadlineStop := Cert.cleared p.deadlineStop u.now } } else u)
      ∧ exec (.twnControlClearStop t v) s =
          .next (if v.getLsbD 0 then { u with twin := { u.twin with stop := Cert.cleared u.twin.stop u.now } } else u)
      ∧ (p.level ≠ 3 → exec (.thmControlClearStop t v) s =
          .next (if v.getLsbD 0 then { u with pwr := { p with thmStop := Cert.cleared p.thmStop u.now } } else u))
      ∧ (p.level = 3 → ∃ r : Bool, exec (.thmControlClearStop t v) s =
          .next { u with pwr := { p with thmStop := { p.thmStop with remembered := r } } }))
    ∧ (∀ (s : State) (t : Nat),
      let u := s.advance t
      let p := u.pwr
      exec (.safeStopMinExpiry t .deadline) s = .next { u with pwr := { p with deadlineStop := Cert.expired p.deadlineStop u.now } }
      ∧ exec (.safeStopMinExpiry t .twin) s = .next { u with twin := { u.twin with stop := Cert.expired u.twin.stop u.now } }
      ∧ exec (.safeStopMinExpiry t .thermal) s =
          .next (if p.level = 3 then u else { u with pwr := { p with thmStop := Cert.expired p.thmStop u.now } }))
    ∧ ∀ u : State, u.safeStop = true ↔ u.pwr.startSrc = true ∨ u.pwr.deadlineStop.active = true ∨ u.twin.stop.active = true
        ∨ u.pwr.thmStop.active = true ∨ u.pwr.ejectAt.isSome = true

/-- R187. -/
def Obligations.FailedMatHoldsItsResult : Prop :=
  ∀ (s : State) (t : Nat) (e : EngId) (m : MatSlot) (j : Job) (cls : ChainClass),
    let u := s.advance t
    let g := u.eng[e]
    u.issuing e = some j → pairClass (g.tile m.reg).shape.fmt m.afmt.toNat = some cls → matOk m cls g.acc[m.entry] (g.tile m.reg) = true →
      (m.wr = true → 64 * (m.dest.toNat + ceilDiv (4 * (g.tile m.reg).shape.nt) 64) ≤ 25165824) →
        (matFailed g j.id = true → exec (.mat t e m {}) s = .next u)
        ∧ ∀ (mech : List Nat) (f : Flt), f.mechs = mech → 8 ∉ mech → 6 ∉ mech → matFailed g j.id = false →
          (∃ k ∈ mech, k ∈ matMechs cls) ∨ ¬ Cert.matPasses g m cls →
            ∃ ev : FailEvent, ev.status = stCheckMismatch ∧ ev.unitKind = 0 ∧ ev.mechs ≠ []
            ∧ (Cert.matPasses g m cls → ev.mechs = mech.filter (matMechs cls).contains)
            ∧ exec (.mat t e m f) s = .next { u with eng := u.eng.set e { g with
                acc := g.acc.set m.entry (Cert.matNew g m cls)
                pathMat := Cert.matBits g m
                landings := g.landings ++ [{ due := u.now + classDepth cls - 2, job := j.id, eff := .fail ev }] } }

/-- STORE_SCRUB, ACT_SCRUB, DIGEST_EPOCH and HISTORY_PROGRAM. -/
def Obligations.ScrubsEpochsAndHistory : Prop :=
  ∀ (s : State) (t : Nat),
    let u := s.advance t
    (∀ (e : EngId) (row n : Nat),
      let g := u.eng[e]
      let f : Flt := { corrected := n }
      let base := { u with eng := u.eng.set e { g with
        portTaken := some (if 0 < n then u.now + 1 else u.now), mem := (g.mem.corrected false n).scrubbed u.now row (decide (0 < n)) } }
      g.clkNominal = true → row < 8192 → g.portFree u.now = true → hasBit g.mem.scrubSeen row = false →
        (row ∈ g.mem.storeBad → exec (.storeScrub t e row {}) s =
          .next { u with eng := u.eng.set e { g with
            portTaken := some u.now, mem := (g.mem.storeUncorrectable row).scrubbed u.now row false } })
        ∧ (row ∉ g.mem.storeBad → u.digestRow e row = false → exec (.storeScrub t e row f) s = .next base)
        ∧ (row ∉ g.mem.storeBad → u.digestRow e row = true → exec (.storeScrub t e row f) s = .next
          (if u.cvu.digestRows.length < 64 then { base with cvu := { u.cvu with digestRows := u.cvu.digestRows ++
              [(e, row, BitVec.ofNat 64 (rowDigest row (memRead g.store (16384 * row) 16384)))] } }
           else { base with cvu := { u.cvu with event := setBit u.cvu.event 4 } }))
        ∧ (0 < n → assoc row g.mem.storeStreak = some 2 → row ∈ ((g.mem.corrected false n).scrubbed u.now row true).storeMarked)
        ∧ (u.frameTime % 1024 = 0 → g.mem.actScrubAt ≠ some u.now → exec (.actScrub t e f) s = .next { u with eng := u.eng.set e { g with
            mem := { (g.mem.corrected true n) with scrubLine := (g.mem.scrubLine + 1) % 6144, actScrubAt := some u.now } } }))
    ∧ (∀ (e : EngId) (row : Nat) (f : Flt), u.eng[e].portFree u.now = false ∨ (hasBit u.eng[e].mem.scrubSeen row = true ∧
        u.eng[e].mem.scrubSeen ≠ BitVec.allOnes 8192) → exec (.storeScrub t e row f) s = .next u)
    ∧ (u.pwr.phase = .service → u.frameTime ≠ 0 → u.frameTime % 90000000 = 0 → u.twin.role = .unpaired →
        (∀ e : EngId, u.eng[e].digests.abandoned = false ∧ u.eng[e].digests.wrong = []) →
          exec (.digestEpoch t) s = .next { u with eng := u.eng.map fun g => { g with digests := { g.digests with
            valid := true, value := (g.digests.reading.map Prod.snd).foldl (· ^^^ ·) 0, reading := [] } } })
    ∧ (∀ (r : HistRec) (l : List HistRec), u.hist.ring.length < 262144 →
        (u.hist.waitingF = r :: l → r.type = 4 → exec (.historyProgram t) s = .next { u with hist := { u.hist with
            waitingF := l, ring := u.hist.ring ++ [{ r with sequence := u.hist.next.toNat }], next := u.hist.next + 1 } })
        ∧ (u.hist.waitingF = [] → u.hist.waiting1 = r :: l → r.type = 1 → exec (.historyProgram t) s = .next { u with hist := { u.hist with
            waiting1 := l, ring := u.hist.ring ++ [{ r with sequence := u.hist.next.toNat }], next := u.hist.next + 1 } }))

/-- KV_WALK_START, KV_DESCRIPTOR_EMIT, KV_PREFETCH, KV_SPILL_DONE, KV_PAGE_RETURN. -/
def Obligations.KvWalksEmitWholeGroups : Prop :=
  (∀ (s : State) (t : Nat) (e : EngId) (j : Job) (c : Schedule) (b : KvBind),
    let u := s.advance t
    let k := u.part[j.part].kv
    let q := k.seq j.kvSeq
    u.job? j.id = some j → u.sched? j.sched = some c → (c.binds.find? fun x => x.logical = logicalOf j e) = some b → u.resetting (.kv j.part) = false →
      (u.eng[e].walk = none → (∃ rest, u.queueOf e = j :: rest) → j.walkGen = none → j.kvStatus = none → q.state = 1 →
        q.handle = c.handle → (∀ x ∈ c.binds, q.length / 64 + 1 ≤ x.windowPages) → q.length % 64 ≠ 0 → j.alloc = [] →
          let j' := { j with walkGen := some k.gen.toNat, walkLen := q.length, kvView := q.lists }
          let v := u.updJob j.id fun x => { x with walkGen := some k.gen.toNat, walkLen := q.length, kvView := q.lists }
          let todo := (List.range b.passes).flatMap fun _ => b.layers.flatMap fun l => layerGroup v j' b e l k.gen.toNat
          let walk : KvWalk := { job := j.id, gen := k.gen.toNat, seq := j.kvSeq, todo := todo }
          exec (.kvWalkStart t e) s = .next (v.updEng e fun g => { g with walk := some walk }))
      ∧ (∀ (w : KvWalk) (d : KvDesc) (rest : List KvDesc), u.eng[e].walk = some w → w.job = j.id → w.todo = d :: rest →
        (u.eng[e].pageQueue.length < 256 → d.isStaged = false → exec (.kvDescriptorEmit t e) s =
          .next ((u.updEng e fun g => { g with
            pageQueue := g.pageQueue ++ [d], walk := some { w with todo := rest, emitted := w.emitted + 1 } }).pghNotify j.part b.readyPgh 1 u.now))
        ∧ (u.eng[e].pageQueue.length ≥ 256 → exec (.kvDescriptorEmit t e) s = .next u)
        ∧ (d.isStaged = true → 8192 ≤ d.pageRow → (∀ x ∈ u.eng[e].staging, x.1 ≠ u.eng[e].stagingNext % 8) →
          let n := pageRows k.fmt k.d * 16384
          let a := 512 * k.spillOffset + (d.pageRow - 8192) * n
          let row := u.stageRow j.part (u.eng[e].stagingNext % 8)
          (u.lpServed j.part 150 = false ∨ u.eng[e].portShare u.now u.spanStart = false → exec (.kvPrefetch t e) s = .next u)
          ∧ (u.lpServed j.part 150 = true → u.eng[e].portShare u.now u.spanStart = true → u.lpFenced a n = true →
            exec (.kvPrefetch t e) s = .next (u.endEarly j.id stFenced))
          ∧ (u.lpServed j.part 150 = true → u.eng[e].portShare u.now u.spanStart = true →
          u.lpFenced a n = false → exec (.kvPrefetch t e) s = .next { u with eng := u.eng.set e { u.eng[e] with
            store := memWrite u.eng[e].store (16384 * row) (regionRead u.part[j.part] a n)
            mem := u.eng[e].mem.rowsWritten row (pageRows k.fmt k.d)
            portTaken := some u.now
            stagingNext := u.eng[e].stagingNext + 1
            staging := (u.eng[e].stagingNext % 8, row, d.pageRow - 8192) :: u.eng[e].staging
            walk := some { w with todo := { d with pageRow := row } :: rest } } }))))
    ∧ (∀ (v : State) (j : Job) (b : KvBind) (e : EngId) (layer gen : Nat), 1 ≤ b.windowPages →
        (b.slide = true ∨ j.walkLen / 64 + 1 ≤ b.windowPages) →
          (layerGroup v j b e layer gen).length = b.windowPages ∧ ((layerGroup v j b e layer gen).getLast?.map KvDesc.isOpen) = some true)
    ∧ ∀ (s : State) (t : Nat) (e : EngId) (p : PartId) (f : Nat),
      let u := s.advance t
      let k := u.part[p].kv
      u.holder e = some p →
        (∀ tag : Nat, assoc (e, f) k.pages = some (.transit tag) → (u.purgeSlots p).olderWalk p tag = true →
          exec (.kvPageReturn t e f) s = .next (u.purgeSlots p))
        ∧ ((∀ tag : Nat, assoc (e, f) k.pages ≠ some (.transit tag)) → exec (.kvPageReturn t e f) s = .next u)
        ∧ (∀ tag : Nat, assoc (e, f) k.pages = some (.transit tag) → (u.purgeSlots p).olderWalk p tag = false →
          exec (.kvPageReturn t e f) s = .next ((u.purgeSlots p).freePage p e f))
        ∧ ((k.pages.findSome? fun x => match x.2 with
            | .spilling slot at' => if x.1.1 = e then some (x.1.2, slot, at') else none
            | _ => none) = none → exec (.kvSpillDone t e {}) s = .next u)
        ∧ ∀ (slot at' : Nat), k.pages = [((e, f), .spilling slot at')] →
          u.lpServed p 100 = true → u.eng[e].portShare u.now u.spanStart = true →
          let n := pageRows k.fmt k.d * 16384
          let a := 512 * k.spillOffset + slot * n
          let stays := u.updKv p fun k => { k.setPage e f (.owned at') with slots := k.slots.filter fun x => x.1 ≠ slot }
          let now' := fun (l : Nat × List PageRef) => (l.1, l.2.map fun r => if r = .resident e f then .spilled e slot else r)
          (u.lpFenced a n = true → exec (.kvSpillDone t e {}) s = .next stays)
          ∧ (u.lpFenced a n = false → u.pinned p e f = true → exec (.kvSpillDone t e {}) s = .next (stays.refill p e))
          ∧ (u.lpFenced a n = false → u.pinned p e f = false →
            (∀ r < pageRows k.fmt k.d, u.pageRow p f + r ∉ u.eng[e].mem.storeBad) →
            let copied := (u.updEng e fun g => { g with portTaken := some u.now }).updPart p fun q =>
              regionWrite q a (memRead u.eng[e].store (16384 * u.pageRow p f) n)
            let moved := copied.updKv p fun k => { k with seqs := k.seqs.map fun q => { q with lists := q.lists.map now' } }
            let seen := { moved with jobs := u.jobs.map fun (x : Job) => if x.part = p then { x with kvView := x.kvView.map now' } else x }
            exec (.kvSpillDone t e {}) s = .next ((seen.freePage p e f).refill p e))

/-! Mailboxes (chapter 09). -/

/-- The mailbox commands: opcode, the request as the row makes it, and the row. -/
def Cert.mailboxRows : List (Nat × (MbxReq → MbxReq) × (Nat → MbxReq → Instr)) :=
  [(0x0001, id, .echo), (0x0002, id, .funcReset), (0x0003, id, .modelLoad), (0x0004, id, .dwinBind), (0x0005, id, .dwinRelease),
   (0x0006, id, .historyRead), (0x0007, id, .ckptConfig), (0x0008, id, .ckptRestore), (0x0100, id, .partitionCreate),
   (0x0101, id, .partitionDissolve), (0x0102, id, .partitionLayout), (0x0103, id, .keyInstall), (0x0104, id, .attest),
   (0x0105, id, .lifecycleAdvance), (0x0106, id, .ownerCmd), (0x0107, id, .countersRead), (0x0200, id, .partnerOpen),
   (0x0201, id, .partnerClose), (0x0202, id, .windowGrant), (0x0203, id, .planLoad), (0x0300, id, .envOpen),
   (0x0301, id, .envCommit), (0x0302, id, .envAbort), (0x0303, id, .envStatus), (0x0400, id, .scheduleArm),
   (0x0401, id, .scheduleDisarm), (0x0500, id, .kvPoolConfig), (0x0501, id, .kvBind), (0x0502, id, .kvSeqOpen),
   (0x0503, id, .kvSeqTruncate), (0x0504, id, .kvSeqFree), (0x0505, id, .kvSeqQuery), (0x0600, id, .videoDecOpen),
   (0x0601, id, .videoEncOpen), (0x0602, id, .videoClose), (0x0603, id, .videoQuery), (0x0700, smsReq 0, .smsStatus),
   (0x0700, smsReq 1, .smsFrank), (0x0700, smsReq 2, .smsZero), (0x0700, smsReq 3, .smsTare), (0x0700, smsReq 4, .smsPresetTare),
   (0x0700, smsReq 5, .smsTareClear), (0x0700, smsReq 6, .smsRecords), (0x0700, smsReq 7, .smsCheckpoint),
   (0x0700, smsReq 8, .smsSwid), (0x0700, smsReq 9, .smsParamLoad), (0x0700, smsReq 16, .smStage),
   (0x0700, smsReq 17, .smVerify), (0x0700, smsReq 18, .smActivate), (0x0800, id, .cvuSubmit),
   (0x0900, fun r => { r with aux := 0 }, fun t r => .testKat t r { failed := 0 }), (0x0901, id, .bistSlice), (0x0902, id, .marginSweep), (0x0903, id, .scanRun),
   (0x0904, id, .fenceLift), (0x0905, id, .maintGrant), (0x0A00, id, .twinPair), (0x0A01, id, .twinResync),
   (0x0A02, id, .twinPermit), (0x0A03, id, .twinGiveup), (0x0B00, id, .fwStage), (0x0B01, id, .fwVerify),
   (0x0B02, id, .fwActivate), (0x0B03, id, .fwStatus), (0x0B04, id, .fwRestart), (0x0B05, id, .settingsSave),
   (0x0F00, id, .recInfo), (0x0F01, id, .recStage), (0x0F02, id, .recInstall), (0x0F03, id, .recRestart)]

/-- The request half of the mailbox written. -/
def Cert.asked (u : State) (op : Nat) (r : MbxReq) : State :=
  { u with host := { u.host with
    mbx := u.host.mbx.set r.mailbox { u.host.mbx[r.mailbox] with request := some (BitVec.ofNat 16 op, r) } } }

/-- The command that a doorbell makes the postmaster core accept (R227, R230). -/
def Cert.newCmd (u : State) (op : Nat) (r : MbxReq) (waiting : Bool) : RunCmd :=
  { opcode := BitVec.ofNat 16 op, req := r, order := u.host.nextOrder, waiting := waiting, part := u.namedPart op r
    func := u.namedFunc op r }

/-- The state in which a command has been accepted and waits, or has started: its request written, its doorbell noted, the response
half not ready, its MBX_DONE bit clear (R227, R228). -/
def Cert.accepted (u : State) (op : Nat) (r : MbxReq) (waiting : Bool) : State :=
  { u with host := { u.host with
    mbx := u.host.mbx.set r.mailbox { u.host.mbx[r.mailbox] with
      request := some (BitVec.ofNat 16 op, r), lastDoorbell := r.doorbell, cmd := some (Cert.newCmd u op r waiting)
      resp := { u.host.mbx[r.mailbox].resp with valid := false } }
    nextOrder := u.host.nextOrder + 1
    mbxDone := if r.mailbox.val < 64 then u.host.mbxDone &&& ~~~ BitVec.ofNat 64 (2 ^ r.mailbox.val) else u.host.mbxDone } }

/-- Whether a command has to wait for an unanswered one accepted before it, which names its partition or its function; a PARTITION_CREATE or
PARTITION_DISSOLVE of a partition that is being dissolved does not wait for it (R230, R282, R301). -/
def Cert.heldUp (u : State) (c : RunCmd) : Prop :=
  let gone := (c.opcode = 0x0100 ∨ c.opcode = 0x0101) ∧ ∃ p : PartId, c.part = some p ∧ u.part[p].dissolving.isSome = true
  ∃ d ∈ u.accepted, d.order < c.order ∧
    ((c.part.isSome = true ∧ ¬ gone ∧ d.part = c.part) ∨ (c.func.isSome = true ∧ d.func = c.func))

/-- Whether an accepted command starts at once: fewer than 16 run, it waits for no earlier one, and no earlier one waits for a place alone
(R230). -/
def Cert.startsNow (u : State) (op : Nat) (r : MbxReq) : Prop :=
  let c := Cert.newCmd u op r true
  let l := u.accepted.filter fun d => d.order ≠ c.order
  (l.filter fun d => !d.waiting).length < 16 ∧ ¬ Cert.heldUp u c ∧ ∀ d ∈ l, d.waiting = true → d.order < c.order → Cert.heldUp u d

/-- Nothing is fenced for a command that waits in mailbox `m`: no function, no window of a partner, no direct window. -/
def Cert.noFence (u : State) (m : MbxId) : Prop :=
  (∀ x ∈ u.host.resets, x.mailbox = m → x.started = true) ∧ (∀ w ∈ u.fab.wins, w.revoking ≠ some m)
    ∧ ∀ w : WinId, u.host.win[w].releasing ≠ some m

/-- A command is rung that is accepted and starts: the host reaches the mailbox, the doorbell is new, the mailbox is free, and the checks
that every command meets let it pass. -/
def Cert.runs (u : State) (op : Nat) (r : MbxReq) : Prop :=
  u.host.hpReady = true ∧ (r.mailbox.val < 64 → u.pwr.phase ≠ .recovery) ∧ r.doorbell ≠ 0
    ∧ r.doorbell ≠ u.host.mbx[r.mailbox].lastDoorbell ∧ u.host.mbx[r.mailbox].cmd = none ∧ Cert.startsNow u op r
    ∧ u.preCheck none op r (if r.mailbox.val = 64 then opcodesRecovery.contains op else opcodes64.contains op) false = none

/-- The state after a command that completes at once: its answer kept for the response, forwarded to a standby where a pair keeps
alike what it changes (R228, R309), and what was fenced for it while it waited, if anything was, fenced no longer. -/
def Cert.kept (w : State) (op : Nat) (r : MbxReq) (st : Status) (bs : List Byte) : State :=
  ((if mirrored op && st == stOk then w.twinForward 3 else w).unfence r.mailbox).mbxAnswer r.mailbox st bs

/-- A command that starts, changes the state by `f`, and completes with ST_OK. -/
def Cert.did (u : State) (op : Nat) (r : MbxReq) (f : State → State) (bs : List Byte := []) : Host.Outcome State Fault Refusal :=
  .next (Cert.kept (f (Cert.accepted u op r false)) op r stOk bs)

/-- A command that starts, and goes on: it completes later. -/
def Cert.goesOn (u : State) (op : Nat) (r : MbxReq) (f : State → State) : Host.Outcome State Fault Refusal :=
  .next (if mirrored op then (f (Cert.accepted u op r false)).twinForward 3 else f (Cert.accepted u op r false))

/-- A command that starts and is refused: nothing but its mailbox changes. -/
def Cert.refused (u : State) (op : Nat) (r : MbxReq) (st : Status) : Host.Outcome State Fault Refusal :=
  .next (Cert.kept (Cert.accepted u op r false) op r st [])

/-- How commands ring, wait, start and are answered. -/
def Obligations.MailboxCommandsRing : Prop :=
  (∀ row ∈ Cert.mailboxRows, ∀ (s : State) (t : Nat) (r₀ : MbxReq),
    let op := row.1
    let r := row.2.1 r₀
    let u := s.advance t
    let m := u.host.mbx[r.mailbox]
    let w := Cert.asked u op r
    let step := exec (row.2.2 t r₀) s
    (u.host.hpReady = false → step = .next u)
    ∧ (u.host.hpReady = true → u.pwr.phase = .recovery → r.mailbox.val < 64 →
        step = .next { u with host := { u.host with err := setBit u.host.err 1 } })
    ∧ (u.host.hpReady = true → (r.mailbox.val < 64 → u.pwr.phase ≠ .recovery) →
      (r.doorbell = 0 ∨ r.doorbell = m.lastDoorbell → step = .next w)
      ∧ (r.doorbell ≠ 0 → r.doorbell ≠ m.lastDoorbell → m.cmd.isSome = true →
        step = .next { w with host := { w.host with err := setBit u.host.err 2 } })
      ∧ (r.doorbell ≠ 0 → r.doorbell ≠ m.lastDoorbell → m.cmd = none →
        (¬ Cert.startsNow u op r → step = .next ((Cert.accepted u op r true).fenceAhead r.mailbox op r))
        ∧ ∀ st : Status, Cert.startsNow u op r → u.preCheck none op r
            (if r.mailbox.val = 64 then opcodesRecovery.contains op else opcodes64.contains op) false = some st →
              step = .next ((((Cert.accepted u op r false).doomNamed (u.namedPart op r) r.env st).unfence r.mailbox).mbxAnswer r.mailbox st []))))
    ∧ (∀ (u : State) (m : MbxId) (p : Option PartId) (h : Half) (st : Status),
      (Cert.noFence u m → u.unfence m = u) ∧ ((∀ v ∈ u.env.opens, v.handle ≠ h) → u.doomNamed p h st = u))
    ∧ (∀ (u : State) (m : MbxId) (op : Nat) (r : MbxReq),
      (op ∉ [0x0002, 0x0005, 0x0201, 0x0202] → u.fenceAhead m op r = u)
      ∧ (∀ f : FuncId, op = 0x0002 ∨ op = 0x0201 → u.namedFunc op r = some f → u.fenceAhead m op r = { u with host := { u.host with
          resets := u.host.resets ++ [{ func := f, mailbox := m, fence := u.now, isClose := decide (op = 0x0201), started := false }] } })
      ∧ ∀ w : WinId, op = 0x0005 → r.arg 0 1 = w.val → u.host.win[w].bound.isSome = true → u.host.win[w].releasing = none →
          u.fenceAhead m op r = u.updWin w fun x => { x with releasing := some m })
    ∧ (∀ (s : State) (t : Nat) (m : MbxId) (c : RunCmd),
      let u := s.advance t
      let b := u.host.mbx[m]
      b.cmd = some c →
        (∀ (st : Status) (bs : List Byte), c.result = some (st, bs) → c.owner = none → bs.length ≤ 1984 → u.abortHeld c = false →
          exec (.mailboxResponse t m) s = .next { u with host := { u.host with
            mbx := u.host.mbx.set m { b with
              cmd := none
              resp := { valid := true, doneSeq := c.req.doorbell, status := st, respBytes := BitVec.ofNat 16 bs.length, tag := c.req.tag
                        postmark := BitVec.ofNat 64 u.now, bytes := bs } }
            mbxDone := if m.val < 64 then setBit u.host.mbxDone m.val else u.host.mbxDone } })
        ∧ (c.result = none → c.owner = none → c.opcode.toNat ∉ [0x0005, 0x0101, 0x0202, 0x0302, 0x0401, 0x0903, 0x0B02, 0x0F02] →
          exec (.mailboxResponse t m) s = .next u)
        ∧ (c.waiting = false → exec (.commandWaitStart t m) s = .next u)
        ∧ (c.waiting = true → u.mayStart c = true → (∀ d ∈ u.accepted, d.waiting = true → d.order < c.order → u.mayStart d = false) →
          Cert.noFence u m → c.opcode = 1 → c.result = none → m.val < 64 → c.req.mailbox = m → c.req.argBytes.toNat ≤ 1920 →
            u.preCheck none 1 c.req true false = none → exec (.commandWaitStart t m) s = .next { u with host := { u.host with
              mbx := u.host.mbx.set m { b with cmd := some { c with
                waiting := false, result := some (stOk, padTo c.req.argBytes.toNat c.req.args) } } } }))

/-- The checks that come before those of each command's own chapter. -/
def Obligations.ChecksComeFirst : Prop :=
  ∀ (u : State) (op : Nat) (r : MbxReq) (known : Bool),
    let got := u.preCheck none op r known false
    let secret := fun (p : PartId) => u.part[p].confidential = true ∧ exposes op r u.part[p].owner.isSome = true
    (r.mailbox.val = 64 →
      (u.pwr.phase ≠ .recovery → got = some stDenied)
      ∧ (u.pwr.phase = .recovery → (known = false ∨ allZero r.reserved = false ∨ r.env ≠ 0xFFFF) → got = some stBadArg)
      ∧ (u.pwr.phase = .recovery → known = true → allZero r.reserved = true → r.env = 0xFFFF → got = none))
    ∧ (r.mailbox.val < 64 →
      (u.pwr.phase ≠ .service → op ≠ 0x0001 → got = some stNotReady)
      ∧ (u.pwr.phase = .service ∨ op = 0x0001 →
        (known = false ∨ allZero r.reserved = false → got = some stBadArg)
        ∧ (known = true → allZero r.reserved = true → r.env ≠ 0xFFFF → op ∉ [0x0003, 0x0102, 0x0202, 0x0400, 0x0401, 0x0502, 0x0503, 0x0504, 0x0106] →
          got = some stBadArg)
        ∧ (known = true → allZero r.reserved = true → r.env = 0xFFFF →
          let reads := op ∈ [0x0001, 0x0006, 0x0104, 0x0107, 0x0303, 0x0505, 0x0603, 0x0700, 0x0B03]
          (u.twin.role = .inStep → ¬ reads → op ≠ 0x0A01 → op ≠ 0x0106 → got = some stTwinStandby)
          ∧ (u.twin.role = .gaveUp → ¬ reads → op ≠ 0x0A00 → got = some stTwinStandby)
          ∧ (u.twin.role ≠ .inStep → u.twin.role ≠ .gaveUp →
            let bars := (op = 0x0104 ∧ (u.sec.lifecycle.toNat ≤ 1 ∨ 5 ≤ u.sec.lifecycle.toNat))
              ∨ (op = 0x0100 ∧ (u.sec.lifecycle.toNat = 0 ∨ u.sec.lifecycle.toNat = 2 ∨ 5 ≤ u.sec.lifecycle.toNat))
            let far := (op = 0x0104 ∨ op = 0x0107 ∨ (op = 0x0700 ∧ r.arg 0 1 = 7) ∨ (op = 0x0006 ∧ 30 < r.arg 4 2))
              ∧ ∀ b : Nat, bulkAt r.respAddr.toNat 1 ≠ some (0, b)
            (bars → got = some stDenied)
            ∧ (¬ bars → ∀ p : PartId, u.namedPart op r = some p → secret p → got = some stDenied)
            ∧ (¬ bars → (∀ p : PartId, u.namedPart op r = some p → ¬ secret p) →
              (far → got = some stBadArg) ∧ (¬ far → got = none))))))

/-! Mailbox commands of chapters 08, 09 and 12. -/

/-- A function reset begun by a command (R233). -/
def Cert.fenced (w : State) (f : FuncId) (m : MbxId) (isClose : Bool) : State :=
  { w with host := { w.host with resets := w.host.resets ++ [{ func := f, mailbox := m, fence := w.now, isClose := isClose }] } }

/-- ECHO, FUNC_RESET, FUNC_RESET_QUIESCE, DWIN_BIND, DWIN_RELEASE, HISTORY_READ. -/
def Obligations.HostCommandsDoTheirWork : Prop :=
  (∀ (s : State) (t : Nat) (r : MbxReq),
    let u := s.advance t
    (Cert.runs u 0x0001 r → exec (.echo t r) s =
      if r.argBytes.toNat ≤ 1920 then Cert.did u 0x0001 r id (padTo r.argBytes.toNat r.args) else Cert.refused u 0x0001 r stBadArg)
    ∧ (Cert.runs u 0x0002 r → r.form 8 [(4, 4)] = true → (r.arg 0 1 < 4 → r.arg 1 1 = 0) →
        (u.funcOf (r.arg 0 1) (r.arg 1 1) (r.arg 2 2) = none → exec (.funcReset t r) s = Cert.refused u 0x0002 r stBadArg)
        ∧ ∀ f : FuncId, u.funcOf (r.arg 0 1) (r.arg 1 1) (r.arg 2 2) = some f →
          ((∃ x ∈ u.host.resets, x.func = f ∧ x.started = true) → exec (.funcReset t r) s = Cert.refused u 0x0002 r stBusy)
          ∧ ((∀ x ∈ u.host.resets, x.func = f → x.started = false) → Cert.noFence u r.mailbox →
            exec (.funcReset t r) s = Cert.goesOn u 0x0002 r fun w => Cert.fenced w f r.mailbox false))
    ∧ (Cert.runs u 0x0004 r → ∀ (w : WinId) (e : EngId) (p : PartId) (sealedWin : Bool), r.arg 0 1 = w.val → r.arg 2 1 = e.val →
        u.compOf (r.arg 1 1) = some p → r.arg 3 1 = sealedWin.toNat → r.form 16 [(10, 6)] = true →
          (u.paired = true ∨ u.host.win[w].bound.isSome = true → exec (.dwinBind t r) s = Cert.refused u 0x0004 r stBusy)
          ∧ ((∃ x : WinId, u.host.win[x].bound = some p ∧ u.host.win[x].isSealed = true) → sealedWin = true →
            exec (.dwinBind t r) s = Cert.refused u 0x0004 r stBusy)
          ∧ (u.paired = false → u.host.win[w].bound = none →
            (sealedWin = true → ∀ x : WinId, u.host.win[x].bound = some p → u.host.win[x].isSealed = false) →
            u.owns p e = true → u.eng[e].fenced = false → r.arg 8 2 ≤ 960 → (r.arg 8 2 ≠ 0 → r.arg 4 4 + r.arg 8 2 ≤ 393216) →
              (sealedWin = true → u.part[p].confidential = true ∧ r.arg 8 2 ≤ 928) →
                exec (.dwinBind t r) s =
                  if sealedWin = false ∧ u.part[p].confidential = true then Cert.refused u 0x0004 r stDenied
                  else Cert.did u 0x0004 r fun v => v.updWin w fun x =>
                    { rate := x.rate, burst := x.burst, tokens := x.tokens, bound := some p, engine := e, isSealed := sealedWin
                      inputLine := r.arg 4 4, inputRows := r.arg 8 2 }))
    ∧ (Cert.runs u 0x0005 r → ∀ w : WinId, r.arg 0 1 = w.val → r.form 4 [(1, 3)] = true →
        (u.host.win[w].bound = none → exec (.dwinRelease t r) s = Cert.refused u 0x0005 r stBadArg)
        ∧ (u.host.win[w].bound.isSome = true → u.host.win[w].releasing = none →
          (u.windowBusy w = true → exec (.dwinRelease t r) s = Cert.goesOn u 0x0005 r fun v => v.updWin w fun x =>
            { x with releasing := some r.mailbox })
          ∧ (u.windowBusy w = false → exec (.dwinRelease t r) s = Cert.did u 0x0005 r fun v => v.updWin w fun x =>
            { rate := x.rate, burst := x.burst, tokens := x.tokens })))
    ∧ (Cert.runs u 0x0006 r → r.form 8 [(7, 1)] = true → r.arg 6 1 ≤ 1 →
        (r.arg 4 2 = 0 ∨ 64 < r.arg 4 2 → exec (.historyRead t r) s = Cert.refused u 0x0006 r stBadArg)
        ∧ (1 ≤ r.arg 4 2 → r.arg 4 2 ≤ 64 →
          let from' := if r.arg 6 1 = 0 then u.hist.ring else u.hist.fenceTable
          let l := (from'.filter fun x => decide (r.arg 0 4 ≤ x.sequence)).take (r.arg 4 2)
          let oldest := (u.hist.ring.head?.map HistRec.sequence).getD u.hist.next.toNat
          exec (.historyRead t r) s = Cert.did u 0x0006 r id
            (natLe oldest 4 ++ natLe u.hist.next.toNat 4 ++ natLe u.hist.displaced.toNat 4
              ++ [BitVec.ofNat 8 u.hist.fenceTable.length, BitVec.ofNat 8 l.length] ++ natLe u.hist.uncopied.toNat 2
              ++ l.flatMap fun x => (u.hostView x).bytes))))
    ∧ ∀ (s : State) (t : Nat) (f : FuncId) (q : ResetRun),
      let u := s.advance t
      let d := u.discard f
      (u.host.resets.find? fun x => x.func = f && x.started) = some q →
        (u.quiescent f = false → u.now < q.fence + 90000 → exec (.funcResetQuiesce t f) s = .next u)
        ∧ (u.quiescent f = true → u.now ≤ q.fence + 90000 → q.isClose = false → exec (.funcResetQuiesce t f) s =
          .next ((d.1.updHost fun h => { h with resets := h.resets.filter fun x => !(x.func = f && x.started) }).mbxAnswer q.mailbox stOk
            ([1, 0, 0, 0] ++ natLe d.2 4 ++ natLe q.fence 8 ++ natLe d.1.now 8 ++ natLe (d.1.now + 1) 8)))
        ∧ ∀ e : EngId, f = .engine e → u.queueOf e = [] → u.scheds = [] → d.2 = 0 ∧ d.1 = { u with eng := u.eng.set e { u.eng[e] with
            acc := Vector.replicate 64 {}, tileA := {}, tileB := {}, bcast := {}, matOut := {}, append := {}, argmax := {}, params := []
            pageQueue := [], staging := [], landings := [], vecLanded := [], matLanded := [], zeroed := [], pathMat := [], pathVec := []
            pathOut := [], portFrom := 0, seq := { freeFrom := u.eng[e].seq.freeFrom }
            bist := { u.eng[e].bist with inSlice := none } } }

/-- MODEL_LOAD, CKPT_CONFIG, CKPT_RESTORE, CHECKPOINT_SEAL, CHECKPOINT_MIRROR. -/
def Obligations.LoadsAndCheckpoints : Prop :=
  (∀ (s : State) (t : Nat) (r : MbxReq),
    let u := s.advance t
    (Cert.runs u 0x0003 r → r.env = 0xFFFF →
      (∀ st : Status, u.modelLoadGate r = .error st → exec (.modelLoad t r) s = Cert.refused u 0x0003 r st)
      ∧ ∀ (p : PartId) (e : EngId) (v : State) (bs : List Byte), u.modelLoadGate r = .ok (p, e) →
        (Cert.accepted u 0x0003 r false).sourceBytes (r.arg 16 8) (r.arg 8 4 * if r.arg 2 1 = 0 then 16384 else 64) = (v, .ok bs) →
          let w := if r.arg 2 1 = 0 then v.writeRows e (r.arg 4 4) (r.arg 8 4) bs else (v.sideWrite e (64 * r.arg 4 4) bs).1
          (r.arg 2 1 = 0 → w.eng[e].fenced = true → exec (.modelLoad t r) s = .next (Cert.kept w 0x0003 r stFenced []))
          ∧ (r.arg 2 1 ≠ 0 ∨ w.eng[e].fenced = false → exec (.modelLoad t r) s = .next (Cert.kept w 0x0003 r stOk [])))
    ∧ (Cert.runs u 0x0007 r → ∀ p : PartId, u.compOf (r.arg 0 1) = some p → r.form 32 [(20, 12)] = true → r.arg 1 1 ≤ 15 →
        r.arg 2 2 = 0xFFFF → r.arg 4 4 % 512 = 0 → r.arg 4 4 ≤ 67108864 →
          (r.arg 16 4 < 9000000 → exec (.ckptConfig t r) s = Cert.refused u 0x0007 r stBadArg)
          ∧ (9000000 ≤ r.arg 16 4 → 512 * (max (r.arg 8 4) (r.arg 12 4) + ceilDiv (r.arg 4 4 + 64) 512) ≤ regionBytes u.part[p] →
            (r.arg 8 4 + ceilDiv (r.arg 4 4 + 64) 512 ≤ r.arg 12 4 ∨ r.arg 12 4 + ceilDiv (r.arg 4 4 + 64) 512 ≤ r.arg 8 4) →
              let c : Ckpt :=
                { cls := BitVec.ofNat 4 (r.arg 1 1), mirror := 0xFFFF, length := r.arg 4 4, offA := r.arg 8 4, offB := r.arg 12 4
                  interval := r.arg 16 4, lastSeal := u.now, underB := false, sealedSlot := none, nextSeq := 0, dueJobs := []
                  mirrorQueue := [], mirroring := [] }
              exec (.ckptConfig t r) s = Cert.did u 0x0007 r fun w => w.updPart p fun q => { q with ckpt := some c }))
    ∧ (Cert.runs u 0x0008 r → ∀ (p : PartId) (c : Ckpt), u.compOf (r.arg 0 1) = some p → u.part[p].ckpt = some c → r.form 4 [(2, 2)] = true →
        r.arg 1 1 = 0 →
          let first := fun (b : Bool) => 512 * if b then c.offB else c.offA
          let slot := fun (b : Bool) => regionRead u.part[p] (first b) (c.length + 64)
          let seq := fun (b : Bool) => ckptSeq p c.length (slot b)
          ((∃ b : Bool, u.lpFenced (first b) (c.length + 64) = true) → exec (.ckptRestore t r) s = Cert.refused u 0x0008 r stFenced)
          ∧ ((∀ b : Bool, u.lpFenced (first b) (c.length + 64) = false) → (seq false = none → seq true = none → exec (.ckptRestore t r) s = Cert.refused u 0x0008 r stCkptBad))
          ∧ ∀ (b : Bool) (n : Nat), (∀ b : Bool, u.lpFenced (first b) (c.length + 64) = false) → seq b = some n → (∀ k : Nat, seq (!b) = some k → if b then n > k else n ≥ k) →
            let c' := { c with sealedSlot := some b, underB := !b, nextSeq := n + 1, dueJobs := [] }
            exec (.ckptRestore t r) s =
              Cert.did u 0x0008 r (fun w => w.updPart p fun q => { q with ckpt := some c' }) ((slot b).drop c.length)))
    ∧ (∀ (u : State) (e : EngId) (row : Nat) (bs : List Byte), bs.length = 16384 → u.eng[e].fenced = false →
      row ∉ u.eng[e].mem.storeMarked ∨ u.eng[e].mem.spared.length < 32 →
      let g := (u.writeRow e row bs).eng[e]
      row ∉ g.mem.storeMarked ∧ (row ∈ u.eng[e].mem.storeMarked → g.mem.spared = u.eng[e].mem.spared ++ [row])
        ∧ memRead g.store (16384 * row) 16384 = bs
        ∧ (∀ a : Nat, a < 16384 * row ∨ 16384 * row + 16384 ≤ a → memGet g.store a = memGet u.eng[e].store a)
        ∧ row ∉ g.mem.storeBad ∧ assoc row g.digests.reference = some (BitVec.ofNat 64 (rowDigest row bs)))
    ∧ ∀ (s : State) (t : Nat) (p : PartId) (c : Ckpt),
      let u := s.advance t
      let at' := 512 * if c.underB then c.offB else c.offA
      let body := regionRead u.part[p] at' c.length
      let head := ckptHeader p c.nextSeq u.now u.utc u.part[p].outSeq c.length (ckptCrc c.nextSeq body)
      u.part[p].ckpt = some c →
        (c.dueJobs = [] → exec (.checkpointSeal t p) s = .next u)
        ∧ (∀ (id : Nat) (rest : List Nat), c.dueJobs = id :: rest →
          ((u.job? id).isSome = true → exec (.checkpointSeal t p) s = .next u)
          ∧ (u.job? id = none → u.lpFenced at' (c.length + 64) = true → exec (.checkpointSeal t p) s =
            .next (u.updPart p fun q => { q with ckpt := some { c with dueJobs := [] } }))
          ∧ (u.job? id = none → u.lpFenced at' (c.length + 64) = false →
            let c' := { c with
              sealedSlot := some c.underB, underB := !c.underB, nextSeq := c.nextSeq + 1, lastSeal := u.now, dueJobs := []
              mirrorQueue := if c.mirror = 0xFFFF then [] else c.mirrorQueue ++ [c.underB] }
            exec (.checkpointSeal t p) s =
              .next { u with part := u.part.set p { regionWrite u.part[p] (at' + c.length) head with ckpt := some c' } }))
        ∧ (c.mirrorQueue = [] → exec (.checkpointMirror t p) s = .next u)
        ∧ ∀ (b : Bool) (rest : List Bool) (w : Win) (x : Ctx), c.mirrorQueue = b :: rest → u.win? c.mirror.toNat = some w →
          u.ctxNum? w.part w.ctx = some x →
            let from' := 512 * if b then c.offB else c.offA
            (u.isStandby = true ∨ u.lpFenced from' (c.length + 64) = true → c.mirroring = [] → exec (.checkpointMirror t p) s =
              .next (u.updPart p fun q => { q with ckpt := some { c with mirrorQueue := rest } }))
            ∧ (u.isStandby = false → u.lpFenced from' (c.length + 64) = false → c.mirroring = [] → u.lpServed p 150 = false →
              exec (.checkpointMirror t p) s = .next u)
            ∧ (u.isStandby = false → u.lpFenced from' (c.length + 64) = false → c.mirroring = [] → u.lpServed p 150 = true →
              0 < c.length → c.length ≤ 4096 → exec (.checkpointMirror t p) s = .next ((u.queuePuts x w
                [(from', regionRead u.part[p] from' c.length), (from' + c.length, regionRead u.part[p] (from' + c.length) 64)]).updPart p
                  fun q => { q with ckpt := some { c with mirrorQueue := rest, mirroring := [u.fab.nextTag + 0#32, u.fab.nextTag + 1#32] } }))

/-- PARTITION_CREATE, PARTITION_DISSOLVE, KEY_DESTROY, ENGINE_ZEROING_DONE, KEY_INSTALL, LIFECYCLE_ADVANCE. -/
def Obligations.PartitionsKeysAndLifecycle : Prop :=
  (∀ (s : State) (t : Nat) (r : MbxReq),
    let u := s.advance t
    (Cert.runs u 0x0100 r → ∀ (p : PartId) (base first : Nat) (flags : Bool), r.arg 0 1 = p.val → p ≠ 0 → r.form 32 [(28, 4)] = true →
      r.arg 1 1 = flags.toNat → 1 ≤ r.arg 2 1 → r.arg 2 1 < 64 → r.arg 3 1 ≤ 15 → 1 ≤ r.arg 4 2 → r.arg 4 2 ≤ 120 → 1 ≤ r.arg 6 2 →
      r.arg 6 2 ≤ 60 → r.arg 8 4 ≠ 0 → bitAt (r.arg 8 4) 0 = false → 1 ≤ r.arg 12 2 → r.arg 12 2 ≤ 3840 → 1 ≤ r.arg 14 2 →
      r.arg 14 2 ≤ 7680 → r.arg 16 8 ≠ 0 → bitAt (r.arg 26 2) 0 = false → bitAt (r.arg 26 2) 8 = false →
        let taken := u.part[p].isThere = true
          ∨ (∃ e : EngId, bitAt (r.arg 2 1) e.val = true ∧ ((u.holder e).isSome = true ∨ u.eng[e].leaving.isSome = true))
          ∨ ∃ q ∈ u.comps, q.lpSlots &&& BitVec.ofNat 32 (r.arg 8 4) ≠ 0 ∨ q.swCycles &&& BitVec.ofNat 64 (r.arg 16 8) ≠ 0
              ∨ q.vidSlots &&& BitVec.ofNat 16 (r.arg 24 2) ≠ 0 ∨ q.cvuSlots &&& BitVec.ofNat 16 (r.arg 26 2) ≠ 0
        (flags = true → u.sec.lifecycle ≠ 3 → exec (.partitionCreate t r) s = Cert.refused u 0x0100 r stDenied)
        ∧ ((flags = true → u.sec.lifecycle = 3) → (∃ x ∈ u.units, x.fenced = true ∧ x.unit.toNat / 16 = 5) →
          exec (.partitionCreate t r) s = Cert.refused u 0x0100 r stFenced)
        ∧ ((flags = true → u.sec.lifecycle = 3) → (∀ x ∈ u.units, x.fenced = true → x.unit.toNat / 16 ≠ 5) →
          (taken → exec (.partitionCreate t r) s = Cert.refused u 0x0100 r stBusy)
          ∧ (¬ taken → findRoom 120 (r.arg 4 2) (u.comps.map fun q => (q.regionBase, q.regionGib)) = some base →
            findRoom 60 (r.arg 6 2) (u.comps.map fun q => (q.pghBase / 1024 - 4, q.pghCount / 1024)) = some first →
            r.arg 12 2 + (u.comps.map Partition.ctxMax).sum ≤ 3840 → r.arg 14 2 + (u.comps.map Partition.winMax).sum ≤ 7680 →
            u.bist.granted &&& BitVec.ofNat 6 (r.arg 2 1) = 0 →
              let q : Partition :=
                { isThere := true, confidential := flags, engines := BitVec.ofNat 6 (r.arg 2 1), kvSteps := BitVec.ofNat 4 (r.arg 3 1)
                  regionBase := base, regionGib := r.arg 4 2, pghBase := 4096 + 1024 * first, pghCount := 1024 * r.arg 6 2
                  ctxMax := r.arg 12 2, winMax := r.arg 14 2, lpSlots := BitVec.ofNat 32 (r.arg 8 4)
                  swCycles := BitVec.ofNat 64 (r.arg 16 8), vidSlots := BitVec.ofNat 16 (r.arg 24 2)
                  cvuSlots := BitVec.ofNat 16 (r.arg 26 2), createAt := u.now, xtsKey := some u.sec.draws
                  kemKey := some (u.sec.draws + 1) }
              let eng := Vector.ofFn fun e : EngId => if bitAt (r.arg 2 1) e.val then
                { u.eng[e] with kvSteps := BitVec.ofNat 4 (r.arg 3 1) } else u.eng[e]
              exec (.partitionCreate t r) s = Cert.did u 0x0100 r
                (fun w => { w with sec := { w.sec with draws := u.sec.draws + 2 }, part := w.part.set p q, eng := eng })
                (natLe (base * 2 ^ 30) 8 ++ natLe (4096 + 1024 * first) 4))))
    ∧ (Cert.runs u 0x0101 r → ∀ p : PartId, u.compOf (r.arg 0 1) = some p → r.form 4 [(1, 3)] = true →
        exec (.partitionDissolve t r) s = if u.part[p].dissolving.isSome then Cert.refused u 0x0101 r stBusy
          else Cert.goesOn u 0x0101 r fun w => w.startDissolve p r.mailbox)
    ∧ (Cert.runs u 0x0103 r → ∀ p : PartId, u.partOf (r.arg 0 1) = some p → r.arg 1 1 = 2 → r.form 1144 [(7, 1)] = true → r.arg 2 2 = 0 →
        r.arg 6 1 = 0 → r.arg 4 2 ≠ 0 → r.arg 4 2 ≤ 65534 → u.part[p].dissolving = none →
          let top := (u.part[p].host.installed.map Prod.fst).foldl max u.part[p].host.retired
          (r.arg 4 2 ≤ top → exec (.keyInstall t r) s = Cert.refused u 0x0103 r stBadArg)
          ∧ (top < r.arg 4 2 → u.part[p].unwrapKey (padTo 1144 r.args) = none → exec (.keyInstall t r) s =
            .next (Cert.kept ((Cert.accepted u 0x0103 r false).updSec fun c => { c with event := setBit c.event 0 }) 0x0103 r stDenied []))
          ∧ (∀ key : List Byte, top < r.arg 4 2 → u.part[p].unwrapKey (padTo 1144 r.args) = some key →
            let all := (r.arg 4 2, key) :: u.part[p].host.installed
            let slot : KeySlot := { installed := all.take 2, retired := ((all.drop 2).map Prod.fst).foldl max u.part[p].host.retired }
            exec (.keyInstall t r) s = Cert.did u 0x0103 r fun w => w.updPart p fun q => { q with host := slot }))
    ∧ (Cert.runs u 0x0105 r → r.form 16 [(1, 3)] = true →
        (r.arg 0 1 ≠ u.sec.lifecycle.toNat + 1 → exec (.lifecycleAdvance t r) s = Cert.refused u 0x0105 r stBadArg)
        ∧ (u.sec.lifecycle = 2 → r.arg 0 1 = 3 → r.arg 4 4 = 0 → ∃ n : Dword, exec (.lifecycleAdvance t r) s =
          Cert.did u 0x0105 r fun w => { w with sec := { w.sec with lifecycle := 3, nonce := n, draws := w.sec.draws + 1 } })))
    ∧ (∀ (s : State) (t : Nat) (p : PartId),
      let u := s.advance t
      (u.part[p].dissolving = none → exec (.keyDestroy t p) s = .next u)
      ∧ ∀ d : Dissolve, u.part[p].dissolving = some d → exec (.keyDestroy t p) s =
          .next (u.updPart p fun q => { q with xtsKey := none, region := [], dissolving := some { d with keysGone := true } }))
    ∧ ∀ (s : State) (t : Nat) (e : EngId) (c : Nat),
      let u := s.advance t
      let g := u.eng[e]
      g.leaving = some c →
        (u.queueOf e = [] → (∀ a ∈ u.env.applies, a.engine ≠ e) → max c g.busyUntil + 8192 ≤ u.now → exec (.engineZeroingDone t e) s =
          .next { u with eng := u.eng.set e { g with
            store := [], act := [], digests := {}, leaving := none, lastOf := none
            mem := { g.mem with storeBad := [], actBad := [], scrubPending := none } } })
        ∧ (u.queueOf e ≠ [] ∨ u.now < max c g.busyUntil + 8192 → exec (.engineZeroingDone t e) s = .next u)

/-- ATTEST, OWNER_CMD, COUNTERS_READ. -/
def Obligations.AttestOwnerAndCounters : Prop :=
  ∀ (s : State) (t : Nat) (r : MbxReq),
    let u := s.advance t
    (Cert.runs u 0x0104 r → ∀ p : PartId, u.partOf (r.arg 32 1) = some p → r.form 40 [(33, 7)] = true →
      (u.sec.exhausted = true ∨ u.sec.seedHeld = false → exec (.attest t r) s = Cert.refused u 0x0104 r stXmssExhausted)
      ∧ (u.sec.exhausted = false → u.sec.seedHeld = true → u.sec.xmssNext.toNat < u.sec.reservedTo → u.sec.xmssNext.toNat + 1 < 2 ^ 28 →
        let idx := u.sec.epoch.toNat * 2 ^ 28 + u.sec.xmssNext.toNat
        let spent := fun (w : State) => { w with sec := { w.sec with xmssNext := w.sec.xmssNext + 1, exhausted := false } }
        let body := (spent u).report' (padTo 32 (r.args.take 32)) p
        ∃ sig : List Byte, sig.length = 9888 ∧
          exec (.attest t r) s = Cert.did u 0x0104 r spent (body ++ natLe idx 5 ++ sig)))
    ∧ (Cert.runs u 0x0106 r → ∀ (p : PartId) (k : OwnerKey), u.compOf (r.arg 0 1) = some p → u.part[p].confidential = true →
        u.part[p].owner = some k → r.arg 4 2 ≤ 1888 → r.form (32 + r.arg 4 2) [(1, 1)] = true →
          let n := 16 + r.arg 4 2
          let nonce := [0#8, BitVec.ofNat 8 p.val, 0#8, 0#8] ++ natLe (r.arg 8 8) 8
          let opened := gcmOpen k.key nonce (padTo n (r.args.take n)) [] (padTo 16 ((r.args.drop n).take 16))
          let good := opened ≠ none ∧ r.arg 6 2 = k.epoch ∧ k.lastSeq.toNat < r.arg 8 8
          let seq : Dword := BitVec.ofNat 64 (r.arg 8 8)
          let inner := { r with
            argBytes := BitVec.ofNat 16 (r.arg 4 2), args := (r.args.drop 16).take (r.arg 4 2) }
          (¬ good → exec (.ownerCmd t r) s = .next (Cert.kept
            (((Cert.accepted u 0x0106 r false).updSec fun c => { c with event := setBit c.event 1 }).doomNamed (some p) r.env stDenied)
              0x0106 r stDenied []))
          ∧ (good → r.arg 2 2 = 0x0001 → u.preCheck (some p) 0x0001 inner true false = none →
            exec (.ownerCmd t r) s = Cert.did u 0x0106 r (fun w =>
              (w.updPart p fun q => { q with owner := some { k with lastSeq := seq } }).updMbx r.mailbox fun b =>
                { b with cmd := b.cmd.map fun c => { c with owner := some (p, seq) } }) (padTo (r.arg 4 2) ((r.args.drop 16).take (r.arg 4 2)))))
    ∧ (Cert.runs u 0x0107 r → ∀ p : PartId, u.compOf (r.arg 0 1) = some p → r.form 4 [(1, 3)] = true →
        exec (.countersRead t r) s = Cert.did u 0x0107 r id
          (((engines.filter fun e => u.owns p e).flatMap fun e => blockBytes (u.engRegs e true)) ++ blockBytes (u.kvRegs p)))

/-! Contexts, windows, plans and envelopes (chapters 10 and 11). -/

/-- The number of the lowest free place. -/
def Cert.lowest (taken : Nat → Prop) (n : Nat) : Prop := ¬ taken n ∧ ∀ k < n, taken k

/-- PARTNER_OPEN, PARTNER_CLOSE, WINDOW_GRANT, PLAN_LOAD. -/
def Obligations.PartnersWindowsAndPlans : Prop :=
  ∀ (s : State) (t : Nat) (r : MbxReq),
    let u := s.advance t
    (Cert.runs u 0x0200 r → ∀ (p : PartId) (port : PortId) (clear filter : Bool) (num link : Nat), u.partOf (r.arg 0 1) = some p →
      r.arg 1 1 = port.val → r.form 32 [(24, 8)] = true → r.arg 2 1 = clear.toNat → r.arg 3 1 = filter.toNat →
      (clear = true → filter = true ∧ p = 0) → 8 ≤ r.arg 6 2 → r.arg 6 2 ≤ 512 →
      r.arg 8 2 ≠ 0 → 64 ≤ r.arg 12 4 →
        let mode := (u.planPort port.val).mode
        let serves := u.fab.ports[portLink port].serves
        (mode = 0 ∨ mode = 3 → exec (.partnerOpen t r) s = Cert.refused u 0x0200 r stBadArg)
        ∧ (mode = 1 ∨ mode = 2 → (∃ q : PartId, q ≠ p ∧ serves = some q) → exec (.partnerOpen t r) s = Cert.refused u 0x0200 r stBusy)
        ∧ (mode = 1 ∨ mode = 2 → serves = none ∨ serves = some p → u.twin.twinPaired = false →
          (u.fab.ctxs.filter fun c => c.part = p).length < u.part[p].ctxMax →
          ((u.fab.ctxs.filter fun c => c.port = port).map Ctx.creditBlocks).sum + r.arg 6 2 ≤ 1792 → link < 4096 → num < 65536 →
          Cert.lowest (fun n => (u.ctx? (BitVec.ofNat 16 n)).isSome = true) link →
          Cert.lowest (fun n => (u.ctxNum? p n).isSome = true) num →
            let c : Ctx :=
              { part := p, num := num, port := port, clear := clear, filter := filter, link := BitVec.ofNat 16 link
                remoteLink := BitVec.ofNat 16 (r.arg 4 2), creditBlocks := r.arg 6 2, opsBurst := r.arg 8 2, opsRate := r.arg 10 2
                bytesBurst := r.arg 12 4, bytesRate := r.arg 16 4, timeout := if r.arg 20 4 = 0 then 90000 else r.arg 20 4
                opsTok := r.arg 8 2, bytesTok := r.arg 12 4, outCredit := r.arg 6 2, serial := u.fab.nextCtx }
            exec (.partnerOpen t r) s = Cert.did u 0x0200 r
              (fun w => { w with fab := { w.fab with
                ctxs := w.fab.ctxs ++ [c], nextCtx := w.fab.nextCtx + 1
                ports := w.fab.ports.set (portLink port) { w.fab.ports[portLink port] with serves := some p } } })
              (natLe num 2 ++ natLe link 2)))
    ∧ (Cert.runs u 0x0201 r → ∀ (p : PartId) (c : Ctx), u.partOf (r.arg 0 1) = some p → r.form 4 [(1, 1)] = true →
        u.ctxNum? p (r.arg 2 2) = some c →
          ((∃ x ∈ u.host.resets, x.func = .context p (r.arg 2 2) ∧ x.started = true) →
            exec (.partnerClose t r) s = Cert.refused u 0x0201 r stBusy)
          ∧ ((∀ x ∈ u.host.resets, x.func = .context p (r.arg 2 2) → x.started = false) → Cert.noFence u r.mailbox →
            exec (.partnerClose t r) s = Cert.goesOn u 0x0201 r fun w => Cert.fenced w (.context p (r.arg 2 2)) r.mailbox true))
    ∧ (Cert.runs u 0x0202 r → r.env = 0xFFFF → ∀ (p : PartId) (c : Ctx) (k : WinKind), u.partOf (r.arg 0 1) = some p →
        u.ctxNum? p (r.arg 2 2) = some c → winKindOf (r.arg 4 1) = some k → r.form 32 [(9, 7)] = true → r.arg 1 1 < 2 → r.arg 5 1 < 8 →
          (c.clear = true → exec (.windowGrant t r) s = Cert.refused u 0x0202 r stBadArg)
          ∧ (c.clear = false → r.arg 1 1 = 1 →
            ((∀ w ∈ u.fab.wins, w.num ≠ r.arg 6 2) → exec (.windowGrant t r) s = Cert.refused u 0x0202 r stBadArg)
            ∧ ∀ w : Win, (u.fab.wins.find? fun w => w.num = r.arg 6 2) = some w → w.part = p → w.ctx = c.num →
              let gone := fun (v : State) => { v with fab := { v.fab with wins := v.fab.wins.filter fun x => x.num ≠ w.num } }
              ((∀ h ∈ c.held, h.pkt.window.toNat ≠ w.num) → exec (.windowGrant t r) s = Cert.did u 0x0202 r gone (natLe w.num 2))
              ∧ ((∃ h ∈ c.held, h.pkt.window.toNat = w.num) → exec (.windowGrant t r) s = Cert.goesOn u 0x0202 r gone))
          ∧ (c.clear = false → r.arg 1 1 = 0 → r.arg 6 2 = 0 →
              (k = .act → r.arg 24 8 % 64 = 0 ∧ 64 * r.arg 16 8 + r.arg 24 8 ≤ 25165824 ∧ r.arg 8 1 < 6) →
              (k = .lpddr → r.arg 16 8 % 512 = 0 ∧ r.arg 24 8 % 512 = 0 ∧ r.arg 16 8 + r.arg 24 8 ≤ regionBytes u.part[p] ∧ r.arg 8 1 = 0) →
              (k = .pgh → r.arg 16 8 + r.arg 24 8 ≤ u.part[p].pghCount ∧ r.arg 8 1 = 0 ∧ r.arg 5 1 = 0) →
              (k = .remote → c.remoteLink ≠ 0xFFFF ∧ r.arg 16 8 < 65536 ∧ r.arg 8 1 = 0 ∧ r.arg 5 1 = 0) →
              u.env.opens = [] →
                ((u.fab.wins.filter fun w => w.part = p).length < u.part[p].winMax → ∀ n < 8192,
                  Cert.lowest (fun n => ∃ w ∈ u.fab.wins, w.num = n) n →
                    let w : Win :=
                      { num := n, part := p, ctx := c.num, kind := k, rights := BitVec.ofNat 3 (r.arg 5 1), logical := r.arg 8 1
                        base := r.arg 16 8, length := r.arg 24 8 }
                    exec (.windowGrant t r) s = Cert.did u 0x0202 r
                      (fun v => { v with fab := { v.fab with wins := v.fab.wins ++ [w] } }) (natLe n 2))
                ∧ (u.part[p].winMax ≤ (u.fab.wins.filter fun w => w.part = p).length →
                  exec (.windowGrant t r) s = Cert.refused u 0x0202 r stBusy)))
    ∧ (Cert.runs u 0x0203 r → r.argBytes = 12 → r.arg 0 8 % 64 = 0 → r.arg 8 4 ≤ 8192 → ∀ b : Nat,
        bulkAt (r.arg 0 8) (r.arg 8 4) = some (0, b) →
          let x := (Cert.accepted u 0x0203 r false).bulkRead 0 b (r.arg 8 4)
          let use := match u.fw.planCopy with
            | none => (0, 1)
            | some (c, n) => (1 - c, (n + 1) % 2 ^ 32)
          (parsePlan x.2 = none → exec (.planLoad t r) s = .next (Cert.kept x.1 0x0203 r stBadArg []))
          ∧ ((parsePlan x.2).isSome = true → exec (.planLoad t r) s = .next (Cert.kept { x.1 with fw := { x.1.fw with
              nor := memWrite u.fw.nor (0x40000 + 0x8000 * use.1) (natLe use.2 4 ++ natLe (crc32c (natLe use.2 4)) 4 ++ x.2) } }
                0x0203 r stOk [])))

/-- An envelope taken off the open ones, with the outcome that is kept of it (R277): it answers whoever asked for its commit. -/
def Cert.closed (u : State) (v : Envelope) (o : EnvOutcome) (st : Status) (bs : List Byte) : State :=
  let w := { u with env := { u.env with
    opens := u.env.opens.filter fun x => !(x.part = v.part && x.handle = v.handle)
    outcomes := keepOutcome u.env.outcomes o } }
  match v.asker with
  | some (.mailbox m) => w.mbxAnswer m st bs
  | _ => w

/-- ENV_OPEN, PARTITION_LAYOUT, ENV_COMMIT, ENV_ABORT, ENV_STATUS, ENV_COMMIT_CYCLE, ENV_LIFETIME_EXPIRY, ENV_APPLY, ENV_COPY_BACK. -/
def Obligations.EnvelopesOpenSettleAndClose : Prop :=
  (∀ (s : State) (t : Nat) (r : MbxReq) (p : PartId),
    let u := s.advance t
    u.partOf (r.arg 0 1) = some p →
    (Cert.runs u 0x0300 r → r.form 8 [(1, 3)] = true →
      (16 ≤ (u.env.opens.filter fun v => v.part = p && v.opener = none).length ∨ 256 ≤ u.env.opens.length →
        exec (.envOpen t r) s = .next (Cert.kept
          ((Cert.accepted u 0x0300 r false).updEnv fun x => { x with event := setBit x.event 3 }) 0x0300 r stEnvLimit []))
      ∧ ((u.env.opens.filter fun v => v.part = p && v.opener = none).length < 16 → u.env.opens.length < 256 →
        let h := u.freeHandle p
        let v : Envelope :=
          { part := p, handle := h, opener := none, expiry := u.now + if r.arg 4 4 = 0 then 90000000 else r.arg 4 4 }
        exec (.envOpen t r) s = Cert.did u 0x0300 r
          (fun w => { w with env := { w.env with
            opens := w.env.opens ++ [v], nextHandle := w.env.nextHandle.set p (BitVec.ofNat 16 ((h.toNat + 1) % 65535)) } })
          (natLe h.toNat 2 ++ [0, 0])))
    ∧ (Cert.runs u 0x0102 r →
      (r.env = 0xFFFF → exec (.partitionLayout t r) s = Cert.refused u 0x0102 r stBadArg)
      ∧ ∀ v : Envelope, r.env ≠ 0xFFFF → u.env? p r.env = some v → v.opener = none → v.state = .opened → v.asker = none →
          v.items = [] → v.bytes = 0 → (∀ x ∈ u.env.opens, x.part = p → x = v) → u.actShadow p ≤ 256 →
          u.lpddrShadow p ≤ 16384 → u.part[p].shadow.length ≤ 16384 →
            (∀ st : Status, changeLayout (Cert.accepted u 0x0102 r false) r [] none = .error st →
              exec (.partitionLayout t r) s = .next (Cert.kept ((Cert.accepted u 0x0102 r false).doom p r.env st) 0x0102 r st []))
            ∧ (∀ x : State × List Byte × Nat, changeLayout (Cert.accepted u 0x0102 r false) r [] none = .ok x →
              exec (.partitionLayout t r) s = Cert.did u 0x0102 r (fun w => w.updEnvelope p r.env fun e =>
                { e with items := [.cmd 0x0102 r x.2.2 []] }) x.2.1))
    ∧ (∀ h : Half, h = BitVec.ofNat 16 (r.arg 2 2) → r.form 4 [(1, 1)] = true →
      let known := fun (v : Envelope) => u.env? p h = some v ∧ v.opener = none
      (Cert.runs u 0x0301 r →
        (∀ v : Envelope, known v → v.asker = none → v.state = .opened → u.hasStandby = false →
          exec (.envCommit t r) s = Cert.goesOn u 0x0301 r fun w => w.updEnvelope p h fun x =>
            { x with asker := some (.mailbox r.mailbox), state := .settling, prepared := none })
        ∧ (∀ v : Envelope, known v → v.asker.isSome = true → exec (.envCommit t r) s = Cert.refused u 0x0301 r stBusy)
        ∧ (∀ o : EnvOutcome, u.env? p h = none → u.outcome? p h = some o → o.opener = none → exec (.envCommit t r) s =
          Cert.refused u 0x0301 r (if o.committed then stEnvAlreadyCommitted else stEnvAborted))
        ∧ (u.env? p h = none → u.outcome? p h = none → exec (.envCommit t r) s = Cert.refused u 0x0301 r stBadArg))
      ∧ (Cert.runs u 0x0302 r → ∀ v : Envelope, known v →
          (v.state ≠ .settling → v.asker = none → v.prepared = none → exec (.envAbort t r) s =
            Cert.goesOn u 0x0302 r fun w => { w with env := { w.env with
              opens := w.env.opens.filter fun x => !(x.part = p && x.handle = h)
              outcomes := keepOutcome w.env.outcomes
                { part := p, handle := h, opener := none, committed := false, staged := v.items.length, reason := 1, postmark := u.now }
              abortCount := bump 32 w.env.abortCount 1 } }.mbxAnswer r.mailbox stOk)
          ∧ (v.state = .settling → v.closing = none → exec (.envAbort t r) s = Cert.goesOn u 0x0302 r fun w =>
              w.updEnvelope p h fun x => { x with closing := some (match x.closing with
                | none => { reason := 1, at' := u.now, askers := [.mailbox r.mailbox] }
                | some c => { c with askers := c.askers ++ [.mailbox r.mailbox] }) }))
      ∧ (Cert.runs u 0x0303 r →
        (∀ v : Envelope, known v → v.state = .opened → exec (.envStatus t r) s =
          Cert.did u 0x0303 r id (natLe (1 + 65536 * v.items.length) 4 ++ natLe 0 8))
        ∧ (∀ o : EnvOutcome, u.env? p h = none → u.outcome? p h = some o → o.opener = none → o.committed = true →
          exec (.envStatus t r) s =
            Cert.did u 0x0303 r id (natLe (4 + 256 * o.casMisses + 65536 * o.staged) 4 ++ natLe o.postmark 8))
        ∧ (u.env? p h = none → u.outcome? p h = none → exec (.envStatus t r) s = Cert.did u 0x0303 r id (natLe 0 4 ++ natLe 0 8)))))
  ∧ (∀ (s : State) (t : Nat) (p : PartId) (h : Half) (v : Envelope) (m : MbxId),
    let u := s.advance t
    u.env? p h = some v → v.part = p → v.handle = h → v.prepared = none → v.closing = none → (∀ c ∈ u.fab.ctxs, c.held = []) →
      (v.asker = none → exec (.envCommitCycle t p h) s = .next u)
      ∧ (u.isStandby = false → v.asker = some (.mailbox m) → v.state = .settling → v.items = [] → (∀ a ∈ u.env.applies, a.group ≠ u.env.nextApply) →
        (∀ n ∈ u.env.notes, n.group ≠ u.env.nextApply) →
        exec (.envCommitCycle t p h) s = .next (Cert.closed u v
          { part := p, handle := h, opener := v.opener, committed := true, staged := 0, postmark := u.now } stOk (natLe u.now 8)))
      ∧ (u.isStandby = false → v.asker = some (.mailbox m) → v.state = .doomed → exec (.envCommitCycle t p h) s =
        .next (Cert.closed { u with env := { u.env with abortCount := bump 32 u.env.abortCount 1 } } v
          { part := p, handle := h, opener := v.opener, committed := false, staged := v.items.length, reason := 2, postmark := u.now }
          stEnvAborted []))
      ∧ (v.asker = none → v.state ≠ .settling → v.expiry ≤ u.now → exec (.envLifetimeExpiry t p h) s =
        .next (Cert.closed { u with env := { u.env with abortCount := bump 32 u.env.abortCount 1, event := setBit u.env.event 0 } } v
          { part := p, handle := h, opener := v.opener, committed := false, staged := v.items.length, reason := 3, postmark := u.now }
          stEnvAborted []))
      ∧ (v.asker.isSome = true ∨ u.now < v.expiry → exec (.envLifetimeExpiry t p h) s = .next u))
  ∧ (∀ (s : State) (t : Nat) (e : EngId) (a : EnvApply),
    let u := s.advance t
    (u.env.applies.find? fun x => x.engine = e) = some a →
      ((∃ j ∈ u.jobs, j.id ∈ a.waitJobs ∧ e ∈ j.counting) → exec (.envApply t e {}) s = .next u)
      ∧ ((∀ j ∈ u.jobs, j.id ∈ a.waitJobs → e ∉ j.counting) → memWf u.eng[e].act = true → u.eng[e].mem.actBad = [] →
          (a.cells.Pairwise fun c d => c.1 < d.1) → a.atomics = [] → u.scheds = [] → u.fab.ctxs = [] →
          (∀ n ∈ u.env.notes, n.group ≠ a.group) → a.engine = e →
        ∃ w : State, exec (.envApply t e {}) s = .next w
          ∧ (∀ x : Nat, memGet w.eng[e].act x = (cellAt a.cells x).getD (memGet u.eng[e].act x))
          ∧ w.env = { u.env with applies := u.env.applies.filter fun x => x.id ≠ a.id }
          ∧ (∀ d : EngId, d ≠ e → w.eng[d] = u.eng[d]) ∧ w.eng[e].store = u.eng[e].store ∧ w.eng[e].acc = u.eng[e].acc
          ∧ w.jobs = u.jobs ∧ w.part = u.part ∧ w.host = u.host ∧ w.fab = u.fab))
  ∧ ∀ (s : State) (t : Nat) (p : PartId),
    let u := s.advance t
    let waits := u.lpServed p 100 = false ∧ u.frameTime % 1024 < 100
    (waits → exec (.envCopyBack t p) s = .next u)
    ∧ (¬ waits → (∀ c ∈ u.fab.ctxs, c.held = []) → exec (.envCopyBack t p) s = .next (u.updPart p fun q =>
      { q with region := memPut q.region (q.shadow.flatMap Prod.snd), shadow := [] }))

/-! Schedules and the KV cache (chapters 05 and 07). -/

/-- SCHEDULE_ARM, SCHEDULE_DISARM, KV_BIND. -/
def Obligations.SchedulesArmAndDisarm : Prop :=
  (∀ (s : State) (t : Nat) (r : MbxReq) (p : PartId) (pkg : List Byte) (w : State),
    let u := s.advance t
    let refused := fun (st : Status) => exec (.scheduleArm t r) s = .next (Cert.kept w 0x0400 r st [])
    Cert.runs u 0x0400 r → r.env = 0xFFFF → u.compOf (r.arg 0 1) = some p → r.form 24 [(3, 1)] = true → r.arg 2 1 = 0 → r.arg 1 1 ≤ 15 →
      r.arg 6 2 = 0 → r.arg 8 4 ≠ 0 → r.arg 4 2 < w.part[p].pghCount → (Cert.accepted u 0x0400 r false).armPackage r = (w, .ok pkg) →
        (w.classBad p (BitVec.ofNat 4 (r.arg 1 1)) = true → refused stBadArg)
        ∧ (w.classBad p (BitVec.ofNat 4 (r.arg 1 1)) = false → (w.trigger? p (r.arg 4 2)).isSome = true → refused stBusy)
        ∧ (w.classBad p (BitVec.ofNat 4 (r.arg 1 1)) = false → w.trigger? p (r.arg 4 2) = none → w.env.opens = [] →
          ∀ h : Nat, 1 ≤ h → h < 65536 → w.sched? h = none → (∀ k : Nat, 1 ≤ k → k < h → (w.sched? k).isSome = true) →
            let c : Schedule :=
              { handle := h, part := p, cls := BitVec.ofNat 4 (r.arg 1 1), trigger := r.arg 4 2, budget := BitVec.ofNat 32 (r.arg 8 4)
                engines := 0, w := 0, images := [] }
            (w.armed c pkg = none → refused stBadArg)
            ∧ ∀ c' : Schedule, w.armed c pkg = some c' →
              let others := w.scheds.filter fun x => x.part = p
              (fitsWith others [] c' = false → refused stBusy)
              ∧ (fitsWith others [] c' = true → hasPreload c' = false → (∀ x ∈ w.scheds, hasPreload x = false) →
                c'.handle = h ∧ c'.part = p ∧ c'.trigger = r.arg 4 2 ∧ c'.engines = (w.live p).length ∧ c'.suspended = false
                ∧ selfOk c' = true ∧ exec (.scheduleArm t r) s = .next (Cert.kept { w with scheds := w.scheds ++ [c'] } 0x0400 r stOk
                  (natLe h 2 ++ [BitVec.ofNat 8 (w.live p).length, 0] ++ natLe c'.w 4)))))
  ∧ (∀ (s : State) (t : Nat) (r : MbxReq) (p : PartId),
    let u := s.advance t
    Cert.runs u 0x0401 r → r.env = 0xFFFF → u.compOf (r.arg 0 1) = some p → r.form 4 [(1, 1)] = true →
      let found := u.scheds.find? fun c => c.handle = r.arg 2 2 && c.part = p && !c.disarming
      (found = none → exec (.scheduleDisarm t r) s = Cert.refused u 0x0401 r stBadArg)
      ∧ ∀ c : Schedule, found = some c →
        let mark := fun (v : State) => { v with
          scheds := v.scheds.map fun x => if x.handle = r.arg 2 2 then { x with disarming := true } else x }
        exec (.scheduleDisarm t r) s =
            (if u.jobs.any fun j => j.sched = r.arg 2 2 then Cert.goesOn u 0x0401 r mark else Cert.did u 0x0401 r mark)
          ∧ ((∀ x ∈ u.scheds, x.trigger = c.trigger → x.part = p → x.handle = c.handle) → (mark u).trigger? p c.trigger = none))
  ∧ (∀ (s : State) (t : Nat) (r : MbxReq) (c : Schedule) (m : Image),
    let u := s.advance t
    let n := r.arg 3 1
    let k := u.part[c.part].kv
    let b : KvBind :=
      { logical := r.arg 2 1, layers := (List.range n).map fun i => r.arg (16 + i) 1, windowPages := r.arg 4 2, slide := r.arg 6 1 = 1
        passes := r.arg 7 1, readyPgh := r.arg 8 2 }
    Cert.runs u 0x0501 r → u.sched? (r.arg 0 2) = some c → r.form (16 + n) [(10, 6)] = true → 1 ≤ n → n ≤ 128 → 1 ≤ r.arg 4 2 →
      r.arg 4 2 ≤ 4096 → r.arg 6 1 ≤ 1 → 1 ≤ r.arg 7 1 → r.arg 7 1 ≤ 2 → r.arg 8 2 < u.part[c.part].pghCount → k.valid = true →
      c.disarming = false → b.layers.Nodup → (∀ l ∈ b.layers, l < k.layers) →
      (∀ x ∈ c.binds, x.logical ≠ b.logical → ∀ l ∈ x.layers, l ∉ b.layers) → (c.images.find? fun m => m.logical = b.logical) = some m →
        exec (.kvBind t r) s =
          if usesKv m ∧ kvImageOk m (u.kvShape c.part b) then Cert.did u 0x0501 r fun v => { v with
            scheds := v.scheds.map fun x => if x.handle = r.arg 0 2 then
              { x with binds := b :: x.binds.filter fun y => y.logical ≠ b.logical } else x }
          else Cert.refused u 0x0501 r stBadArg)

/-- KV_POOL_CONFIG, KV_SEQ_OPEN, KV_SEQ_TRUNCATE, KV_SEQ_FREE, KV_SEQ_QUERY. -/
def Obligations.KvPoolsAndSequences : Prop :=
  (∀ (s : State) (t : Nat) (r : MbxReq) (p : PartId),
    let u := s.advance t
    let d := r.arg 4 2
    let fmt := r.arg 1 1
    let sigma := (List.range 16).map fun b => byteAt r.args (32 + b)
    let others := (List.finRange 7).filter fun q => q ≠ p && u.part[q].kv.valid
    Cert.runs u 0x0500 r → u.compOf (r.arg 0 1) = some p → r.form 48 [(20, 12)] = true → d % 32 = 0 → 32 ≤ d → d ≤ 512 →
      fmt ∈ [4, 5, 8, 9, 10] → 1 ≤ r.arg 2 1 → r.arg 2 1 ≤ 128 → r.arg 3 1 ≤ 64 → 1 ≤ r.arg 6 2 → r.arg 6 2 ≤ 16384 →
      (others.map fun q => u.part[q].kv.tableEntries).sum + r.arg 8 4 ≤ 2097152 → (∀ x ∈ sigma.take (d / 32), x ≠ 0xFF) →
      allZero (sigma.drop (d / 32)) = true → 0 < pageCount u.part[p].kvSteps.toNat (pageRows fmt d) →
      (r.arg 12 4 = 0 ∨ 512 * r.arg 16 4 + r.arg 12 4 * pageRows fmt d * 16384 ≤ regionBytes u.part[p]) →
        ((∃ q ∈ u.part[p].kv.seqs, q.state ≠ 0) → exec (.kvPoolConfig t r) s = Cert.refused u 0x0500 r stBusy)
        ∧ ((∀ q ∈ u.part[p].kv.seqs, q.state = 0) →
            (others.map fun q => u.part[q].kv.sequences).sum + r.arg 6 2 ≤ 16384 →
          let k : KvPool :=
            { valid := true, fmt := fmt, layers := r.arg 2 1, d := d, sequences := r.arg 6 2, tableEntries := r.arg 8 4
              reserve := if r.arg 3 1 = 0 then 16 else BitVec.ofNat 7 (r.arg 3 1), spillPages := r.arg 12 4, spillOffset := r.arg 16 4
              sigma := sigma, event := u.part[p].kv.event, fullCount := u.part[p].kv.fullCount }
          let pool := fun (v : State) => v.updPart p fun q => { q with kv := k }
          exec (.kvPoolConfig t r) s = Cert.did u 0x0500 r (fun v => (pool v).formatPools p)
            ∧ ∀ (v : State) (e : EngId),
              let g := ((pool v).formatPools p).eng[e]
              { g with store := v.eng[e].store, mem := v.eng[e].mem } = v.eng[e] ∧ (v.owns p e = false → g = v.eng[e])
                ∧ (memWf v.eng[e].store = true → ∀ a < 16384 * (8192 - 512 * v.part[p].kvSteps.toNat),
                  memGet g.store a = memGet v.eng[e].store a)))
  ∧ ∀ (s : State) (t : Nat) (r : MbxReq) (p : PartId),
    let u := s.advance t
    let k := u.part[p].kv
    let q := k.seq (r.arg 2 2)
    let edit := fun (f : KvPool → KvPool) (v : State) => v.updPart p fun x => { x with kv := { f x.kv with gen := (f x.kv).gen + 1 } }
    let did := fun (op : Nat) (f : KvPool → KvPool) =>
      if u.seqStaged p (r.arg 2 2) then .next (Cert.kept
        ((Cert.accepted u op r false).updEnv fun x => { x with event := setBit (setBit x.event 1) 2 }) op r stEnvConflict [])
      else Cert.did u op r (edit f)
    u.compOf (r.arg 0 1) = some p → k.valid = true → r.arg 2 2 < k.sequences →
    (Cert.runs u 0x0502 r → r.env = 0xFFFF → r.form 8 [(1, 1), (6, 2)] = true → ∀ c : Schedule,
      (u.scheds.find? fun c => c.handle = r.arg 4 2 && c.part = p && !c.disarming) = some c → c.binds ≠ [] →
        exec (.kvSeqOpen t r) s =
          if q.state ≠ 0 then Cert.refused u 0x0502 r stBusy
          else did 0x0502 fun x => { x with
            seqs := { num := q.num, state := 1, handle := c.handle, editGen := k.gen.toNat + 1 } :: x.seqs.filter fun y => y.num ≠ q.num })
    ∧ (Cert.runs u 0x0503 r → r.env = 0xFFFF → r.form 8 [(1, 1)] = true →
        exec (.kvSeqTruncate t r) s =
          if q.state = 0 ∨ q.length < r.arg 4 4 then Cert.refused u 0x0503 r stBadArg
          else did 0x0503 fun x => x.cut { q with state := 1, reason := 0, editGen := k.gen.toNat + 1 } (r.arg 4 4) (k.gen.toNat + 1))
    ∧ (Cert.runs u 0x0504 r → r.env = 0xFFFF → r.form 8 [(1, 1), (4, 4)] = true →
        exec (.kvSeqFree t r) s =
          if q.state = 0 then Cert.refused u 0x0504 r stBadArg
          else did 0x0504 fun x =>
            x.cut { q with state := 0, reason := 0, handle := 0, editGen := k.gen.toNat + 1 } 0 (k.gen.toNat + 1))
    ∧ (Cert.runs u 0x0505 r → r.form 8 [(1, 1), (4, 4)] = true →
        let refs := q.lists.flatMap Prod.snd
        let spilled := refs.countP fun x => match x with
          | .spilled _ _ => true
          | .resident _ _ => false
        exec (.kvSeqQuery t r) s = Cert.did u 0x0505 r id ([BitVec.ofNat 8 q.state, BitVec.ofNat 8 q.reason] ++ natLe q.handle 2
          ++ natLe q.length 4 ++ natLe (refs.length - spilled) 4 ++ natLe spilled 4 ++ natLe q.editGen 4))
    ∧ ∀ (len tag : Nat) (x : KvPool),
      let c := x.cut q len tag
      let keep := ceilDiv len 64
      (c.seq q.num).length = len ∧ (∀ l ∈ (c.seq q.num).lists, l.2.length ≤ keep)
        ∧ (∀ y : Nat, y ≠ q.num → c.seq y = x.seq y)
        ∧ ∀ l ∈ q.lists, ∀ (e : EngId) (f : Nat), .resident e f ∈ l.2.drop keep → assoc (e, f) c.pages = some (.transit tag)

/-! Video (chapter 14). -/

/-- The header of a stream's area (Table 14.4). -/
def Cert.vidHead (v : Stream) : List Byte :=
  natLe v.consumed 8 ++ natLe v.pictures 8 ++ natLe v.damaged.toNat 4 ++ [v.lastReason, BitVec.ofNat 8 v.state] ++ List.replicate 42 0

/-- A stream changed, with its area's header. -/
def Cert.vidTo (u : State) (v : Stream) (f : Stream → Stream) : State :=
  { u with
    vid := { u.vid with streams := updWhere (fun x => x.num = v.num) f u.vid.streams }
    part := u.part.set v.part (regionWrite u.part[v.part] v.base (Cert.vidHead (f v))) }

/-- A unit's slot noted (R330). -/
def Cert.slotNoted (u : State) (x : VidId) : State :=
  { u with vid := { u.vid with working := u.vid.working.filter fun w => w.1 ≠ x, slotAt := assocSet x u.now u.vid.slotAt } }

/-- VIDEO_SLOT (R330, R331): the turn that the start of a slot gives, and the work done in it. -/
def Cert.VideoTurns (s : State) (t : Nat) (x : VidId) (work : List (Fin 36 × VidWork)) : Prop :=
  let u := s.advance t
  let start := u.now / 10240 * 10240
  (u.unitFenced (96 + x.val) = true ∨ u.pwr.phase ≠ .service → exec (.videoSlot t x work) s = .next u)
  ∧ (u.unitFenced (96 + x.val) = false → u.pwr.phase = .service →
    (assoc x u.vid.slotAt ≠ some start → u.now ≠ start → exec (.videoSlot t x work) s = .next u)
    ∧ (assoc x u.vid.slotAt ≠ some start → u.now = start →
      ((∀ p : PartId, u.part[p].isThere = true → hasBit u.part[p].vidSlots (u.now / 10240 % 16) = false) →
        exec (.videoSlot t x work) s = .next (Cert.slotNoted u x))
      ∧ ∀ p : PartId, ((List.finRange 7).find? fun p => u.part[p].isThere && hasBit u.part[p].vidSlots (u.now / 10240 % 16)) = some p →
        ((∀ v ∈ u.vid.streams, v.unit = x → v.part ≠ p) → exec (.videoSlot t x work) s = .next (Cert.slotNoted u x))
        ∧ ∀ (v : Stream) (n : Fin 36), v.num = n.val → (u.vid.streams.filter fun y => y.unit = x && y.part = p) = [v] →
          u.stream? v.num = some v → v.encoding = false → v.state ≠ 2 → bitAt (v.arg 3 1) 0 = false → bitAt (v.arg 3 1) 2 = false →
            let w := Cert.slotNoted u x
            ((∀ y ∈ work, y.1 ≠ n) → exec (.videoSlot t x work) s = .next w)
            ∧ (∀ y ∈ work, y.1 = n → exec (.videoSlot t x work) s = .next { w with vid := { w.vid with
              working := (x, v.num) :: w.vid.working, lastTurn := assocSet (x, p) v.num w.vid.lastTurn } }))
    ∧ (assoc x u.vid.slotAt = some start →
      ((∀ v ∈ u.vid.streams, v.unit = x → u.vidServed v = false) → exec (.videoSlot t x work) s = .next u)
      ∧ ∀ (v : Stream) (n : Fin 36), v.num = n.val → (u.vid.streams.find? fun v => v.unit = x && u.vidServed v) = some v →
        u.stream? v.num = some v → v.encoding = false → v.state = 1 → bitAt (v.arg 3 1) 0 = false → bitAt (v.arg 3 1) 2 = false →
          u.lpFenced v.base 64 = false →
          exec (.videoSlot t x [(n, .randomAccess)]) s = .next (Cert.vidTo u v fun y => { y with state := 0 })))

/-- VIDEO_DEC_OPEN, VIDEO_ENC_OPEN, VIDEO_CLOSE, VIDEO_QUERY, VIDEO_SLOT, BAND_WRITE, ACCESS_UNIT_WRITE. -/
def Obligations.VideoStreamsRunInTheirSlots : Prop :=
  (∀ (s : State) (t : Nat) (r : MbxReq) (p : PartId),
    let u := s.advance t
    let opened := fun (v : Stream) (w : State) =>
      let d := 139 + v.unit.val
      { w with
        vid := { w.vid with streams := w.vid.streams ++ [v] }
        part := w.part.set p (regionWrite w.part[p] v.base (List.replicate 64 0))
        pwr := if hasBit w.pwr.domains d ∨ w.pwr.ramping.contains d then w.pwr else { w.pwr with ramping := w.pwr.ramping ++ [d] } }
    u.compOf (r.arg 0 1) = some p →
    (Cert.runs u 0x0600 r → ∀ (x : VidId) (n : Nat), r.arg 1 1 = x.val →
      let v : Stream := { num := n, unit := x, part := p, args := r.args, freeBands := r.arg 29 1 }
      r.form 48 [(46, 2)] = true → decRanges r = true → u.decPghs p r = true → decRing r = true →
      v.base + v.frameAt (r.arg 16 1) ≤ regionBytes u.part[p] → (bitAt (r.arg 3 1) 1 = true → bitAt (r.arg 3 1) 0 = true) →
      u.unitFenced (96 + x.val) = false → u.resetting (.video x) = false → u.lpFenced v.base 64 = false →
        (u.part[p].vidSlots = 0 → exec (.videoDecOpen t r) s = Cert.refused u 0x0600 r stBusy)
        ∧ (u.part[p].vidSlots ≠ 0 → (u.vid.streams.filter fun y => y.unit = x).length < 16 → n < 36 →
          Cert.lowest (fun n => (u.stream? n).isSome = true) n →
            exec (.videoDecOpen t r) s = Cert.did u 0x0600 r (opened v) [BitVec.ofNat 8 n, 0, 0, 0]))
    ∧ (Cert.runs u 0x0601 r → ∀ n : Nat,
      let v : Stream := { num := n, unit := 2, part := p, args := r.args, encoding := true }
      let mine := u.vid.streams.filter fun y => y.encoding
      r.form 48 [(42, 6)] = true → encRanges r = true → v.base + 4096 + r.arg 32 4 ≤ regionBytes u.part[p] →
      u.ownPgh p (r.arg 36 2) = true → u.ownPgh p (r.arg 38 2) = true → u.ownPgh p (r.arg 40 2) = true →
      u.unitFenced 98 = false → u.resetting (.video 2) = false → u.lpFenced v.base 64 = false →
        (u.part[p].vidSlots = 0 ∨ 4 ≤ mine.length → exec (.videoEncOpen t r) s = Cert.refused u 0x0601 r stBusy)
        ∧ (u.part[p].vidSlots ≠ 0 → mine.length < 4 → u.encFits p ({ v with num := 0 } :: mine.filter fun y => y.part = p) = true → n < 36 →
          Cert.lowest (fun n => (u.stream? n).isSome = true) n →
            exec (.videoEncOpen t r) s = Cert.did u 0x0601 r (opened v) [BitVec.ofNat 8 n, 0, 0, 0])))
  ∧ (∀ (s : State) (t : Nat) (r : MbxReq) (v : Stream),
    let u := s.advance t
    u.stream? (r.arg 0 1) = some v → r.form 4 [(1, 3)] = true →
    (Cert.runs u 0x0603 r → exec (.videoQuery t r) s =
      if u.lpFenced v.base 64 then Cert.refused u 0x0603 r stFenced else Cert.did u 0x0603 r id (regionRead u.part[v.part] v.base 64))
    ∧ (Cert.runs u 0x0602 r →
      let left := u.vid.streams.filter fun w => w.num ≠ v.num
      let d := 139 + v.unit.val
      exec (.videoClose t r) s = Cert.did u 0x0602 r fun w => { w with
        part := if u.lpFenced v.base 64 then w.part
          else w.part.set v.part (regionWrite w.part[v.part] v.base (Cert.vidHead { v with state := 3 }))
        vid := { w.vid with streams := left, working := w.vid.working.filter fun x => x.2 ≠ v.num }
        pwr := if left.any fun x => x.unit = v.unit then w.pwr else
          { w.pwr with domains := w.pwr.domains &&& ~~~ BitVec.ofNat 162 (2 ^ d), ramping := w.pwr.ramping.erase d } }))
  ∧ (∀ (s : State) (t : Nat) (x : VidId) (work : List (Fin 36 × VidWork)),
    Cert.VideoTurns s t x work)
  ∧ (∀ (s : State) (t : Nat) (n : Fin 36) (b : BandSrc) (v : Stream),
    let u := s.advance t
    u.stream? n.val = some v → v.num = n.val →
    (v.current = none ∨ bitAt (v.arg 3 1) 0 = false ∨ u.vidTurn v = false → exec (.bandWrite t n b {}) s = .next u)
    ∧ ∀ q : Picture, v.current = some q → bitAt (v.arg 3 1) 0 = true → u.vidTurn v = true →
      let passed := { v with nextBand := v.nextBand + 1, current := some { q with bands := q.bands + 1 } }
      ((u.live v.part).length ≤ v.arg 24 1 → exec (.bandWrite t n b {}) s = .next { u with vid := { u.vid with
        event := setBit u.vid.event 3, streams := updWhere (fun y => y.num = n.val) (fun y => { y with
          nextBand := y.nextBand + 1, current := passed.current }) u.vid.streams } })
      ∧ ∀ e : EngId, (u.live v.part)[v.arg 24 1]? = some e → u.resetting (.engine e) = false →
        (v.freeBands = 0 → u.vidServed v = false → exec (.bandWrite t n b {}) s = .next u)
        ∧ (v.freeBands = 0 → u.vidServed v = true → u.lpFenced v.base 64 = false → exec (.bandWrite t n b {}) s = .next (Cert.vidTo u v fun y => { y with state := 2, forBand := true }))
        ∧ (v.freeBands ≠ 0 → u.scheds = [] → memWf u.eng[e].act = true → u.eng[e].mem.actBad = [] → 1 ≤ v.arg 36 4 →
          let line := v.arg 32 4 + v.nextBand % v.arg 29 1 * v.arg 36 4
          let stats := if bitAt (v.arg 3 1) 1 then b.stats.length else 0
          ∃ w : State, exec (.bandWrite t n b {}) s = .next w
            ∧ w.stream? n.val = some { passed with freeBands := v.freeBands - 1 }
            ∧ memRead w.eng[e].act (64 * line) 2 = natLe q.index 2
            ∧ memRead w.eng[e].act (64 * line + 14) 2 = natLe stats 2
            ∧ memRead w.eng[e].act (64 * line + 24) 8 = natLe u.now 8
            ∧ (∀ a : Nat, a < 64 * line ∨ 64 * (line + v.arg 36 4) ≤ a → memGet w.eng[e].act a = memGet u.eng[e].act a)
            ∧ (∀ d : EngId, d ≠ e → w.eng[d] = u.eng[d]) ∧ w.part = u.part ∧ w.jobs = u.jobs ∧ w.host = u.host))
  ∧ ∀ (s : State) (t : Nat) (n : Fin 36) (bs : List Byte) (v : Stream),
    let u := s.advance t
    u.stream? n.val = some v → v.num = n.val →
    (v.encoding = false ∨ v.consumed ≤ v.written ∨ u.vidServed v = false → exec (.accessUnitWrite t n bs) s = .next u)
    ∧ (v.encoding = true → v.written < v.consumed → u.vidServed v = true → u.pwr.level.toNat < 2 → (∀ a n : Nat, u.lpFenced a n = false) →
      let off := if v.outPos + bs.length ≤ v.arg 32 4 then v.outPos else 0
      let used := (v.unread.map Prod.snd).sum
      let room := v.arg 16 4 ≤ 8 * (v.arg 32 4 - used) ∧ off + bs.length ≤ v.arg 32 4
        ∧ ∀ x ∈ v.unread, x.2 = 0 ∨ x.1 + x.2 ≤ off ∨ off + bs.length ≤ x.1
      let idr := v.restart || decide (v.arg 24 2 ≤ v.sinceIdr)
      (¬ room → exec (.accessUnitWrite t n bs) s = .next (Cert.vidTo u v fun y => { y with state := 2 }))
      ∧ (room → u.scheds = [] → u.part[v.part].shadow = [] → memWf u.part[v.part].region = true →
        ∃ w : State, exec (.accessUnitWrite t n bs) s = .next w
          ∧ w.stream? n.val = some { v with
              state := 0, written := v.written + 1, pictures := v.pictures + 1, unread := v.unread ++ [(off, bs.length)]
              outPos := off + bs.length, restart := false, sinceIdr := if idr then 1 else v.sinceIdr + 1 }
          ∧ memRead w.part[v.part].region (v.base + 4096 + off) bs.length = bs
          ∧ memRead w.part[v.part].region (v.base + 0x440 + 16 * (v.written % 64)) 8 = natLe off 4 ++ natLe bs.length 4
          ∧ (∀ a : Nat, a < v.base ∨ v.base + 4096 + v.arg 32 4 ≤ a →
            memGet w.part[v.part].region a = memGet u.part[v.part].region a)
          ∧ (∀ o : PartId, o ≠ v.part → w.part[o] = u.part[o]) ∧ w.eng = u.eng ∧ w.jobs = u.jobs ∧ w.host = u.host))

/-! Metrology (chapter 15). -/

/-- A record of a function kept, which takes a token, after a change of the instrument's values (R364, R365). -/
def Cert.smsKept (u : State) (type : Nat) (i : Option (Fin 4)) (subject : List Byte) (f : Sms → Sms) (w : State) : State :=
  { w with sms := { (f w.sms).keep ((f w.sms).record type i u.now u.utc subject) u.now with tokens := w.sms.tokens - 1 } }

/-- The values of an instrument set. -/
def Cert.instTo (i : Fin 4) (x : SmsInst) (m : Sms) : Sms := { m with insts := m.insts.set i x }

/-- STATUS, FRANK, ZERO, TARE, PRESET_TARE, TARE_CLEAR, RECORDS, CHECKPOINT, SWID of SMS_QUERY. -/
def Obligations.InstrumentsAreFrankedZeroedAndTared : Prop :=
  (∀ (s : State) (t : Nat) (r₀ : MbxReq) (i : Fin 4),
    let u := s.advance t
    let m := u.sms
    let x := m.insts[i]
    let p := instParam m.params i.val
    let asked := fun (k : Nat) => Cert.runs u 0x0700 (smsReq k r₀) ∧ (smsReq k r₀).form 24 [(2, 6)] = true
      ∧ (smsReq k r₀).arg 1 1 = i.val ∧ p.enabled = true ∧ m.state = 1
    let kept := fun (k type : Nat) (f : Sms → Sms) =>
      if m.tokens = 0 then Cert.refused u 0x0700 (smsReq k r₀) stMtrBusy
      else Cert.did u 0x0700 (smsReq k r₀) (Cert.smsKept u type (some i) [] f) ((f m).record type (some i) u.now u.utc [])
    let no := fun (k : Nat) (st : Status) => Cert.refused u 0x0700 (smsReq k r₀) st
    (asked 1 → exec (.smsFrank t r₀) s =
      if m.adjEn = true then no 1 stMtrAdjusting
      else if ∃ c ∈ instChans m.params i.val, m.chans[c].state = 2 then no 1 stMtrFault
      else if x.zeroed = false then no 1 stMtrNotZeroed
      else if m.overload i = true ∨ m.underload i = true then no 1 stMtrRange
      else if x.stable = false then no 1 stMtrUnstable
      else kept 1 1 id)
    ∧ (asked 2 → ∀ v : Int, x.x = some v → exec (.smsZero t r₀) s =
      if ∃ c ∈ instChans m.params i.val, m.chans[c].state = 2 then no 2 stMtrFault
      else if x.stable = false then no 2 stMtrUnstable
      else if x.zeroed = true ∧ x.tare ≠ none then no 2 stBusy
      else if x.zeroed = true then
        if 50 * (v - x.initialZero).natAbs ≤ p.n * 2 ^ 32 then
          kept 2 2 (Cert.instTo i { x with zero := v, zeroed := true, tried := true })
        else no 2 stMtrRange
      else if -(p.n : Int) * 2 ^ 32 ≤ 20 * v ∧ 20 * v ≤ 3 * (p.n : Int) * 2 ^ 32 then
        kept 2 2 (Cert.instTo i { x with zero := v, zeroed := true, tried := true, initialZero := v })
      else no 2 stMtrRange)
    ∧ (asked 3 → exec (.smsTare t r₀) s =
      let g := roundE (x.x.getD 0 - x.zero)
      if ∃ c ∈ instChans m.params i.val, m.chans[c].state = 2 then no 3 stMtrFault
      else if x.stable = false then no 3 stMtrUnstable
      else if g ≤ 0 ∨ (p.n : Int) < g then no 3 stMtrRange
      else kept 3 3 (Cert.instTo i { x with tare := some g.toNat, preset := false }))
    ∧ (asked 4 → exec (.smsPresetTare t r₀) s =
      let v := (smsReq 4 r₀).arg 8 8
      if v = 0 ∨ p.n < v then no 4 stMtrRange
      else kept 4 3 (Cert.instTo i { x with tare := some v, preset := true }))
    ∧ (asked 5 → exec (.smsTareClear t r₀) s = kept 5 4 (Cert.instTo i { x with tare := none, preset := false })))
  ∧ (∀ (s : State) (t : Nat) (r₀ : MbxReq),
    let u := s.advance t
    let asked := fun (k : Nat) => Cert.runs u 0x0700 (smsReq k r₀) ∧ (smsReq k r₀).form 24 [(1, 7)] = true
    (asked 0 → exec (.smsStatus t r₀) s = Cert.did u 0x0700 (smsReq 0 r₀) id (u.sms.block ++ shake256 u.sms.params))
    ∧ (asked 8 → exec (.smsSwid t r₀) s = Cert.did u 0x0700 (smsReq 8 r₀) id u.sms.swid)
    ∧ (asked 6 → u.sms.state = 1 → exec (.smsRecords t r₀) s = Cert.did u 0x0700 (smsReq 6 r₀) id
        (((u.sms.records.filter fun x => decide ((smsReq 6 r₀).arg 8 8 ≤ field x 8 8)).take 15).flatten))
    ∧ (asked 7 → u.sms.state = 1 → u.sms.lastCheckpoint ≠ [] → exec (.smsCheckpoint t r₀) s =
        Cert.did u 0x0700 (smsReq 7 r₀) id u.sms.lastCheckpoint))
  ∧ ∀ (m : Sms) (type : Nat) (i : Option (Fin 4)) (now utc : Nat) (subject : List Byte), m.head.length = 32 →
    let b := m.record type i now utc subject
    b.length = 128 ∧ b.drop 96 = m.head ∧ (type < 256 → field b 0 1 = type) ∧ (m.nextSeq < 2 ^ 64 → field b 8 8 = m.nextSeq)
      ∧ (now < 2 ^ 64 → field b 16 8 = now) ∧ (m.keep b now).head = shake256 b ∧ (m.keep b now).nextSeq = m.nextSeq + 1
      ∧ (m.keep b now).records = (if 4096 ≤ m.records.length then m.records.drop 1 else m.records) ++ [b]

/-- PARAM_LOAD, SM_STAGE, SM_VERIFY, SM_ACTIVATE. -/
def Obligations.MetrologySoftwareIsLocked : Prop :=
  ∀ (s : State) (t : Nat) (r₀ : MbxReq),
    let u := s.advance t
    let m := u.sms
    let asked := fun (k : Nat) => Cert.runs u 0x0700 (smsReq k r₀) ∧ (smsReq k r₀).form 24 [(1, 7)] = true ∧ m.state = 1
    let no := fun (k : Nat) (st : Status) => Cert.refused u 0x0700 (smsReq k r₀) st
    let param := fun (k : Nat) => (smsReq k r₀).arg 8 8
    let base := if m.slotB then 0 else 0x60000
    let head := imageHead (memRead m.nor base 64)
    (m.adjEn = false →
      (asked 9 → exec (.smsParamLoad t r₀) s = no 9 stMtrLocked) ∧ (asked 16 → exec (.smStage t r₀) s = no 16 stMtrLocked)
      ∧ (asked 17 → exec (.smVerify t r₀) s = no 17 stMtrLocked) ∧ (asked 18 → exec (.smActivate t r₀) s = no 18 stMtrLocked))
    ∧ (m.adjEn = true →
      (asked 9 → m.audit < 4095 → ∀ b : Nat,
        let mask := param 9 % 65536
        let n := 588 + 32 * ((List.range 16).filter fun c => bitAt mask c).length
        let x := (Cert.accepted u 0x0700 (smsReq 9 r₀) false).bulkRead 0 b n
        let ps := x.2.take 588
        let keys := keysAfter mask (x.2.drop 588) m.keys
        let no := fun (st : Status) => (Host.Outcome.next (Cert.kept x.1 0x0700 (smsReq 9 r₀) st []) : Host.Outcome State Fault Refusal)
        bulkAt ((smsReq 9 r₀).arg 16 8) n = some (0, b) →
          (paramsOk ps keys = false → exec (.smsParamLoad t r₀) s = no stBadArg)
          ∧ (paramsOk ps keys = true → m.tokens = 0 → exec (.smsParamLoad t r₀) s = no stMtrBusy)
          ∧ (paramsOk ps keys = true → m.tokens ≠ 0 → ∃ w : State,
            let counted := { m with audit := m.audit + 1 }
            exec (.smsParamLoad t r₀) s = .next (Cert.kept { x.1 with sms := w.sms } 0x0700 (smsReq 9 r₀) stOk
                (counted.record 5 none u.now u.utc (shake256 ps)))
              ∧ w.sms.params = ps ∧ w.sms.keys = keys ∧ w.sms.copyInUse = 1 - m.copyInUse ∧ w.sms.audit = m.audit + 1
              ∧ w.sms.nextSeq = m.nextSeq + 1 ∧ w.sms.tokens = m.tokens - 1
              ∧ (∀ i : Fin 4, w.sms.insts[i].zeroed = false ∧ w.sms.insts[i].tare = none ∧ w.sms.insts[i].stable = false)
              ∧ ∀ c : ChanId, w.sms.chans[c].inbox = m.chans[c].inbox ∧ w.sms.chans[c].bad = m.chans[c].bad))
      ∧ (asked 16 → ∀ b : Nat,
        let v := param 16
        let block := bitsOf v 39 32
        let n := bitsOf v 56 40
        let x := (Cert.accepted u 0x0700 (smsReq 16 r₀) false).bulkRead 0 b n
        let old := if block = 0 then [] else m.stage.blocks
        block ≤ 5 → 1 ≤ n → n ≤ 65536 → bitsOf v 63 57 = 0 → (smsReq 16 r₀).arg 16 8 % 64 = 0 →
          bulkAt ((smsReq 16 r₀).arg 16 8) n = some (0, b) → exec (.smStage t r₀) s =
            if crc32c x.2 = bitsOf v 31 0 then .next (Cert.kept { x.1 with
              sms := { m with nor := memWrite m.nor (base + 65536 * block) x.2, stage := { blocks := assocSet block n old } } }
                0x0700 (smsReq 16 r₀) stOk [])
            else .next (Cert.kept { x.1 with
              sms := { m with stage := { blocks := assocDel block old } } } 0x0700 (smsReq 16 r₀) stFwBadBlock []))
      ∧ (asked 17 → param 17 = 0 → exec (.smVerify t r₀) s =
          if headOk head 5 0xA2 0x60000 = false ∨ blocksOk m.stage.blocks head.bytes = false then no 17 stFwBadBlock
          else if r₀.verdict = false then no 17 stFwBadSignature
          else if u.fits head = false then no 17 stFwIncompatible
          else Cert.did u 0x0700 (smsReq 17 r₀) (fun w => { w with sms := { m with stage := { m.stage with verified := true } } })
            (natLe head.version.toNat 4 ++ natLe head.iface.toNat 2 ++ [0, 0] ++ shake256 (memRead m.nor base head.bytes)))
      ∧ (asked 18 → m.audit < 4095 → param 18 = 0 →
        (m.stage.verified = false → exec (.smActivate t r₀) s = no 18 stBadArg)
        ∧ (m.stage.verified = true → m.tokens ≠ 0 → ∃ w : State,
          exec (.smActivate t r₀) s = Cert.did u 0x0700 (smsReq 18 r₀) (fun v => { v with sms := w.sms })
            ∧ w.sms.slotB = (!m.slotB) ∧ w.sms.audit = m.audit + 1 ∧ w.sms.imageDigest = some (shake256 (memRead m.nor base head.bytes))
            ∧ w.sms.stage = {} ∧ w.sms.state = 1 ∧ w.sms.nextSeq = m.nextSeq + 2 ∧ w.sms.params = m.params
            ∧ ∀ i : Fin 4, w.sms.insts[i].zeroed = false ∧ w.sms.insts[i].tare = none)))

/-- SAMPLE_FRAME, CHANNEL_FAULT_TIMEOUT, ZERO_TRACKING, RECORD_TOKEN, SMS_CHECKPOINT_SIGN, ADJ_EN, SMS_CLOCK_FAULT, SMS_START. -/
def Obligations.MetrologyRunsInTime : Prop :=
  ∀ (s : State) (t : Nat),
    let u := s.advance t
    let m := u.sms
    let sms := fun (m' : Sms) => (Host.Outcome.next { u with sms := m' } : Host.Outcome State Fault Refusal)
    (∀ c : ChanId,
      let ch := m.chans[c]
      let cp := chanParam m.params c.val
      (ch.inbox = [] → exec (.sampleFrame t c) s = .next u)
      ∧ ∀ (f : InboxFrame) (rest : List InboxFrame), ch.inbox = f :: rest →
        let b := f.bytes
        let n := field b 1 1
        let seq := field b 4 4
        let fails := cp.enabled = false ∨ f.port ≠ cp.port ∨ b.length ≠ 28 + 4 * n ∨ n = 0 ∨ 16 < n ∨ field b 0 1 ≠ 1 ∨ 4 ≤ field b 2 2
          ∨ field b (16 + 4 * n) 4 ≠ frameCrc seq (b.take (16 + 4 * n)) ∨ b.drop (20 + 4 * n) ≠ (cmac ((assoc c.val m.keys).getD []) (b.take (20 + 4 * n))).take 8
            ∨ field b 8 8 ≠ cp.cellId
          ∨ ∃ e : Nat, ch.expected = some e ∧ seq < e
        (m.state ≠ 1 → exec (.sampleFrame t c) s = sms { m with chans := m.chans.set c { ch with inbox := rest } })
        ∧ (m.state = 1 → fails → exec (.sampleFrame t c) s =
          sms { m with chans := m.chans.set c { ch with inbox := rest, bad := ch.bad + 1 } })
        ∧ (m.state = 1 → ¬ fails → n = 1 → bitAt (field b 2 2) 1 = false → cp.inst < 4 → ∀ i : Fin 4, i.val = cp.inst →
          let gap := match ch.expected with
            | none => 0
            | some e => seq - e
          ∃ insts : Vector SmsInst 4, (∀ j : Fin 4, j ≠ i → insts[j] = m.insts[j])
            ∧ exec (.sampleFrame t c) s = sms { m with
              insts := insts
              chans := m.chans.set c { ch with
                inbox := rest, state := 1, lost := ch.lost + BitVec.ofNat 16 gap, expected := some (seq + 1), lastFrame := u.now
                overload := bitAt (field b 2 2) 0
                products := (sgn 32 (field b 16 4) - cp.offset) * cp.gain :: ch.products.take ((instParam m.params i.val).filter - 1) } })
      ∧ (m.state = 1 → ch.state = 1 → ch.lastFrame + 90000000 ≤ u.now → ∃ m' : Sms, exec (.channelFaultTimeout t c) s = sms m'
        ∧ m'.chans = m.chans.set c { ch with state := 2, expected := none } ∧ m'.nextSeq = m.nextSeq + 1 ∧ m'.tokens = m.tokens
        ∧ ∃ r : List Byte, field r 0 1 = 8 ∧ m'.head = shake256 r ∧ m'.records.getLast? = some r)
      ∧ (ch.state ≠ 1 ∨ u.now < ch.lastFrame + 90000000 → exec (.channelFaultTimeout t c) s = .next u))
    ∧ (∀ i : Fin 4,
      let x := m.insts[i]
      let p := instParam m.params i.val
      let g := x.x.getD 0 - x.zero
      (m.state ≠ 1 ∨ u.now < x.trackedAt + 900000000 → exec (.zeroTracking t i) s = .next u)
      ∧ (m.state = 1 → x.trackedAt + 900000000 ≤ u.now →
        let moves := p.enabled = true ∧ p.tracking = true ∧ x.zeroed = true ∧ x.stable = true ∧ m.instFault i = false ∧ x.tare = none
          ∧ 2 * g.natAbs < 2 ^ 32 ∧ 50 * (x.zero + g - x.initialZero).natAbs ≤ p.n * 2 ^ 32
        exec (.zeroTracking t i) s = sms (Cert.instTo i
          { x with trackedAt := u.now, zero := if moves then x.zero + g else x.zero } m)))
    ∧ exec (.recordToken t) s =
        (if u.now % 900000000 = 0 then sms { m with tokens := min 64 (m.tokens + 1) } else .next u)
    ∧ (let due := 256 ≤ m.uncovered ∨ ∃ c : Nat, m.firstUncovered = some c ∧ c + 900000000 ≤ u.now
      (¬ due ∨ m.epochOk = false ∨ 2 ^ 28 ≤ m.xmssNext ∨ m.state = 0 ∨ m.state = 3 → exec (.smsCheckpointSign t) s = .next u)
      ∧ (due → m.epochOk = true → m.xmssNext < 2 ^ 28 → m.state = 1 ∨ m.state = 2 → m.head.length = 32 → ∃ body sig : List Byte,
        field body 0 4 = 0x54504B43 ∧ (m.nextCovered < 2 ^ 64 → field body 8 8 = m.nextCovered)
          ∧ (m.nextSeq < 2 ^ 64 → field body 16 8 = m.nextSeq - 1) ∧ (body.drop 24).take 32 = m.head ∧ sig.length = 18464
          ∧ exec (.smsCheckpointSign t) s = sms { m with
            lastCheckpoint := body ++ natLe (m.epoch * 2 ^ 28 + m.xmssNext) 5 ++ sig
            uncovered := 0, firstUncovered := none, nextCovered := m.nextSeq, xmssNext := m.xmssNext + 1
            reservedTo := if m.xmssNext < m.reservedTo then m.reservedTo else m.xmssNext + 256 }))
    ∧ (∀ active : Bool, exec (.adjEn t active) s = sms { m with adjEn := active && u.pwr.phase ≠ .unpowered })
    ∧ (∃ insts : Vector SmsInst 4, (∀ i : Fin 4, insts[i].x = none ∧ insts[i].stable = false ∧ insts[i].tare = m.insts[i].tare)
      ∧ exec (.smsClockFault t) s = sms { m with state := 3, insts := insts })
    ∧ ∀ ok : Bool, (m.state ≠ 0 ∨ u.pwr.phase = .unpowered → exec (.smsStart t ok) s = .next u)
      ∧ (m.state = 0 → u.pwr.phase ≠ .unpowered → ∃ m' : Sms, exec (.smsStart t ok) s = sms m'
        ∧ m'.state = (if ok then 1 else 2) ∧ m'.epoch = (if 4095 ≤ m.epoch then m.epoch else m.epoch + 1)
        ∧ m'.epochOk = decide (m.epoch < 4095) ∧ m'.xmssNext = 0 ∧ m'.nextSeq = (if ok then m.nextSeq + 1 else m.nextSeq)
        ∧ m'.params = m.params ∧ m'.audit = m.audit ∧ ∀ i : Fin 4, m'.insts[i].zeroed = false ∧ m'.insts[i].tare = none)

/-! Check-value units (chapter 16). -/

/-- CVU_SUBMIT, CVU_SLOT, CVU_JOB_START, CVU_JOB_END, CVU_OVERRUN. -/
def Obligations.CrcJobsRunInTheirSlots : Prop :=
  (∀ (s : State) (t : Nat) (r : MbxReq) (p : PartId) (x : CvuId),
    let u := s.advance t
    let n := r.arg 4 1
    let w := r.arg 2 1
    let steps := (List.range n).map fun i =>
      (r.arg (48 + 16 * i) 1, r.arg (49 + 16 * i) 1, r.arg (52 + 16 * i) 4, r.arg (56 + 16 * i) 8)
    let cost := fun (y : Nat × Nat × Nat × Nat) =>
      (if y.1 = 1 then 79 else 4) + (if y.1 = 3 then 72 else 1) * ceilDiv y.2.2.1 64
    let j : CvuJob :=
      { num := u.cvu.nextJob, part := p, width := w, refin := bitAt (r.arg 3 1) 0, refout := bitAt (r.arg 3 1) 1
        fold := bitsOf (r.arg 3 1) 3 2, poly := BitVec.ofNat 64 (r.arg 8 8), init := BitVec.ofNat 64 (r.arg 16 8)
        xorout := BitVec.ofNat 64 (r.arg 24 8), foldBase := BitVec.ofNat 64 (r.arg 32 8), donePgh := r.arg 6 2
        resultOff := r.arg 40 4, steps := steps, duration := 16 + (steps.map cost).sum + 8 }
    let held := fun (c : CvuId) => ((u.cvu.units[c].running.toList ++ u.cvu.units[c].queue).filter fun y => y.part = p).length
    let can := fun (c : CvuId) => (r.arg 1 1 = 0xFF ∨ r.arg 1 1 = c.val) ∧ u.unitFenced (112 + c.val) = false ∧ held c < u.cvuCount p
    Cert.runs u 0x0800 r → u.partOf (r.arg 0 1) = some p → r.form (48 + 16 * n) [(5, 1), (44, 4)] = true →
      (∀ i < n, r.arg (50 + 16 * i) 2 = 0) → 8 ≤ w → w ≤ 64 → 1 ≤ n → n ≤ 64 → r.arg 1 1 ≤ 3 ∨ r.arg 1 1 = 0xFF → r.arg 3 1 < 16 →
      j.fold ≠ 3 → r.arg 8 8 < 2 ^ w → r.arg 16 8 < 2 ^ w → r.arg 24 8 < 2 ^ w → (j.fold ≠ 2 → r.arg 32 8 = 0) →
      (∀ y ∈ steps, 1 ≤ y.2.2.1 ∧ y.2.2.1 ≤ 16777216 ∧ ((y.1 = 0 ∧ p ≠ 0 ∧ y.2.1 < 6 ∧ y.2.2.2 + y.2.2.1 ≤ 25165824)
        ∨ (y.1 = 1 ∧ y.2.2.2 + y.2.2.1 ≤ regionBytes u.part[p]) ∨ (y.1 = 3 ∧ p = 0 ∧ y.2.2.2 + y.2.2.1 ≤ 2 ^ 26))) →
      r.arg 6 2 = 0xFFFF ∨ r.arg 6 2 < u.part[p].pghCount → 64 * j.resultOff + 64 ≤ regionBytes u.part[p] → u.part[p].confidential = false →
        (u.cvuCount p = 0 → exec (.cvuSubmit t r) s = Cert.refused u 0x0800 r stBusy)
        ∧ (u.cvuCount p ≠ 0 → u.longestRun p < j.duration → exec (.cvuSubmit t r) s = Cert.refused u 0x0800 r stBadArg)
        ∧ (u.cvuCount p ≠ 0 → j.duration ≤ u.longestRun p → can x → (∀ c : CvuId, c < x → ¬ can c) →
          exec (.cvuSubmit t r) s = Cert.did u 0x0800 r (fun v => { v with cvu := { v.cvu with
            nextJob := v.cvu.nextJob + 1, units := v.cvu.units.set x { v.cvu.units[x] with queue := v.cvu.units[x].queue ++ [j] } } })
            (natLe j.num 4 ++ [BitVec.ofNat 8 x.val, 0, 0, 0])))
  ∧ (∀ (s : State) (t : Nat) (x : CvuId),
    let u := s.advance t
    let unit := u.cvu.units[x]
    let slot := u.now / 8192 % 16
    let set := fun (c : Cvu) => { u with cvu := { u.cvu with units := u.cvu.units.set x c } }
    (u.now % 8192 ≠ 0 → exec (.cvuSlot t x) s = .next u)
    ∧ (u.now % 8192 = 0 → (u.cvuOwner slot).isSome = true ∨ u.unitFenced (112 + x.val) = true ∨ unit.running.isSome = true →
        exec (.cvuSlot t x) s = .next (set { unit with slot := slot }))
    ∧ (u.now % 8192 = 0 → u.cvuOwner slot = none → u.unitFenced (112 + x.val) = false → unit.running = none →
        ∃ v : State, exec (.cvuSlot t x) s = .next v
          ∧ v.cvu = { u.cvu with digestRows := u.cvu.digestRows.drop 15, units := u.cvu.units.set x { unit with slot := slot } }
          ∧ (∀ (e : EngId) (row : Nat) (d : Dword), (e, row, d) ∈ u.cvu.digestRows.take 15 →
            (assoc row v.eng[e].digests.reading).isSome = true)
          ∧ (∀ (e : EngId) (row : Nat) (d : Dword), assoc row u.eng[e].digests.reading = some d →
            assoc row v.eng[e].digests.reading = some d)
          ∧ v.part = u.part ∧ v.host = u.host ∧ v.jobs = u.jobs ∧ ∀ e : EngId, v.eng[e].store = u.eng[e].store)
    ∧ (let head := unit.queue.find? fun j => j.part = u.cvuServes slot
      (unit.running.isSome = true ∨ head = none → exec (.cvuJobStart t x) s = .next u)
      ∧ ∀ j : CvuJob, unit.running = none → head = some j →
        (u.unitFenced (112 + x.val) = true ∨ u.resetting (.cvu x) = true ∨ u.runEnd (u.cvuServes slot) u.now < u.now + 2 * j.duration →
          exec (.cvuJobStart t x) s = .next u)
        ∧ (u.unitFenced (112 + x.val) = false → u.resetting (.cvu x) = false →
            u.now + 2 * j.duration ≤ u.runEnd (u.cvuServes slot) u.now → exec (.cvuJobStart t x) s = .next (set
              { unit with running := some { j with startedAt := u.now }, queue := unit.queue.filter fun y => y.num ≠ j.num })))
    ∧ (unit.running = none → (∀ f : Flt, exec (.cvuJobEnd t x f) s = .next u) ∧ ∀ b : Nat, exec (.cvuOverrun t x b) s = .next u)
    ∧ ∀ j : CvuJob, unit.running = some j →
      let rest := set { unit with running := none }
      let x' := u.cvuStream j j.steps
      let bytes := x'.1
      let inTime := u.now ≤ u.runEnd j.part j.startedAt ∧ u.lpServed j.part (if j.steps.any fun y => y.1 = 1 then 150 else 100) = true
      let wrote := fun (v : State) (rec' : List Byte) =>
        let a := v.updPart j.part fun q => regionWrite q (64 * j.resultOff) rec'
        if j.donePgh = 0xFFFF then a else a.pghNotify j.part j.donePgh 1 (u.now + 1)
      (¬ inTime → ∀ f : Flt, exec (.cvuJobEnd t x f) s = .next u)
      ∧ (inTime → u.now < j.startedAt + 2 * j.duration → x'.2 = none → exec (.cvuJobEnd t x {}) s = .next u)
      ∧ (u.lpFenced (64 * j.resultOff) 64 = false →
        (inTime → j.startedAt + 2 * j.duration ≤ u.now → x'.2 = none →
          exec (.cvuJobEnd t x {}) s = .next (wrote rest (cvuRecord j x stOk bytes.length (cvuRaw j bytes) u.now)))
        ∧ (inTime → ∀ st : Status, x'.2 = some st → exec (.cvuJobEnd t x {}) s =
          .next (wrote (rest.cvuNote st) (cvuRecord j x st bytes.length (cvuRaw j bytes) u.now)))
        ∧ (u.runEnd j.part j.startedAt ≤ u.now → ∀ b : Nat, 256 * b ≤ bytes.length →
          exec (.cvuOverrun t x b) s = .next (wrote { rest with cvu := { rest.cvu with event := setBit u.cvu.event 0 } }
            (cvuRecord j x stCvuOverrun (256 * b) (cvuRaw j (bytes.take (256 * b))) u.now))))
      ∧ (u.now < u.runEnd j.part j.startedAt → ∀ b : Nat, exec (.cvuOverrun t x b) s = .next u))
  ∧ ∀ (j : CvuJob) (x : CvuId) (st : Status) (bytes raw now : Nat),
    let b := cvuRecord j x st bytes raw now
    b.length = 64 ∧ field b 60 4 = crc32c (b.take 60) ∧ (j.num < 2 ^ 32 → field b 0 4 = j.num) ∧ field b 4 2 = st.toNat
      ∧ (st ≠ stOk → field b 8 8 = 0) ∧ (raw < 2 ^ 64 → field b 16 8 = raw) ∧ (bytes < 2 ^ 32 → field b 24 4 = bytes)

/-! Self-test (chapter 17). -/

/-- An engine's self-test state set. -/
def Cert.bistTo (u : State) (e : EngId) (b : BistEng) : State := { u with eng := u.eng.set e { u.eng[e] with bist := b } }

/-- MAINT_GRANT, BIST_SLICE, SCAN_RUN, FENCE_LIFT, TEST_KAT, MARGIN_SWEEP. -/
def Obligations.SelfTestCommandsTestWhatTheyMay : Prop :=
  ∀ (s : State) (t : Nat) (r : MbxReq) (e : EngId),
    let u := s.advance t
    let g := u.eng[e]
    let may := u.sec.lifecycle = 1 ∨ u.sec.lifecycle = 4 ∨ (u.sec.lifecycle = 3 ∧ hasBit u.bist.granted e.val = true)
    (Cert.runs u 0x0905 r → r.form 4 [(1, 1)] = true → 1 ≤ r.arg 0 1 → r.arg 0 1 < 64 → 1 ≤ r.arg 2 2 → r.arg 2 2 ≤ 3600 →
      let mask : BitVec 6 := BitVec.ofNat 6 (r.arg 0 1)
      ((∃ d : EngId, hasBit mask d.val = true ∧ (u.keeper d).isSome = true) → exec (.maintGrant t r) s = Cert.refused u 0x0905 r stBusy)
      ∧ ((∀ d : EngId, hasBit mask d.val = true → u.keeper d = none) →
        let eng := Vector.ofFn fun d : EngId => if hasBit mask d.val then { u.eng[d] with
          bist := { u.eng[d].bist with passedSinceGrant := [], scanSinceGrant := false, katSinceGrant := 0 } } else u.eng[d]
        exec (.maintGrant t r) s = Cert.did u 0x0905 r fun w => { w with
          bist := { w.bist with granted := mask, grantEnd := u.now + r.arg 2 2 * 900000000 }, eng := eng }))
    ∧ (Cert.runs u 0x0901 r → r.arg 0 1 = e.val → r.form 8 [(4, 4)] = true → r.arg 1 1 ≤ 4 →
        let first := [0, 512, 640, 672, 810].getD (r.arg 1 1) 0
        let count := [512, 128, 32, 138, 103].getD (r.arg 1 1) 0
        (¬ may → r.arg 2 2 = 0xFFFF → exec (.bistSlice t r) s = Cert.refused u 0x0901 r stDenied)
        ∧ (may → u.engSecret e = false → g.bist.demandMbx.isSome = true → r.arg 2 2 < count →
          exec (.bistSlice t r) s = Cert.refused u 0x0901 r stBusy)
        ∧ (may → u.engSecret e = false → g.bist.demandMbx = none → r.arg 2 2 = 0xFFFF ∨ r.arg 2 2 < count →
          let l := if r.arg 2 2 = 0xFFFF then (List.range count).map (first + ·) else [first + r.arg 2 2]
          exec (.bistSlice t r) s = Cert.goesOn u 0x0901 r fun w =>
            Cert.bistTo w e { w.eng[e].bist with onDemand := l, demandMbx := some r.mailbox }))
    ∧ (Cert.runs u 0x0903 r → r.arg 0 1 = e.val → r.form 8 [(1, 3)] = true → r.arg 4 4 < 8 →
        (¬ may → exec (.scanRun t r) s = Cert.refused u 0x0903 r stDenied)
        ∧ (may → hasBit u.bist.granted e.val = true → u.keeper e = none →
          (r.verdict = false → exec (.scanRun t r) s = Cert.refused u 0x0903 r stFwBadSignature)
          ∧ (r.verdict = true → r.extra.length = 8 →
            let run : ScanRun :=
              { mailbox := r.mailbox, engine := e, full := r.arg 4 4 = 0 || r.arg 4 4 = 7
                out := natLe (field r.extra 0 4) 4 ++ natLe 0 4 ++ natLe 0xFFFFFFFF 4 }
            exec (.scanRun t r) s = Cert.goesOn u 0x0903 r fun w => { w with
              free := w.free + 76, eng := w.eng.set e (w.eng[e].undefine w.free), bist := { w.bist with scans := w.bist.scans ++ [run] } })))
    ∧ (Cert.runs u 0x0904 r → r.arg 0 1 = e.val → r.form 4 [(1, 3)] = true →
        let proven := g.bist.scanSinceGrant = true ∧ g.bist.katSinceGrant = 127 ∧ g.bist.passedSinceGrant.length = 913
        (¬ may → exec (.fenceLift t r) s = Cert.refused u 0x0904 r stDenied)
        ∧ (may → hasBit u.bist.granted e.val = true → g.fenced = true →
          (¬ proven → exec (.fenceLift t r) s = Cert.refused u 0x0904 r stBistFail)
          ∧ (proven → ∃ x : HistRec, x.type = 3 ∧ x.unit = BitVec.ofNat 8 e.val ∧ x.status = stOk ∧ x.postmark = u.now
            ∧ exec (.fenceLift t r) s = Cert.did u 0x0904 r fun w => { w with
              eng := w.eng.set e { w.eng[e] with fenced := false, classification := 0, events30 := 0 }
              hist := { w.hist with waitingF := w.hist.waitingF ++ [x] } })))
    ∧ (∀ (res : KatResult) (p : PartId),
      let r' := { r with aux := res.failed.toNat }
      Cert.runs u 0x0900 r' → r'.form 16 [] = true → 1 ≤ r'.arg 2 1 → r'.arg 2 1 < 128 → 1 ≤ r'.arg 3 1 → r'.arg 4 4 ≠ 0 →
        u.testEngine r' = some (p, e) →
          let run : KatRun :=
            { mailbox := r.mailbox, part := p, engine := e, budget := r'.arg 4 4, dataClass := u.testClass e (r'.arg 8 8)
              failing := BitVec.ofNat 7 res.failed.toNat
              todo := ((List.range 7).filter fun i => bitAt (r'.arg 2 1) i).flatMap fun i => List.replicate (r'.arg 3 1) i }
          let kept := fun (l : List Nat) (w : State) => { w with bist := { w.bist with kats := w.bist.kats ++ [{ run with todo := l }] } }
          (u.bist.sweeping e = true → exec (.testKat t r res) s = Cert.refused u 0x0900 r' stNotReady)
          ∧ (u.bist.sweeping e = false → (∀ k ∈ u.bist.kats, k.mailbox ≠ r.mailbox) →
            (u.pwr.ejectAt.isSome = true → exec (.testKat t r res) s = Cert.refused u 0x0900 r' stEjected)
            ∧ ∀ (i : Nat) (rest : List Nat) (v : State) (j : Nat), run.todo = i :: rest → u.pwr.ejectAt = none →
              u.part[p].dissolving = none → u.resetting (.engine e) = false → (g.fenced = false ∨ p = 0) →
              (kept run.todo (Cert.accepted u 0x0900 r' false)).takeJob
                { sched := 65536, part := p, cls := none, engines := [e], w := katCycles i, t0 := u.now, last := u.now + run.budget
                  offset := 2, source := .kat r.mailbox i, image := [] } (some u.now) = .inr (v, j) →
                exec (.testKat t r res) s = .next { v with bist := { v.bist with
                  kats := updWhere (fun x => x.mailbox = r.mailbox) (fun x => { x with todo := rest }) v.bist.kats } }))
    ∧ (∀ p : PartId,
      let lo := r.arg 4 2
      let hi := r.arg 6 2
      let step := r.arg 8 1
      let points := u.sweepAt e r
      let fast := r.arg 3 1 = 1
      Cert.runs u 0x0902 r → r.form 24 [(9, 1), (14, 2)] = true → 1 ≤ r.arg 2 1 → r.arg 2 1 < 128 → r.arg 3 1 ≤ 1 → 690 ≤ lo → hi ≤ 810 →
        lo ≤ hi → 5 ≤ step → step ≤ 50 → (hi - lo) / step + 1 ≤ 64 → sgn 16 (r.arg 12 2) ≤ 380 →
        sgn 16 (r.arg 10 2) ≤ sgn 16 (r.arg 12 2) → u.testEngine r = some (p, e) →
          (fast ∨ lo < 728 ∨ 772 < lo → p ≠ 0 ∨ ¬ may → exec (.marginSweep t r) s = Cert.refused u 0x0902 r stDenied)
          ∧ (¬ fast → (∀ y ∈ points, 728 ≤ y.1 ∧ y.1 ≤ 772) → u.bist.sweeping e = true →
            exec (.marginSweep t r) s = Cert.refused u 0x0902 r stBusy)
          ∧ (¬ fast → (∀ y ∈ points, 728 ≤ y.1 ∧ y.1 ≤ 772) → u.bist.sweeping e = false →
            let w : Sweep :=
              { mailbox := r.mailbox, part := p, engine := e, set := BitVec.ofNat 7 (r.arg 2 1), fast := false
                dataClass := u.testClass e (r.arg 16 8), acceptedAt := u.now
                points := points.zipIdx.map fun x => sweepPointOf r.extra x.2 x.1 }
            exec (.marginSweep t r) s = Cert.goesOn u 0x0902 r fun v => { v with bist := { v.bist with sweeps := v.bist.sweeps ++ [w] } }))

/-- SLICE, SLICE_END, MAINT_GRANT_EXPIRY. -/
def Obligations.SlicesFollowTheRotation : Prop :=
  ∀ (s : State) (t : Nat) (e : EngId),
    let u := s.advance t
    let g := u.eng[e]
    let b := g.bist
    let within := (engines.filter fun d => u.eng[d].bist.inSlice.isSome).length
    let power := (u.bist.stagger = true → within < u.bist.maxConcurrent.toNat)
      ∧ (u.bist.gate = true → 728 ≤ g.vddE ∧ g.vddE ≤ 772 ∧ g.clkNominal = true) ∧ u.pwr.level.toNat < 2 ∧ u.pwr.ejectAt = none
    let skipped : State := { u with bist := { u.bist with skipped := bump 32 u.bist.skipped 1 } }
    (b.inSlice.isSome = true → exec (.slice t e) s = .next u)
    ∧ (b.inSlice = none → u.resetting (.engine e) = false → b.repeatOf = none → b.onDemand = [] → u.bist.periodic = true →
        b.position.toNat < 913 → (b.position.toNat < 672 → u.bist.goldenValid = true) →
          let x : SliceRun := { idx := b.position.toNat, startAt := u.now }
          (u.keeper e = none → power → b.position.toNat < 672 → exec (.slice t e) s = .next
            { u with free := u.free + 76, eng := u.eng.set e { g.undefine u.free with bist := { b with inSlice := some x } } })
          ∧ (u.keeper e = none → power → 672 ≤ b.position.toNat → exec (.slice t e) s = .next (Cert.bistTo u e { b with inSlice := some x }))
          ∧ (u.keeper e = none → ¬ power → exec (.slice t e) s = .next u)
          ∧ ∀ p : PartId, u.keeper e = some p → g.fenced = false → u.part[p].confidential = false →
            let starts := u.now + 255 ≤ g.seq.testUntil ∧ (g.seq.testUntil + 1 - u.now) % 256 = 0
            (¬ starts → exec (.slice t e) s = .next u)
            ∧ (starts → ¬ power → exec (.slice t e) s = .next skipped)
            ∧ (starts → power → exec (.slice t e) s = .next (Cert.bistTo u e { b with inSlice := some x })))
    ∧ (∀ res : SliceResult,
      (b.inSlice = none → exec (.sliceEnd t e res) s = .next u)
      ∧ ∀ x : SliceRun, b.inSlice = some x → u.now < x.startAt + 256 → exec (.sliceEnd t e res) s = .next u)
    ∧ (∀ x : SliceRun, b.inSlice = some x → x.startAt + 256 ≤ u.now →
      (x.demand = false → x.again = false → x.idx < 913 → b.demandMbx = none → exec (.sliceEnd t e .pass) s = .next (Cert.bistTo u e { b with
        inSlice := none, passedSinceGrant := x.idx :: b.passedSinceGrant.filter (· ≠ x.idx)
        position := BitVec.ofNat 10 (if x.idx = 912 then 0 else x.idx + 1)
        rotations := if x.idx = 912 then bump 16 b.rotations 1 else b.rotations }))
      ∧ exec (.sliceEnd t e .discarded) s = .next (Cert.bistTo (if u.bist.gate then skipped else u) e { b with inSlice := none }))
    ∧ exec (.maintGrantExpiry t) s =
        .next (if u.bist.grantEnd ≤ u.now then { u with bist := { u.bist with granted := 0 } } else u)

/-! The pair's commands, and firmware (chapters 13 and 19). -/

/-- TWIN_PAIR, TWIN_RESYNC, TWIN_PERMIT (TWIN_ADMIT), TWIN_GIVEUP. -/
def Obligations.PairCommandsPairAndPart : Prop :=
  ∀ (s : State) (t : Nat) (r : MbxReq),
    let u := s.advance t
    let bit := fun (i : Nat) => bitAt (r.extra.headD 0).toNat i
    let planned := ∃ p : Plan, u.fab.plan = some p ∧ p.twinSlot ≠ 0xFFFF ∧ (u.planPort 8).mode = 3
    let alike := u.pwr.source = false ∧ bit 3 = false ∧ u.sec.lifecycle = 3 ∧ bit 4 = false ∧ bit 2 = false
    let unbound := (∀ w : WinId, u.host.win[w].bound = none) ∧ bit 5 = false
    let wired := planned ∧ u.fab.ports[twinLink].state = .openPort ∧ bit 6 = false
    let paired := fun (role : TwinRole) (out : Bool) (tw : Twin) =>
      tw.role = role ∧ tw.twinPaired = true ∧ tw.claimOut = out ∧ tw.peerInStep = false ∧ tw.txSeq = 1 ∧ tw.rxSeq = 0
        ∧ tw.forwarded = [] ∧ tw.held = [] ∧ tw.acked = u.twin.acked ∧ tw.event = u.twin.event
    (Cert.runs u 0x0A00 r → r.form 4 [(1, 3)] = true →
      (r.arg 0 1 = 1 ∨ r.arg 0 1 = 2 → u.sec.lifecycle ≠ 3 → exec (.twinPair t r) s = Cert.refused u 0x0A00 r stDenied)
      ∧ (r.arg 0 1 = 1 ∨ r.arg 0 1 = 2 → alike → ¬ unbound → exec (.twinPair t r) s = Cert.refused u 0x0A00 r stBusy)
      ∧ (r.arg 0 1 = 1 ∨ r.arg 0 1 = 2 → alike → unbound → ¬ wired → exec (.twinPair t r) s = Cert.refused u 0x0A00 r stBadArg)
      ∧ (r.arg 0 1 = 1 → alike → unbound → wired → u.twin.role ≠ .gaveUp → u.twin.claimIn = false → r.verdict = true → bit 0 = false →
          bit 1 = false → (∀ c ∈ u.fab.ctxs, c.opsRate ≠ 0 ∧ c.bytesRate ≠ 0) → (u.fab.ctxs.map Ctx.opsBurst).sum ≤ 48 →
          (u.fab.ctxs.map Ctx.opsRate).sum ≤ 48 → (u.fab.ctxs.map Ctx.bytesBurst).sum ≤ 192 → (u.fab.ctxs.map Ctx.bytesRate).sum ≤ 192 →
          ∃ tw : Twin, paired .active true tw ∧ exec (.twinPair t r) s = Cert.did u 0x0A00 r fun w => { w with twin := tw })
      ∧ (r.arg 0 1 = 2 → alike → unbound → wired → (∀ p : PartId, p ≠ 0 → u.part[p].isThere = false) → u.twin.claimIn = true →
          r.verdict = true →
          ∃ tw : Twin, paired .joining false tw ∧ exec (.twinPair t r) s = Cert.did u 0x0A00 r fun w => { w with twin := tw }))
    ∧ (Cert.runs u 0x0A01 r → r.form 4 [(0, 4)] = true →
      (u.twin.role = .inStep → exec (.twinResync t r) s = Cert.did u 0x0A01 r id)
      ∧ (u.twin.role = .joining ∨ u.twin.role = .outOfStep → u.twin.resyncMbx.isSome = true →
        exec (.twinResync t r) s = Cert.refused u 0x0A01 r stBusy)
      ∧ (u.twin.role = .joining ∨ u.twin.role = .outOfStep → u.twin.resyncMbx = none → u.twin.claimIn = true ∨ u.twin.twinClaims = false →
        exec (.twinResync t r) s = Cert.goesOn u 0x0A01 r fun w => { w with twin := { w.twin with
          role := .joining, phase := 1, pass := 0, abandoned := 0, pending := 0, resyncMbx := some r.mailbox } })
      ∧ (u.twin.role = .unpaired ∨ u.twin.role = .active → exec (.twinResync t r) s = Cert.refused u 0x0A01 r stBadArg))
    ∧ (Cert.runs u 0x0A02 r → r.form 16 [(8, 8)] = true → exec (.twinPermit t r) s = Cert.refused u 0x0A02 r stDenied)
    ∧ (Cert.runs u 0x0106 r → u.forwards = false → ∀ (p : PartId) (k : OwnerKey), u.compOf (r.arg 0 1) = some p →
        u.part[p].confidential = true → u.part[p].owner = some k → r.arg 4 2 = 16 → r.form 48 [(1, 1)] = true →
        ownerOk p k r = true → r.arg 2 2 = 0x0A02 →
          let seq : Dword := BitVec.ofNat 64 (r.arg 8 8)
          let inner := { r with argBytes := BitVec.ofNat 16 16, args := (r.args.drop 16).take 16 }
          u.preCheck (some p) 0x0A02 inner true false = none → inner.arg 8 8 = 0 →
            exec (.ownerCmd t r) s = Cert.did u 0x0106 r fun w =>
              (w.updPart p fun q => { q with
                owner := some { k with lastSeq := seq }, permitted := some (BitVec.ofNat 64 (inner.arg 0 8)) }).updMbx r.mailbox fun b =>
                  { b with cmd := b.cmd.map fun c => { c with owner := some (p, seq) } })
    ∧ (Cert.runs u 0x0A03 r → r.form 4 [(0, 4)] = true →
      (u.hasStandby = false → exec (.twinGiveup t r) s = Cert.refused u 0x0A03 r stNotReady)
      ∧ (u.hasStandby = true → exec (.twinGiveup t r) s = Cert.did u 0x0A03 r fun w => { w with twin := { w.twin with
          role := .gaveUp, claimOut := false, peerInStep := false, event := setBit w.twin.event 0, unreported := []
          txSeq := w.twin.txSeq + 1, outbox := w.twin.outbox ++ [(9, w.twin.txSeq)]
          stop := { active := true, minEnd := u.now + 900000 } } }))

/-- What an EJECT leaves in its cycle (R410 steps 1, 2 and 4). -/
def Cert.ejecting (u w : State) (reboot : Bool) : Prop :=
  w.now = u.now ∧ w.pwr.phase = .ejecting ∧ w.pwr.ejectAt = some u.now ∧ w.pwr.rebootFrom = (if reboot then some u.now else none)
    ∧ (∀ m : MbxId, w.host.mbx[m].cmd = none) ∧ w.host.resets = [] ∧ w.fab.outstanding = []
    ∧ (∀ x ∈ w.env.opens, ∃ y ∈ w.env.opens, y.part = x.part ∧ y.handle = x.handle ∧ y.state = .settling)
    ∧ (∀ c ∈ w.fab.ctxs, c.held = []) ∧ (∀ n : LinkId, ∀ x ∈ w.fab.ports[n].queue, x.cls ≠ .response ∧ x.cls ≠ .refusal) ∧ w.bist.kats = [] ∧ w.bist.sweeps = [] ∧ w.bist.scans = []
    ∧ (∀ e : EngId, w.eng[e].bist.inSlice = none) ∧ w.hist.waitingF = [] ∧ w.hist.waiting1 = [] ∧ w.sec = u.sec ∧ w.sms = u.sms
    ∧ w.fw = u.fw ∧ w.pending = u.pending ∧ ∀ n : LinkId, u.fab.ports[n].state = .openPort → w.fab.ports[n].blocks.getLast? = some .depart

/-- FW_STAGE, FW_VERIFY, FW_ACTIVATE, FW_STATUS, FW_RESTART, SETTINGS_SAVE, REC_INFO, REC_STAGE, REC_INSTALL, REC_RESTART. -/
def Obligations.FirmwareIsStagedVerifiedAndActivated : Prop :=
  (∀ (s : State) (t : Nat) (r : MbxReq),
    let u := s.advance t
    let f := u.fw
    let type := r.arg 0 1
    let head := imageHead (memRead f.nor 0x1D00000 64)
    let begun := fun (w : State) => { w with fw := { w.fw with
      activating := some r.mailbox.val, invalid := type :: w.fw.invalid.filter (· ≠ type), torn := type :: w.fw.torn.filter (· ≠ type) } }
    let whole := f.stagedType = type ∧ headOk head type 0xB1 (slotOf type).2 = true ∧ blocksOk f.blocks head.bytes = true
    (Cert.runs u 0x0B00 r → ∀ b : Nat, r.form 24 [(1, 1), (12, 4)] = true → 1 ≤ type → type ≤ 4 → r.arg 2 2 ≤ 127 → 1 ≤ r.arg 4 4 →
      r.arg 4 4 ≤ 65536 → r.arg 16 8 % 64 = 0 → bulkAt (r.arg 16 8) (r.arg 4 4) = some (0, b) → f.activating = none → r.aux = 0 →
      (r.arg 2 2 ≠ 0 → type = f.stagedType) →
        let x := (Cert.accepted u 0x0B00 r false).bulkRead 0 b (r.arg 4 4)
        let f' := { f with
          verified := false, stagedType := type, staged := if r.arg 2 2 = 0 then [] else assocDel (r.arg 2 2) f.staged
          chunks := if r.arg 2 2 = 0 then [] else f.chunks.filter fun c => c.1 ≠ r.arg 2 2 }
        exec (.fwStage t r) s =
          if crc32c x.2 = r.arg 8 4 then .next (Cert.kept { x.1 with fw := { f' with
            nor := memWrite f.nor (0x1D00000 + 65536 * r.arg 2 2) x.2, staged := assocSet (r.arg 2 2) (r.arg 4 4) f'.staged } } 0x0B00 r stOk [])
          else .next (Cert.kept { x.1 with fw := f' } 0x0B00 r stFwBadBlock []))
    ∧ (Cert.runs u 0x0B01 r → r.form 4 [(1, 3)] = true → 1 ≤ type → type ≤ 4 → f.activating = none →
      let no := fun (st : Status) => Host.Outcome.next (φ := Fault) (ρ := Refusal)
        (Cert.kept { Cert.accepted u 0x0B01 r false with fw := { f with verified := false } } 0x0B01 r st [])
      (¬ whole → exec (.fwVerify t r) s = no stFwBadBlock)
      ∧ (whole → r.verdict = false → exec (.fwVerify t r) s = no stFwBadSignature)
      ∧ (whole → r.verdict = true → u.fits head = false → exec (.fwVerify t r) s = no stFwIncompatible)
      ∧ (whole → r.verdict = true → u.fits head = true → exec (.fwVerify t r) s =
        Cert.did u 0x0B01 r (fun w => { w with fw := { f with verified := true } })
          (natLe head.version.toNat 4 ++ natLe head.iface.toNat 2 ++ [0, 0] ++ shake256 (memRead f.nor 0x1D00000 head.bytes))))
    ∧ (Cert.runs u 0x0B02 r → r.form 4 [(1, 3)] = true → 1 ≤ type → type ≤ 4 → f.activating = none →
      (f.verified = false ∨ f.stagedType ≠ type → exec (.fwActivate t r) s = Cert.refused u 0x0B02 r stBadArg)
      ∧ (f.verified = true → f.stagedType = type → exec (.fwActivate t r) s =
        if u.fits head then Cert.goesOn u 0x0B02 r begun else Cert.refused u 0x0B02 r stFwIncompatible))
    ∧ (r.form 4 [(0, 4)] = true →
      (Cert.runs u 0x0B03 r → exec (.fwStatus t r) s = Cert.did u 0x0B03 r id u.fwStatus)
      ∧ (Cert.runs u 0x0B05 r →
        let use := match f.settingsCopy with
          | none => (0, 1)
          | some (c, n) => (1 - c, (n + 1) % 2 ^ 32)
        exec (.settingsSave t r) s = Cert.did u 0x0B05 r fun w => { w with fw := { w.fw with
          nor := memWrite f.nor (0x50000 + 0x8000 * use.1) (u.settingsRecord f.format use.2), settingsCopy := some use } })
      ∧ (Cert.runs u 0x0B04 r →
        (f.activating.isSome = true → exec (.fwRestart t r) s = Cert.refused u 0x0B04 r stBusy)
        ∧ (f.activating = none → ∃ w : State, exec (.fwRestart t r) s = .next w ∧ Cert.ejecting u w true))
      ∧ (Cert.runs u 0x0F00 r → exec (.recInfo t r) s = Cert.did u 0x0F00 r id u.fwStatus)
      ∧ (Cert.runs u 0x0F03 r → exec (.recRestart t r) s = .next (Cert.accepted u 0x0F03 r false).restart))
    ∧ (Cert.runs u 0x0F01 r →
      (u.pwr.loaderBad = true → exec (.recStage t r) s = Cert.refused u 0x0F01 r stDenied)
      ∧ (u.pwr.loaderBad = false → r.form (16 + r.arg 6 2) [(1, 1), (12, 4)] = true → 1 ≤ type → type ≤ 4 → r.arg 2 2 ≤ 127 → r.arg 4 2 ≤ 63 →
        1 ≤ r.arg 6 2 → r.arg 6 2 ≤ 1024 → f.activating = none → r.aux = 0 → type = f.stagedType → r.arg 2 2 ≠ 0 →
          let bs := (r.args.drop 16).take (r.arg 6 2)
          crc32c bs = r.arg 8 4 → exec (.recStage t r) s = Cert.did u 0x0F01 r fun w => { w with fw := { f with
            verified := false, nor := memWrite f.nor (0x1D00000 + 65536 * r.arg 2 2 + 1024 * r.arg 4 2) bs
            chunks := (f.chunks.filter fun c => !(c.1 = r.arg 2 2 && c.2.1 = r.arg 4 2)) ++ [(r.arg 2 2, r.arg 4 2, r.arg 6 2)] } }))
    ∧ (Cert.runs u 0x0F02 r →
      (u.pwr.loaderBad = true → exec (.recInstall t r) s = Cert.refused u 0x0F02 r stDenied)
      ∧ (u.pwr.loaderBad = false → r.form 4 [(1, 3)] = true → 1 ≤ type → type ≤ 4 → f.activating = none →
        (whole → r.verdict = true → u.fits head = true → exec (.recInstall t r) s = Cert.goesOn u 0x0F02 r begun)
        ∧ (¬ whole → exec (.recInstall t r) s = Cert.refused u 0x0F02 r stFwBadBlock)))
    ∧ ∀ (m : MbxId) (c : RunCmd), u.host.mbx[m].cmd = some c → c.owner = none → c.waiting = false → c.result = none →
        c.opcode = 0x0B02 ∨ c.opcode = 0x0F02 → f.activating = some m.val → c.req.aux = 0 → 1 ≤ f.stagedType → f.stagedType ≤ 4 →
          ∃ w : State, exec (.mailboxResponse t m) s = .next w ∧ w.host.mbx[m].cmd = none ∧ w.host.mbx[m].resp.status = stOk
            ∧ memRead w.fw.nor (slotOf f.stagedType).1 head.bytes = memRead f.nor 0x1D00000 head.bytes
            ∧ (∀ a : Nat, a < (slotOf f.stagedType).1 ∨ (slotOf f.stagedType).1 + head.bytes ≤ a →
              memGet w.fw.nor a = memGet f.nor a) ∧ f.stagedType ∉ w.fw.invalid ∧ f.stagedType ∉ w.fw.torn ∧ w.fw.activating = none)

/-! Courier packets (chapter 10). -/

/-- The partner operations: OP, and the row. -/
def Cert.packetRows : List (Byte × (Nat → PortId → Packet → Instr)) :=
  [(1, .put), (2, .putNotify), (3, fun t n p => .get t n p {}), (4, .fetchAdd), (5, .cas), (6, .notify), (0x10, .envOpenOp),
   (0x11, .envCommitOp), (0x12, .envAbortOp), (0x13, .envStatusOp), (0x20, .frame)]

/-- A port changed. -/
def Cert.portTo (u : State) (n : LinkId) (f : Port → Port) : State :=
  { u with fab := { u.fab with ports := u.fab.ports.set n (f u.fab.ports[n]) } }

/-- A block of a packet heard on a port (R238). -/
def Cert.heard (u : State) (n : PortId) : State := Cert.portTo u (portLink n) fun q => { q with lastBlock := u.now, uncorrRun := 0 }

/-- A clear response queued under the refusal rate cap (R53, R253). -/
def Cert.turnedAway (u : State) (n : PortId) (op : Byte) (p : Packet) (st : Status) : State :=
  let q := u.fab.ports[portLink n]
  let full := 64 ≤ (q.queue.filter fun y => y.cls = .refusal).length
  let x : TxPkt :=
    { cls := .refusal, op := op + 0x80, pkt := { flags := 2, link := p.link, tag := p.tag, env := p.env, kvSeq := st } }
  Cert.portTo u (portLink n) fun q =>
    if q.clearLeft = 0 then { q with refusalDrops := bump 32 q.refusalDrops 1 }
    else if full then { q with clearLeft := q.clearLeft - 1, refusalDrops := bump 32 q.refusalDrops 1 }
    else { q with clearLeft := q.clearLeft - 1, queue := q.queue ++ [x] }

/-- A packet reaches check 3: its port is open, its CRC is right, and it names a context of the port that is not being closed. -/
def Cert.known (u : State) (n : PortId) (op : Byte) (p : Packet) (c : Ctx) : Prop :=
  u.fab.ports[portLink n].state = .openPort ∧ u.pwr.ejectAt = none ∧ p.crc.toNat = packetCrc op p ∧ u.resetting (.port n) = false
    ∧ u.ctx? p.link = some c ∧ c.port = n ∧ (∀ r ∈ u.host.resets, r.isClose = true → r.func ≠ .context c.part c.num)
    ∧ ∀ d ∈ u.fab.ctxs, d.held = []

/-- What check 4 makes of a packet of a secure context: its plaintext, where its epoch is installed and its tag is that of its header and its
ciphertext under that epoch's key (R242). -/
def Cert.opened (c : Ctx) (op : Byte) (p : Packet) : Option Packet :=
  ((c.key.installed.find? fun k => k.1 = p.epoch.toNat).bind fun k => gcmOpen k.2
    (natLe p.link.toNat 2 ++ natLe p.epoch.toNat 2 ++ natLe p.pktSeq.toNat 4 ++ [0, 0, 0, 0]) (headerBytes op p) p.payload
    (natLe p.gcmTag.toNat 16)).map fun bs => { p with payload := bs }

/-- A packet passes checks 3 to 6 with the plaintext `p'`: its epoch is installed and not retired, its tag right, its PKT_SEQ new, its credit
held. -/
def Cert.authentic (op : Byte) (p p' : Packet) (c : Ctx) : Prop :=
  c.clear = false ∧ (c.key.retired = 0 ∨ c.key.retired < p.epoch.toNat) ∧ Cert.opened c op p = some p'
    ∧ c.lastRx p.epoch < p.pktSeq.toNat ∧ c.heldBlocks + creditBlocks p'.payload.length ≤ c.creditBlocks

/-- The module serves the partition of a context (checks 8 and 12 aside). -/
def Cert.serves (u : State) (c : Ctx) : Prop :=
  u.pwr.phase = .service ∧ u.twin.role = .unpaired ∧ u.part[c.part].dissolving = none ∧ u.resetting (.context c.part c.num) = false
    ∧ hasBit u.twin.lost c.part.val = false

/-- A context after a packet has passed: its PKT_SEQ noted, its tokens taken (R247, R257). -/
def Cert.spent (c : Ctx) (p : Packet) (bytes : Nat) : Ctx :=
  { c with
    rx := assocSet p.epoch.toNat p.pktSeq c.rx, opsTok := if c.opsRate = 0 then c.opsTok else c.opsTok - 1
    bytesTok := if c.bytesRate = 0 then c.bytesTok else c.bytesTok - ceilDiv bytes 64 }

/-- The state in which a packet has passed its checks. -/
def Cert.took (u : State) (n : PortId) (p : Packet) (c : Ctx) (bytes : Nat) : State :=
  let w := Cert.heard u n
  { w with fab := { w.fab with ctxs := updWhere (fun d => d.link = c.link) (fun _ => Cert.spent c p bytes) w.fab.ctxs } }

/-- An answer queued, and the credit of the request returned (R243, R255). -/
def Cert.replied (w : State) (n : PortId) (c : Ctx) (op : Byte) (p : Packet) (arg : Word) (bs : List Byte) : State :=
  let silent := hasBit p.flags 0 && (op = 1 || op = 2 || op = 6)
  let x : TxPkt :=
    { cls := .response, op := op + 0x80, pkt := responsePkt c p stOk arg bs, ctx := some c.link.toNat, part := c.part }
  Cert.portTo w (portLink n) fun q => { q with
    queue := if silent then q.queue else q.queue ++ [x]
    blocks := q.blocks ++ [.credit c.link (BitVec.ofNat 16 (creditBlocks p.payload.length))] }

/-- An operation on memory noted for the order of the ports within a cycle (R254). -/
def Cert.opNoted (w : State) (n : PortId) (op : Byte) (p : Packet) (e : Option EngId) (part : PartId) (a : Nat) (before : List Byte) : State :=
  { w with fab := { w.fab with
    portOpsAt := w.now
    portOps := w.opsNow ++ [{ port := n, op := op, tag := p.tag, engine := e, part := part, addr := a, data := p.payload, before := before }] } }

/-- A refusal queued, but for a FRAME, its dead letter written where it has one, and the credit returned (R51, R243, R253, R255, R260). -/
def Cert.rejected (w : State) (n : PortId) (c : Ctx) (op : Byte) (p : Packet) (st : Status) (dead : Bool) : State :=
  let x : TxPkt :=
    { cls := .refusal, op := op + 0x80, pkt := responsePkt c p st 0 [], ctx := some c.link.toNat, part := c.part }
  let v := if op = 0x20 then w else w.queueRefusal n x
  (if dead then v.deadLetter c.part (headerBytes op p) st n.val false else v).returnCredit c (creditBlocks p.payload.length)

/-- The checks of PUT, PUT_NOTIFY, GET, FETCH_ADD, CAS, NOTIFY, ENV_OPEN, ENV_COMMIT, ENV_ABORT, ENV_STATUS and FRAME. -/
def Obligations.PacketsMeetTheirChecksInOrder : Prop :=
  ∀ row ∈ Cert.packetRows, ∀ (s : State) (t : Nat) (n : PortId) (p : Packet),
    let op := p.opCode.getD row.1
    let u := s.advance t
    let h := Cert.heard u n
    let q := u.fab.ports[portLink n]
    let step := exec (row.2 t n p) s
    let turned := fun (st : Status) =>
      Host.Outcome.next (φ := Fault) (ρ := Refusal) (if op = 0x20 then h else Cert.turnedAway h n op p st)
    (∀ d ∈ u.fab.ctxs, d.held = []) → u.pwr.ejectAt = none →
    (q.state ≠ .locked → q.state ≠ .openPort → q.state ≠ .fencedId → step = .next h)
    ∧ (q.state = .openPort → p.crc.toNat ≠ packetCrc op p →
        step = .next (Cert.portTo h (portLink n) fun x => { x with dropCrc := bump 8 x.dropCrc 1 }))
    ∧ (q.state = .fencedId → p.crc.toNat = packetCrc op p → step = turned stFenced)
    ∧ (q.state = .locked → p.crc.toNat = packetCrc op p → step = turned stNotReady)
    ∧ (q.state = .openPort → u.resetting (.port n) = false → p.crc.toNat = packetCrc op p → u.ctx? p.link = none →
        step = turned stNotReady)
    ∧ ∀ c : Ctx, Cert.known u n op p c → c.clear = false → (c.key.retired = 0 ∨ c.key.retired < p.epoch.toNat) →
      let drop := fun (f : Port → Port) => Host.Outcome.next (φ := Fault) (ρ := Refusal) (Cert.portTo h (portLink n) f)
      (Cert.opened c op p = none → step = drop fun x => { x with dropAuth := bump 8 x.dropAuth 1 })
      ∧ ∀ p' : Packet, Cert.opened c op p = some p' →
      (p.pktSeq.toNat ≤ c.lastRx p.epoch → step = drop fun x => { x with dropReplay := bump 8 x.dropReplay 1 })
      ∧ (c.lastRx p.epoch < p.pktSeq.toNat → c.creditBlocks < c.heldBlocks + creditBlocks p'.payload.length →
          step = drop fun x => { x with dropOverrun := bump 8 x.dropOverrun 1 })
      ∧ (Cert.authentic op p p' c → p.env = 0xFFFF →
        let c' := { c with rx := assocSet p.epoch.toNat p.pktSeq c.rx }
        let w := { h with fab := { h.fab with ctxs := updWhere (fun d => d.link = c.link) (fun _ => c') h.fab.ctxs } }
        let no := fun (st : Status) (dead : Bool) => Host.Outcome.next (φ := Fault) (ρ := Refusal) (Cert.rejected w n c' op p' st dead)
        (formOk c op p' = false → step = no stBadArg true)
        ∧ (formOk c op p' = true → c.filter = false →
          (u.pwr.phase ≠ .service → u.twin.role ≠ .inStep → u.twin.role ≠ .gaveUp → step = no stNotReady false)
          ∧ (Cert.serves u c → op.toNat ≤ 5 → op ≠ 2 →
            let win := u.win? p.window.toNat
            let span := if op = 3 then p.arg.toNat else if op = 4 ∨ op = 5 then 8 else p'.payload.length
            let bytes := if op = 3 then p.arg.toNat else p.length.toNat
            (win = none → step = no stNoWindow true)
            ∧ ∀ x : Win, win = some x →
              (x.part ≠ c.part ∨ x.ctx ≠ c.num → step = no stNoWindow true)
              ∧ (x.part = c.part → x.ctx = c.num →
                let right := hasBit x.rights (if op = 3 then 0 else if op = 4 ∨ op = 5 then 2 else 1)
                (right = false → step = no stDenied true)
                ∧ (right = true → x.length < p.offset.toNat + span → step = no stOutOfBounds true)
                ∧ (right = true → p.offset.toNat + span ≤ x.length → x.kind = .lpddr → u.units = [] →
                    (c.opsRate ≠ 0 ∧ c.opsTok = 0) ∨ (c.bytesRate ≠ 0 ∧ c.bytesTok < ceilDiv bytes 64) →
                      step = no stRefusedQuota false)))))

/-- A packet with the OP of its row and without memory errors, in a context none of whose commits is still to come, behind no operation of a higher
port in its cycle. -/
def Cert.plain (u : State) (n : PortId) (p : Packet) (c : Ctx) : Prop :=
  p.opCode = none ∧ p.flt = {} ∧ (∀ v ∈ u.env.opens, v.part = c.part → v.opener = some c.serial → v.asker = none) ∧ ∀ o ∈ u.opsNow, o.port ≤ n

/-- A packet passes every check up to its window, whose right and length it keeps to. -/
def Cert.granted (u : State) (n : PortId) (op : Byte) (p p' : Packet) (c : Ctx) (w : Win) (span bytes right : Nat) : Prop :=
  Cert.known u n op p c ∧ Cert.authentic op p p' c ∧ formOk c op p' = true ∧ Cert.plain u n p c ∧ c.filter = false ∧ Cert.serves u c ∧ p.env = 0xFFFF
    ∧ u.win? p.window.toNat = some w ∧ w.part = c.part ∧ w.ctx = c.num ∧ hasBit w.rights right = true ∧ p.offset.toNat + span ≤ w.length
    ∧ (c.opsRate = 0 ∨ c.opsTok ≠ 0) ∧ (c.bytesRate = 0 ∨ ceilDiv bytes 64 ≤ c.bytesTok) ∧ u.env.applies = [] ∧ u.units = []

/-- PUT, PUT_NOTIFY, GET, FETCH_ADD, CAS, NOTIFY, FRAME. -/
def Obligations.PartnerOperationsAct : Prop :=
  ∀ (s : State) (t : Nat) (n : PortId) (p p' : Packet) (c : Ctx) (w : Win),
    let u := s.advance t
    let len := p'.payload.length
    let at' := w.base + p.offset.toNat
    let took := fun (bytes : Nat) => Cert.took u n p c bytes
    let done := fun (op : Byte) (bytes : Nat) (v : State) (bs : List Byte) =>
      Host.Outcome.next (φ := Fault) (ρ := Refusal) (Cert.replied v n (Cert.spent c p bytes) op p' 0 bs)
    let here := fun (k : Nat) => regionRead u.part[c.part] at' k
    let wrote := fun (op : Byte) (k : Nat) (v : State) (bs : List Byte) =>
      Cert.opNoted (v.updPart c.part fun q => regionWrite q at' bs) n op p' none c.part at' (here k)
    (w.kind = .lpddr →
      (Cert.granted u n 1 p p' c w len len 1 → exec (.put t n p) s = done 1 len (wrote 1 len (took len) p'.payload) [])
      ∧ (Cert.granted u n 2 p p' c w len len 1 → u.pghGranted c p.notifyPgh.toNat = true → u.trigger? c.part p.notifyPgh.toNat = none →
          ∀ g : Nat, u.pghIndex c.part p.notifyPgh.toNat = some g → exec (.putNotify t n p) s =
            done 2 len ((wrote 2 len (took len) p'.payload).pghAdd g p.notifyAdd.toNat u.now) [])
      ∧ (Cert.granted u n 3 p p' c w p.arg.toNat p.arg.toNat 0 →
          (u.lpNow c.part = true → exec (.get t n p {}) s = done 3 p.arg.toNat
            (Cert.opNoted (took p.arg.toNat) n 3 p' none c.part at' (here p.arg.toNat)) (here p.arg.toNat))
          ∧ (u.lpNow c.part = false → ∃ v : State, exec (.get t n p {}) s = .next v ∧ v.part = u.part ∧ v.eng = u.eng ∧ v.host = u.host
            ∧ v.jobs = u.jobs ∧ (∀ l : LinkId, v.fab.ports[l].queue = u.fab.ports[l].queue)
            ∧ ∃ (d : Ctx) (x : HeldPkt), v.ctx? c.link = some d ∧ d.held = [x] ∧ x.op = 3 ∧ x.pkt.tag = p.tag ∧ x.addr = at'))
      ∧ (let old := here 8
        u.lpNow c.part = true →
        (Cert.granted u n 4 p p' c w 8 len 2 → exec (.fetchAdd t n p) s =
          done 4 len (wrote 4 8 (took len) (natLe ((leNat old + field p'.payload 0 8) % 2 ^ 64) 8)) old)
        ∧ (Cert.granted u n 5 p p' c w 8 len 2 → exec (.cas t n p) s =
          done 5 len (wrote 5 8 (took len) (natLe (if leNat old = field p'.payload 0 8 then field p'.payload 8 8 else leNat old) 8)) old)))
    ∧ (w.kind = .act → ∀ e : EngId, (u.live c.part)[w.logical]? = some e → u.resetting (.engine e) = false → u.eng[e].mem.actBad = [] →
        u.eng[e].unitAt ≠ u.now →
      let a := 64 * w.base + p.offset.toNat
      let here := fun (k : Nat) => memRead u.eng[e].act a k
      (Cert.granted u n 1 p p' c w len len 1 → ∃ v : State, exec (.put t n p) s = done 1 len v []
        ∧ (memWf u.eng[e].act = true → memRead v.eng[e].act a len = p'.payload)
        ∧ (memWf u.eng[e].act = true → ∀ b : Nat, b < a ∨ a + len ≤ b → memGet v.eng[e].act b = memGet u.eng[e].act b)
        ∧ (∀ d : EngId, d ≠ e → v.eng[d] = u.eng[d]) ∧ v.eng[e].store = u.eng[e].store ∧ v.part = u.part ∧ v.jobs = u.jobs
        ∧ v.fab = (Cert.opNoted (took len) n 1 p' (some e) c.part a (here len)).fab)
      ∧ (Cert.granted u n 3 p p' c w p.arg.toNat p.arg.toNat 0 → u.eng[e].vecLanded = [] →
          exec (.get t n p {}) s = done 3 p.arg.toNat
            (Cert.opNoted (took p.arg.toNat) n 3 p' (some e) c.part a (here p.arg.toNat)) (here p.arg.toNat)))
    ∧ (w.kind = .pgh → Cert.known u n 6 p c → Cert.authentic 6 p p' c → formOk c 6 p' = true → Cert.plain u n p c → c.filter = false →
        Cert.serves u c → len = 0 →
        p.env = 0xFFFF → u.win? p.window.toNat = some w → w.part = c.part → w.ctx = c.num → w.base ≤ p.notifyPgh.toNat →
        p.notifyPgh.toNat < w.base + w.length → (c.opsRate = 0 ∨ c.opsTok ≠ 0) → u.env.applies = [] →
        (∀ g : Nat, u.trigger? c.part p.notifyPgh.toNat = none → u.pghIndex c.part p.notifyPgh.toNat = some g →
          exec (.notify t n p) s = done 6 0 ((took 0).pghAdd g p.notifyAdd.toNat u.now) [])
        ∧ ∀ x : Schedule, u.trigger? c.part p.notifyPgh.toNat = some x → p.notifyAdd = 1 → u.triggerGate x = none →
          (∀ e ∈ u.live c.part, (u.queueOf e).length < 64) →
          let start := (u.live c.part).foldl (fun m e => max m u.eng[e].busyUntil) (u.now + 11)
          let budget := if p.arg.toNat = 0 then x.budget.toNat else p.arg.toNat
          let j : Job :=
            { id := u.nextJob, sched := x.handle, part := c.part, cls := some x.cls, engines := u.live c.part, w := x.w, t0 := u.now
              last := u.now + budget, finish := start + x.w
              source := .fabric n p.link p.tag 6 (hasBit p.flags 0), kvSeq := p.kvSeq.toNat, counting := u.live c.part
              released := some (u.now + 9), image := x.images }
          x.part = c.part → (∀ k ∈ u.jobs, k.id ≠ u.nextJob) →
          (start + x.w ≤ u.now + budget → ∃ v : State, exec (.notify t n p) s = done 6 0 v [] ∧ v.jobs = u.jobs ++ [j]
            ∧ v.nextJob = u.nextJob + 1 ∧ (∀ e ∈ u.live c.part, v.eng[e].busyUntil = start + x.w)
            ∧ (∀ e : EngId, e ∉ u.live c.part → v.eng[e] = u.eng[e]) ∧ v.part = u.part ∧ v.fab = (took 0).fab)
          ∧ (u.now + budget < start + x.w → ∃ v : State, exec (.notify t n p) s = .next v ∧ v.jobs = u.jobs ∧ v.eng = u.eng))
    ∧ (Cert.known u n 0x20 p c → c.clear = true → c.filter = true → p.epoch = 0 → p.gcmTag = 0 → p.opCode = none → p' = p →
        c.heldBlocks + creditBlocks len ≤ c.creditBlocks → formOk c 0x20 p = true → (∀ d ∈ u.fab.ctxs, d.link = c.link → d = c) →
        let h := Cert.heard u n
        let credit := fun (v : State) => Cert.portTo v (portLink n) fun q =>
          { q with blocks := q.blocks ++ [.credit c.link (BitVec.ofNat 16 (creditBlocks len))] }
        (h.filter n 0x20 p = .pass ∨ h.filter n 0x20 p = .drop → exec (.frame t n p) s = .next (credit h))
        ∧ (h.filter n 0x20 p = .deadLetter → exec (.frame t n p) s =
          .next (credit (h.deadLetter c.part (headerBytes 0x20 p) stDenied n.val false))))

/-- ENV_OPEN, ENV_COMMIT, ENV_ABORT, ENV_STATUS of a partner, and a staged PUT. -/
def Obligations.PartnersUseEnvelopes : Prop :=
  ∀ (s : State) (t : Nat) (n : PortId) (p p' : Packet) (c : Ctx),
    let u := s.advance t
    let c' := Cert.spent c p p.length.toNat
    let took := Cert.took u n p c p.length.toNat
    let passes := fun (op : Byte) => Cert.known u n op p c ∧ Cert.authentic op p p' c ∧ formOk c op p' = true ∧ p.opCode = none ∧ p.flt = {} ∧ c.filter = false
      ∧ Cert.serves u c ∧ (c.opsRate = 0 ∨ c.opsTok ≠ 0) ∧ (c.bytesRate = 0 ∨ ceilDiv p.length.toNat 64 ≤ c.bytesTok)
    let me := some c.serial
    let credit := fun (v : State) => Cert.portTo v (portLink n) fun q =>
      { q with blocks := q.blocks ++ [.credit c.link (BitVec.ofNat 16 (creditBlocks p'.payload.length))] }
    let mine := (u.env.opens.filter fun v => v.part = c.part && v.opener = me).length
    (passes 0x10 → mine < 4 → u.env.opens.length < 256 →
      let h := u.freeHandle c.part
      let v : Envelope :=
        { part := c.part, handle := h, opener := me, expiry := u.now + if p.arg.toNat = 0 then 90000000 else p.arg.toNat }
      exec (.envOpenOp t n p) s = .next (Cert.replied { took with env := { took.env with
          opens := took.env.opens ++ [v]
          nextHandle := took.env.nextHandle.set c.part (BitVec.ofNat 16 ((h.toNat + 1) % 65535)) } }
        n c' 0x10 p' (BitVec.ofNat 32 h.toNat) []))
    ∧ (passes 0x10 → 4 ≤ mine → exec (.envOpenOp t n p) s = .next
        (Cert.rejected { took with env := { took.env with event := setBit took.env.event 3 } } n c' 0x10 p' stEnvLimit false))
    ∧ (∀ v : Envelope, u.env? c.part p.env = some v → v.opener = me → v.asker = none →
      (passes 0x11 → v.state = .opened → exec (.envCommitOp t n p) s = .next (credit (took.updEnvelope c.part p.env fun x =>
        { x with asker := some (.packet n p'), state := .settling, prepared := none })))
      ∧ (passes 0x12 → v.prepared = none → v.state ≠ .settling → exec (.envAbortOp t n p) s = .next (Cert.replied { took with env := { took.env with
          opens := took.env.opens.filter fun x => !(x.part = c.part && x.handle = p.env)
          outcomes := keepOutcome took.env.outcomes
            { part := c.part, handle := p.env, opener := me, committed := false, staged := v.items.length, reason := 1, postmark := u.now }
          abortCount := bump 32 took.env.abortCount 1 } } n c' 0x12 p' 0 []))
      ∧ (passes 0x13 → v.state = .opened → exec (.envStatusOp t n p) s =
        .next (Cert.replied took n c' 0x13 p' (BitVec.ofNat 32 (1 + 65536 * v.items.length)) []))
      ∧ (passes 1 → v.state = .opened → ∀ (w : Win) (x : State), p.env ≠ 0xFFFF → u.win? p.window.toNat = some w → w.kind = .lpddr →
          w.part = c.part → w.ctx = c.num → hasBit w.rights 1 = true → p.offset.toNat + p'.payload.length ≤ w.length → u.units = [] →
          let o : EnvOp :=
            { kind := .put, space := .lpddr, addr := w.base + p.offset.toNat, data := p'.payload, window := some p.window.toNat, port := n }
          took.addItem c.part p.env (.op o) p'.payload.length = .ok x →
            x = took.updEnvelope c.part p.env (fun y => { y with items := y.items ++ [.op o], bytes := y.bytes + p'.payload.length })
            ∧ (u.part[c.part].shadow = [] → exec (.put t n p) s = .next (Cert.replied x n c' 1 p' 0 []))))
    ∧ (passes 0x11 → p.env ≠ 0xFFFF → u.env? c.part p.env = none → u.outcome? c.part p.env = none → exec (.envCommitOp t n p) s =
        .next (Cert.rejected took n c' 0x11 p' stBadArg false))

/-! Links (chapter 10). -/

/-- A block heard on a link (R238). -/
def Cert.heardOn (u : State) (n : LinkId) : State := Cert.portTo u n fun q => { q with lastBlock := u.now, uncorrRun := 0 }

/-- A link lost (R238, R256, R318): the port retrains with nothing queued, each operation that it awaited ends with ST_LINK_DOWN and a dead
letter, its contexts hold full credit, and a standby in step leaves step where the lost link is T0 while the claim stands. -/
def Cert.fallen (u : State) (n : LinkId) : State :=
  let q := u.fab.ports[n]
  let q' : Port :=
    { q with
      state := if q.state = .unused ∨ q.state = .fencedId then q.state else .training
      lock := false, identSeen := false, departSeen := false, queue := [], blocks := [], wire := none, uncorrRun := 0 }
  let gone := u.fab.outstanding.filter fun o => o.port.val = n.val
  let v := { u with fab := { u.fab with
    ports := u.fab.ports.set n q'
    outstanding := u.fab.outstanding.filter fun o => o.port.val ≠ n.val
    ctxs := updWhere (fun c => c.port.val = n.val) (fun c => { c with
      heldBlocks := 0, outCredit := c.creditBlocks, held := c.held.map fun x => { x with credit := false } }) u.fab.ctxs } }
  let v := gone.foldl (fun x o => x.deadLetter o.part (headerBytes o.op o.pkt) stLinkDown n.val true) v
  if n = twinLink ∧ u.twin.claimIn = true ∧ u.twin.role = .inStep then { v with twin := { v.twin with
    role := .outOfStep, event := setBit v.twin.event 5, txSeq := v.twin.txSeq + 1, outbox := v.twin.outbox ++ [(12, v.twin.txSeq)] } }
  else v

/-- Whether a packet may leave: its epoch is not used up, at most 4,096 operations are awaited, a packet that is no job output finds credit,
and an active's output lies within 8 of the last report acknowledged (R247, R255, R256, R314). -/
def Cert.mayLeave (u : State) (x : TxPkt) : Prop :=
  let asks := x.cls = .output ∨ x.cls = .other
  ∀ l : Nat, x.ctx = some l →
    (u.ctx? (BitVec.ofNat 16 l) = none → ¬ asks)
    ∧ ∀ c : Ctx, u.ctx? (BitVec.ofNat 16 l) = some c →
      (c.clear = true ∨ c.txEpoch ≠ sendEpoch c ∨ c.tx.toNat < 0xFFFFFF00) ∧ (asks → u.fab.outstanding.length < 4096)
      ∧ (x.cls = .other → creditBlocks x.pkt.payload.length ≤ c.outCredit)
      ∧ (x.cls = .output → u.twin.role = .active → u.twin.peerInStep = true → x.pkt.outputSeq.toNat ≤ u.twin.acked[x.part] + 8)

/-- The control blocks, the three ways to lose a link, RETRAIN_COMPLETE, IDENT_SEND and IDLE_SEND. -/
def Obligations.LinksAreHeardLostAndRetrained : Prop :=
  ∀ (s : State) (t : Nat) (n : LinkId) (id : Dword) (far : Byte) (pairs : List (Half × Half)),
    let u := s.advance t
    let q := u.fab.ports[n]
    let h := Cert.heardOn u n
    let sent := fun (more : List TxBlock) =>
      Cert.portTo u n fun x => { x with blocks := [], lastSent := u.now, sentBlocks := x.blocks ++ more }
    let me := TxBlock.ident u.sec.identity (BitVec.ofNat 8 n.val)
    (q.state = .unused → exec (.ident t n id far) s = .next u ∧ exec (.idle t n) s = .next u ∧ exec (.credit t n pairs) s = .next u
      ∧ exec (.depart t n) s = .next u ∧ exec (.retrainComplete t n) s = .next u)
    ∧ (q.state ≠ .unused →
      (let told := Cert.portTo h n fun x => { x with farId := id, farPort := far, identSeen := true }
      let checked := u.pwr.phase = .service ∧ q.lock = true ∧ q.state = .locked ∧ u.pwr.slotId ≠ 0xFFFF
        ∧ ∃ pl : Plan, u.fab.plan = some pl ∧ pl.slot = u.pwr.slotId
      (¬ checked → exec (.ident t n id far) s = .next told)
      ∧ (checked → ∀ pl : Plan, u.fab.plan = some pl →
        let want := pl.ports.getD n.val {}
        exec (.ident t n id far) s = .next (Cert.portTo told n fun x =>
          { x with state := if id = want.farId ∧ far = want.farPort then .openPort else .fencedId })))
      ∧ exec (.idle t n) s = .next h
      ∧ exec (.depart t n) s = .next (Cert.portTo h n fun x => { x with departSeen := true })
      ∧ ((∀ c ∈ u.fab.ctxs, ∀ d ∈ u.fab.ctxs, c.link = d.link ∨ (c.port = d.port ∧ c.remoteLink = d.remoteLink) → c = d) →
        exec (.credit t n pairs) s = .next { h with fab := { h.fab with
          ctxs := updWhere (fun c => c.port.val = n.val)
            (fun c => { c with outCredit := c.outCredit + (((pairs.take 5).filter fun x => x.1 = c.remoteLink).map fun x => x.2.toNat).sum })
            h.fab.ctxs } })
      ∧ (q.lock = false → u.host.hpReady = true → exec (.retrainComplete t n) s = .next (Cert.portTo u n fun x => { x with
          lock := true, lastBlock := u.now, identSeen := false, departSeen := false
          state := if q.state = .fencedId then .fencedId else .locked
          blocks := [me], identAt := some u.now })))
    ∧ (q.lock = true →
      exec (.blockLockLoss t n) s = .next (Cert.fallen u n)
      ∧ (let counted := Cert.portTo u n fun x => { x with fecUncorr := bump 32 x.fecUncorr 1, uncorrRun := x.uncorrRun + 1 }
        (q.uncorrRun < 7 → exec (.uncorrectableCodeword t n) s = .next counted)
        ∧ (7 ≤ q.uncorrRun → exec (.uncorrectableCodeword t n) s = .next (Cert.fallen counted n)))
      ∧ (u.now < q.lastBlock + 9000 → exec (.noBlockTimeout t n) s = .next u)
      ∧ (q.lastBlock + 9000 ≤ u.now → exec (.noBlockTimeout t n) s = .next (Cert.fallen u n))
      ∧ exec (.retrainComplete t n) s = .next u
      ∧ (me ∈ q.blocks → exec (.identSend t n) s = .next (sent []))
      ∧ (me ∉ q.blocks → q.identAt = none ∨ (∃ c : Nat, q.identAt = some c ∧ c + 90000000 ≤ u.now) → exec (.identSend t n) s =
        .next (Cert.portTo (sent [me]) n fun x => { x with identAt := some u.now }))
      ∧ (me ∉ q.blocks → ∀ c : Nat, q.identAt = some c → u.now < c + 90000000 → exec (.identSend t n) s = .next u)
      ∧ ((∃ y e, q.wire = some (y, e) ∧ u.now < e) → exec (.idleSend t n) s = .next u)
      ∧ ((∀ y e, q.wire = some (y, e) → e ≤ u.now) →
        let able := ∃ y ∈ q.queue, Cert.mayLeave u y ∧ (q.state = .openPort ∨ y.cls = .refusal)
        (q.blocks ≠ [] → exec (.idleSend t n) s = .next (sent []))
        ∧ (q.blocks = [] → able → exec (.idleSend t n) s = .next u)
        ∧ (q.blocks = [] → ¬ able → exec (.idleSend t n) s = .next (sent [.idle]))))
    ∧ (q.lock = false → exec (.blockLockLoss t n) s = .next u ∧ exec (.uncorrectableCodeword t n) s = .next u
      ∧ exec (.noBlockTimeout t n) s = .next u ∧ exec (.identSend t n) s = .next u ∧ exec (.idleSend t n) s = .next u)

/-- A packet as it goes on the wire of a context: in a secure one numbered, in the newest epoch, encrypted, and tagged over its header and
ciphertext under that epoch's key; and with the CRC-32C of all that (R241, R242, R247). -/
def Cert.wired (op : Byte) (c : Ctx) (seq : Word) (p : Packet) : Packet :=
  let q : Packet := match c.clear, c.key.installed with
    | false, (ep, key) :: _ =>
      let p := { p with pktSeq := seq, epoch := BitVec.ofNat 16 ep }
      let nonce := natLe p.link.toNat 2 ++ natLe p.epoch.toNat 2 ++ natLe p.pktSeq.toNat 4 ++ [1, 0, 0, 0]
      let x := gcmSeal key nonce (headerBytes op p) p.payload
      { p with payload := x.1, gcmTag := BitVec.ofNat 128 (leNat x.2) }
    | _, _ => p
  { q with crc := BitVec.ofNat 32 (crc32c (headerBytes op q ++ q.payload ++ natLe q.gcmTag.toNat 16)) }

/-- An awaited operation ended with a status: a dead letter is written for any but ST_OK (R256). -/
def Cert.ended (v : State) (rest : List OutOp) (o : OutOp) (st : Status) : State :=
  let v := { v with fab := { v.fab with outstanding := rest } }
  if st = stOk then v else v.deadLetter o.part (headerBytes o.op o.pkt) st o.port.val true

/-- EGRESS_PACKET_START, RESPONSE, REMOTE_TIMEOUT, TOKEN_PERIOD and REFUSAL_CAP_PERIOD. -/
def Obligations.PacketsLeaveAndAnswersEndThem : Prop :=
  ∀ (s : State) (t : Nat) (n : PortId) (op : Byte) (p : Packet) (tag : Word),
    let u := s.advance t
    let q := u.fab.ports[portLink n]
    let h := Cert.heard u n
    ((∀ d ∈ u.fab.ctxs, d.held = []) →
      (q.lock = false ∨ u.twin.role = .gaveUp ∨ (∃ y e, q.wire = some (y, e) ∧ u.now < e) ∨ ∀ y ∈ q.queue, ¬ Cert.mayLeave u y) →
      exec (.egressPacketStart t n) s = .next u)
    ∧ ((∀ d ∈ u.fab.ctxs, d.held = []) → q.state = .openPort → q.lock = true → u.twin.role ≠ .gaveUp → (∀ y e, q.wire = some (y, e) → e ≤ u.now) →
      ∀ (pre post : List TxPkt) (x : TxPkt) (c : Ctx), q.queue = pre ++ x :: post → Cert.mayLeave u x →
        (∀ y ∈ pre, y.cls = x.cls → ¬ Cert.mayLeave u y) →
        (∀ y ∈ q.queue, y.cls.rank < x.cls.rank → ¬ Cert.mayLeave u y) →
        x.ctx = some c.link.toNat → u.ctx? c.link = some c → (∀ d ∈ u.fab.ctxs, d.link = c.link → d = c) →
        let ep := sendEpoch c
        let seq : Word := if c.clear then 0 else if c.txEpoch = ep then c.tx + 1 else 1
        let y : TxPkt := { x with pkt := Cert.wired x.op c seq x.pkt }
        let c' := { c with
          tx := if c.clear then c.tx else seq
          txEpoch := if c.clear then c.txEpoch else ep
          outCredit := if x.cls = .other then c.outCredit - creditBlocks y.pkt.payload.length else c.outCredit }
        let await : OutOp := { port := n, tag := x.pkt.tag, limit := u.now + c.timeout, op := x.op, pkt := y.pkt, part := x.part }
        exec (.egressPacketStart t n) s = .next { u with
          fab := { u.fab with
            ports := u.fab.ports.set (portLink n) { q with
              queue := pre ++ post, wire := some (y, u.now + ceilDiv (packetBytes y.pkt.payload.length * 9) 250)
              lastSent := u.now, sentBlocks := q.blocks, blocks := [] }
            ctxs := updWhere (fun d => d.link = c.link) (fun _ => c') u.fab.ctxs
            outstanding := if x.cls = .output ∨ x.cls = .other then u.fab.outstanding ++ [await] else u.fab.outstanding }
          jobs := updWhere (fun j => x.job = some j.id) (fun j => { j with outEnd := max j.outEnd u.now }) u.jobs })
    ∧ (q.state ≠ .openPort → exec (.response t n op p) s = .next h)
    ∧ (q.state = .openPort → u.pwr.ejectAt = none →
      (p.crc.toNat ≠ packetCrc op p →
        exec (.response t n op p) s = .next (Cert.portTo h (portLink n) fun x => { x with dropCrc := bump 8 x.dropCrc 1 }))
      ∧ (p.crc.toNat = packetCrc op p →
        let clear := hasBit p.flags 1 = true ∧ p.epoch = 0
        let ans := fun (l : Half) (o : OutOp) => o.port = n ∧ o.tag = p.tag ∧ op = o.op + 0x80 ∧ o.pkt.link = l
        let first := fun (l : Half) (pre : List OutOp) (o : OutOp) (post : List OutOp) =>
          u.fab.outstanding = pre ++ o :: post ∧ ans l o ∧ ∀ y ∈ pre, ¬ ans l y
        (clear → ∀ (pre post : List OutOp) (o : OutOp), first p.link pre o post →
          exec (.response t n op p) s = .next (Cert.ended h (pre ++ post) o p.kvSeq))
        ∧ (¬ clear ∨ (∀ o ∈ u.fab.outstanding, ¬ ans p.link o) →
          (u.ctx? p.link = none → exec (.response t n op p) s = .next h)
          ∧ ∀ c : Ctx, u.ctx? p.link = some c → c.port = n → (∀ r ∈ u.host.resets, r.isClose = true → r.func ≠ .context c.part c.num) →
            c.clear = false → (c.key.retired = 0 ∨ c.key.retired < p.epoch.toNat) →
            (Cert.opened c op p = none → exec (.response t n op p) s =
              .next (Cert.portTo h (portLink n) fun x => { x with dropAuth := bump 8 x.dropAuth 1 }))
            ∧ ((Cert.opened c op p).isSome = true →
              (p.pktSeq.toNat ≤ c.lastRx p.epoch → exec (.response t n op p) s =
                .next (Cert.portTo h (portLink n) fun x => { x with dropReplay := bump 8 x.dropReplay 1 }))
              ∧ (c.lastRx p.epoch < p.pktSeq.toNat →
                let w := { h with fab := { h.fab with
                  ctxs := updWhere (fun d => d.link = c.link) (fun _ => { c with rx := assocSet p.epoch.toNat p.pktSeq c.rx }) h.fab.ctxs } }
                ((∀ o ∈ u.fab.outstanding, ¬ ans c.remoteLink o) → exec (.response t n op p) s = .next w)
                ∧ ∀ (pre post : List OutOp) (o : OutOp), first c.remoteLink pre o post →
                  exec (.response t n op p) s = .next (Cert.ended w (pre ++ post) o p.kvSeq))))))
    ∧ ((∀ o ∈ u.fab.outstanding, ¬ (o.port = n ∧ o.tag = tag)) → exec (.remoteTimeout t n tag) s = .next u)
    ∧ (∀ (pre post : List OutOp) (o : OutOp), u.fab.outstanding = pre ++ o :: post → o.port = n → o.tag = tag →
        (∀ y ∈ pre, ¬ (y.port = n ∧ y.tag = tag)) →
        (u.now < o.limit → exec (.remoteTimeout t n tag) s = .next u)
        ∧ (o.limit ≤ u.now → exec (.remoteTimeout t n tag) s = .next (Cert.ended u (pre ++ post) o stRemoteTimeout)))
    ∧ (u.frameTime % 4096 ≠ 0 ∨ u.fab.tokenAt = some u.now → exec (.tokenPeriod t) s = .next u)
    ∧ (u.frameTime % 4096 = 0 → u.fab.tokenAt ≠ some u.now → ∃ v : State, exec (.tokenPeriod t) s = .next v
      ∧ v = { u with fab := v.fab } ∧ v.fab = { u.fab with ctxs := v.fab.ctxs, tokenAt := some u.now }
      ∧ v.fab.ctxs.length = u.fab.ctxs.length
      ∧ ∀ x ∈ u.fab.ctxs.zip v.fab.ctxs, x.2 = { x.1 with opsTok := x.2.opsTok, bytesTok := x.2.bytesTok }
        ∧ x.2.opsTok = (if x.1.opsRate = 0 then x.1.opsTok else min x.1.opsBurst (x.1.opsTok + x.1.opsRate))
        ∧ x.2.bytesTok = if x.1.bytesRate = 0 then x.1.bytesTok else min x.1.bytesBurst (x.1.bytesTok + x.1.bytesRate))
    ∧ (u.now % 4096 ≠ 0 → exec (.refusalCapPeriod t) s = .next u)
    ∧ (u.now % 4096 = 0 → ∃ v : State, exec (.refusalCapPeriod t) s = .next v ∧ v = { u with fab := { u.fab with ports := v.fab.ports } }
      ∧ ∀ k : LinkId, v.fab.ports[k] = { u.fab.ports[k] with clearLeft := 8 })

/-! The host port (chapter 09). -/

/-- A bit of HST_ERR set (Table 09.18). -/
def Cert.hostErr (u : State) (i : Nat) : State := { u with host := { u.host with err := setBit u.host.err i } }

/-- A read answered with bytes (R211). -/
def Cert.answers (u : State) (bs : List Byte) : State := { u with host := { u.host with answered := true, rdata := bs } }

/-- MODE_REGISTER_WRITE and UNSUPPORTED_COMMAND (R209), MODE_REGISTER_READ, HOST_PORT_TRAINING, REFRESH and RESET_N. -/
def Obligations.HostPortIsAnLpddr5Device : Prop :=
  ∀ (s : State) (t : Nat) (ch : Fin 2) (mr v : Byte),
    let u := s.advance t
    let unsupported := Host.Outcome.next (φ := Fault) (ρ := Refusal) (Cert.hostErr u 0)
    let fixed := mr = 5 ∨ mr = 6 ∨ mr = 7 ∨ mr = 8
    (u.host.hpReady = true →
      exec (.modeRegisterWrite t ch mr v false) s = unsupported ∧ exec (.unsupportedCommand t ch) s = unsupported
      ∧ hasBit (Cert.hostErr u 0).host.err 0 = true ∧ (∀ (c : Fin 2) (r : Byte), (Cert.hostErr u 0).modeReg c r = u.modeReg c r)
      ∧ (∃ w : State, exec (.modeRegisterWrite t ch mr v true) s = .next w
        ∧ w = { u with host := { u.host with modeRegs := w.host.modeRegs } }
        ∧ ∀ (c : Fin 2) (r : Byte), w.modeReg c r = if c = ch ∧ r = mr ∧ ¬ fixed then v else u.modeReg c r)
      ∧ exec (.modeRegisterRead t ch mr) s = .next (Cert.answers u [u.modeReg ch mr])
      ∧ (mr = 5 → u.modeReg ch mr = 0x5D) ∧ (mr = 6 → u.modeReg ch mr = 0xB1) ∧ (mr = 7 → u.modeReg ch mr = 0x03)
      ∧ (mr = 8 → u.modeReg ch mr = Config.partByte 31 8)
      ∧ (¬ fixed → u.host.modeRegs[ch] = [] → u.modeReg ch mr = Config.partByte 31 mr.toNat)
      ∧ exec (.hostPortTraining t ch) s = .next { u with host := { u.host with trained := u.host.trained.set ch true } })
    ∧ exec (.refresh t ch) s = .next u
    ∧ exec (.resetN t ch) s =
        .next { u with host := { u.host with modeRegs := u.host.modeRegs.set ch [], trained := u.host.trained.set ch false } }
    ∧ (u.host.hpReady = false → exec (.modeRegisterWrite t ch mr v true) s = .next u ∧ exec (.modeRegisterWrite t ch mr v false) s = .next u
      ∧ exec (.unsupportedCommand t ch) s = .next u ∧ exec (.modeRegisterRead t ch mr) s = .next u
      ∧ exec (.hostPortTraining t ch) s = .next u)

/-! Direct windows (chapter 09). -/

/-- A window changed. -/
def Cert.winTo (u : State) (w : WinId) (f : DWin → DWin) : State :=
  { u with host := { u.host with win := u.host.win.set w (f u.host.win[w]) } }

/-- The first 32 bytes of a job's status row (Table 09.9). -/
def Cert.statusBytes (st : Status) (tag : Word) (postmark predicted : Nat) : List Byte :=
  natLe st.toNat 2 ++ [0, 0] ++ natLe tag.toNat 4 ++ natLe postmark 8 ++ natLe predicted 4 ++ List.replicate 12 0

/-- A trigger refused (R51, R222): its status row says so, readable 12 cycles after the decision in cycle 12. In a sealed window the row is
sealed, and the decision takes 20 cycles more (R28, R289). -/
def Cert.rowRefused (u : State) (w : WinId) (row : Nat) (tag : Word) (st : Status) (predicted : Nat) : State :=
  let v := Cert.winTo u w fun d => { d with failedEntry := false }
  if u.host.win[w].isSealed then v.jobRow w row st tag (u.now + 32) predicted 0xFF (u.now + 44)
  else Cert.winTo v w fun d => { d with
    rows := memWrite d.rows (64 * row) (Cert.statusBytes st tag (u.now + 12) predicted ++ List.replicate 32 0)
    notReady := (row, some (u.now + 24)) :: d.notReady.filter fun x => x.1 ≠ row }

/-- A data row written by the host (R97, R214, R220, R223, R224). -/
def Cert.WindowRows (s : State) (t : Nat) (w : WinId) (bs : List Byte) : Prop :=
  let u := s.advance t
  let d := u.host.win[w]
  (u.host.hpReady = true → u.pwr.phase = .recovery → ∀ (row off : Nat) (f : Flt),
    exec (.hostDataRowWrite t w row off bs f) s = .next (Cert.hostErr u 1))
  ∧ ∀ (row off : Nat) (e : EngId), d.engine = e → u.host.hpReady = true → u.pwr.phase ≠ .recovery → d.bound.isSome = true → row < 960 →
      off + bs.length ≤ 64 →
    let kept := Cert.winTo u w fun x =>
      { x with rows := memWrite x.rows (64 * row + off) bs, notReady := x.notReady.filter fun y => y.1 ≠ row }
    let still := d.isSealed = true ∨ d.inputRows ≤ row ∨ u.eng[e].fenced = true ∨ u.resetting (.engine e) = true
    (still → ∀ f : Flt, exec (.hostDataRowWrite t w row off bs f) s = .next kept)
    ∧ (¬ still → ∃ v : State, exec (.hostDataRowWrite t w row off bs {}) s = .next v ∧ v = { kept with eng := v.eng }
      ∧ (∀ k : EngId, k ≠ e → v.eng[k] = u.eng[k])
      ∧ (memWf u.eng[e].act = true → u.eng[e].mem.actBad = [] →
        let a := 64 * (d.inputLine + row) + off
        let g := v.eng[e]
        g = { u.eng[e] with
          act := g.act, sideAt := u.now, sideOld := g.sideOld, mem := { u.eng[e].mem with collisions := g.mem.collisions } }
        ∧ memRead g.act a bs.length = bs
        ∧ ∀ b : Nat, b < a ∨ a + bs.length ≤ b → memGet g.act b = memGet u.eng[e].act b))

/-- A trigger record (R221, R222, R236, R49-R51). -/
def Cert.WindowTriggers (s : State) (t : Nat) (w : WinId) (bs : List Byte) : Prop :=
  let u := s.advance t
  let d := u.host.win[w]
  let late := if d.isSealed then 20 else 0
  let row := field bs 12 2
  let tag : Word := BitVec.ofNat 32 (field bs 8 4)
  let refused := fun (st : Status) => Host.Outcome.next (φ := Fault) (ρ := Refusal) (Cert.rowRefused u w row tag st 0)
  u.host.hpReady = true →
  (u.pwr.phase = .recovery → exec (.triggerRecord t w bs) s = .next (Cert.hostErr u 1))
  ∧ (u.pwr.phase ≠ .recovery →
  (d.bound = none ∨ d.releasing.isSome = true ∨ row < 960 ∨ 1007 < row → exec (.triggerRecord t w bs) s = .next (Cert.hostErr u 3))
  ∧ ∀ p : PartId, d.bound = some p → d.releasing = none → 960 ≤ row → row ≤ 1007 →
    ((∀ c ∈ u.scheds, ¬ (c.part = p ∧ c.trigger = field bs 0 2 ∧ c.disarming = false)) →
      exec (.triggerRecord t w bs) s = refused stBadArg)
    ∧ (allZero (bs.drop 14) = false → exec (.triggerRecord t w bs) s = refused stBadArg)
    ∧ ∀ c : Schedule, u.trigger? p (field bs 0 2) = some c → allZero (bs.drop 14) = true →
      (d.failedEntry = true → exec (.triggerRecord t w bs) s = refused stDenied)
      ∧ (d.failedEntry = false → d.rate ≠ 0 → d.tokens = 0 → exec (.triggerRecord t w bs) s = refused stRefusedQuota)
      ∧ (d.failedEntry = false → (d.rate = 0 ∨ d.tokens ≠ 0) →
        let paid := if d.rate = 0 then u else Cert.winTo u w fun x => { x with tokens := x.tokens - 1 }
        let start := (u.live c.part).foldl (fun m e => max m u.eng[e].busyUntil) (u.now + 16 + late)
        let budget := if field bs 4 4 = 0 then c.budget.toNat else field bs 4 4
        (∀ st : Status, u.triggerGate c = some st → exec (.triggerRecord t w bs) s = .next (Cert.rowRefused paid w row tag st 0))
        ∧ (u.triggerGate c = none → (∀ e ∈ u.live c.part, (u.queueOf e).length < 64) →
          (u.now + budget < start + c.w → exec (.triggerRecord t w bs) s =
            .next (Cert.rowRefused paid w row tag stRefusedDeadline (start + c.w - u.now)))
          ∧ (start + c.w ≤ u.now + budget →
            let j : Job :=
              { id := u.nextJob, sched := c.handle, part := c.part, cls := some c.cls, engines := u.live c.part, w := c.w
                t0 := u.now, last := u.now + budget, finish := start + c.w, source := .window w row tag, kvSeq := field bs 2 2
                counting := u.live c.part, released := some (u.now + 14 + late), image := c.images }
            ∃ v : State, exec (.triggerRecord t w bs) s = .next v
              ∧ v = { (Cert.winTo paid w fun x => { x with
                  failedEntry := false, notReady := (row, none) :: x.notReady.filter fun y => y.1 ≠ row }) with
                jobs := u.jobs ++ [j], nextJob := u.nextJob + 1, eng := v.eng }
              ∧ ∀ e : EngId, v.eng[e] = if e ∈ u.live c.part then { u.eng[e] with busyUntil := start + c.w } else u.eng[e]))))

/-- A seal entry of the host (R214, R289). -/
def Cert.WindowSeals (s : State) (t : Nat) (w : WinId) (bs : List Byte) : Prop :=
  let u := s.advance t
  let d := u.host.win[w]
  ∀ (entry : Nat) (p : PartId) (e : EngId), d.engine = e → u.host.hpReady = true → d.bound = some p → d.isSealed = true → entry < 32 →
    (u.pwr.phase = .recovery → exec (.sealEntry t w entry bs) s = .next (Cert.hostErr u 1))
    ∧ (u.pwr.phase ≠ .recovery →
    let b := padTo 32 bs
    let seq := field b 0 8
    let first := field b 8 2
    let rows := field b 10 2
    let ep := field b 12 2
    let kept := Cert.winTo u w fun x => { x with
      rows := memWrite x.rows (64 * 928 + 32 * entry) b, notReady := x.notReady.filter fun y => y.1 ≠ 928 + entry / 2 }
    let nonce := [0#8, BitVec.ofNat 8 w.val, 0#8, 0#8] ++ natLe seq 8
    let opened := (assoc ep u.part[p].host.installed).bind fun key =>
      gcmOpen key nonce (b.take 16) (memRead kept.host.win[w].rows (64 * first) (64 * rows)) ((b.drop 16).take 16)
    let good := first ≤ 927 ∧ 1 ≤ rows ∧ first + rows ≤ 928 ∧ field b 14 2 = 0
      ∧ ((assoc (w.val, 0, ep) u.part[p].series).getD 0).toNat < seq ∧ opened.isSome = true
    (¬ good → exec (.sealEntry t w entry bs) s = .next { (Cert.winTo kept w fun x => { x with failedEntry := true }) with
      sec := { u.sec with event := setBit u.sec.event 2 } })
    ∧ (good → ∀ plain : List Byte, opened = some plain →
      let noted := kept.updPart p fun q => { q with series := assocSet (w.val, 0, ep) (BitVec.ofNat 64 seq) q.series }
      (u.eng[e].fenced = true ∨ d.inputRows ≤ first → exec (.sealEntry t w entry bs) s = .next noted)
      ∧ (u.eng[e].fenced = false → u.resetting (.engine e) = false → first + rows ≤ d.inputRows →
          memWf u.eng[e].act = true → u.eng[e].mem.actBad = [] →
        let a := 64 * (d.inputLine + first)
        ∃ v : State, exec (.sealEntry t w entry bs) s = .next v ∧ v = { noted with eng := v.eng }
          ∧ memRead v.eng[e].act a (64 * rows) = plain
          ∧ (∀ b : Nat, b < a ∨ a + 64 * rows ≤ b → memGet v.eng[e].act b = memGet u.eng[e].act b)
          ∧ ∀ k : EngId, k ≠ e → v.eng[k] = u.eng[k])))

/-- The commands of a direct window, and its quota (R236). -/
def Obligations.DirectWindowsTakeRowsAndTriggers : Prop :=
  ∀ (s : State) (t : Nat) (w : WinId) (bs : List Byte),
    let u := s.advance t
    Cert.WindowRows s t w bs ∧ Cert.WindowTriggers s t w bs ∧ Cert.WindowSeals s t w bs
    ∧ (∀ v : Word, u.host.hpReady = true → u.pwr.phase ≠ .recovery → exec (.hstDwinQuotaWrite t w v) s = .next (Cert.winTo u w fun x =>
        let burst : Byte := if v.extractLsb' 16 8 = 0 then x.burst else v.extractLsb' 16 8
        { x with rate := v.extractLsb' 0 16, burst := burst, tokens := burst }))
    ∧ (u.now % 65536 ≠ 0 ∨ u.host.quotaAt = some u.now → exec (.dwinQuotaPeriod t) s = .next u)
    ∧ (u.now % 65536 = 0 → u.host.quotaAt ≠ some u.now → ∃ v : State, exec (.dwinQuotaPeriod t) s = .next v
      ∧ v = { u with host := { u.host with win := v.host.win, quotaAt := some u.now } }
      ∧ ∀ k : WinId, v.host.win[k] = { u.host.win[k] with tokens := v.host.win[k].tokens }
        ∧ v.host.win[k].tokens.toNat = (if u.host.win[k].rate = 0 then u.host.win[k].tokens.toNat
          else min u.host.win[k].burst.toNat (u.host.win[k].tokens.toNat + u.host.win[k].rate.toNat)))
    ∧ (∀ c : PowerUpCond, u.pwr.phase = .unpowered → u.pwr.latchedOpen = false → c.present = true → c.epo = false → c.heldOneSecond = true →
        4800 ≤ c.vin.toNat → c.vin.toNat ≤ 6000 →
        ∃ v : State, exec (.powerUp t c) s = .next v ∧ ∀ k : WinId, v.host.win[k].rate = 0 ∧ v.host.win[k].tokens = v.host.win[k].burst)

/-! Registers and the bulk area (chapter 09). -/

/-- A write of the register word at an address. -/
def Cert.writes (s : State) (t addr : Nat) (v : Word) : Host.Outcome State Fault Refusal :=
  exec (.registerWrite t (BitVec.ofNat 32 addr) (BitVec.ofNat 64 v.toNat)) s

/-- A W1C field after a write (R11): of what stood before the events of its cycle, which stay set (R13). -/
def Cert.w1cLeft {n : Nat} (old : BitVec n) (v : Word) : BitVec n := old &&& ~~~(BitVec.ofNat n v.toNat)

/-- Addresses at which a write is ignored and noted (R211, R214, R224, Table 09.4). -/
def Cert.ignored (u : State) (addr : Nat) : Prop :=
  addr < 0x10000 ∨ (0x20000 ≤ addr ∧ addr < 0x100000) ∨ (0xFFF800 ≤ addr ∧ addr < 0x1000000) ∨ 0x1E000000 ≤ addr
    ∨ (0x100000 ≤ addr ∧ addr < 0x140000 ∧ 0x800 ≤ addr % 0x1000)
    ∨ (0x200000 ≤ addr ∧ addr < 0x300000 ∧ 960 ≤ addr % 0x10000 / 64 ∧ addr % 0x10000 / 64 < 1008)
    ∨ ∃ p : PartId, 0x10000000 + 0x2000000 * p.val ≤ addr ∧ addr < 0x10000000 + 0x2000000 * p.val + 0x10000
      ∧ ∀ w : WinId, u.host.win[w].bound = some p → u.host.win[w].isSealed = false

/-- Writes of the registers of the units, by the access of their fields (R9, R11). -/
def Cert.UnitRegisterWrites (s : State) (t : Nat) (v : Word) : Prop :=
  let u := s.advance t
  let wr := fun (addr : Nat) (x : State) => Cert.writes s t addr v = .next x
  wr 0x10200 { u with host := { u.host with errWas := Cert.w1cLeft u.host.errWas v } }
    ∧ wr 0x10120 { u with host := { u.host with utcLo := v } }
    ∧ exec (.hstUtcHiWrite t v) s =
        .next { u with host := { u.host with utcHi := v, utcBase := some (u.host.utcLo.toNat + 2 ^ 32 * v.toNat, u.now) } }
    ∧ (∀ w : WinId, wr (0x10340 + 4 * w.val) u)
    ∧ wr 0x620100 { u with env := { u.env with eventWas := Cert.w1cLeft u.env.eventWas v } }
    ∧ wr 0x630000 { u with fab := { u.fab with pghSatWas := u.fab.pghSatWas && !v.getLsbD 0 } }
    ∧ wr 0x640010 { u with cvu := { u.cvu with eventWas := Cert.w1cLeft u.cvu.eventWas v } }
    ∧ wr 0x650010 { u with vid := { u.vid with eventWas := Cert.w1cLeft u.vid.eventWas v } }
    ∧ wr 0x670050 { u with sec := { u.sec with eventWas := Cert.w1cLeft u.sec.eventWas v } }
    ∧ wr 0x690004 { u with pwr := { u.pwr with eventWas := Cert.w1cLeft u.pwr.eventWas v } }
    ∧ wr 0x6A0000 { u with pwr := { u.pwr with refLostWas := u.pwr.refLostWas && !v.getLsbD 1 } }
    ∧ wr 0x6B0004 { u with pwr := { u.pwr with thmEventWas := Cert.w1cLeft u.pwr.thmEventWas v } }
    ∧ wr 0x6C0004 { u with twin := { u.twin with eventWas := Cert.w1cLeft u.twin.eventWas v } }
    ∧ (∃ x : State, wr 0x670010 x ∧ x = { u with sec := { u.sec with debug := x.sec.debug } }
        ∧ ∀ p : PartId, hasBit x.sec.debug p.val = if u.part[p].confidential then hasBit u.sec.debug p.val else v.getLsbD p.val)
    ∧ (let may := u.sec.lifecycle = 1 ∨ u.sec.lifecycle = 4 ∨ (u.sec.lifecycle = 3 ∧ u.bist.granted ≠ 0)
      (¬ may ∨ v.extractLsb' 0 2 = 0 → wr 0x680000 u)
      ∧ (may → v.extractLsb' 0 2 ≠ 0 → wr 0x680000 { u with bist := { u.bist with
          stagger := v.getLsbD 0, gate := v.getLsbD 1, periodic := v.getLsbD 5
          maxConcurrent := if 1 ≤ v.extractLsb' 2 3 ∧ v.extractLsb' 2 3 ≤ 6 then v.extractLsb' 2 3 else u.bist.maxConcurrent } }))
    ∧ ∀ p : PartId, exec (.crrDlqHeadWrite t p v) s =
        (let d := u.fab.dlq[p]
        .next { u with fab := { u.fab with
          dlq := u.fab.dlq.set p { d with head := v.extractLsb' 0 6, full := d.full && decide (v.extractLsb' 0 6 = d.head) } } })

/-- Writes of the registers of an engine and of a KV pool (Tables 02.9, 03.7, 04.5, 04.9, 04.10, 07.11, 07.17, 08.8, 08.12). -/
def Cert.EngineRegisterWrites (s : State) (t : Nat) (v : Word) : Prop :=
  let u := s.advance t
  (∀ (e : EngId) (c : Fin 16),
    let g := u.eng[e]
    let wr := fun (o : Nat) (x : Engine) => Cert.writes s t (0x400000 + 0x10000 * e.val + o) v = .next { u with eng := u.eng.set e x }
    (v.getLsbD 0 = true → v.getLsbD 2 = true → wr (0x400 + 4 * c.val) g)
    ∧ (v.getLsbD 0 = false ∨ v.getLsbD 2 = false → wr (0x400 + 4 * c.val) { g with dlClass := g.dlClass.set c.val (v &&& 0xFFFF0007) })
    ∧ wr 0x440 { g with dlMissWas := g.dlMissWas && !v.getLsbD 0 }
    ∧ wr 0x500 { g with arithExcWas := Cert.w1cLeft g.arithExcWas v }
    ∧ wr 0x604 { g with mem := { g.mem with storeCeWas := g.mem.storeCeWas && !v.getLsbD 0, storeUeWas := g.mem.storeUeWas && !v.getLsbD 1 } }
    ∧ wr 0x614 { g with digests := { g.digests with mismatchWas := g.digests.mismatchWas && !v.getLsbD 1 } }
    ∧ wr 0x700 { g with mem := { g.mem with actCeWas := g.mem.actCeWas && !v.getLsbD 0, actUeWas := g.mem.actUeWas && !v.getLsbD 1 } }
    ∧ wr 0x900 { g with chkStatusWas := Cert.w1cLeft g.chkStatusWas v }
    ∧ wr 0x914 { g with rerunMask := v.extractLsb' 0 16 }
    ∧ wr 0x444 g)
  ∧ ∀ p : PartId, p ≠ 0 →
    let k := u.part[p].kv
    let wr := fun (o : Nat) (x : KvPool) =>
      Cert.writes s t (0x500000 + 0x1000 * (p.val - 1) + o) v = .next { u with part := u.part.set p { u.part[p] with kv := x } }
    wr 0x004 { k with eventWas := Cert.w1cLeft k.eventWas v }
    ∧ wr 0x040 (if v.extractLsb' 0 7 ≤ 64 then { k with reserve := v.extractLsb' 0 7 } else k)

/-- Reads that subtract what they return, which is what stood before the events of their cycle (R13, R40, R214). -/
def Cert.RegisterReads (s : State) (t : Nat) : Prop :=
  let u := s.advance t
  let read := fun (addr : Nat) (word : Nat) (x : State) => exec (.rcFieldRead t (BitVec.ofNat 32 addr)) s = .next (Cert.answers x (natLe word 4))
  exec (.hstPostmarkLoRead t) s =
      .next { u with host := { u.host with answered := true, rdata := natLe u.now 4, postmarkHi := BitVec.ofNat 32 (u.now / 2 ^ 32) } }
    ∧ read 0x10200 (u.host.errWas ||| u.host.err).toNat u
    ∧ (∀ addr : Nat, 0x2000 ≤ addr → addr < 0x10000 → read addr 0 u)
    ∧ (∀ e : EngId,
      let g := u.eng[e]
      let rc := fun (o : Nat) (word : Nat) (x : Engine) => read (0x400000 + 0x10000 * e.val + o) word { u with eng := u.eng.set e x }
      rc 0x444 g.dlMissCountWas.toNat { g with dlMissCountWas := 0 }
      ∧ rc 0x504 g.satCountWas.toNat { g with satCountWas := 0 }
      ∧ rc 0x608 g.mem.storeCeCountWas.toNat { g with mem := { g.mem with storeCeCountWas := 0 } }
      ∧ rc 0x704 g.mem.actCeCountWas.toNat { g with mem := { g.mem with actCeCountWas := 0 } }
      ∧ rc 0x70C g.mem.collisionsWas.toNat { g with mem := { g.mem with collisionsWas := 0 } }
      ∧ rc 0x904 g.chkCountWas.toNat { g with chkCountWas := 0 }
      ∧ rc 0x914 g.rerunMask.toNat g)
    ∧ (∀ p : PartId, p ≠ 0 → read (0x500014 + 0x1000 * (p.val - 1)) u.part[p].kv.fullCountWas.toNat
        { u with part := u.part.set p { u.part[p] with kv := { u.part[p].kv with fullCountWas := 0 } } })
    ∧ (∀ n : LinkId,
      let q := u.fab.ports[n]
      let rc := fun (o : Nat) (word : Nat) (x : Port) =>
        read (0x600000 + 0x100 * n.val + o) word { u with fab := { u.fab with ports := u.fab.ports.set n x } }
      rc 0x10 q.fecCorrWas.toNat { q with fecCorrWas := 0 } ∧ rc 0x14 q.fecUncorrWas.toNat { q with fecUncorrWas := 0 }
      ∧ rc 0x18 (q.dropCrcWas.toNat + 2 ^ 8 * q.dropAuthWas.toNat + 2 ^ 16 * q.dropReplayWas.toNat + 2 ^ 24 * q.dropOverrunWas.toNat)
        { q with dropCrcWas := 0, dropAuthWas := 0, dropReplayWas := 0, dropOverrunWas := 0 }
      ∧ rc 0x1C q.refusalDropsWas.toNat { q with refusalDropsWas := 0 })
    ∧ (∀ p : PartId,
      let d := u.fab.dlq[p]
      read (0x601000 + 0x10 * p.val) (d.head.toNat + 2 ^ 8 * d.tail.toNat + 2 ^ 14 * d.full.toNat + 2 ^ 16 * d.dropsWas.toNat)
        { u with fab := { u.fab with dlq := u.fab.dlq.set p { d with dropsWas := 0 } } })
    ∧ read 0x620104 u.env.abortCountWas.toNat { u with env := { u.env with abortCountWas := 0 } }
    ∧ read 0x650014 u.vid.damagedCountWas.toNat { u with vid := { u.vid with damagedCountWas := 0 } }
    ∧ read 0x680040 u.bist.skippedWas.toNat { u with bist := { u.bist with skippedWas := 0 } }

/-- An aperture changed. -/
def Cert.bulkTo (u : State) (a : PartId) (b : Bulk) : State := { u with host := { u.host with bulk := u.host.bulk.set a b } }

/-- The pages of a bulk area with one in the place of the frame that holds it. -/
def Cert.framed (fs : List Frame) (f : Frame) : List Frame := f :: fs.filter fun g => g.page ≠ f.page

/-- Bytes of one page written by the host (R226). -/
def Cert.pagePut (v : State) (a : PartId) (page off : Nat) (bs : List Byte) : State :=
  let b := v.host.bulk[a]
  let fresh : Frame :=
    { page := page, bytes := memWrite [] off bs, mask := BitVec.ofNat 4096 (2 ^ bs.length - 1) <<< off, fetching := true
      dirtySince := some v.now, lastUse := v.now }
  match b.frames.find? fun f => f.page = page with
  | some f =>
    let f' := { f with
      bytes := memWrite f.bytes off bs, lastUse := v.now, dirtySince := some (f.dirtySince.getD v.now)
      mask := if f.fetching then f.mask ||| (BitVec.ofNat 4096 (2 ^ bs.length - 1) <<< off) else f.mask }
    Cert.bulkTo v a { b with frames := Cert.framed b.frames f' }
  | none => match b.room with
    | some c => Cert.bulkTo v a { c with frames := Cert.framed c.frames fresh }
    | none => Cert.hostErr (Cert.bulkTo v a { b with drops := bump 14 b.drops 1 }) 4

/-- A page read by the host: its frame is used now, or a fetch of it starts where at most seven run and a frame can be taken (R226). -/
def Cert.pageTouched (v : State) (a : PartId) (page : Nat) : State :=
  let b := v.host.bulk[a]
  match b.frames.find? fun f => f.page = page with
  | some f => Cert.bulkTo v a { b with frames := Cert.framed b.frames { f with lastUse := v.now } }
  | none => if 8 ≤ (b.frames.filter fun f => f.fetching).length then v else match b.room with
    | some c => Cert.bulkTo v a { c with frames := Cert.framed c.frames { page := page, fetching := true, lastUse := v.now } }
    | none => v

/-- The bulk area of an aperture as the host uses it (R225, R226). -/
def Cert.BulkArea (s : State) (t : Nat) (a : PartId) : Prop :=
  let u := s.advance t
  let b := u.host.bulk[a]
  let page? := fun (n : Nat) => b.frames.find? fun f => f.page = n
  let mapped := u.pwr.phase ≠ .recovery ∧ u.part[a].isThere = true
  u.host.hpReady = true →
  (b.frames.length < 64 → b.room = some b)
  ∧ (64 ≤ b.frames.length → (∀ f ∈ b.frames, f.clean = false) → b.room = none)
  ∧ (64 ≤ b.frames.length → (∃ f ∈ b.frames, f.clean = true) → ∃ f ∈ b.frames, f.clean = true
    ∧ (∀ g ∈ b.frames, g.clean = true → f.lastUse ≤ g.lastUse) ∧ b.room = some { b with frames := b.frames.filter fun g => g.page ≠ f.page })
  ∧ (∀ (off : Nat) (bs : List Byte),
    (¬ mapped → exec (.bulkWrite t a off bs) s = .next (Cert.hostErr u 1))
    ∧ (mapped → exec (.bulkWrite t a off bs) s = .next ((List.range ((off % 4096 + bs.length + 4095) / 4096)).foldl (fun v i =>
        Cert.pagePut v a (off / 4096 + i) (if i = 0 then off % 4096 else 0)
          ((bs.zipIdx.filter fun x => (off + x.2) / 4096 = off / 4096 + i).map Prod.fst)) u)))
  ∧ (∀ off n : Nat,
    (¬ mapped → exec (.bulkRead t a off n) s = .next (Cert.answers u (List.replicate n 0)))
    ∧ (mapped → exec (.bulkRead t a off n) s = .next ((List.range ((off % 4096 + n + 4095) / 4096)).foldl
        (fun v i => Cert.pageTouched v a (off / 4096 + i))
        (Cert.answers u ((List.range n).map fun i => match page? ((off + i) / 4096) with
          | none => 0xE7
          | some f => if f.fetching then 0xE7 else memGet f.bytes ((off + i) % 4096))))))
  ∧ ∀ page : Nat,
    (page? page = none → exec (.bulkFetchDone t a page) s = .next u)
    ∧ ∀ f : Frame, page? page = some f →
      (f.fetching = false ∨ u.pwr.trained = false ∨ u.lpServed a 150 = false → exec (.bulkFetchDone t a page) s = .next u)
      ∧ (f.fetching = true → u.pwr.trained = true → u.lpServed a 150 = true → u.units = [] → ∃ f' : Frame,
        exec (.bulkFetchDone t a page) s = .next (Cert.bulkTo u a { b with frames := Cert.framed b.frames f' })
        ∧ f' = { f with bytes := f'.bytes, mask := 0, fetching := false } ∧ memWf f'.bytes = true
        ∧ ∀ i : Nat, i < 4096 → memGet f'.bytes i = if hasBit f.mask i then memGet f.bytes i
          else (regionRead u.part[a] (regionBytes u.part[a] - 2 ^ 25 + 4096 * page) 4096).getD i 0)

/-- REGISTER_WRITE, UNMAPPED_WRITE, RC_FIELD_READ, HST_POSTMARK_LO_READ, HST_UTC_HI_WRITE, CRR_DLQ_HEAD_WRITE, reset values, and BULK_WRITE,
BULK_READ, BULK_FETCH_DONE. -/
def Obligations.RegistersFollowTheirAccess : Prop :=
  (∀ (s : State) (t : Nat) (v : Word) (addr : Word),
    let u := s.advance t
    (u.host.hpReady = true → u.pwr.phase ≠ .recovery →
      ((∀ p : PartId, u.part[p].confidential = false) →
        Cert.UnitRegisterWrites s t v ∧ Cert.EngineRegisterWrites s t v ∧ Cert.RegisterReads s t)
      ∧ (Cert.ignored u addr.toNat →
        Cert.writes s t addr.toNat v = .next (Cert.hostErr u 1) ∧ exec (.unmappedWrite t addr) s = .next (Cert.hostErr u 1)))
    ∧ (u.host.hpReady = true → u.pwr.phase = .recovery → (addr.toNat < 0xFFF000 ∨ 0xFFF800 ≤ addr.toNat) →
        Cert.writes s t addr.toNat v = .next (Cert.hostErr u 1) ∧ exec (.unmappedWrite t addr) s = .next (Cert.hostErr u 1))
    ∧ (u.host.hpReady = false → Cert.writes s t addr.toNat v = .next u ∧ exec (.unmappedWrite t addr) s = .next u
      ∧ exec (.rcFieldRead t addr) s = .next u ∧ exec (.hstPostmarkLoRead t) s = .next u)
    ∧ ∀ a : PartId, Cert.BulkArea s t a)
  ∧ State.reset.regWord 0x10110 = some 0x41
  ∧ (∀ n : WinId, State.reset.regWord (0x10300 + 4 * n.val) = some 0x10000 ∧ State.reset.regWord (0x10340 + 4 * n.val) = some 0x100)
  ∧ (∀ a : PartId, State.reset.regWord (0x10380 + 4 * a.val) = some 0x40)
  ∧ (∀ e : EngId, State.reset.regWord (0x400600 + 0x10000 * e.val) = some 0x20000)
  ∧ (∀ p : PartId, p ≠ 0 → State.reset.regWord (0x500040 + 0x1000 * (p.val - 1)) = some 0x10)
  ∧ (∀ n : LinkId, State.reset.regWord (0x600000 + 0x100 * n.val) = some 0x70)
  ∧ (∀ p : PartId, State.reset.regWord (0x620000 + 0x10 * p.val) = some 0x20000
    ∧ State.reset.regWord (0x620004 + 0x10 * p.val) = some 0x4000)
  ∧ (∀ n : Fin 4, State.reset.regWord (0x640000 + 4 * n.val) = some 0xE)
  ∧ State.reset.regWord 0x640020 = some 0xF8FFFFF8 ∧ State.reset.regWord 0x640024 = some 0xFFFF
  ∧ State.reset.regWord 0x650020 = some 0xFFFFFFFF ∧ State.reset.regWord 0x650024 = some 0xFFFF
  ∧ State.reset.regWord 0x680000 = some 0x27

/-! Twin records (chapter 13). -/

/-- The state of the pair changed. -/
def Cert.twinTo (u : State) (f : Twin → Twin) : State := { u with twin := f u.twin }

/-- A record of a kind sent over T0 (R309). -/
def Cert.sends (u : State) (kind : Nat) : State :=
  Cert.twinTo u fun w => { w with txSeq := w.txSeq + 1, outbox := w.outbox ++ [(kind, w.txSeq)] }

/-- A standby in step leaves step (R318). -/
def Cert.leavesStep (u : State) : State :=
  if u.twin.role = .inStep then Cert.twinTo (Cert.sends u 12) fun w => { w with role := .outOfStep, event := setBit w.event 5 } else u

/-- A record in its order, on an open T0 of a pair, with the right tag (R309). -/
def Cert.recorded (u : State) (h : TwinHdr) : Prop :=
  u.fab.ports[twinLink].state = .openPort ∧ u.twin.role ≠ .unpaired ∧ u.twin.role ≠ .gaveUp ∧ h.tagOk = true
    ∧ h.recordSeq = u.twin.rxSeq + 1

/-- The state in which such a record has been accepted. -/
def Cert.accepts (u : State) (h : TwinHdr) : State :=
  Cert.twinTo (Cert.heardOn u twinLink) fun w => { w with rxSeq := h.recordSeq }

/-- Whether a module follows its active: in step, or at the cutover (R311, R325). -/
def Cert.follows (u : State) : Prop := u.twin.role = .inStep ∨ (u.twin.role = .joining ∧ u.twin.phase = 2)

/-- An event kept for its cycle, or noted as come too late (R311, R318, R325). -/
def Cert.keeps (w : State) (due : Nat) (ev : FwdEvent) : State :=
  if w.now ≤ due then Cert.twinTo w fun x => { x with forwarded := x.forwarded ++ [(due, ev)] }
  else Cert.twinTo (Cert.leavesStep w) fun x => { x with pending := x.pending + 1 }

/-- What the body of a report changes (R314, R315, R321): how far the active has come, the messages held, and the digests compared. -/
def Cert.reported (w v : State) (b : ReportBody) : Prop :=
  let same := fun (x y : PartId × Nat × Dword) => x.1 = y.1 ∧ x.2.1 = y.2.1
  v = { w with twin := v.twin }
    ∧ (∀ x ∈ b.lastSeq, (∀ y ∈ b.lastSeq, y.1 = x.1 → y = x) → v.twin.reported[x.1] = x.2)
    ∧ (∀ p : PartId, (∀ y ∈ b.lastSeq, y.1 ≠ p) → v.twin.reported[p] = w.twin.reported[p])
    ∧ v.twin.held = w.twin.held.filter (fun x => v.twin.reported[x.2.part] < x.2.pkt.outputSeq.toNat)
    ∧ (∀ x ∈ b.ctxs, (∀ y ∈ b.ctxs, y.1 = x.1 → y = x) → x ∈ v.twin.reportedCtx)
    ∧ ((b.digests.map fun x => (x.1, x.2.1)).Nodup → (w.twin.ownDigests.map fun x => (x.1, x.2.1)).Nodup →
      v.twin.expected = w.twin.expected ++ b.digests.filter (fun x => w.twin.ownDigests.all fun y => !decide (same y x))
      ∧ v.twin.ownDigests = w.twin.ownDigests.filter (fun y => b.digests.all fun x => !decide (same y x))
      ∧ ((∀ x ∈ b.digests, ∀ y ∈ w.twin.ownDigests, same y x → y.2.2 = x.2.2) →
        v.twin.role = w.twin.role ∧ v.twin.event = w.twin.event ∧ v.twin.outbox = w.twin.outbox)
      ∧ ((∃ x ∈ b.digests, ∃ y ∈ w.twin.ownDigests, same y x ∧ y.2.2 ≠ x.2.2) → w.twin.role = .inStep →
        v.twin.role = .outOfStep ∧ v.twin.event = setBit w.twin.event 5 ∧ v.twin.outbox = w.twin.outbox ++ [(12, w.twin.txSeq)]))

/-- Every kind of record is taken only in its order (R309, R318). -/
def Cert.RecordsInOrder (s : State) (t : Nat) (h : TwinHdr) (rows : List Instr) : Prop :=
  let u := s.advance t
  let heard := Cert.heardOn u twinLink
  ∀ c ∈ rows,
    (u.fab.ports[twinLink].state ≠ .openPort ∨ u.twin.role = .unpaired ∨ u.twin.role = .gaveUp → exec c s = .next u)
    ∧ (u.fab.ports[twinLink].state = .openPort → u.twin.role ≠ .unpaired → u.twin.role ≠ .gaveUp →
      (h.tagOk = false → exec c s = .next heard)
      ∧ (h.recordSeq ≠ u.twin.rxSeq + 1 → h.recordSeq.toNat ≤ u.twin.rxSeq.toNat → exec c s = .next heard)
      ∧ (h.tagOk = true → h.recordSeq ≠ u.twin.rxSeq + 1 → u.twin.rxSeq.toNat < h.recordSeq.toNat →
          exec c s = .next (Cert.leavesStep heard)))

/-- Records of what a standby mirrors (R309, R311, R323). -/
def Cert.RecordsMirrored (s : State) (t : Nat) (h : TwinHdr) (handle : Half) (events : List (Instr × FwdEvent)) : Prop :=
  let u := s.advance t
  let w := Cert.accepts u h
  let due := ((h.cycle.toNat + 1152 : Nat) + u.twin.skew : Int).toNat
  Cert.recorded u h →
  (¬ Cert.follows u → (∀ x ∈ events, exec x.1 s = .next w) ∧ exec (.twinPrepare t h handle) s = .next w
    ∧ exec (.twinAbort t h handle) s = .next w)
  ∧ (Cert.follows u → (∀ x ∈ events, exec x.1 s = .next (Cert.keeps w due x.2))
    ∧ (let acked := Cert.sends w 10
      exec (.twinPrepare t h handle) s = .next (Cert.twinTo { acked with env := { acked.env with
          opens := updWhere (fun v => decide (v.part = h.part ∧ v.handle = handle)) (fun v => { v with prepared := some h.recordSeq })
            acked.env.opens } }
        fun x => { x with forwarded := x.forwarded ++ [(u.now + 205 + 1152, .commit h.part handle)] })
      ∧ exec (.twinAbort t h handle) s = .next (Cert.keeps (Cert.twinTo acked fun x =>
        { x with forwarded := x.forwarded.filter fun y => decide (y.2 ≠ .commit h.part handle) }) due (.abort h.part handle))))

/-- Records that tell how the other module stands (R308, R314-R320, R326). -/
def Cert.RecordsTelling (s : State) (t : Nat) (h : TwinHdr) (b : ReportBody) (cause : Byte) (epoch : Nat) (ds : List Dword)
    (claim other : Bool) : Prop :=
  let u := s.advance t
  let w := Cert.accepts u h
  Cert.recorded u h →
  (u.twin.role ≠ .inStep → exec (.twinReport t h b) s = .next w)
  ∧ (u.twin.role = .inStep → (∃ v : State, exec (.twinReport t h b) s = .next v ∧ Cert.reported (Cert.sends w 10) v b)
    ∧ ∃ v : State, exec (.twinGiveupRecord t h cause b) s = .next v ∧ Cert.reported (Cert.twinTo w fun x => { x with gaveUpSeen := true }) v b)
  ∧ (u.twin.role = .active ∨ u.twin.role = .outOfStep → exec (.twinGiveupRecord t h cause b) s = .next w)
  ∧ (u.twin.role = .joining → ∃ v : State, exec (.twinGiveupRecord t h cause b) s = .next v
    ∧ v.twin.role = .unpaired ∧ hasBit v.twin.event 6 = true ∧ v.twin.stop = { active := true, minEnd := u.now + 900000 }
    ∧ v.twin.forwarded = [] ∧ v.twin.resyncMbx = none
    ∧ (∀ p : PartId, hasBit v.twin.lost p.val = true ↔ p ≠ 0 ∧ u.part[p].isThere = true)
    ∧ (∀ (m : MbxId) (c : RunCmd), u.twin.resyncMbx = some m → u.host.mbx[m].cmd = some c → c.result = none →
      v.host.mbx[m].cmd = some { c with result := some (stTwinResyncLost, []) })
    ∧ v.eng = u.eng ∧ v.part = u.part ∧ v.jobs = u.jobs)
  ∧ (let told := Cert.twinTo w fun x => { x with peerEpoch := some (epoch, ds) }
    let differ := ∃ own, u.twin.ownEpoch = some (epoch, own) ∧ own.map Prod.fst ≠ ds
    (¬ differ → exec (.twinDigest t h epoch ds) s = .next told)
    ∧ (differ → u.twin.role = .inStep →
      exec (.twinDigest t h epoch ds) s = .next (Cert.leavesStep (Cert.twinTo told fun x => { x with peerEpoch := none })))
    ∧ (u.twin.role = .active → ∀ own, u.twin.ownEpoch = some (epoch, own) → own.map Prod.fst ≠ ds →
      exec (.twinDigest t h epoch ds) s = .next (
        if own.map Prod.fst ≠ own.map Prod.snd ∧ own.map Prod.snd = ds ∧ u.twin.peerInStep = true then
          Cert.twinTo (Cert.sends told 9) fun x => { x with
            peerEpoch := none, role := .gaveUp, claimOut := false, peerInStep := false, unreported := []
            event := setBit (setBit x.event 4) 0, stop := { active := true, minEnd := u.now + 900000 } }
        else Cert.twinTo told fun x => { x with
          peerEpoch := none, event := setBit x.event 4, stop := { active := true, minEnd := u.now + 900000 } })))
  ∧ (let run := if claim = u.twin.claimIn then 0 else u.twin.wiringRun + 1
    let told := Cert.twinTo w fun x => { x with
      twinClaims := claim, wiringRun := run, twinPaired := true, silent := false
      skew := if x.role = .joining then (u.now : Int) - (h.cycle.toNat + 205 : Nat) else x.skew }
    (run < 3 → exec (.twinHeartbeat t h claim other) s = .next told)
    ∧ (3 ≤ run → u.twin.role = .active →
      exec (.twinHeartbeat t h claim other) s = .next (Cert.twinTo told fun x => { x with event := setBit x.event 8 }))
    ∧ (3 ≤ run → u.twin.role ≠ .active → exec (.twinHeartbeat t h claim other) s =
        .next (Cert.leavesStep (Cert.twinTo told fun x => { x with event := setBit x.event 8, wiringBad := true }))))
  ∧ (u.twin.role ≠ .active → exec (.twinStepLeft t h cause) s = .next w)
  ∧ (u.twin.role = .active → u.twin.abortAnswers = [] → exec (.twinStepLeft t h cause) s = .next (Cert.twinTo w fun x => { x with
      peerInStep := false, aborts := [], sentReports := []
      event := if cause = 5 then setBit (setBit x.event 5) 3 else setBit x.event 5
      stop := if cause = 5 then { active := true, minEnd := u.now + 900000 } else x.stop }))

/-- An acknowledgement (R309, R314, R323). -/
def Cert.RecordsAcked (s : State) (t : Nat) (h : TwinHdr) (seq : Dword) : Prop :=
  let u := s.advance t
  let w := Cert.accepts u h
  Cert.recorded u h →
  (u.twin.role ≠ .active → exec (.twinAck t h seq) s = .next w)
  ∧ (u.twin.role = .active →
    let x := Cert.twinTo { w with env := { w.env with
        opens := updWhere (fun v => decide (v.prepared = some seq)) (fun v => { v with acked := true }) w.env.opens } }
      fun y => { y with
        aborts := y.aborts.filter fun z => decide (z.1 ≠ seq), abortAnswers := y.abortAnswers.filter fun z => decide (z.1 ≠ seq)
        sentReports := y.sentReports.filter fun z => decide (z.1 ≠ seq) }
    ∃ v : State, (∀ p : PartId, v.twin.acked[p] = ((u.twin.sentReports.filter fun z => z.1 = seq).flatMap Prod.snd).foldl
        (fun n y => if y.1 = p then max n y.2 else n) u.twin.acked[p])
      ∧ v = (Cert.twinTo x fun y => { y with acked := v.twin.acked })
      ∧ ((∀ z ∈ u.twin.abortAnswers, z.1 ≠ seq) → exec (.twinAck t h seq) s = .next v)
      ∧ (∀ (n : PortId) (p : Packet) (c : Ctx), u.pwr.ejectAt = none → u.twin.abortAnswers = [(seq, n, p)] → u.ctx? p.link = some c →
        exec (.twinAck t h seq) s = .next (Cert.portTo v (portLink n) fun q => { q with queue := q.queue ++
          [{ cls := .response, op := 0x92, pkt := responsePkt c p stOk 0 [], ctx := some c.link.toNat, part := c.part }] })))

/-- A copy record of a resync (R325). -/
def Cert.CopyRecords (s : State) (t : Nat) (h : TwinHdr) : Prop :=
  let u := s.advance t
  let w := Cert.accepts u h
  let copy := fun (i : CopyItem) => exec (.twinCopy t h i) s
  let took := fun (v : State) => Host.Outcome.next (φ := Fault) (ρ := Refusal)
    (if u.twin.phase = 2 then Cert.twinTo v fun x => { x with pending := if x.pending = 0 then 0 else x.pending - 1 } else v)
  let part := fun (p : PartId) (f : Partition → Partition) => took { w with part := w.part.set p (f w.part[p]) }
  Cert.recorded u h →
  (u.twin.role ≠ .joining ∨ u.twin.phase = 0 → ∀ i : CopyItem, copy i = .next w)
  ∧ (u.twin.role = .joining → u.twin.phase ≠ 0 →
    (∀ left : Nat, copy (.passEnd left) = .next (Cert.twinTo w fun x => { x with
      pass := bump 8 x.pass 1, phase := if left ≤ 256 then 2 else 1, pending := BitVec.ofNat 15 (min left 0x7FFF) }))
    ∧ (∀ (e : EngId) (page : Nat) (bs : List Byte), bs.length = 4096 → memWf u.eng[e].act = true → ∃ v : State,
        copy (.actPage e page bs) = took v ∧ v = { w with eng := v.eng } ∧ (∀ k : EngId, k ≠ e → v.eng[k] = u.eng[k])
        ∧ memRead v.eng[e].act (4096 * page) 4096 = bs ∧ v.eng[e].store = u.eng[e].store
        ∧ (∀ a : Nat, a < 4096 * page ∨ 4096 * page + 4096 ≤ a → memGet v.eng[e].act a = memGet u.eng[e].act a)
        ∧ ∀ x : Nat, x ∈ v.eng[e].mem.actBad ↔ x ∈ u.eng[e].mem.actBad ∧ ¬ (4096 * page ≤ x ∧ x + 8 ≤ 4096 * page + 4096))
    ∧ (∀ (p : PartId) (page : Nat) (bs : List Byte), copy (.lpddrPage p page bs) =
        part p fun q => regionWrite q (4096 * page) (padTo 4096 bs))
    ∧ (∀ (p : PartId) (e : EngId) (page last : Nat), copy (.kvPage p e page last) =
        part p fun q => { q with kv := { q.kv with pages := assocSet (e, page) (.owned last) q.kv.pages } })
    ∧ (∀ (p : PartId) (num state reason handle length gen : Nat) (lists : List (Nat × List (Bool × EngId × Nat))),
      copy (.kvSeq p num state reason handle length gen lists) = part p fun q =>
        let k : KvSeq :=
          { num := num, state := state, reason := reason, handle := handle, length := length, editGen := gen
            lists := lists.map fun x => (x.1, x.2.map fun y => if y.1 then .resident y.2.1 y.2.2 else .spilled y.2.1 y.2.2) }
        { q with kv := { q.kv with seqs := k :: q.kv.seqs.filter fun y => y.num ≠ num } })
    ∧ (∀ (p : PartId) (handle : Half) (opener : Option Nat) (ok : Bool) (misses staged reason postmark : Nat),
      let o : EnvOutcome :=
        { part := p, handle := handle, opener := opener, committed := ok, casMisses := misses, staged := staged, reason := reason
          postmark := postmark }
      copy (.outcome p handle opener ok misses staged reason postmark) = took { w with env := { w.env with
        outcomes := o :: w.env.outcomes.filter fun y => !(y.part = p && y.handle = handle) } })
    ∧ (∀ (n : Nat) (v : Word), copy (.pigeonhole n v) = took (w.pghSet n v.toNat))
    ∧ (∀ (op : Half) (r : MbxReq), copy (.setting op r) = .next (
        let v := w.mirrorCmd op r
        if v.twin.phase = 2 then Cert.twinTo v fun x => { x with pending := if x.pending = 0 then 0 else x.pending - 1 } else v))
    ∧ ∀ (e : EngId) (row : Nat) (bs : List Byte) (d : Dword),
      (BitVec.ofNat 64 (rowDigest row bs) ≠ d → copy (.storeRow e row bs d) = .next w)
      ∧ (BitVec.ofNat 64 (rowDigest row bs) = d → u.eng[e].mem.storeMarked = [] → u.eng[e].fenced = false → memWf u.eng[e].store = true → ∃ v : State,
        copy (.storeRow e row bs d) = took v ∧ v = { w with eng := v.eng, cvu := v.cvu }
        ∧ memRead v.eng[e].store (16384 * row) bs.length = bs ∧ assoc row v.eng[e].digests.reference = some d
        ∧ (∀ a : Nat, a < 16384 * row ∨ 16384 * row + bs.length ≤ a → memGet v.eng[e].store a = memGet u.eng[e].store a)
        ∧ ∀ k : EngId, k ≠ e → v.eng[k] = u.eng[k]))

/-- TWIN_ADMISSION, TWIN_RELEASE, TWIN_COMMAND, TWIN_PREPARE, TWIN_ABORT, TWIN_REPORT, TWIN_DIGEST, TWIN_HEARTBEAT, TWIN_GIVEUP_RECORD,
TWIN_ACK, TWIN_COPY and TWIN_STEP_LEFT. -/
def Obligations.TwinRecordsActInTheirOrder : Prop :=
  ∀ (s : State) (t : Nat) (h : TwinHdr) (n : PortId) (op : Byte) (p : Packet) (last first seq : Dword) (e : EngId) (job bundle epoch : Nat)
    (code handle : Half) (r : MbxReq) (b : ReportBody) (cause : Byte) (ds : List Dword) (claim other : Bool) (item : CopyItem),
    Cert.RecordsInOrder s t h
      [.twinAdmission t h n op p last first, .twinRelease t h e job bundle, .twinCommand t h code r, .twinPrepare t h handle,
       .twinAbort t h handle, .twinReport t h b, .twinDigest t h epoch ds, .twinHeartbeat t h claim other, .twinGiveupRecord t h cause b,
       .twinAck t h seq, .twinCopy t h item, .twinStepLeft t h cause]
    ∧ Cert.RecordsMirrored s t h handle
      [(.twinAdmission t h n op p last first, .admission n op p last first), (.twinRelease t h e job bundle, .release e job bundle),
       (.twinCommand t h code r, .command code r)]
    ∧ Cert.RecordsTelling s t h b cause epoch ds claim other ∧ Cert.RecordsAcked s t h seq ∧ Cert.CopyRecords s t h

/-! A pair in its own time (chapter 13). -/

/-- The mirrored events, one by one (R309, R311, R312): what a standby in step makes of each. -/
def Cert.EventsMirrored (v : State) : Prop :=
  v.twin.role = .inStep →
  (∀ (p : PartId) (h : Half) (x : Envelope), v.env? p h = some x → x.part = p → x.handle = h →
    v.mirror (.abort p h) = Cert.closed { v with env := { v.env with abortCount := bump 32 v.env.abortCount 1 } } x
      { part := p, handle := h, opener := x.opener, committed := false, staged := x.items.length, reason := 1, postmark := v.now }
      stEnvAborted []
    ∧ (x.state ≠ .doomed → x.closing = none → x.items = [] → (∀ a ∈ v.env.applies, a.group ≠ v.env.nextApply) → (∀ n ∈ v.env.notes, n.group ≠ v.env.nextApply) →
      v.mirror (.commit p h) = Cert.closed v x
        { part := p, handle := h, opener := x.opener, committed := true, staged := 0, postmark := v.now } stOk (natLe v.now 8)))
  ∧ (∀ (p : PartId) (h : Half), v.env? p h = none → v.mirror (.abort p h) = v ∧ v.mirror (.commit p h) = v)
  ∧ (∀ (e : EngId) (job bundle : Nat), v.waiting e = none → v.mirror (.release e job bundle) = v)
  ∧ (∀ (e : EngId) (job bundle : Nat) (j : Job) (n count issued limit g : Nat), v.waiting e = some (j, .pgh n count issued limit) →
    v.pghIndex j.part n = some g → issued < v.now →
      v.mirror (.release e job bundle) = (v.pghSet g (v.pghAt g - count)).updEng e fun x => { x with seq := x.seq.released v.now })
  ∧ (∀ (op : Half) (r : MbxReq), v.mirror (.command op r) = v.mirrorCmd op r)
  ∧ (∀ r : MbxReq, ∀ e : EngId, r.arg 0 1 = e.val → (v.mirror (.command 0 r)).eng[e].fenced = true)
  ∧ ∀ (n : PortId) (p : Packet) (c : Ctx) (w : Win) (last first : Dword), v.ctx? p.link = some c → c.clear = false → c.held = [] →
    (∀ d ∈ v.fab.ctxs, d.link = c.link → d = c) → (c.opsRate = 0 ∨ c.opsTok ≠ 0) →
    (c.bytesRate = 0 ∨ ceilDiv p.length.toNat 64 ≤ c.bytesTok) → p.env = 0xFFFF → v.win? p.window.toNat = some w → w.part = c.part →
    w.ctx = c.num → w.kind = .lpddr → hasBit w.rights 1 = true → p.offset.toNat + p.payload.length ≤ w.length → v.units = [] →
    (∀ x ∈ v.env.opens, x.part = c.part → x.opener = some c.serial → x.asker = none) → (∀ o ∈ v.opsNow, o.port ≤ n) →
      let a := w.base + p.offset.toNat
      v.mirror (.admission n 1 p last first) = Cert.opNoted (({ v with fab := { v.fab with
        ctxs := updWhere (fun d => d.link = c.link) (fun _ => Cert.spent c p p.length.toNat) v.fab.ctxs } }).updPart c.part fun q =>
          regionWrite q a p.payload) n 1 p none c.part a (regionRead v.part[c.part] a p.payload.length)

/-- The events that are due carried out, and the heartbeats, reports and the claim (R306, R307, R311, R314, R319, R326). -/
def Cert.PairKeepsTime (s : State) (t : Nat) : Prop :=
  let u := s.advance t
  let w := u.twin
  let stopped : StopSource := { active := true, minEnd := u.now + 900000 }
  (w.role ≠ .inStep → w.role ≠ .active → exec (.mirrorExecute t) s = .next u)
  ∧ ((w.role = .active ∨ (w.role = .inStep ∧ ∀ p : PartId, u.part[p].dissolving = none)) →
    (∀ x ∈ w.forwarded, u.now < x.1) → exec (.mirrorExecute t) s = .next u)
  ∧ (w.role = .active ∨ (w.role = .inStep ∧ ∀ p : PartId, u.part[p].dissolving = none) → ∀ (c : Nat) (ev : FwdEvent), c ≤ u.now →
    w.forwarded = [(c, ev)] → (∀ p : PartId, ((Cert.twinTo u fun x => { x with forwarded := [] }).mirror ev).part[p].dissolving = none) →
      exec (.mirrorExecute t) s = .next ((Cert.twinTo u fun x => { x with forwarded := [] }).mirror ev))
  ∧ (w.role = .unpaired ∨ w.role = .gaveUp ∨ u.now < w.refreshed + 256 → exec (.heartbeatSend t) s = .next u)
  ∧ (w.role ≠ .unpaired → w.role ≠ .gaveUp → w.refreshed + 256 ≤ u.now →
    exec (.heartbeatSend t) s = .next (Cert.twinTo (Cert.sends u 8) fun x => { x with refreshed := u.now }))
  ∧ (let reports := w.role = .active ∧ w.peerInStep = true
      ∧ (w.lastReport + 256 ≤ u.now ∨ ∃ p : PartId, 8 ≤ (w.unreported.filter fun x => x.1 = p).length)
    (¬ reports → exec (.reportSend t) s = .next u)
    ∧ (reports → ∃ v : State, exec (.reportSend t) s = .next v ∧ ∃ l : List (PartId × Nat),
      v = (Cert.twinTo (Cert.sends u 6) fun x => { x with
        lastReport := u.now, unreported := [], sentReports := x.sentReports ++ [(w.txSeq, l)] })
      ∧ ∀ p : PartId, (p, u.emitted p) ∈ l
        ∧ ((∀ n : LinkId, ∀ x ∈ u.fab.ports[n].queue, ¬ (x.cls = .output ∧ x.part = p)) → u.emitted p = u.part[p].outSeq)))
  ∧ (w.claimOut = true → w.refreshed + 2048 ≤ u.now →
    exec (.claimWatchdogExpiry t) s = .next (Cert.twinTo u fun x => { x with claimOut := false }))
  ∧ (w.claimOut = false ∨ u.now < w.refreshed + 2048 → exec (.claimWatchdogExpiry t) s = .next u)
  ∧ (exec (.claimInChange t w.claimIn) s = .next u)
  ∧ (exec (.claimInChange t (!w.claimIn)) s = .next (Cert.twinTo u fun x => { x with claimIn := !w.claimIn, claimInSince := u.now }))
  ∧ (u.now < u.fab.ports[twinLink].lastBlock + 4096 ∨ w.role = .unpaired ∨ w.role = .outOfStep ∨ w.role = .gaveUp →
    exec (.heartbeatLoss t) s = .next u)
  ∧ (u.fab.ports[twinLink].lastBlock + 4096 ≤ u.now →
    (w.role = .active → w.abortAnswers = [] → exec (.heartbeatLoss t) s = .next (Cert.twinTo u fun x => { x with
      peerInStep := false, twinPaired := false, aborts := [], sentReports := [] }))
    ∧ (w.role = .inStep → w.claimIn = false →
      exec (.heartbeatLoss t) s = .next (Cert.twinTo u fun x => { x with silent := true, event := setBit x.event 2 }))
    ∧ (w.role = .inStep → w.claimIn = true → exec (.heartbeatLoss t) s = .next (Cert.twinTo (Cert.sends u 12) fun x =>
      { x with silent := true, role := .outOfStep, event := setBit (setBit (setBit x.event 2) 5) 7 }))
    ∧ (w.role = .joining → ∃ v : State, exec (.heartbeatLoss t) s = .next v ∧ v.twin.role = .unpaired ∧ hasBit v.twin.event 6 = true
      ∧ v.twin.stop = stopped ∧ ∀ p : PartId, hasBit v.twin.lost p.val = true ↔ p ≠ 0 ∧ u.part[p].isThere = true))

/-- Takeover (R307, R320-R323). -/
def Cert.TakesOver (s : State) (t : Nat) : Prop :=
  let u := s.advance t
  let w := u.twin
  let may := w.role = .inStep ∧ w.claimIn = false ∧ w.claimInSince + 64 ≤ u.now ∧ (w.gaveUpSeen = true ∨ w.silent = true) ∧ w.wiringBad = false
  (¬ may → exec (.takeover t) s = .next u)
  ∧ (may → ∃ v : State, exec (.takeover t) s = .next v
    ∧ v.twin.role = .active ∧ v.twin.claimOut = true ∧ v.twin.refreshed = u.now ∧ v.twin.peerInStep = false ∧ v.twin.twinPaired = false
    ∧ hasBit v.twin.event 1 = true ∧ v.twin.lastTakeover = BitVec.ofNat 64 u.now ∧ v.twin.held = [] ∧ v.twin.stop = w.stop
    ∧ (∀ p : PartId, v.twin.reemit[p] = w.reported[p] + 8)
    ∧ (u.env.opens = [] → u.pwr.ejectAt = none →
      v.eng = u.eng ∧ v.part = u.part ∧ v.env = u.env ∧ v.host = u.host ∧ v.sec = u.sec ∧ v.pwr = u.pwr
      ∧ v.jobs = u.jobs.map (fun j => { j with last := j.last - 1152 })
      ∧ (∃ l : List (PortId × TxPkt), l.Perm w.held ∧ l.Pairwise (fun x y => x.2.pkt.outputSeq.toNat ≤ y.2.pkt.outputSeq.toNat)
        ∧ ∀ n : PortId, v.fab.ports[portLink n].queue = u.fab.ports[portLink n].queue ++ (l.filter fun x => x.1 = n).map fun x =>
          if x.2.pkt.outputSeq.toNat ≤ w.reported[x.2.part] + 8 then { x.2 with pkt := { x.2.pkt with flags := x.2.pkt.flags ||| 4 } } else x.2)
      ∧ ∀ (l : Half) (sent got : Word) (c : Ctx), w.reportedCtx = [(l, sent, got)] → u.ctx? l = some c →
        ∃ d : Ctx, v.ctx? l = some d ∧ d = { c with tx := d.tx, txEpoch := d.txEpoch, rx := d.rx } ∧ d.tx = sent + 4096
          ∧ d.txEpoch = sendEpoch c ∧ ∃ n : Word, assoc (sendEpoch c) d.rx = some n ∧ got.toNat ≤ n.toNat)
    ∧ ∀ x : Envelope, u.env.opens = [x] → x.prepared = none → x.asker = none → v.env.opens = []
      ∧ v.env.outcomes.head? = some
        { part := x.part, handle := x.handle, opener := x.opener, committed := false, staged := x.items.length, reason := 5, postmark := u.now })

/-- The end of a resync (R305, R325). -/
def Cert.CutsOver (s : State) (t : Nat) : Prop :=
  let u := s.advance t
  let w := u.twin
  let cut := exec (.resyncCutover t) s
  let allowed := ∀ p : PartId, u.part[p].isThere = true → u.part[p].confidential = true →
    u.part[p].permitted = some u.fab.ports[twinLink].farId
  (w.role = .joining → w.phase ≠ 2 → cut = .next u)
  ∧ (w.role ≠ .joining → w.role ≠ .active → cut = .next u)
  ∧ (w.role = .joining → w.phase = 2 → ∀ (m : MbxId) (c : RunCmd), w.resyncMbx = some m → u.host.mbx[m].cmd = some c → c.result = none →
    (w.pending = 0 → cut = .next ((Cert.twinTo u fun x => { x with
        role := .inStep, phase := 3, shift := x.skew + 1152, wiringBad := false, wiringRun := 0, gaveUpSeen := false, silent := false
        resyncMbx := none }).updMbx m fun b => { b with cmd := some { c with result := some (stOk, []) } }))
    ∧ (w.pending ≠ 0 → w.abandoned.toNat < 63 → cut = .next (Cert.twinTo u fun x => { x with
        abandoned := x.abandoned + 1, phase := 1, forwarded := [] }))
    ∧ (w.pending ≠ 0 → w.abandoned.toNat = 63 → cut = .next ((Cert.twinTo u fun x => { x with
        abandoned := 64, phase := 0, forwarded := [], resyncMbx := none }).updMbx m fun b =>
          { b with cmd := some { c with result := some (stBusy, []) } })))
  ∧ (w.role = .active → (w.twinPaired = false ∨ w.peerInStep = true ∨ ¬ allowed) → cut = .next u)
  ∧ (w.role = .active → w.twinPaired = true → w.peerInStep = false → allowed → ∃ a : Vector Nat 7, (∀ p : PartId, a[p] = u.emitted p)
    ∧ cut = .next (Cert.twinTo u fun x => { x with
      peerInStep := true, unreported := [], sentReports := [], lastReport := u.now, acked := a }))

/-- MIRROR_EXECUTE, HEARTBEAT_SEND, REPORT_SEND, CLAIM_WATCHDOG_EXPIRY, CLAIM_IN_CHANGE, HEARTBEAT_LOSS, TAKEOVER and RESYNC_CUTOVER. -/
def Obligations.PairsKeepTimeTakeOverAndCutOver : Prop :=
  ∀ (s : State) (t : Nat), Cert.EventsMirrored s ∧ Cert.PairKeepsTime s t ∧ Cert.TakesOver s t ∧ Cert.CutsOver s t

/-! Start-up (chapter 18). -/

/-- A module without power, or about to start its ROM: every register at its reset value, SAFE_STOP active, and only what fuses, NOR and
NAND keep (R12, R46, R398, R421). Which rows of an engine were spared or marked is kept too, the model's choice (log entry 92). -/
def Cert.fresh (u v : State) (sms : Sms) : Prop :=
  v = { now := v.now, hist := v.hist, sec := v.sec, fw := v.fw, sms := sms, pwr := v.pwr, eng := v.eng, free := u.free, pending := u.pending }
    ∧ (∀ e : EngId, v.eng[e] = { mem := { keptRows := v.eng[e].mem.keptRows } }
      ∧ ∀ row : Nat, row ∈ v.eng[e].mem.keptRows ↔
        row ∈ u.eng[e].mem.keptRows ∨ row ∈ u.eng[e].mem.spared ∨ row ∈ u.eng[e].mem.storeMarked)
    ∧ v.hist = { ring := u.hist.ring, fenceTable := u.hist.fenceTable, displaced := u.hist.displaced, uncopied := u.hist.uncopied
                 next := u.hist.next }
    ∧ v.fw = { nor := u.fw.nor, torn := u.fw.torn, stagedType := u.fw.stagedType, staged := u.fw.staged, chunks := u.fw.chunks }
    ∧ v.sec = { lifecycle := u.sec.lifecycle, debugFused := u.sec.debugFused, identity := u.sec.identity, seedHeld := u.sec.seedHeld
                serial := u.sec.serial, epoch := u.sec.epoch, draws := u.sec.draws }
    ∧ v.pwr.startSrc = true ∧ v.pwr.level = 0 ∧ v.pwr.event = 0 ∧ v.pwr.ejectAt = none

/-- Power-up, the clock source, ROM start and recovery (R396, R400, R403, R404, R409, R424, R435). -/
def Cert.StartsUp (s : State) (t : Nat) : Prop :=
  let u := s.advance t
  (∀ c : PowerUpCond,
    let stays := fun (p : Power) => Host.Outcome.next (φ := Fault) (ρ := Refusal) { u with pwr := p }
    (u.pwr.phase ≠ .unpowered → exec (.powerUp t c) s = .next u)
    ∧ (u.pwr.phase = .unpowered →
      (c.epo = true ∨ c.present = false → exec (.powerUp t c) s = stays { u.pwr with vin := c.vin, epo := c.epo, latchedOpen := false })
      ∧ (c.epo = false → c.present = true → u.pwr.latchedOpen = true ∨ c.heldOneSecond = false ∨ c.vin.toNat < 4800 ∨ 6000 < c.vin.toNat →
        exec (.powerUp t c) s = stays { u.pwr with vin := c.vin })
      ∧ (c.epo = false → c.present = true → u.pwr.latchedOpen = false → c.heldOneSecond = true → 4800 ≤ c.vin.toNat → c.vin.toNat ≤ 6000 →
        ∃ v : State, exec (.powerUp t c) s = .next v ∧ Cert.fresh u v u.sms.unpowered ∧ v.now = 0 ∧ v.pwr.phase = .starting
          ∧ v.pwr.vin = c.vin)))
  ∧ (∀ ok : Bool, (u.pwr.phase ≠ .starting → exec (.clockSourceSelect t ok) s = .next u)
    ∧ (u.pwr.phase = .starting → exec (.clockSourceSelect t ok) s =
      .next { u with now := 0, pwr := { u.pwr with source := !ok, rootLocked := true, domains := alwaysOn } }))
  ∧ (∀ (straps : BitVec 12) (par fuse : Bool),
    (u.pwr.phase ≠ .starting → (u.pwr.phase ≠ .ejecting ∨ u.pwr.rebootFrom = none) → exec (.romStart t straps par fuse) s = .next u)
    ∧ (u.pwr.phase = .starting → ∃ v : State, exec (.romStart t straps par fuse) s = .next v
      ∧ v = { u with host := { u.host with hpReady := true }, sec := v.sec, part := v.part, pwr := v.pwr }
      ∧ v.pwr = { u.pwr with phase := .rom, slotId := v.pwr.slotId, rootLocked := true, domains := u.pwr.domains ||| alwaysOn }
      ∧ (let odd := (((List.range 12).filter fun i => straps.getLsbD i).length + par.toNat) % 2 = 1
        v.pwr.slotId = if odd then BitVec.ofNat 16 straps.toNat else 0xFFFF)
      ∧ (∀ p : PartId, p ≠ 0 → v.part[p] = u.part[p]) ∧ v.part[(0 : PartId)].isThere = true ∧ v.part[(0 : PartId)].regionGib = 4
      ∧ v.part[(0 : PartId)].pghCount = 4096 ∧ v.part[(0 : PartId)].owner = none
      ∧ v.sec = { u.sec with draws := v.sec.draws, nonce := v.sec.nonce, xmssNext := 0, reservedTo := 0, epoch := v.sec.epoch
                             exhausted := v.sec.exhausted }
      ∧ (u.sec.epoch ≠ 4095 → fuse = true → v.sec.epoch = u.sec.epoch + 1 ∧ v.sec.exhausted = false)
      ∧ (u.sec.epoch = 4095 ∨ fuse = false → v.sec.epoch = u.sec.epoch ∧ v.sec.exhausted = true))
    ∧ (u.pwr.phase = .ejecting → u.pwr.rebootFrom.isSome = true → ∃ v : State, exec (.romStart t straps par fuse) s = .next v
      ∧ v.now = 0 ∧ v.pwr.phase = .rom ∧ v.host.hpReady = true ∧ v.jobs = [] ∧ v.scheds = [] ∧ v.hist = u.hist.unpowered
      ∧ v.fw = u.fw.unpowered ∧ v.sms = u.sms.restarted ∧ v.pwr.startSrc = true ∧ v.pwr.source = u.pwr.source))
  ∧ (∀ bad : List (Fin 5), (u.pwr.phase ≠ .rom → exec (.imagesVerified t bad) s = .next u)
    ∧ (u.pwr.phase = .rom → bad ≠ [] ∨ u.fw.torn ≠ [] → ∃ v : State, exec (.imagesVerified t bad) s = .next v ∧ v.pwr.phase = .recovery
      ∧ v.pwr.bootStatus = stFwBadSignature ∧ (v.pwr.loaderBad = true ↔ (0 : Fin 5) ∈ bad ∨ 0 ∈ u.fw.torn) ∧ v.fw.running = []
      ∧ (∀ i : Nat, i ∈ v.fw.invalid ↔ i ≠ 0 ∧ ((∃ x ∈ bad, x.val = i) ∨ i ∈ u.fw.torn)) ∧ v.fab = u.fab ∧ v.eng = u.eng)
    ∧ (u.pwr.phase = .rom → bad = [] → u.fw.torn = [] → ∃ v : State, exec (.imagesVerified t bad) s = .next v
      ∧ v.pwr.phase = .imagesVerified ∧ v.fab.plan = (planInUse u.fw.nor).map (fun x => x.2.2)
      ∧ (∀ n : LinkId, v.fab.ports[n] = { u.fab.ports[n] with
          state := if (v.planPort n.val).mode = 0 then .unused else .training })
      ∧ (∀ d : Nat, d ∈ v.pwr.ramping ↔ 114 ≤ d ∧ d < 123 ∧ (v.planPort (d - 114)).mode ≠ 0)
      ∧ (let format := (u.installed.headD (imageHead [])).settings
        let use := settingsInUse u.fw.nor
        (∀ c n b, use = some (c, n, b) → field b 4 2 = format →
          v.fw.nor = u.fw.nor ∧ v.pwr.settingsDefaulted = u.pwr.settingsDefaulted ∧ v.bist = u.bist.setConfig (field b 12 4)
          ∧ ∀ e : EngId, v.eng[e] = { u.eng[e] with dlClass := v.eng[e].dlClass, rerunMask := BitVec.ofNat 16 (field b (400 + 4 * e.val) 4) }
            ∧ ∀ i : Fin 16, v.eng[e].dlClass[i] =
              let x : Word := BitVec.ofNat 32 (field b (16 + 64 * e.val + 4 * i.val) 4) &&& 0xFFFF0007
              if hasBit x 0 = true ∧ hasBit x 2 = true then u.eng[e].dlClass[i] else x)
        ∧ ((∀ c n b, use = some (c, n, b) → field b 4 2 ≠ format) → v.pwr.settingsDefaulted = true ∧ v.eng = u.eng ∧ v.bist = u.bist))))

/-- The phases from the store test to SERVICE (R101, R102, R201, R239, R385, R403, R404). -/
def Cert.PhasesPass (s : State) (t : Nat) : Prop :=
  let u := s.advance t
  (∀ (res : List (EngId × List Nat)) (golden : Bool),
    (u.pwr.phase ≠ .imagesVerified → exec (.storeTested t res golden) s = .next u)
    ∧ (u.pwr.phase = .imagesVerified → (∀ e : EngId, u.holder e = none) → ∃ v : State, exec (.storeTested t res golden) s = .next v ∧ v.pwr.phase = .storeTested
      ∧ v.bist.goldenValid = golden ∧ v.host = u.host ∧ v.part = u.part ∧ v.sec = u.sec
      ∧ ∀ e : EngId, v.eng[e].store = [] ∧ v.eng[e].act = [] ∧ v.eng[e].clkNominal = true
        ∧ ((∃ r : HistRec, u.hist.latestFence e.val = some r ∧ r.type = 2) → v.eng[e].fenced = true)
        ∧ (let rows := u.eng[e].mem.keptRows ++ ((res.filter fun x => x.1 = e).map Prod.snd).flatten
          (32 < rows.eraseDups.length → v.eng[e].fenced = true)
          ∧ v.eng[e].mem.keptRows = [] ∧ v.eng[e].mem.storeMarked = [] ∧ v.eng[e].mem.storeBad = [] ∧ v.eng[e].mem.actBad = []
          ∧ v.eng[e].mem.spared.length ≤ 32 ∧ (∀ row ∈ v.eng[e].mem.spared, row ∈ rows)
          ∧ (rows.eraseDups.length ≤ 32 → ∀ row ∈ rows, row ∈ v.eng[e].mem.spared)
          ∧ (u.hist.ring = [] → u.hist.fenceTable = [] → u.hist.waiting1 = [] → rows.eraseDups.length ≤ 32 →
            v.eng[e].fenced = false ∧ v.eng[e].classification = 0))
        ∧ ∀ d : Nat, d / 15 = e.val ∧ d < 90 ∨ (90 ≤ d ∧ d < 114 ∧ (d - 90) / 4 = e.val) → hasBit v.pwr.domains d = true))
  ∧ (∀ failed : Bool,
    (u.pwr.phase ≠ .storeTested ∨ u.pwr.bootStatus ≠ stOk → exec (.memoryTrained t failed) s = .next u)
    ∧ (u.pwr.phase = .storeTested → u.pwr.bootStatus = stOk →
      (failed = true → exec (.memoryTrained t failed) s = .next { u with pwr := { u.pwr with bootStatus := stBistFail } })
      ∧ (failed = false → exec (.memoryTrained t failed) s = .next { (u.updPart 0 fun q => { q with region := [] }) with
          pwr := { u.pwr with phase := .memoryTrained, trained := true } })))
  ∧ (∀ locked : List LinkId,
    (u.pwr.phase ≠ .memoryTrained → exec (.portsLocked t locked) s = .next u)
    ∧ (u.pwr.phase = .memoryTrained → ∃ v : State, exec (.portsLocked t locked) s = .next v
      ∧ v = { u with fab := { u.fab with ports := v.fab.ports }, pwr := { u.pwr with phase := .portsLocked } }
      ∧ ∀ n : LinkId,
        let q := u.fab.ports[n]
        v.fab.ports[n] = if n ∈ locked ∧ q.state ≠ .unused ∧ q.lock = false ∧ u.host.hpReady = true then { q with
          lock := true, lastBlock := u.now, identSeen := false, departSeen := false
          state := if q.state = .fencedId then .fencedId else .locked
          blocks := [.ident u.sec.identity (BitVec.ofNat 8 n.val)], identAt := some u.now } else q))
  ∧ (∀ c : BitVec 12,
    let inside := 60 ≤ c.toInt ∧ c.toInt ≤ 180
    let first := u.pwr.phase = .portsLocked ∧ u.pwr.bootStatus ≠ stCoolantRange
    let again := u.pwr.phase = .portsLocked ∧ u.pwr.bootStatus = stCoolantRange
    let enters := fun (o : Host.Outcome State Fault Refusal) => u.pwr.level.toNat ≤ 1 → ∃ v : State, o = .next v
      ∧ v = { u with fab := { u.fab with ports := v.fab.ports }, pwr := { u.pwr with
          coolant := c, phase := .service, startSrc := false, bootStatus := v.pwr.bootStatus } }
      ∧ (let denied := u.pwr.slotId = 0xFFFF ∨ ∃ pl : Plan, u.fab.plan = some pl ∧ pl.slot ≠ u.pwr.slotId
        v.pwr.bootStatus = if denied then stDenied else stOk)
      ∧ ∀ n : LinkId,
        let q := u.fab.ports[n]
        ((u.fab.plan = none ∨ q.lock = false ∨ q.identSeen = false ∨ q.state ≠ .locked) → v.fab.ports[n] = q)
        ∧ ∀ pl : Plan, u.fab.plan = some pl → (pl.slot ≠ u.pwr.slotId ∨ u.pwr.slotId = 0xFFFF → v.fab.ports[n] = q)
          ∧ (pl.slot = u.pwr.slotId → u.pwr.slotId ≠ 0xFFFF → q.lock = true → q.identSeen = true → q.state = .locked →
            let want := pl.ports.getD n.val {}
            v.fab.ports[n] = { q with state := if q.farId = want.farId ∧ q.farPort = want.farPort then .openPort else .fencedId })
    (¬ first → exec (.service t c) s = .next u)
    ∧ (¬ again → exec (.coolantRecheck t c) s = .next u)
    ∧ (first → inside → enters (exec (.service t c) s))
    ∧ (again → inside → enters (exec (.coolantRecheck t c) s))
    ∧ (first → ¬ inside → exec (.service t c) s = .next { u with pwr := { u.pwr with
        coolant := c, bootStatus := stCoolantRange, thmEvent := setBit u.pwr.thmEvent 3 } })
    ∧ (again → ¬ inside → exec (.coolantRecheck t c) s = .next { u with pwr := { u.pwr with
        coolant := c, thmEvent := setBit u.pwr.thmEvent 3 } }))

/-- Domains, and the restart after a lockstep mismatch (R102, R192, R399). -/
def Cert.DomainsSwitch (s : State) (t : Nat) : Prop :=
  let u := s.advance t
  (∀ d : Fin 162,
    let on := hasBit u.pwr.domains d.val = true
    let ramped := { u.pwr with domains := setBit u.pwr.domains d.val, ramping := u.pwr.ramping.erase d.val }
    (u.pwr.phase = .unpowered ∨ on → exec (.domainRamp t d) s = .next u ∧ exec (.domainFault t d) s = .next u)
    ∧ (u.pwr.ejectAt.isSome = true → exec (.domainRamp t d) s = .next u)
    ∧ (u.pwr.phase ≠ .unpowered → ¬ on → u.pwr.ejectAt = none →
      (114 ≤ d.val → exec (.domainRamp t d) s = .next { u with pwr := ramped })
      ∧ ∀ e : EngId, (d.val < 90 ∧ d.val / 15 = e.val) ∨ (90 ≤ d.val ∧ d.val < 114 ∧ (d.val - 90) / 4 = e.val) → ∃ v : State,
        exec (.domainRamp t d) s = .next v ∧ v = { u with eng := v.eng, pwr := ramped } ∧ (∀ k : EngId, k ≠ e → v.eng[k] = u.eng[k])
        ∧ v.eng[e] = { u.eng[e] with act := v.eng[e].act, store := v.eng[e].store, mem := { u.eng[e].mem with
            actBad := v.eng[e].mem.actBad, storeBad := v.eng[e].mem.storeBad } }
        ∧ (∀ a : Nat, a ∈ v.eng[e].mem.actBad ↔
          a ∈ u.eng[e].mem.actBad ∧ ¬ (d.val < 90 ∧ 11 ≤ d.val % 15 ∧ a / 1024 % 4 = d.val % 15 - 11))
        ∧ v.eng[e].mem.storeBad = (if 90 ≤ d.val then [] else u.eng[e].mem.storeBad)
        ∧ ∀ a : Nat,
          memGet v.eng[e].act a = (if d.val < 90 ∧ 11 ≤ d.val % 15 ∧ a / 1024 % 4 = d.val % 15 - 11 then 0 else memGet u.eng[e].act a)
          ∧ memGet v.eng[e].store a =
            if 90 ≤ d.val ∧ a % 16384 / 4096 = (d.val - 90) % 4 then 0 else memGet u.eng[e].store a)
    ∧ (u.pwr.phase ≠ .unpowered → ¬ on →
      let failed := { u.pwr with event := setBit u.pwr.event 1, ramping := u.pwr.ramping.erase d.val }
      (∀ e : EngId, (d.val < 90 ∧ d.val / 15 = e.val) ∨ (90 ≤ d.val ∧ d.val < 114 ∧ (d.val - 90) / 4 = e.val) → ∃ v : State,
        exec (.domainFault t d) s = .next v ∧ v.eng[e].fenced = true ∧ v.pwr.event = failed.event ∧ v.pwr.domains = u.pwr.domains)
      ∧ (∀ n : PortId, d.val = 114 + n.val → ∃ v : State, exec (.domainFault t d) s = .next v
        ∧ v = { u with pwr := failed, fab := { u.fab with outstanding := v.fab.outstanding, dlq := v.fab.dlq } }
        ∧ v.fab.outstanding = u.fab.outstanding.filter fun o => o.port ≠ n)
      ∧ (∀ k : VidId, d.val = 139 + k.val → ∃ v : State, exec (.domainFault t d) s = .next v ∧ v.pwr = failed
        ∧ v.vid.streams = (u.vid.streams.filter fun x => x.unit ≠ k) ∧ v.eng = u.eng)
      ∧ (∀ k : CvuId, d.val = 142 + k.val → ∃ v : State, exec (.domainFault t d) s = .next v ∧ v.pwr = failed
        ∧ v.cvu.units[k].running = none ∧ v.cvu.units[k].queue = [])
      ∧ ((122 ≤ d.val ∧ d.val < 139) ∨ 146 ≤ d.val → exec (.domainFault t d) s = .next { u with pwr := failed })))
  ∧ (u.host.hpReady = false → exec (.lockstepMismatch t) s = .next u)
  ∧ (u.host.hpReady = true → ∃ v : State, exec (.lockstepMismatch t) s = .next v ∧ v.now = 0 ∧ v.pwr.phase = .starting
    ∧ v.pwr.startSrc = true ∧ v.pwr.vin = u.pwr.vin ∧ v.jobs = [] ∧ v.scheds = [] ∧ v.host.hpReady = false ∧ v.fw = u.fw.unpowered
    ∧ v.sms = u.sms.restarted ∧ v.hist.waitingF = [] ∧ v.hist.waiting1 = [] ∧ v.pending = u.pending
    ∧ (∃ r ∈ v.hist.ring, r.unit = 160 ∧ r.mechanism = 10)
    ∧ (u.hasStandby = true → ∃ n : Dword, (9, n) ∈ v.twin.outbox) ∧ (u.hasStandby = false → v.twin.outbox = u.twin.outbox))

/-- POWER_UP, CLOCK_SOURCE_SELECT, ROM_START, IMAGES_VERIFIED, STORE_TESTED, MEMORY_TRAINED, PORTS_LOCKED, SERVICE, COOLANT_RECHECK,
DOMAIN_RAMP, DOMAIN_FAULT and LOCKSTEP_MISMATCH. -/
def Obligations.StartUpPassesItsPhases : Prop :=
  ∀ (s : State) (t : Nat), Cert.StartsUp s t ∧ Cert.PhasesPass s t ∧ Cert.DomainsSwitch s t

/-! Power, heat and the rack manager (chapters 18 and 20). -/

/-- Power cut without an EJECT, or the end of one (R398, R411). -/
def Cert.cut (u v : State) (epo latched : Bool) (vin : Half) : Prop :=
  Cert.fresh u v u.sms.unpowered ∧ v.now = u.now ∧ v.pwr.phase = .unpowered ∧ v.pwr.latchedOpen = latched ∧ v.pwr.epo = epo
    ∧ v.pwr.vin = vin

/-- What the supply does (R397, R401, R409-R411, R413). -/
def Cert.SupplyActs (s : State) (t : Nat) : Prop :=
  let u := s.advance t
  let on := u.pwr.phase ≠ .unpowered
  (∀ vin : Half,
    (on → vin.toNat < 4700 → exec (.uvWarn t vin) s = .next { u with pwr := { u.pwr with vin := vin, event := setBit u.pwr.event 0 } })
    ∧ (¬ on ∨ 4700 ≤ vin.toNat → exec (.uvWarn t vin) s = .next u)
    ∧ (vin.toNat ≤ 6200 → exec (.overvoltage t vin) s = .next u)
    ∧ (6200 < vin.toNat → ¬ on → exec (.overvoltage t vin) s = .next { u with pwr := { u.pwr with vin := vin } })
    ∧ (6200 < vin.toNat → on → ∃ v : State, exec (.overvoltage t vin) s = .next v ∧ Cert.cut u v u.pwr.epo u.pwr.latchedOpen vin))
  ∧ (on → exec (.refLost t) s = .next { u with pwr := { u.pwr with refLost := true } })
  ∧ (¬ on → exec (.refLost t) s = .next u ∧ exec (.thermalTrip t) s = .next u
    ∧ exec (.epo t) s = .next { u with pwr := { u.pwr with epo := true, latchedOpen := false } }
    ∧ exec (.eject t .presence) s = .next { u with pwr := { u.pwr with latchedOpen := false } }
    ∧ exec (.eject t .undervoltage) s = .next u)
  ∧ (on → (∃ v : State, exec (.epo t) s = .next v ∧ Cert.cut u v true false u.pwr.vin)
    ∧ (∃ v : State, exec (.thermalTrip t) s = .next v ∧ Cert.cut u v u.pwr.epo true u.pwr.vin)
    ∧ ∀ c : EjectCause,
      (u.pwr.ejectAt.isSome = true → exec (.eject t c) s = .next { u with pwr := { u.pwr with rebootFrom := none } })
      ∧ (u.pwr.ejectAt = none → ∃ w : State, exec (.eject t c) s = .next w ∧ Cert.ejecting u w false ∧ w.safeStop = true
        ∧ (u.pwr.level ≠ 3 → u.hasStandby = true → w.twin.role = .gaveUp ∧ w.twin.claimOut = false)
        ∧ (u.pwr.level = 3 ∨ u.hasStandby = false → w.twin.role = u.twin.role)
        ∧ ((u.jobs.map Job.id).Nodup → w.jobs.map Job.id = u.jobs.map Job.id ∧ ∀ j ∈ w.jobs, j.early.isSome = true)))

/-- The entry value of a thermal level in units of 0.25 degC (Table 18.5). -/
def Cert.entryOf (k : Nat) : Int := if k = 1 then 380 else if k = 2 then 400 else 420

/-- What heat does (R406-R408, R442). -/
def Cert.HeatActs (s : State) (t : Nat) : Prop :=
  let u := s.advance t
  let old := u.pwr.level.toNat
  (∀ sensors : List (BitVec 12), sensors ≠ [] → sensors.length ≤ 38 →
    (u.pwr.phase = .unpowered → exec (.thermalSample t sensors) s = .next u)
    ∧ (u.pwr.phase ≠ .unpowered → ∃ (v : State) (tj : Int) (reached : Nat), exec (.thermalSample t sensors) s = .next v
      ∧ (∀ x ∈ sensors, x.toInt ≤ tj) ∧ (∃ x ∈ sensors, x.toInt = tj)
      ∧ reached = (if 420 ≤ tj then 3 else if 400 ≤ tj then 2 else if 380 ≤ tj then 1 else 0)
      ∧ v.pwr.level.toNat = max old reached ∧ v.pwr.sensors = sensors
      ∧ v.pwr.tjMax = BitVec.ofInt 12 tj ∧ v.pwr.windowMax = (if u.pwr.windowMax.toInt < tj then BitVec.ofInt 12 tj else u.pwr.windowMax)
      ∧ (∀ k : Nat, 1 ≤ k → k ≤ 3 → hasBit v.pwr.thmEvent (k - 1) = (hasBit u.pwr.thmEvent (k - 1) || decide (old < k ∧ k ≤ reached)))
      ∧ hasBit v.pwr.thmEvent 3 = hasBit u.pwr.thmEvent 3
      ∧ (reached ≤ old ∨ reached < 2 ∨ u.pwr.phase ≠ .service ∨ (reached = 2 ∧ u.twin.role = .inStep) →
        v = { u with pwr := v.pwr } ∧ v.pwr.thmStop = u.pwr.thmStop)
      ∧ (u.pwr.phase = .service → old < reached → 2 ≤ reached → ¬ (reached = 2 ∧ u.twin.role = .inStep) → (u.jobs.map Job.id).Nodup →
          (∀ x ∈ u.vid.streams, x.encoding = true → x.consumed ≤ x.written) →
        let alone := reached = 3 ∧ u.hasStandby = false
        (alone → v.jobs = u.jobs.map (fun j => if j.early.isNone ∧ ¬ j.allEnded (u.now + 1) then
          { j with early := some (u.now, stThermalShed), counting := [], failedOn := none } else j)
          ∧ v.pwr.thmStop = { active := true, minEnd := u.now + 900000 }
          ∧ (u.twin.role = .inStep → v.twin.role = .outOfStep) ∧ (u.twin.role ≠ .inStep → v.twin = u.twin))
        ∧ (¬ alone → v.jobs = u.jobs.map (fun j => if j.early.isNone ∧ ¬ j.allEnded (u.now + 1) ∧ ∃ c, j.cls = some c
            ∧ hasBit (u.policy j.engines.head? c) 2 = true then
          { j with early := some (u.now, stThermalShed), counting := [], failedOn := none } else j)
          ∧ v.pwr.thmStop = u.pwr.thmStop
          ∧ (reached = 3 → v.twin.role = .gaveUp ∧ v.twin.claimOut = false
            ∧ v.twin.stop = { active := true, minEnd := u.now + 900000 })
          ∧ (reached = 2 → v.twin = u.twin)))))
  ∧ (∃ n : Nat,
    let holds := fun (k : Nat) => 1 ≤ k ∧ k ≤ old
      ∧ (Cert.entryOf k - 12 < hottest u.pwr.sensors ∨ ∀ h : k - 1 < 3, u.now < u.pwr.coolSince[k - 1] + 90000000)
    (∀ k : Nat, holds k → k ≤ n) ∧ (n = 0 ∨ holds n)
    ∧ exec (.thermalLevelExit t) s = .next (if n = old then u else { u with pwr := { u.pwr with
        level := BitVec.ofNat 2 n
        thmStop := if u.pwr.thmStop.active ∧ u.pwr.thmStop.remembered ∧ u.pwr.thmStop.minEnd ≤ u.now then {} else u.pwr.thmStop } }))
  ∧ ∀ c : BitVec 12,
    (u.pwr.phase ≠ .service → exec (.coolantInletRange t c) s = .next u)
    ∧ (u.pwr.phase = .service → exec (.coolantInletRange t c) s = .next { u with pwr := { u.pwr with
        coolant := c
        thmEvent := if 60 ≤ c.toInt ∧ c.toInt ≤ 180 then u.pwr.thmEvent else setBit u.pwr.thmEvent 3 } })

/-- What the rack manager reads (R294, R412, R438, Table 18.6). -/
def Cert.RackReads (s : State) (t : Nat) : Prop :=
  let u := s.advance t
  (u.pwr.phase = .unpowered → exec (.telemetryRefresh t) s = .next u ∧ ∀ i : Byte, exec (.smbusRead t i) s = .next u)
  ∧ (u.pwr.phase ≠ .unpowered → ∃ (v : State) (watts : Nat), exec (.telemetryRefresh t) s = .next v ∧ watts < 4096
    ∧ v = { u with free := v.free, pwr := v.pwr }
    ∧ v.pwr = { u.pwr with
        watts := BitVec.ofNat 12 watts, lastWindow := u.pwr.windowMax, windowMax := BitVec.ofInt 12 (hottest u.pwr.sensors)
        telemetry := v.pwr.telemetry }
    ∧ v.pwr.telemetry.length = 12 ∧ v.pwr.telemetry.take 4 = natLe u.pwr.vin.toNat 2 ++ natLe watts 2
    ∧ (v.pwr.telemetry.drop 4).take 2 = natLe (wrapInt 16 u.pwr.windowMax.toInt) 2
    ∧ v.pwr.telemetry.drop 6 = natLe (wrapInt 16 u.pwr.coolant.toInt) 2 ++ [BitVec.ofNat 8 u.pwr.phase.code, BitVec.ofNat 8 u.pwr.level.toNat,
      if u.safeStop then 1 else 0, BitVec.ofNat 8 u.twin.role.rowCode])
  ∧ (u.pwr.phase ≠ .unpowered → ∀ i : Byte, ∃ data : List Byte,
    exec (.smbusRead t i) s = .next { u with pwr := { u.pwr with smbData := data, smbAck := true } }
    ∧ (let raw := (u.pwr.telemetry.drop (2 * i.toNat)).take 2
      (i.toNat < 4 → (u.anyConfidential = false ∨ i = 0 ∨ i = 3) → u.pwr.telemetry.length = 12 → data = raw)
      ∧ ∀ step : Int, (i = 1 ∧ step = 8) ∨ (i = 2 ∧ step = 4) → u.anyConfidential = true → u.pwr.telemetry.length = 12 →
        let full := (BitVec.ofNat 16 (leNat raw)).toInt
        ∃ y : Int, y % step = 0 ∧ y ≤ full ∧ full < y + step ∧ data = natLe (wrapInt 16 y) 2)
    ∧ (4 ≤ i.toNat → i.toNat < 8 → data = (u.pwr.telemetry.drop (4 + i.toNat)).take 1))
  ∧ exec (.smbusWrite t) s = .next { u with pwr := { u.pwr with smbAck := false } }
  ∧ exec (.smbusTimeout t) s = .next u

/-- UV_WARN, OVERVOLTAGE, REF_LOST, EPO, THERMAL_TRIP, EJECT, THERMAL_SAMPLE, THERMAL_LEVEL_EXIT, COOLANT_INLET_RANGE, TELEMETRY_REFRESH,
SMBUS_READ, SMBUS_WRITE and SMBUS_TIMEOUT. -/
def Obligations.SupplyHeatAndRackManagerAct : Prop :=
  ∀ (s : State) (t : Nat), Cert.SupplyActs s t ∧ Cert.HeatActs s t ∧ Cert.RackReads s t
end

