-- ==== Sys2Proof/Laws/Cipher.lean ====
section
/-! SUPPORT. Bytes of a number and bounds of a CRC, lengths in AES-256, and what the authenticated cipher opens (R8, R241, R287, R289-R291; log
entry 84). -/

namespace Sys2Proof.Machine

theorem xorBytes_length (a b : List Byte) : (xorBytes a b).length = min a.length b.length := by simp [xorBytes]

@[simp] theorem natLe_length (v n : Nat) : (natLe v n).length = n := by
  induction n generalizing v with
  | zero => rfl
  | succ n ih => simp [natLe, ih]

theorem leNat_lt (bs : List Byte) : leNat bs < 256 ^ bs.length := by
  induction bs with
  | nil => simp [leNat]
  | cons b bs ih => simp only [leNat, List.length_cons, Nat.pow_succ]; have := b.isLt; omega

/-- The bytes of a number made from bytes. -/
theorem natLe_leNat (bs : List Byte) : natLe (leNat bs) bs.length = bs := by
  induction bs with
  | nil => rfl
  | cons b bs ih =>
    have := b.isLt
    have hd : (b.toNat + 256 * leNat bs) / 256 = leNat bs := by omega
    simp only [leNat, List.length_cons, natLe, hd, ih]
    congr 1
    apply BitVec.eq_of_toNat_eq
    simpa [BitVec.toNat_ofNat] using this

theorem reflectBits_lt (w v : Nat) : reflectBits w v < 2 ^ w := by
  induction w generalizing v with
  | zero => simp [reflectBits]
  | succ w ih =>
    have h := ih (v / 2)
    have h2 : v % 2 = 0 ∨ v % 2 = 1 := by omega
    simp only [reflectBits, Nat.pow_succ]
    rcases h2 with h2 | h2 <;> rw [h2] <;> omega

/-- A CRC-32C has 32 bits. -/
theorem crc32c_lt (bs : List Byte) : crc32c bs < 2 ^ 32 := by
  rw [crc32c, crcResult]
  exact Nat.xor_lt_two_pow (reflectBits_lt 32 _) (by decide)

@[simp] theorem natBe_length (v n : Nat) : (natBe v n).length = n := by simp [natBe]

@[simp] theorem padTo_length (n : Nat) (bs : List Byte) : (padTo n bs).length = n := by
  simp [padTo]; omega

theorem padTo_of_length {n : Nat} {bs : List Byte} (h : bs.length = n) : padTo n bs = bs := by simp [padTo, h]

@[simp] theorem groupsOf_length (k n : Nat) (bs : List Byte) : (groupsOf k n bs).length = n := by
  induction n generalizing bs with
  | zero => rfl
  | succ n ih => simp [groupsOf, ih]

/-- Groups that the bytes suffice for are whole. -/
theorem mem_groupsOf_length {k n : Nat} {bs g : List Byte} (h : n * k ≤ bs.length) (hg : g ∈ groupsOf k n bs) : g.length = k := by
  induction n generalizing bs with
  | zero => simp [groupsOf] at hg
  | succ n ih =>
    have : (n + 1) * k = n * k + k := by ring
    simp only [groupsOf, List.mem_cons] at hg
    rcases hg with rfl | hg
    · simp; omega
    · exact ih (by simp; omega) hg

/-- The word that an expanded key takes from the one before it has as many bytes. -/
theorem keyStep_length (i : Nat) (rc : Byte) (prev : List Byte) (h : prev.length = 4) :
    (if i % 8 = 0 then match (prev.drop 1 ++ prev.take 1).map subbed with
        | [] => []
        | b :: bs => (b ^^^ rc) :: bs
      else if i % 8 = 4 then prev.map subbed else prev).length = 4 := by
  split
  · have hl : ((prev.drop 1 ++ prev.take 1).map subbed).length = 4 := by
      rw [List.length_map, List.length_append, List.length_drop, List.length_take, h]; rfl
    revert hl
    generalize (prev.drop 1 ++ prev.take 1).map subbed = l
    cases l with
    | nil => exact fun hl => hl
    | cons b bs => exact fun hl => hl
  · split
    · rw [List.length_map, h]
    · exact h

/-- An expanded key has the words asked for, of four bytes each. -/
theorem keyWords_lengths (n i : Nat) (rc : Byte) (back : List (List Byte)) (h8 : 8 ≤ back.length) (h4 : ∀ w ∈ back, w.length = 4) :
    (keyWords n i rc back).length = n ∧ ∀ w ∈ keyWords n i rc back, w.length = 4 := by
  induction n generalizing i rc back with
  | zero => simp [keyWords]
  | succ n ih =>
    have h0 : (back.headD []).length = 4 := by
      cases back with
      | nil => simp at h8
      | cons w l => exact h4 w (by simp)
    have h7 : (back.getD 7 []).length = 4 := by
      rw [← List.getElem_eq_getD (h := (by omega : 7 < back.length))]
      exact h4 _ (List.getElem_mem _)
    have hnew := (xorBytes_length (back.getD 7 []) _).trans (congrArg₂ min h7 (keyStep_length i rc _ h0))
    have next := ih (i + 1) (if i % 8 = 0 then twice rc else rc) (_ :: back) (Nat.le_succ_of_le h8)
      (List.forall_mem_cons.mpr ⟨hnew, h4⟩)
    exact ⟨congrArg (· + 1) next.1, List.forall_mem_cons.mpr ⟨hnew, next.2⟩⟩

/-- AES-256 has fifteen round keys of sixteen bytes. -/
theorem roundKeys_lengths (key : List Byte) : (roundKeys key).length = 15 ∧ ∀ k ∈ roundKeys key, k.length = 16 := by
  refine ⟨groupsOf_length _ _ _, fun k hk => mem_groupsOf_length ?_ hk⟩
  have h8 : ∀ w ∈ groupsOf 4 8 (padTo 32 key), w.length = 4 := fun w hw => mem_groupsOf_length (by simp) hw
  have hw := keyWords_lengths 52 8 1 (groupsOf 4 8 (padTo 32 key)).reverse (by simp) (by simpa using h8)
  have flat : ∀ l : List (List Byte), (∀ w ∈ l, w.length = 4) → l.flatten.length = 4 * l.length := fun l hl => by
    induction l with
    | nil => rfl
    | cons w l ih => simp [hl w (by simp), ih fun x hx => hl x (by simp [hx])]; omega
  rw [flat _ fun w hm => (List.mem_append.mp hm).elim (h8 w) (hw.2 w)]
  rw [List.length_append, hw.1, groupsOf_length]

/-- The rounds of the cipher give sixteen bytes where their keys have them. -/
theorem cipherRounds_length (ks : List (List Byte)) (bs : List Byte) (h : ∀ k ∈ ks, k.length = 16) (h1 : ks ≠ []) :
    (cipherRounds ks bs).length = 16 := by
  induction ks generalizing bs with
  | nil => exact absurd rfl h1
  | cons k ks ih =>
    cases ks with
    | nil => simp [cipherRounds, xorBytes_length, shiftRows, h k]
    | cons k' ks' => exact ih _ (fun x hx => h x (List.mem_cons_of_mem _ hx)) (by simp)

/-- A block enciphered under an expanded key has sixteen bytes. -/
theorem cipherBlock_length (key bs : List Byte) : (cipherBlock (roundKeys key) bs).length = 16 := by
  have h := roundKeys_lengths key
  refine cipherRounds_length _ _ (fun k hk => h.2 k (List.mem_of_mem_drop hk)) fun h0 => ?_
  have := congrArg List.length h0
  simp [h.1] at this

/-- A tag has sixteen bytes. -/
@[simp] theorem gcmTagOf_length (key nonce aad ct : List Byte) : (gcmTagOf (roundKeys key) nonce aad ct).length = 16 := by
  simp [gcmTagOf, xorBytes_length, cipherBlock_length]

/-- The tag of a seal has sixteen bytes. -/
theorem gcmSeal_snd_length (key nonce aad plain : List Byte) : (gcmSeal key nonce aad plain).2.length = 16 := by
  simp only [gcmSeal, gcmTagOf_length]

/-- A ciphertext opens exactly under its own tag. -/
theorem gcmOpen_eq (key nonce aad ct tag : List Byte) :
    gcmOpen key nonce aad ct tag =
      if gcmTagOf (roundKeys key) nonce aad ct = tag then some (counterMode (roundKeys key) nonce ct) else none := rfl

/-- A ciphertext opens under its own tag. -/
theorem gcmOpen_own (key nonce aad ct : List Byte) :
    gcmOpen key nonce aad ct (gcmTagOf (roundKeys key) nonce aad ct) = some (counterMode (roundKeys key) nonce ct) := by
  rw [gcmOpen_eq, if_pos rfl]

/-- The key stream for `n` bytes is that long. -/
theorem keyStream_length (key nonce : List Byte) (n : Nat) :
    n ≤ ((List.range (ceilDiv n 16)).flatMap fun i => cipherBlock (roundKeys key) (nonce ++ natBe (i + 2) 4)).length := by
  have : ∀ m : Nat, ((List.range m).flatMap fun i => cipherBlock (roundKeys key) (nonce ++ natBe (i + 2) 4)).length = 16 * m := fun m => by
    induction m with
    | zero => rfl
    | succ m ih => simp [List.range_succ, List.flatMap_append, ih, cipherBlock_length]; omega
  rw [this]; unfold ceilDiv; omega

/-- A ciphertext is as long as its plaintext. -/
@[simp] theorem counterMode_length (key nonce plain : List Byte) : (counterMode (roundKeys key) nonce plain).length = plain.length := by
  rw [counterMode, xorBytes_length]; exact Nat.min_eq_left (keyStream_length key nonce _)

/-- What has been sealed opens, and gives the plaintext. -/
theorem gcmOpen_gcmSeal (key nonce aad plain : List Byte) :
    gcmOpen key nonce aad (gcmSeal key nonce aad plain).1 (gcmSeal key nonce aad plain).2 = some plain := by
  have same : ∀ a k : List Byte, a.length ≤ k.length → xorBytes (xorBytes a k) k = a := fun a => by
    induction a with
    | nil => intro k _; simp [xorBytes]
    | cons x a ih =>
      intro k hk
      cases k with
      | nil => simp at hk
      | cons y k => simpa [xorBytes, BitVec.xor_assoc] using ih k (by simpa using hk)
  rw [gcmSeal, gcmOpen_own, counterMode, counterMode_length]
  exact congrArg some (same plain _ (keyStream_length key nonce _))

end Sys2Proof.Machine
end

