-- ==== Sys2Proof/Laws/Cycle.lean ====
section
/-! SUPPORT. What the end of a cycle leaves: the fields that `State.hold` and `State.moveTo` do not touch, and the units of those they do. -/

namespace Sys2Proof.Machine

@[simp] theorem State.hold_now (s : State) : s.hold.now = s.now := rfl
@[simp] theorem State.hold_scheds (s : State) : s.hold.scheds = s.scheds := rfl
@[simp] theorem State.hold_jobs (s : State) : s.hold.jobs = s.jobs := rfl
@[simp] theorem State.hold_nextJob (s : State) : s.hold.nextJob = s.nextJob := rfl
@[simp] theorem State.hold_nextXfer (s : State) : s.hold.nextXfer = s.nextXfer := rfl
@[simp] theorem State.hold_hist (s : State) : s.hold.hist = s.hist := rfl
@[simp] theorem State.hold_units (s : State) : s.hold.units = s.units := rfl
@[simp] theorem State.hold_sms (s : State) : s.hold.sms = s.sms := rfl
@[simp] theorem State.hold_fw (s : State) : s.hold.fw = s.fw := rfl
@[simp] theorem State.hold_free (s : State) : s.hold.free = s.free := rfl
@[simp] theorem State.hold_pending (s : State) : s.hold.pending = s.pending := rfl

@[simp] theorem State.hold_eng (s : State) (e : EngId) : s.hold.eng[e] = s.eng[e].hold := by simp [State.hold]
@[simp] theorem State.hold_port (s : State) (n : LinkId) : s.hold.fab.ports[n] = s.fab.ports[n].hold := by simp [State.hold, Fabric.hold]
@[simp] theorem State.hold_part (s : State) (p : PartId) : s.hold.part[p] = { s.part[p] with kv := s.part[p].kv.hold } := by
  simp [State.hold]
@[simp] theorem State.hold_host (s : State) : s.hold.host = s.host.hold := rfl
@[simp] theorem State.hold_pwr (s : State) : s.hold.pwr = s.pwr.hold := rfl

@[simp] theorem Engine.hold_store (g : Engine) : g.hold.store = g.store := rfl
@[simp] theorem Engine.hold_act (g : Engine) : g.hold.act = g.act := rfl
@[simp] theorem Engine.hold_rowBuf (g : Engine) : g.hold.rowBuf = g.rowBuf := rfl
@[simp] theorem Engine.hold_params (g : Engine) : g.hold.params = g.params := rfl
@[simp] theorem Engine.hold_landings (g : Engine) : g.hold.landings = g.landings := rfl
@[simp] theorem Engine.hold_seq (g : Engine) : g.hold.seq = g.seq := rfl
@[simp] theorem Engine.hold_tileA (g : Engine) : g.hold.tileA = g.tileA := rfl
@[simp] theorem Engine.hold_tileB (g : Engine) : g.hold.tileB = g.tileB := rfl
@[simp] theorem Engine.hold_acc (g : Engine) : g.hold.acc = g.acc := rfl
@[simp] theorem Engine.hold_bcast (g : Engine) : g.hold.bcast = g.bcast := rfl
@[simp] theorem Engine.hold_fenced (g : Engine) : g.hold.fenced = g.fenced := rfl
@[simp] theorem Engine.hold_busyUntil (g : Engine) : g.hold.busyUntil = g.busyUntil := rfl

@[simp] theorem HostPort.hold_win (h : HostPort) : h.hold.win = h.win := rfl
@[simp] theorem HostPort.hold_mbx (h : HostPort) : h.hold.mbx = h.mbx := rfl
@[simp] theorem HostPort.hold_hpReady (h : HostPort) : h.hold.hpReady = h.hpReady := rfl
@[simp] theorem HostPort.hold_mbxDone (h : HostPort) : h.hold.mbxDone = h.mbxDone := rfl
@[simp] theorem HostPort.hold_answered (h : HostPort) : h.hold.answered = h.answered := rfl
@[simp] theorem HostPort.hold_rdata (h : HostPort) : h.hold.rdata = h.rdata := rfl
@[simp] theorem Power.hold_phase (p : Power) : p.hold.phase = p.phase := rfl
@[simp] theorem Power.hold_ejectAt (p : Power) : p.hold.ejectAt = p.ejectAt := rfl
@[simp] theorem Power.hold_level (p : Power) : p.hold.level = p.level := rfl
@[simp] theorem Power.hold_domains (p : Power) : p.hold.domains = p.domains := rfl
@[simp] theorem Power.hold_startSrc (p : Power) : p.hold.startSrc = p.startSrc := rfl

/-- The frames of a bulk area stand as they do as a cycle ends. -/
@[simp] theorem HostPort.hold_frames (h : HostPort) (a : PartId) : h.hold.bulk[a].frames = h.bulk[a].frames := by simp [HostPort.hold]

/-- The postmark after a move: the later of the two. -/
@[simp] theorem State.moveTo_now (s : State) (n : Nat) : (s.moveTo n).now = max s.now n := by
  unfold State.moveTo
  split
  · simp; omega
  · omega

/-- A move to a cycle that has come changes nothing. -/
theorem State.moveTo_past {s : State} {n : Nat} (h : n ≤ s.now) : s.moveTo n = s := by
  unfold State.moveTo
  split
  · omega
  · rfl

/-- A move to a later cycle ends the one that runs. -/
theorem State.moveTo_later {s : State} {n : Nat} (h : s.now < n) : s.moveTo n = { s.hold with now := n } := if_pos h

@[simp] theorem State.moveTo_pending (s : State) (n : Nat) : (s.moveTo n).pending = s.pending := by
  unfold State.moveTo
  split <;> rfl

/-- What a cycle's events bring stands apart from what stood before them, so that a clear in their cycle does not take it (R13). -/
theorem Engine.hold_chkStatus (g : Engine) : g.hold.chkStatusWas = g.chkStatusWas ||| g.chkStatus ∧ g.hold.chkStatus = 0 := ⟨rfl, rfl⟩

end Sys2Proof.Machine
end

