-- ==== Sys2Proof/Laws/State.lean ====
section
/-! SUPPORT. Every named update of the state read field by field: the field that it changes, and that it leaves every other one. -/

namespace Sys2Proof.Machine

/-! `State.updEng`. -/

@[simp] theorem State.updEng_now (s : State) (e : EngId) (f : Engine → Engine) : (s.updEng e f).now = s.now := rfl
@[simp] theorem State.updEng_eng (s : State) (e : EngId) (f : Engine → Engine) : (s.updEng e f).eng = s.eng.set e (f s.eng[e]) := rfl
@[simp] theorem State.updEng_scheds (s : State) (e : EngId) (f : Engine → Engine) : (s.updEng e f).scheds = s.scheds := rfl
@[simp] theorem State.updEng_jobs (s : State) (e : EngId) (f : Engine → Engine) : (s.updEng e f).jobs = s.jobs := rfl
@[simp] theorem State.updEng_nextJob (s : State) (e : EngId) (f : Engine → Engine) : (s.updEng e f).nextJob = s.nextJob := rfl
@[simp] theorem State.updEng_nextXfer (s : State) (e : EngId) (f : Engine → Engine) : (s.updEng e f).nextXfer = s.nextXfer := rfl
@[simp] theorem State.updEng_hist (s : State) (e : EngId) (f : Engine → Engine) : (s.updEng e f).hist = s.hist := rfl
@[simp] theorem State.updEng_units (s : State) (e : EngId) (f : Engine → Engine) : (s.updEng e f).units = s.units := rfl
@[simp] theorem State.updEng_host (s : State) (e : EngId) (f : Engine → Engine) : (s.updEng e f).host = s.host := rfl
@[simp] theorem State.updEng_fab (s : State) (e : EngId) (f : Engine → Engine) : (s.updEng e f).fab = s.fab := rfl
@[simp] theorem State.updEng_env (s : State) (e : EngId) (f : Engine → Engine) : (s.updEng e f).env = s.env := rfl
@[simp] theorem State.updEng_part (s : State) (e : EngId) (f : Engine → Engine) : (s.updEng e f).part = s.part := rfl
@[simp] theorem State.updEng_sec (s : State) (e : EngId) (f : Engine → Engine) : (s.updEng e f).sec = s.sec := rfl
@[simp] theorem State.updEng_twin (s : State) (e : EngId) (f : Engine → Engine) : (s.updEng e f).twin = s.twin := rfl
@[simp] theorem State.updEng_vid (s : State) (e : EngId) (f : Engine → Engine) : (s.updEng e f).vid = s.vid := rfl
@[simp] theorem State.updEng_sms (s : State) (e : EngId) (f : Engine → Engine) : (s.updEng e f).sms = s.sms := rfl
@[simp] theorem State.updEng_cvu (s : State) (e : EngId) (f : Engine → Engine) : (s.updEng e f).cvu = s.cvu := rfl
@[simp] theorem State.updEng_bist (s : State) (e : EngId) (f : Engine → Engine) : (s.updEng e f).bist = s.bist := rfl
@[simp] theorem State.updEng_pwr (s : State) (e : EngId) (f : Engine → Engine) : (s.updEng e f).pwr = s.pwr := rfl
@[simp] theorem State.updEng_fw (s : State) (e : EngId) (f : Engine → Engine) : (s.updEng e f).fw = s.fw := rfl
@[simp] theorem State.updEng_free (s : State) (e : EngId) (f : Engine → Engine) : (s.updEng e f).free = s.free := rfl
@[simp] theorem State.updEng_pending (s : State) (e : EngId) (f : Engine → Engine) : (s.updEng e f).pending = s.pending := rfl

/-! `State.updPart`. -/

@[simp] theorem State.updPart_now (s : State) (p : PartId) (f : Partition → Partition) : (s.updPart p f).now = s.now := rfl
@[simp] theorem State.updPart_eng (s : State) (p : PartId) (f : Partition → Partition) : (s.updPart p f).eng = s.eng := rfl
@[simp] theorem State.updPart_scheds (s : State) (p : PartId) (f : Partition → Partition) : (s.updPart p f).scheds = s.scheds := rfl
@[simp] theorem State.updPart_jobs (s : State) (p : PartId) (f : Partition → Partition) : (s.updPart p f).jobs = s.jobs := rfl
@[simp] theorem State.updPart_nextJob (s : State) (p : PartId) (f : Partition → Partition) : (s.updPart p f).nextJob = s.nextJob := rfl
@[simp] theorem State.updPart_nextXfer (s : State) (p : PartId) (f : Partition → Partition) : (s.updPart p f).nextXfer = s.nextXfer := rfl
@[simp] theorem State.updPart_hist (s : State) (p : PartId) (f : Partition → Partition) : (s.updPart p f).hist = s.hist := rfl
@[simp] theorem State.updPart_units (s : State) (p : PartId) (f : Partition → Partition) : (s.updPart p f).units = s.units := rfl
@[simp] theorem State.updPart_host (s : State) (p : PartId) (f : Partition → Partition) : (s.updPart p f).host = s.host := rfl
@[simp] theorem State.updPart_fab (s : State) (p : PartId) (f : Partition → Partition) : (s.updPart p f).fab = s.fab := rfl
@[simp] theorem State.updPart_env (s : State) (p : PartId) (f : Partition → Partition) : (s.updPart p f).env = s.env := rfl
@[simp] theorem State.updPart_part (s : State) (p : PartId) (f : Partition → Partition) : (s.updPart p f).part = s.part.set p (f s.part[p]) := rfl
@[simp] theorem State.updPart_sec (s : State) (p : PartId) (f : Partition → Partition) : (s.updPart p f).sec = s.sec := rfl
@[simp] theorem State.updPart_twin (s : State) (p : PartId) (f : Partition → Partition) : (s.updPart p f).twin = s.twin := rfl
@[simp] theorem State.updPart_vid (s : State) (p : PartId) (f : Partition → Partition) : (s.updPart p f).vid = s.vid := rfl
@[simp] theorem State.updPart_sms (s : State) (p : PartId) (f : Partition → Partition) : (s.updPart p f).sms = s.sms := rfl
@[simp] theorem State.updPart_cvu (s : State) (p : PartId) (f : Partition → Partition) : (s.updPart p f).cvu = s.cvu := rfl
@[simp] theorem State.updPart_bist (s : State) (p : PartId) (f : Partition → Partition) : (s.updPart p f).bist = s.bist := rfl
@[simp] theorem State.updPart_pwr (s : State) (p : PartId) (f : Partition → Partition) : (s.updPart p f).pwr = s.pwr := rfl
@[simp] theorem State.updPart_fw (s : State) (p : PartId) (f : Partition → Partition) : (s.updPart p f).fw = s.fw := rfl
@[simp] theorem State.updPart_free (s : State) (p : PartId) (f : Partition → Partition) : (s.updPart p f).free = s.free := rfl
@[simp] theorem State.updPart_pending (s : State) (p : PartId) (f : Partition → Partition) : (s.updPart p f).pending = s.pending := rfl

/-! `State.updHost`. -/

@[simp] theorem State.updHost_now (s : State) (f : HostPort → HostPort) : (s.updHost f).now = s.now := rfl
@[simp] theorem State.updHost_eng (s : State) (f : HostPort → HostPort) : (s.updHost f).eng = s.eng := rfl
@[simp] theorem State.updHost_scheds (s : State) (f : HostPort → HostPort) : (s.updHost f).scheds = s.scheds := rfl
@[simp] theorem State.updHost_jobs (s : State) (f : HostPort → HostPort) : (s.updHost f).jobs = s.jobs := rfl
@[simp] theorem State.updHost_nextJob (s : State) (f : HostPort → HostPort) : (s.updHost f).nextJob = s.nextJob := rfl
@[simp] theorem State.updHost_nextXfer (s : State) (f : HostPort → HostPort) : (s.updHost f).nextXfer = s.nextXfer := rfl
@[simp] theorem State.updHost_hist (s : State) (f : HostPort → HostPort) : (s.updHost f).hist = s.hist := rfl
@[simp] theorem State.updHost_units (s : State) (f : HostPort → HostPort) : (s.updHost f).units = s.units := rfl
@[simp] theorem State.updHost_host (s : State) (f : HostPort → HostPort) : (s.updHost f).host = f s.host := rfl
@[simp] theorem State.updHost_fab (s : State) (f : HostPort → HostPort) : (s.updHost f).fab = s.fab := rfl
@[simp] theorem State.updHost_env (s : State) (f : HostPort → HostPort) : (s.updHost f).env = s.env := rfl
@[simp] theorem State.updHost_part (s : State) (f : HostPort → HostPort) : (s.updHost f).part = s.part := rfl
@[simp] theorem State.updHost_sec (s : State) (f : HostPort → HostPort) : (s.updHost f).sec = s.sec := rfl
@[simp] theorem State.updHost_twin (s : State) (f : HostPort → HostPort) : (s.updHost f).twin = s.twin := rfl
@[simp] theorem State.updHost_vid (s : State) (f : HostPort → HostPort) : (s.updHost f).vid = s.vid := rfl
@[simp] theorem State.updHost_sms (s : State) (f : HostPort → HostPort) : (s.updHost f).sms = s.sms := rfl
@[simp] theorem State.updHost_cvu (s : State) (f : HostPort → HostPort) : (s.updHost f).cvu = s.cvu := rfl
@[simp] theorem State.updHost_bist (s : State) (f : HostPort → HostPort) : (s.updHost f).bist = s.bist := rfl
@[simp] theorem State.updHost_pwr (s : State) (f : HostPort → HostPort) : (s.updHost f).pwr = s.pwr := rfl
@[simp] theorem State.updHost_fw (s : State) (f : HostPort → HostPort) : (s.updHost f).fw = s.fw := rfl
@[simp] theorem State.updHost_free (s : State) (f : HostPort → HostPort) : (s.updHost f).free = s.free := rfl
@[simp] theorem State.updHost_pending (s : State) (f : HostPort → HostPort) : (s.updHost f).pending = s.pending := rfl

/-! `State.updFab`. -/

@[simp] theorem State.updFab_now (s : State) (f : Fabric → Fabric) : (s.updFab f).now = s.now := rfl
@[simp] theorem State.updFab_eng (s : State) (f : Fabric → Fabric) : (s.updFab f).eng = s.eng := rfl
@[simp] theorem State.updFab_scheds (s : State) (f : Fabric → Fabric) : (s.updFab f).scheds = s.scheds := rfl
@[simp] theorem State.updFab_jobs (s : State) (f : Fabric → Fabric) : (s.updFab f).jobs = s.jobs := rfl
@[simp] theorem State.updFab_nextJob (s : State) (f : Fabric → Fabric) : (s.updFab f).nextJob = s.nextJob := rfl
@[simp] theorem State.updFab_nextXfer (s : State) (f : Fabric → Fabric) : (s.updFab f).nextXfer = s.nextXfer := rfl
@[simp] theorem State.updFab_hist (s : State) (f : Fabric → Fabric) : (s.updFab f).hist = s.hist := rfl
@[simp] theorem State.updFab_units (s : State) (f : Fabric → Fabric) : (s.updFab f).units = s.units := rfl
@[simp] theorem State.updFab_host (s : State) (f : Fabric → Fabric) : (s.updFab f).host = s.host := rfl
@[simp] theorem State.updFab_fab (s : State) (f : Fabric → Fabric) : (s.updFab f).fab = f s.fab := rfl
@[simp] theorem State.updFab_env (s : State) (f : Fabric → Fabric) : (s.updFab f).env = s.env := rfl
@[simp] theorem State.updFab_part (s : State) (f : Fabric → Fabric) : (s.updFab f).part = s.part := rfl
@[simp] theorem State.updFab_sec (s : State) (f : Fabric → Fabric) : (s.updFab f).sec = s.sec := rfl
@[simp] theorem State.updFab_twin (s : State) (f : Fabric → Fabric) : (s.updFab f).twin = s.twin := rfl
@[simp] theorem State.updFab_vid (s : State) (f : Fabric → Fabric) : (s.updFab f).vid = s.vid := rfl
@[simp] theorem State.updFab_sms (s : State) (f : Fabric → Fabric) : (s.updFab f).sms = s.sms := rfl
@[simp] theorem State.updFab_cvu (s : State) (f : Fabric → Fabric) : (s.updFab f).cvu = s.cvu := rfl
@[simp] theorem State.updFab_bist (s : State) (f : Fabric → Fabric) : (s.updFab f).bist = s.bist := rfl
@[simp] theorem State.updFab_pwr (s : State) (f : Fabric → Fabric) : (s.updFab f).pwr = s.pwr := rfl
@[simp] theorem State.updFab_fw (s : State) (f : Fabric → Fabric) : (s.updFab f).fw = s.fw := rfl
@[simp] theorem State.updFab_free (s : State) (f : Fabric → Fabric) : (s.updFab f).free = s.free := rfl
@[simp] theorem State.updFab_pending (s : State) (f : Fabric → Fabric) : (s.updFab f).pending = s.pending := rfl

/-! `State.updEnv`. -/

@[simp] theorem State.updEnv_now (s : State) (f : EnvUnit → EnvUnit) : (s.updEnv f).now = s.now := rfl
@[simp] theorem State.updEnv_eng (s : State) (f : EnvUnit → EnvUnit) : (s.updEnv f).eng = s.eng := rfl
@[simp] theorem State.updEnv_scheds (s : State) (f : EnvUnit → EnvUnit) : (s.updEnv f).scheds = s.scheds := rfl
@[simp] theorem State.updEnv_jobs (s : State) (f : EnvUnit → EnvUnit) : (s.updEnv f).jobs = s.jobs := rfl
@[simp] theorem State.updEnv_nextJob (s : State) (f : EnvUnit → EnvUnit) : (s.updEnv f).nextJob = s.nextJob := rfl
@[simp] theorem State.updEnv_nextXfer (s : State) (f : EnvUnit → EnvUnit) : (s.updEnv f).nextXfer = s.nextXfer := rfl
@[simp] theorem State.updEnv_hist (s : State) (f : EnvUnit → EnvUnit) : (s.updEnv f).hist = s.hist := rfl
@[simp] theorem State.updEnv_units (s : State) (f : EnvUnit → EnvUnit) : (s.updEnv f).units = s.units := rfl
@[simp] theorem State.updEnv_host (s : State) (f : EnvUnit → EnvUnit) : (s.updEnv f).host = s.host := rfl
@[simp] theorem State.updEnv_fab (s : State) (f : EnvUnit → EnvUnit) : (s.updEnv f).fab = s.fab := rfl
@[simp] theorem State.updEnv_env (s : State) (f : EnvUnit → EnvUnit) : (s.updEnv f).env = f s.env := rfl
@[simp] theorem State.updEnv_part (s : State) (f : EnvUnit → EnvUnit) : (s.updEnv f).part = s.part := rfl
@[simp] theorem State.updEnv_sec (s : State) (f : EnvUnit → EnvUnit) : (s.updEnv f).sec = s.sec := rfl
@[simp] theorem State.updEnv_twin (s : State) (f : EnvUnit → EnvUnit) : (s.updEnv f).twin = s.twin := rfl
@[simp] theorem State.updEnv_vid (s : State) (f : EnvUnit → EnvUnit) : (s.updEnv f).vid = s.vid := rfl
@[simp] theorem State.updEnv_sms (s : State) (f : EnvUnit → EnvUnit) : (s.updEnv f).sms = s.sms := rfl
@[simp] theorem State.updEnv_cvu (s : State) (f : EnvUnit → EnvUnit) : (s.updEnv f).cvu = s.cvu := rfl
@[simp] theorem State.updEnv_bist (s : State) (f : EnvUnit → EnvUnit) : (s.updEnv f).bist = s.bist := rfl
@[simp] theorem State.updEnv_pwr (s : State) (f : EnvUnit → EnvUnit) : (s.updEnv f).pwr = s.pwr := rfl
@[simp] theorem State.updEnv_fw (s : State) (f : EnvUnit → EnvUnit) : (s.updEnv f).fw = s.fw := rfl
@[simp] theorem State.updEnv_free (s : State) (f : EnvUnit → EnvUnit) : (s.updEnv f).free = s.free := rfl
@[simp] theorem State.updEnv_pending (s : State) (f : EnvUnit → EnvUnit) : (s.updEnv f).pending = s.pending := rfl

/-! `State.updSec`. -/

@[simp] theorem State.updSec_now (s : State) (f : Security → Security) : (s.updSec f).now = s.now := rfl
@[simp] theorem State.updSec_eng (s : State) (f : Security → Security) : (s.updSec f).eng = s.eng := rfl
@[simp] theorem State.updSec_scheds (s : State) (f : Security → Security) : (s.updSec f).scheds = s.scheds := rfl
@[simp] theorem State.updSec_jobs (s : State) (f : Security → Security) : (s.updSec f).jobs = s.jobs := rfl
@[simp] theorem State.updSec_nextJob (s : State) (f : Security → Security) : (s.updSec f).nextJob = s.nextJob := rfl
@[simp] theorem State.updSec_nextXfer (s : State) (f : Security → Security) : (s.updSec f).nextXfer = s.nextXfer := rfl
@[simp] theorem State.updSec_hist (s : State) (f : Security → Security) : (s.updSec f).hist = s.hist := rfl
@[simp] theorem State.updSec_units (s : State) (f : Security → Security) : (s.updSec f).units = s.units := rfl
@[simp] theorem State.updSec_host (s : State) (f : Security → Security) : (s.updSec f).host = s.host := rfl
@[simp] theorem State.updSec_fab (s : State) (f : Security → Security) : (s.updSec f).fab = s.fab := rfl
@[simp] theorem State.updSec_env (s : State) (f : Security → Security) : (s.updSec f).env = s.env := rfl
@[simp] theorem State.updSec_part (s : State) (f : Security → Security) : (s.updSec f).part = s.part := rfl
@[simp] theorem State.updSec_sec (s : State) (f : Security → Security) : (s.updSec f).sec = f s.sec := rfl
@[simp] theorem State.updSec_twin (s : State) (f : Security → Security) : (s.updSec f).twin = s.twin := rfl
@[simp] theorem State.updSec_vid (s : State) (f : Security → Security) : (s.updSec f).vid = s.vid := rfl
@[simp] theorem State.updSec_sms (s : State) (f : Security → Security) : (s.updSec f).sms = s.sms := rfl
@[simp] theorem State.updSec_cvu (s : State) (f : Security → Security) : (s.updSec f).cvu = s.cvu := rfl
@[simp] theorem State.updSec_bist (s : State) (f : Security → Security) : (s.updSec f).bist = s.bist := rfl
@[simp] theorem State.updSec_pwr (s : State) (f : Security → Security) : (s.updSec f).pwr = s.pwr := rfl
@[simp] theorem State.updSec_fw (s : State) (f : Security → Security) : (s.updSec f).fw = s.fw := rfl
@[simp] theorem State.updSec_free (s : State) (f : Security → Security) : (s.updSec f).free = s.free := rfl
@[simp] theorem State.updSec_pending (s : State) (f : Security → Security) : (s.updSec f).pending = s.pending := rfl

/-! `State.updTwin`. -/

@[simp] theorem State.updTwin_now (s : State) (f : Twin → Twin) : (s.updTwin f).now = s.now := rfl
@[simp] theorem State.updTwin_eng (s : State) (f : Twin → Twin) : (s.updTwin f).eng = s.eng := rfl
@[simp] theorem State.updTwin_scheds (s : State) (f : Twin → Twin) : (s.updTwin f).scheds = s.scheds := rfl
@[simp] theorem State.updTwin_jobs (s : State) (f : Twin → Twin) : (s.updTwin f).jobs = s.jobs := rfl
@[simp] theorem State.updTwin_nextJob (s : State) (f : Twin → Twin) : (s.updTwin f).nextJob = s.nextJob := rfl
@[simp] theorem State.updTwin_nextXfer (s : State) (f : Twin → Twin) : (s.updTwin f).nextXfer = s.nextXfer := rfl
@[simp] theorem State.updTwin_hist (s : State) (f : Twin → Twin) : (s.updTwin f).hist = s.hist := rfl
@[simp] theorem State.updTwin_units (s : State) (f : Twin → Twin) : (s.updTwin f).units = s.units := rfl
@[simp] theorem State.updTwin_host (s : State) (f : Twin → Twin) : (s.updTwin f).host = s.host := rfl
@[simp] theorem State.updTwin_fab (s : State) (f : Twin → Twin) : (s.updTwin f).fab = s.fab := rfl
@[simp] theorem State.updTwin_env (s : State) (f : Twin → Twin) : (s.updTwin f).env = s.env := rfl
@[simp] theorem State.updTwin_part (s : State) (f : Twin → Twin) : (s.updTwin f).part = s.part := rfl
@[simp] theorem State.updTwin_sec (s : State) (f : Twin → Twin) : (s.updTwin f).sec = s.sec := rfl
@[simp] theorem State.updTwin_twin (s : State) (f : Twin → Twin) : (s.updTwin f).twin = f s.twin := rfl
@[simp] theorem State.updTwin_vid (s : State) (f : Twin → Twin) : (s.updTwin f).vid = s.vid := rfl
@[simp] theorem State.updTwin_sms (s : State) (f : Twin → Twin) : (s.updTwin f).sms = s.sms := rfl
@[simp] theorem State.updTwin_cvu (s : State) (f : Twin → Twin) : (s.updTwin f).cvu = s.cvu := rfl
@[simp] theorem State.updTwin_bist (s : State) (f : Twin → Twin) : (s.updTwin f).bist = s.bist := rfl
@[simp] theorem State.updTwin_pwr (s : State) (f : Twin → Twin) : (s.updTwin f).pwr = s.pwr := rfl
@[simp] theorem State.updTwin_fw (s : State) (f : Twin → Twin) : (s.updTwin f).fw = s.fw := rfl
@[simp] theorem State.updTwin_free (s : State) (f : Twin → Twin) : (s.updTwin f).free = s.free := rfl
@[simp] theorem State.updTwin_pending (s : State) (f : Twin → Twin) : (s.updTwin f).pending = s.pending := rfl

/-! `State.updPwr`. -/

@[simp] theorem State.updPwr_now (s : State) (f : Power → Power) : (s.updPwr f).now = s.now := rfl
@[simp] theorem State.updPwr_eng (s : State) (f : Power → Power) : (s.updPwr f).eng = s.eng := rfl
@[simp] theorem State.updPwr_scheds (s : State) (f : Power → Power) : (s.updPwr f).scheds = s.scheds := rfl
@[simp] theorem State.updPwr_jobs (s : State) (f : Power → Power) : (s.updPwr f).jobs = s.jobs := rfl
@[simp] theorem State.updPwr_nextJob (s : State) (f : Power → Power) : (s.updPwr f).nextJob = s.nextJob := rfl
@[simp] theorem State.updPwr_nextXfer (s : State) (f : Power → Power) : (s.updPwr f).nextXfer = s.nextXfer := rfl
@[simp] theorem State.updPwr_hist (s : State) (f : Power → Power) : (s.updPwr f).hist = s.hist := rfl
@[simp] theorem State.updPwr_units (s : State) (f : Power → Power) : (s.updPwr f).units = s.units := rfl
@[simp] theorem State.updPwr_host (s : State) (f : Power → Power) : (s.updPwr f).host = s.host := rfl
@[simp] theorem State.updPwr_fab (s : State) (f : Power → Power) : (s.updPwr f).fab = s.fab := rfl
@[simp] theorem State.updPwr_env (s : State) (f : Power → Power) : (s.updPwr f).env = s.env := rfl
@[simp] theorem State.updPwr_part (s : State) (f : Power → Power) : (s.updPwr f).part = s.part := rfl
@[simp] theorem State.updPwr_sec (s : State) (f : Power → Power) : (s.updPwr f).sec = s.sec := rfl
@[simp] theorem State.updPwr_twin (s : State) (f : Power → Power) : (s.updPwr f).twin = s.twin := rfl
@[simp] theorem State.updPwr_vid (s : State) (f : Power → Power) : (s.updPwr f).vid = s.vid := rfl
@[simp] theorem State.updPwr_sms (s : State) (f : Power → Power) : (s.updPwr f).sms = s.sms := rfl
@[simp] theorem State.updPwr_cvu (s : State) (f : Power → Power) : (s.updPwr f).cvu = s.cvu := rfl
@[simp] theorem State.updPwr_bist (s : State) (f : Power → Power) : (s.updPwr f).bist = s.bist := rfl
@[simp] theorem State.updPwr_pwr (s : State) (f : Power → Power) : (s.updPwr f).pwr = f s.pwr := rfl
@[simp] theorem State.updPwr_fw (s : State) (f : Power → Power) : (s.updPwr f).fw = s.fw := rfl
@[simp] theorem State.updPwr_free (s : State) (f : Power → Power) : (s.updPwr f).free = s.free := rfl
@[simp] theorem State.updPwr_pending (s : State) (f : Power → Power) : (s.updPwr f).pending = s.pending := rfl

/-! `State.updSms`. -/

@[simp] theorem State.updSms_now (s : State) (f : Sms → Sms) : (s.updSms f).now = s.now := rfl
@[simp] theorem State.updSms_eng (s : State) (f : Sms → Sms) : (s.updSms f).eng = s.eng := rfl
@[simp] theorem State.updSms_scheds (s : State) (f : Sms → Sms) : (s.updSms f).scheds = s.scheds := rfl
@[simp] theorem State.updSms_jobs (s : State) (f : Sms → Sms) : (s.updSms f).jobs = s.jobs := rfl
@[simp] theorem State.updSms_nextJob (s : State) (f : Sms → Sms) : (s.updSms f).nextJob = s.nextJob := rfl
@[simp] theorem State.updSms_nextXfer (s : State) (f : Sms → Sms) : (s.updSms f).nextXfer = s.nextXfer := rfl
@[simp] theorem State.updSms_hist (s : State) (f : Sms → Sms) : (s.updSms f).hist = s.hist := rfl
@[simp] theorem State.updSms_units (s : State) (f : Sms → Sms) : (s.updSms f).units = s.units := rfl
@[simp] theorem State.updSms_host (s : State) (f : Sms → Sms) : (s.updSms f).host = s.host := rfl
@[simp] theorem State.updSms_fab (s : State) (f : Sms → Sms) : (s.updSms f).fab = s.fab := rfl
@[simp] theorem State.updSms_env (s : State) (f : Sms → Sms) : (s.updSms f).env = s.env := rfl
@[simp] theorem State.updSms_part (s : State) (f : Sms → Sms) : (s.updSms f).part = s.part := rfl
@[simp] theorem State.updSms_sec (s : State) (f : Sms → Sms) : (s.updSms f).sec = s.sec := rfl
@[simp] theorem State.updSms_twin (s : State) (f : Sms → Sms) : (s.updSms f).twin = s.twin := rfl
@[simp] theorem State.updSms_vid (s : State) (f : Sms → Sms) : (s.updSms f).vid = s.vid := rfl
@[simp] theorem State.updSms_sms (s : State) (f : Sms → Sms) : (s.updSms f).sms = f s.sms := rfl
@[simp] theorem State.updSms_cvu (s : State) (f : Sms → Sms) : (s.updSms f).cvu = s.cvu := rfl
@[simp] theorem State.updSms_bist (s : State) (f : Sms → Sms) : (s.updSms f).bist = s.bist := rfl
@[simp] theorem State.updSms_pwr (s : State) (f : Sms → Sms) : (s.updSms f).pwr = s.pwr := rfl
@[simp] theorem State.updSms_fw (s : State) (f : Sms → Sms) : (s.updSms f).fw = s.fw := rfl
@[simp] theorem State.updSms_free (s : State) (f : Sms → Sms) : (s.updSms f).free = s.free := rfl
@[simp] theorem State.updSms_pending (s : State) (f : Sms → Sms) : (s.updSms f).pending = s.pending := rfl

/-! `State.updVid`. -/

@[simp] theorem State.updVid_now (s : State) (f : Video → Video) : (s.updVid f).now = s.now := rfl
@[simp] theorem State.updVid_eng (s : State) (f : Video → Video) : (s.updVid f).eng = s.eng := rfl
@[simp] theorem State.updVid_scheds (s : State) (f : Video → Video) : (s.updVid f).scheds = s.scheds := rfl
@[simp] theorem State.updVid_jobs (s : State) (f : Video → Video) : (s.updVid f).jobs = s.jobs := rfl
@[simp] theorem State.updVid_nextJob (s : State) (f : Video → Video) : (s.updVid f).nextJob = s.nextJob := rfl
@[simp] theorem State.updVid_nextXfer (s : State) (f : Video → Video) : (s.updVid f).nextXfer = s.nextXfer := rfl
@[simp] theorem State.updVid_hist (s : State) (f : Video → Video) : (s.updVid f).hist = s.hist := rfl
@[simp] theorem State.updVid_units (s : State) (f : Video → Video) : (s.updVid f).units = s.units := rfl
@[simp] theorem State.updVid_host (s : State) (f : Video → Video) : (s.updVid f).host = s.host := rfl
@[simp] theorem State.updVid_fab (s : State) (f : Video → Video) : (s.updVid f).fab = s.fab := rfl
@[simp] theorem State.updVid_env (s : State) (f : Video → Video) : (s.updVid f).env = s.env := rfl
@[simp] theorem State.updVid_part (s : State) (f : Video → Video) : (s.updVid f).part = s.part := rfl
@[simp] theorem State.updVid_sec (s : State) (f : Video → Video) : (s.updVid f).sec = s.sec := rfl
@[simp] theorem State.updVid_twin (s : State) (f : Video → Video) : (s.updVid f).twin = s.twin := rfl
@[simp] theorem State.updVid_vid (s : State) (f : Video → Video) : (s.updVid f).vid = f s.vid := rfl
@[simp] theorem State.updVid_sms (s : State) (f : Video → Video) : (s.updVid f).sms = s.sms := rfl
@[simp] theorem State.updVid_cvu (s : State) (f : Video → Video) : (s.updVid f).cvu = s.cvu := rfl
@[simp] theorem State.updVid_bist (s : State) (f : Video → Video) : (s.updVid f).bist = s.bist := rfl
@[simp] theorem State.updVid_pwr (s : State) (f : Video → Video) : (s.updVid f).pwr = s.pwr := rfl
@[simp] theorem State.updVid_fw (s : State) (f : Video → Video) : (s.updVid f).fw = s.fw := rfl
@[simp] theorem State.updVid_free (s : State) (f : Video → Video) : (s.updVid f).free = s.free := rfl
@[simp] theorem State.updVid_pending (s : State) (f : Video → Video) : (s.updVid f).pending = s.pending := rfl

/-! `State.updBist`. -/

@[simp] theorem State.updBist_now (s : State) (f : Bist → Bist) : (s.updBist f).now = s.now := rfl
@[simp] theorem State.updBist_eng (s : State) (f : Bist → Bist) : (s.updBist f).eng = s.eng := rfl
@[simp] theorem State.updBist_scheds (s : State) (f : Bist → Bist) : (s.updBist f).scheds = s.scheds := rfl
@[simp] theorem State.updBist_jobs (s : State) (f : Bist → Bist) : (s.updBist f).jobs = s.jobs := rfl
@[simp] theorem State.updBist_nextJob (s : State) (f : Bist → Bist) : (s.updBist f).nextJob = s.nextJob := rfl
@[simp] theorem State.updBist_nextXfer (s : State) (f : Bist → Bist) : (s.updBist f).nextXfer = s.nextXfer := rfl
@[simp] theorem State.updBist_hist (s : State) (f : Bist → Bist) : (s.updBist f).hist = s.hist := rfl
@[simp] theorem State.updBist_units (s : State) (f : Bist → Bist) : (s.updBist f).units = s.units := rfl
@[simp] theorem State.updBist_host (s : State) (f : Bist → Bist) : (s.updBist f).host = s.host := rfl
@[simp] theorem State.updBist_fab (s : State) (f : Bist → Bist) : (s.updBist f).fab = s.fab := rfl
@[simp] theorem State.updBist_env (s : State) (f : Bist → Bist) : (s.updBist f).env = s.env := rfl
@[simp] theorem State.updBist_part (s : State) (f : Bist → Bist) : (s.updBist f).part = s.part := rfl
@[simp] theorem State.updBist_sec (s : State) (f : Bist → Bist) : (s.updBist f).sec = s.sec := rfl
@[simp] theorem State.updBist_twin (s : State) (f : Bist → Bist) : (s.updBist f).twin = s.twin := rfl
@[simp] theorem State.updBist_vid (s : State) (f : Bist → Bist) : (s.updBist f).vid = s.vid := rfl
@[simp] theorem State.updBist_sms (s : State) (f : Bist → Bist) : (s.updBist f).sms = s.sms := rfl
@[simp] theorem State.updBist_cvu (s : State) (f : Bist → Bist) : (s.updBist f).cvu = s.cvu := rfl
@[simp] theorem State.updBist_bist (s : State) (f : Bist → Bist) : (s.updBist f).bist = f s.bist := rfl
@[simp] theorem State.updBist_pwr (s : State) (f : Bist → Bist) : (s.updBist f).pwr = s.pwr := rfl
@[simp] theorem State.updBist_fw (s : State) (f : Bist → Bist) : (s.updBist f).fw = s.fw := rfl
@[simp] theorem State.updBist_free (s : State) (f : Bist → Bist) : (s.updBist f).free = s.free := rfl
@[simp] theorem State.updBist_pending (s : State) (f : Bist → Bist) : (s.updBist f).pending = s.pending := rfl

/-! `State.updFw`. -/

@[simp] theorem State.updFw_now (s : State) (f : Firmware → Firmware) : (s.updFw f).now = s.now := rfl
@[simp] theorem State.updFw_eng (s : State) (f : Firmware → Firmware) : (s.updFw f).eng = s.eng := rfl
@[simp] theorem State.updFw_scheds (s : State) (f : Firmware → Firmware) : (s.updFw f).scheds = s.scheds := rfl
@[simp] theorem State.updFw_jobs (s : State) (f : Firmware → Firmware) : (s.updFw f).jobs = s.jobs := rfl
@[simp] theorem State.updFw_nextJob (s : State) (f : Firmware → Firmware) : (s.updFw f).nextJob = s.nextJob := rfl
@[simp] theorem State.updFw_nextXfer (s : State) (f : Firmware → Firmware) : (s.updFw f).nextXfer = s.nextXfer := rfl
@[simp] theorem State.updFw_hist (s : State) (f : Firmware → Firmware) : (s.updFw f).hist = s.hist := rfl
@[simp] theorem State.updFw_units (s : State) (f : Firmware → Firmware) : (s.updFw f).units = s.units := rfl
@[simp] theorem State.updFw_host (s : State) (f : Firmware → Firmware) : (s.updFw f).host = s.host := rfl
@[simp] theorem State.updFw_fab (s : State) (f : Firmware → Firmware) : (s.updFw f).fab = s.fab := rfl
@[simp] theorem State.updFw_env (s : State) (f : Firmware → Firmware) : (s.updFw f).env = s.env := rfl
@[simp] theorem State.updFw_part (s : State) (f : Firmware → Firmware) : (s.updFw f).part = s.part := rfl
@[simp] theorem State.updFw_sec (s : State) (f : Firmware → Firmware) : (s.updFw f).sec = s.sec := rfl
@[simp] theorem State.updFw_twin (s : State) (f : Firmware → Firmware) : (s.updFw f).twin = s.twin := rfl
@[simp] theorem State.updFw_vid (s : State) (f : Firmware → Firmware) : (s.updFw f).vid = s.vid := rfl
@[simp] theorem State.updFw_sms (s : State) (f : Firmware → Firmware) : (s.updFw f).sms = s.sms := rfl
@[simp] theorem State.updFw_cvu (s : State) (f : Firmware → Firmware) : (s.updFw f).cvu = s.cvu := rfl
@[simp] theorem State.updFw_bist (s : State) (f : Firmware → Firmware) : (s.updFw f).bist = s.bist := rfl
@[simp] theorem State.updFw_pwr (s : State) (f : Firmware → Firmware) : (s.updFw f).pwr = s.pwr := rfl
@[simp] theorem State.updFw_fw (s : State) (f : Firmware → Firmware) : (s.updFw f).fw = f s.fw := rfl
@[simp] theorem State.updFw_free (s : State) (f : Firmware → Firmware) : (s.updFw f).free = s.free := rfl
@[simp] theorem State.updFw_pending (s : State) (f : Firmware → Firmware) : (s.updFw f).pending = s.pending := rfl

/-! `State.updCvu`. -/

@[simp] theorem State.updCvu_now (s : State) (u : CvuId) (f : Cvu → Cvu) : (s.updCvu u f).now = s.now := rfl
@[simp] theorem State.updCvu_eng (s : State) (u : CvuId) (f : Cvu → Cvu) : (s.updCvu u f).eng = s.eng := rfl
@[simp] theorem State.updCvu_scheds (s : State) (u : CvuId) (f : Cvu → Cvu) : (s.updCvu u f).scheds = s.scheds := rfl
@[simp] theorem State.updCvu_jobs (s : State) (u : CvuId) (f : Cvu → Cvu) : (s.updCvu u f).jobs = s.jobs := rfl
@[simp] theorem State.updCvu_nextJob (s : State) (u : CvuId) (f : Cvu → Cvu) : (s.updCvu u f).nextJob = s.nextJob := rfl
@[simp] theorem State.updCvu_nextXfer (s : State) (u : CvuId) (f : Cvu → Cvu) : (s.updCvu u f).nextXfer = s.nextXfer := rfl
@[simp] theorem State.updCvu_hist (s : State) (u : CvuId) (f : Cvu → Cvu) : (s.updCvu u f).hist = s.hist := rfl
@[simp] theorem State.updCvu_units (s : State) (u : CvuId) (f : Cvu → Cvu) : (s.updCvu u f).units = s.units := rfl
@[simp] theorem State.updCvu_host (s : State) (u : CvuId) (f : Cvu → Cvu) : (s.updCvu u f).host = s.host := rfl
@[simp] theorem State.updCvu_fab (s : State) (u : CvuId) (f : Cvu → Cvu) : (s.updCvu u f).fab = s.fab := rfl
@[simp] theorem State.updCvu_env (s : State) (u : CvuId) (f : Cvu → Cvu) : (s.updCvu u f).env = s.env := rfl
@[simp] theorem State.updCvu_part (s : State) (u : CvuId) (f : Cvu → Cvu) : (s.updCvu u f).part = s.part := rfl
@[simp] theorem State.updCvu_sec (s : State) (u : CvuId) (f : Cvu → Cvu) : (s.updCvu u f).sec = s.sec := rfl
@[simp] theorem State.updCvu_twin (s : State) (u : CvuId) (f : Cvu → Cvu) : (s.updCvu u f).twin = s.twin := rfl
@[simp] theorem State.updCvu_vid (s : State) (u : CvuId) (f : Cvu → Cvu) : (s.updCvu u f).vid = s.vid := rfl
@[simp] theorem State.updCvu_sms (s : State) (u : CvuId) (f : Cvu → Cvu) : (s.updCvu u f).sms = s.sms := rfl
@[simp] theorem State.updCvu_cvu (s : State) (u : CvuId) (f : Cvu → Cvu) : (s.updCvu u f).cvu = { s.cvu with units := s.cvu.units.set u (f s.cvu.units[u]) } := rfl
@[simp] theorem State.updCvu_bist (s : State) (u : CvuId) (f : Cvu → Cvu) : (s.updCvu u f).bist = s.bist := rfl
@[simp] theorem State.updCvu_pwr (s : State) (u : CvuId) (f : Cvu → Cvu) : (s.updCvu u f).pwr = s.pwr := rfl
@[simp] theorem State.updCvu_fw (s : State) (u : CvuId) (f : Cvu → Cvu) : (s.updCvu u f).fw = s.fw := rfl
@[simp] theorem State.updCvu_free (s : State) (u : CvuId) (f : Cvu → Cvu) : (s.updCvu u f).free = s.free := rfl
@[simp] theorem State.updCvu_pending (s : State) (u : CvuId) (f : Cvu → Cvu) : (s.updCvu u f).pending = s.pending := rfl

/-! `State.updPort`. -/

@[simp] theorem State.updPort_now (s : State) (n : LinkId) (f : Port → Port) : (s.updPort n f).now = s.now := rfl
@[simp] theorem State.updPort_eng (s : State) (n : LinkId) (f : Port → Port) : (s.updPort n f).eng = s.eng := rfl
@[simp] theorem State.updPort_scheds (s : State) (n : LinkId) (f : Port → Port) : (s.updPort n f).scheds = s.scheds := rfl
@[simp] theorem State.updPort_jobs (s : State) (n : LinkId) (f : Port → Port) : (s.updPort n f).jobs = s.jobs := rfl
@[simp] theorem State.updPort_nextJob (s : State) (n : LinkId) (f : Port → Port) : (s.updPort n f).nextJob = s.nextJob := rfl
@[simp] theorem State.updPort_nextXfer (s : State) (n : LinkId) (f : Port → Port) : (s.updPort n f).nextXfer = s.nextXfer := rfl
@[simp] theorem State.updPort_hist (s : State) (n : LinkId) (f : Port → Port) : (s.updPort n f).hist = s.hist := rfl
@[simp] theorem State.updPort_units (s : State) (n : LinkId) (f : Port → Port) : (s.updPort n f).units = s.units := rfl
@[simp] theorem State.updPort_host (s : State) (n : LinkId) (f : Port → Port) : (s.updPort n f).host = s.host := rfl
@[simp] theorem State.updPort_fab (s : State) (n : LinkId) (f : Port → Port) : (s.updPort n f).fab = { s.fab with ports := s.fab.ports.set n (f s.fab.ports[n]) } := rfl
@[simp] theorem State.updPort_env (s : State) (n : LinkId) (f : Port → Port) : (s.updPort n f).env = s.env := rfl
@[simp] theorem State.updPort_part (s : State) (n : LinkId) (f : Port → Port) : (s.updPort n f).part = s.part := rfl
@[simp] theorem State.updPort_sec (s : State) (n : LinkId) (f : Port → Port) : (s.updPort n f).sec = s.sec := rfl
@[simp] theorem State.updPort_twin (s : State) (n : LinkId) (f : Port → Port) : (s.updPort n f).twin = s.twin := rfl
@[simp] theorem State.updPort_vid (s : State) (n : LinkId) (f : Port → Port) : (s.updPort n f).vid = s.vid := rfl
@[simp] theorem State.updPort_sms (s : State) (n : LinkId) (f : Port → Port) : (s.updPort n f).sms = s.sms := rfl
@[simp] theorem State.updPort_cvu (s : State) (n : LinkId) (f : Port → Port) : (s.updPort n f).cvu = s.cvu := rfl
@[simp] theorem State.updPort_bist (s : State) (n : LinkId) (f : Port → Port) : (s.updPort n f).bist = s.bist := rfl
@[simp] theorem State.updPort_pwr (s : State) (n : LinkId) (f : Port → Port) : (s.updPort n f).pwr = s.pwr := rfl
@[simp] theorem State.updPort_fw (s : State) (n : LinkId) (f : Port → Port) : (s.updPort n f).fw = s.fw := rfl
@[simp] theorem State.updPort_free (s : State) (n : LinkId) (f : Port → Port) : (s.updPort n f).free = s.free := rfl
@[simp] theorem State.updPort_pending (s : State) (n : LinkId) (f : Port → Port) : (s.updPort n f).pending = s.pending := rfl

/-! `State.updMbx`. -/

@[simp] theorem State.updMbx_now (s : State) (m : MbxId) (f : Mailbox → Mailbox) : (s.updMbx m f).now = s.now := rfl
@[simp] theorem State.updMbx_eng (s : State) (m : MbxId) (f : Mailbox → Mailbox) : (s.updMbx m f).eng = s.eng := rfl
@[simp] theorem State.updMbx_scheds (s : State) (m : MbxId) (f : Mailbox → Mailbox) : (s.updMbx m f).scheds = s.scheds := rfl
@[simp] theorem State.updMbx_jobs (s : State) (m : MbxId) (f : Mailbox → Mailbox) : (s.updMbx m f).jobs = s.jobs := rfl
@[simp] theorem State.updMbx_nextJob (s : State) (m : MbxId) (f : Mailbox → Mailbox) : (s.updMbx m f).nextJob = s.nextJob := rfl
@[simp] theorem State.updMbx_nextXfer (s : State) (m : MbxId) (f : Mailbox → Mailbox) : (s.updMbx m f).nextXfer = s.nextXfer := rfl
@[simp] theorem State.updMbx_hist (s : State) (m : MbxId) (f : Mailbox → Mailbox) : (s.updMbx m f).hist = s.hist := rfl
@[simp] theorem State.updMbx_units (s : State) (m : MbxId) (f : Mailbox → Mailbox) : (s.updMbx m f).units = s.units := rfl
@[simp] theorem State.updMbx_host (s : State) (m : MbxId) (f : Mailbox → Mailbox) : (s.updMbx m f).host = { s.host with mbx := s.host.mbx.set m (f s.host.mbx[m]) } := rfl
@[simp] theorem State.updMbx_fab (s : State) (m : MbxId) (f : Mailbox → Mailbox) : (s.updMbx m f).fab = s.fab := rfl
@[simp] theorem State.updMbx_env (s : State) (m : MbxId) (f : Mailbox → Mailbox) : (s.updMbx m f).env = s.env := rfl
@[simp] theorem State.updMbx_part (s : State) (m : MbxId) (f : Mailbox → Mailbox) : (s.updMbx m f).part = s.part := rfl
@[simp] theorem State.updMbx_sec (s : State) (m : MbxId) (f : Mailbox → Mailbox) : (s.updMbx m f).sec = s.sec := rfl
@[simp] theorem State.updMbx_twin (s : State) (m : MbxId) (f : Mailbox → Mailbox) : (s.updMbx m f).twin = s.twin := rfl
@[simp] theorem State.updMbx_vid (s : State) (m : MbxId) (f : Mailbox → Mailbox) : (s.updMbx m f).vid = s.vid := rfl
@[simp] theorem State.updMbx_sms (s : State) (m : MbxId) (f : Mailbox → Mailbox) : (s.updMbx m f).sms = s.sms := rfl
@[simp] theorem State.updMbx_cvu (s : State) (m : MbxId) (f : Mailbox → Mailbox) : (s.updMbx m f).cvu = s.cvu := rfl
@[simp] theorem State.updMbx_bist (s : State) (m : MbxId) (f : Mailbox → Mailbox) : (s.updMbx m f).bist = s.bist := rfl
@[simp] theorem State.updMbx_pwr (s : State) (m : MbxId) (f : Mailbox → Mailbox) : (s.updMbx m f).pwr = s.pwr := rfl
@[simp] theorem State.updMbx_fw (s : State) (m : MbxId) (f : Mailbox → Mailbox) : (s.updMbx m f).fw = s.fw := rfl
@[simp] theorem State.updMbx_free (s : State) (m : MbxId) (f : Mailbox → Mailbox) : (s.updMbx m f).free = s.free := rfl
@[simp] theorem State.updMbx_pending (s : State) (m : MbxId) (f : Mailbox → Mailbox) : (s.updMbx m f).pending = s.pending := rfl

/-! `State.updWin`. -/

@[simp] theorem State.updWin_now (s : State) (w : WinId) (f : DWin → DWin) : (s.updWin w f).now = s.now := rfl
@[simp] theorem State.updWin_eng (s : State) (w : WinId) (f : DWin → DWin) : (s.updWin w f).eng = s.eng := rfl
@[simp] theorem State.updWin_scheds (s : State) (w : WinId) (f : DWin → DWin) : (s.updWin w f).scheds = s.scheds := rfl
@[simp] theorem State.updWin_jobs (s : State) (w : WinId) (f : DWin → DWin) : (s.updWin w f).jobs = s.jobs := rfl
@[simp] theorem State.updWin_nextJob (s : State) (w : WinId) (f : DWin → DWin) : (s.updWin w f).nextJob = s.nextJob := rfl
@[simp] theorem State.updWin_nextXfer (s : State) (w : WinId) (f : DWin → DWin) : (s.updWin w f).nextXfer = s.nextXfer := rfl
@[simp] theorem State.updWin_hist (s : State) (w : WinId) (f : DWin → DWin) : (s.updWin w f).hist = s.hist := rfl
@[simp] theorem State.updWin_units (s : State) (w : WinId) (f : DWin → DWin) : (s.updWin w f).units = s.units := rfl
@[simp] theorem State.updWin_host (s : State) (w : WinId) (f : DWin → DWin) : (s.updWin w f).host = { s.host with win := s.host.win.set w (f s.host.win[w]) } := rfl
@[simp] theorem State.updWin_fab (s : State) (w : WinId) (f : DWin → DWin) : (s.updWin w f).fab = s.fab := rfl
@[simp] theorem State.updWin_env (s : State) (w : WinId) (f : DWin → DWin) : (s.updWin w f).env = s.env := rfl
@[simp] theorem State.updWin_part (s : State) (w : WinId) (f : DWin → DWin) : (s.updWin w f).part = s.part := rfl
@[simp] theorem State.updWin_sec (s : State) (w : WinId) (f : DWin → DWin) : (s.updWin w f).sec = s.sec := rfl
@[simp] theorem State.updWin_twin (s : State) (w : WinId) (f : DWin → DWin) : (s.updWin w f).twin = s.twin := rfl
@[simp] theorem State.updWin_vid (s : State) (w : WinId) (f : DWin → DWin) : (s.updWin w f).vid = s.vid := rfl
@[simp] theorem State.updWin_sms (s : State) (w : WinId) (f : DWin → DWin) : (s.updWin w f).sms = s.sms := rfl
@[simp] theorem State.updWin_cvu (s : State) (w : WinId) (f : DWin → DWin) : (s.updWin w f).cvu = s.cvu := rfl
@[simp] theorem State.updWin_bist (s : State) (w : WinId) (f : DWin → DWin) : (s.updWin w f).bist = s.bist := rfl
@[simp] theorem State.updWin_pwr (s : State) (w : WinId) (f : DWin → DWin) : (s.updWin w f).pwr = s.pwr := rfl
@[simp] theorem State.updWin_fw (s : State) (w : WinId) (f : DWin → DWin) : (s.updWin w f).fw = s.fw := rfl
@[simp] theorem State.updWin_free (s : State) (w : WinId) (f : DWin → DWin) : (s.updWin w f).free = s.free := rfl
@[simp] theorem State.updWin_pending (s : State) (w : WinId) (f : DWin → DWin) : (s.updWin w f).pending = s.pending := rfl

/-! `State.updBulk`. -/

@[simp] theorem State.updBulk_now (s : State) (a : PartId) (f : Bulk → Bulk) : (s.updBulk a f).now = s.now := rfl
@[simp] theorem State.updBulk_eng (s : State) (a : PartId) (f : Bulk → Bulk) : (s.updBulk a f).eng = s.eng := rfl
@[simp] theorem State.updBulk_scheds (s : State) (a : PartId) (f : Bulk → Bulk) : (s.updBulk a f).scheds = s.scheds := rfl
@[simp] theorem State.updBulk_jobs (s : State) (a : PartId) (f : Bulk → Bulk) : (s.updBulk a f).jobs = s.jobs := rfl
@[simp] theorem State.updBulk_nextJob (s : State) (a : PartId) (f : Bulk → Bulk) : (s.updBulk a f).nextJob = s.nextJob := rfl
@[simp] theorem State.updBulk_nextXfer (s : State) (a : PartId) (f : Bulk → Bulk) : (s.updBulk a f).nextXfer = s.nextXfer := rfl
@[simp] theorem State.updBulk_hist (s : State) (a : PartId) (f : Bulk → Bulk) : (s.updBulk a f).hist = s.hist := rfl
@[simp] theorem State.updBulk_units (s : State) (a : PartId) (f : Bulk → Bulk) : (s.updBulk a f).units = s.units := rfl
@[simp] theorem State.updBulk_host (s : State) (a : PartId) (f : Bulk → Bulk) : (s.updBulk a f).host = { s.host with bulk := s.host.bulk.set a (f s.host.bulk[a]) } := rfl
@[simp] theorem State.updBulk_fab (s : State) (a : PartId) (f : Bulk → Bulk) : (s.updBulk a f).fab = s.fab := rfl
@[simp] theorem State.updBulk_env (s : State) (a : PartId) (f : Bulk → Bulk) : (s.updBulk a f).env = s.env := rfl
@[simp] theorem State.updBulk_part (s : State) (a : PartId) (f : Bulk → Bulk) : (s.updBulk a f).part = s.part := rfl
@[simp] theorem State.updBulk_sec (s : State) (a : PartId) (f : Bulk → Bulk) : (s.updBulk a f).sec = s.sec := rfl
@[simp] theorem State.updBulk_twin (s : State) (a : PartId) (f : Bulk → Bulk) : (s.updBulk a f).twin = s.twin := rfl
@[simp] theorem State.updBulk_vid (s : State) (a : PartId) (f : Bulk → Bulk) : (s.updBulk a f).vid = s.vid := rfl
@[simp] theorem State.updBulk_sms (s : State) (a : PartId) (f : Bulk → Bulk) : (s.updBulk a f).sms = s.sms := rfl
@[simp] theorem State.updBulk_cvu (s : State) (a : PartId) (f : Bulk → Bulk) : (s.updBulk a f).cvu = s.cvu := rfl
@[simp] theorem State.updBulk_bist (s : State) (a : PartId) (f : Bulk → Bulk) : (s.updBulk a f).bist = s.bist := rfl
@[simp] theorem State.updBulk_pwr (s : State) (a : PartId) (f : Bulk → Bulk) : (s.updBulk a f).pwr = s.pwr := rfl
@[simp] theorem State.updBulk_fw (s : State) (a : PartId) (f : Bulk → Bulk) : (s.updBulk a f).fw = s.fw := rfl
@[simp] theorem State.updBulk_free (s : State) (a : PartId) (f : Bulk → Bulk) : (s.updBulk a f).free = s.free := rfl
@[simp] theorem State.updBulk_pending (s : State) (a : PartId) (f : Bulk → Bulk) : (s.updBulk a f).pending = s.pending := rfl

/-! `State.updKv`. -/

@[simp] theorem State.updKv_now (s : State) (p : PartId) (f : KvPool → KvPool) : (s.updKv p f).now = s.now := rfl
@[simp] theorem State.updKv_eng (s : State) (p : PartId) (f : KvPool → KvPool) : (s.updKv p f).eng = s.eng := rfl
@[simp] theorem State.updKv_scheds (s : State) (p : PartId) (f : KvPool → KvPool) : (s.updKv p f).scheds = s.scheds := rfl
@[simp] theorem State.updKv_jobs (s : State) (p : PartId) (f : KvPool → KvPool) : (s.updKv p f).jobs = s.jobs := rfl
@[simp] theorem State.updKv_nextJob (s : State) (p : PartId) (f : KvPool → KvPool) : (s.updKv p f).nextJob = s.nextJob := rfl
@[simp] theorem State.updKv_nextXfer (s : State) (p : PartId) (f : KvPool → KvPool) : (s.updKv p f).nextXfer = s.nextXfer := rfl
@[simp] theorem State.updKv_hist (s : State) (p : PartId) (f : KvPool → KvPool) : (s.updKv p f).hist = s.hist := rfl
@[simp] theorem State.updKv_units (s : State) (p : PartId) (f : KvPool → KvPool) : (s.updKv p f).units = s.units := rfl
@[simp] theorem State.updKv_host (s : State) (p : PartId) (f : KvPool → KvPool) : (s.updKv p f).host = s.host := rfl
@[simp] theorem State.updKv_fab (s : State) (p : PartId) (f : KvPool → KvPool) : (s.updKv p f).fab = s.fab := rfl
@[simp] theorem State.updKv_env (s : State) (p : PartId) (f : KvPool → KvPool) : (s.updKv p f).env = s.env := rfl
@[simp] theorem State.updKv_part (s : State) (p : PartId) (f : KvPool → KvPool) : (s.updKv p f).part = s.part.set p { s.part[p] with kv := f s.part[p].kv } := rfl
@[simp] theorem State.updKv_sec (s : State) (p : PartId) (f : KvPool → KvPool) : (s.updKv p f).sec = s.sec := rfl
@[simp] theorem State.updKv_twin (s : State) (p : PartId) (f : KvPool → KvPool) : (s.updKv p f).twin = s.twin := rfl
@[simp] theorem State.updKv_vid (s : State) (p : PartId) (f : KvPool → KvPool) : (s.updKv p f).vid = s.vid := rfl
@[simp] theorem State.updKv_sms (s : State) (p : PartId) (f : KvPool → KvPool) : (s.updKv p f).sms = s.sms := rfl
@[simp] theorem State.updKv_cvu (s : State) (p : PartId) (f : KvPool → KvPool) : (s.updKv p f).cvu = s.cvu := rfl
@[simp] theorem State.updKv_bist (s : State) (p : PartId) (f : KvPool → KvPool) : (s.updKv p f).bist = s.bist := rfl
@[simp] theorem State.updKv_pwr (s : State) (p : PartId) (f : KvPool → KvPool) : (s.updKv p f).pwr = s.pwr := rfl
@[simp] theorem State.updKv_fw (s : State) (p : PartId) (f : KvPool → KvPool) : (s.updKv p f).fw = s.fw := rfl
@[simp] theorem State.updKv_free (s : State) (p : PartId) (f : KvPool → KvPool) : (s.updKv p f).free = s.free := rfl
@[simp] theorem State.updKv_pending (s : State) (p : PartId) (f : KvPool → KvPool) : (s.updKv p f).pending = s.pending := rfl

/-! `State.updJob`. -/

@[simp] theorem State.updJob_now (s : State) (i : Nat) (f : Job → Job) : (s.updJob i f).now = s.now := rfl
@[simp] theorem State.updJob_eng (s : State) (i : Nat) (f : Job → Job) : (s.updJob i f).eng = s.eng := rfl
@[simp] theorem State.updJob_scheds (s : State) (i : Nat) (f : Job → Job) : (s.updJob i f).scheds = s.scheds := rfl
@[simp] theorem State.updJob_jobs (s : State) (i : Nat) (f : Job → Job) : (s.updJob i f).jobs = updWhere (fun j => j.id = i) f s.jobs := rfl
@[simp] theorem State.updJob_nextJob (s : State) (i : Nat) (f : Job → Job) : (s.updJob i f).nextJob = s.nextJob := rfl
@[simp] theorem State.updJob_nextXfer (s : State) (i : Nat) (f : Job → Job) : (s.updJob i f).nextXfer = s.nextXfer := rfl
@[simp] theorem State.updJob_hist (s : State) (i : Nat) (f : Job → Job) : (s.updJob i f).hist = s.hist := rfl
@[simp] theorem State.updJob_units (s : State) (i : Nat) (f : Job → Job) : (s.updJob i f).units = s.units := rfl
@[simp] theorem State.updJob_host (s : State) (i : Nat) (f : Job → Job) : (s.updJob i f).host = s.host := rfl
@[simp] theorem State.updJob_fab (s : State) (i : Nat) (f : Job → Job) : (s.updJob i f).fab = s.fab := rfl
@[simp] theorem State.updJob_env (s : State) (i : Nat) (f : Job → Job) : (s.updJob i f).env = s.env := rfl
@[simp] theorem State.updJob_part (s : State) (i : Nat) (f : Job → Job) : (s.updJob i f).part = s.part := rfl
@[simp] theorem State.updJob_sec (s : State) (i : Nat) (f : Job → Job) : (s.updJob i f).sec = s.sec := rfl
@[simp] theorem State.updJob_twin (s : State) (i : Nat) (f : Job → Job) : (s.updJob i f).twin = s.twin := rfl
@[simp] theorem State.updJob_vid (s : State) (i : Nat) (f : Job → Job) : (s.updJob i f).vid = s.vid := rfl
@[simp] theorem State.updJob_sms (s : State) (i : Nat) (f : Job → Job) : (s.updJob i f).sms = s.sms := rfl
@[simp] theorem State.updJob_cvu (s : State) (i : Nat) (f : Job → Job) : (s.updJob i f).cvu = s.cvu := rfl
@[simp] theorem State.updJob_bist (s : State) (i : Nat) (f : Job → Job) : (s.updJob i f).bist = s.bist := rfl
@[simp] theorem State.updJob_pwr (s : State) (i : Nat) (f : Job → Job) : (s.updJob i f).pwr = s.pwr := rfl
@[simp] theorem State.updJob_fw (s : State) (i : Nat) (f : Job → Job) : (s.updJob i f).fw = s.fw := rfl
@[simp] theorem State.updJob_free (s : State) (i : Nat) (f : Job → Job) : (s.updJob i f).free = s.free := rfl
@[simp] theorem State.updJob_pending (s : State) (i : Nat) (f : Job → Job) : (s.updJob i f).pending = s.pending := rfl

/-! `State.updSched`. -/

@[simp] theorem State.updSched_now (s : State) (h : Nat) (f : Schedule → Schedule) : (s.updSched h f).now = s.now := rfl
@[simp] theorem State.updSched_eng (s : State) (h : Nat) (f : Schedule → Schedule) : (s.updSched h f).eng = s.eng := rfl
@[simp] theorem State.updSched_scheds (s : State) (h : Nat) (f : Schedule → Schedule) : (s.updSched h f).scheds = updWhere (fun c => c.handle = h) f s.scheds := rfl
@[simp] theorem State.updSched_jobs (s : State) (h : Nat) (f : Schedule → Schedule) : (s.updSched h f).jobs = s.jobs := rfl
@[simp] theorem State.updSched_nextJob (s : State) (h : Nat) (f : Schedule → Schedule) : (s.updSched h f).nextJob = s.nextJob := rfl
@[simp] theorem State.updSched_nextXfer (s : State) (h : Nat) (f : Schedule → Schedule) : (s.updSched h f).nextXfer = s.nextXfer := rfl
@[simp] theorem State.updSched_hist (s : State) (h : Nat) (f : Schedule → Schedule) : (s.updSched h f).hist = s.hist := rfl
@[simp] theorem State.updSched_units (s : State) (h : Nat) (f : Schedule → Schedule) : (s.updSched h f).units = s.units := rfl
@[simp] theorem State.updSched_host (s : State) (h : Nat) (f : Schedule → Schedule) : (s.updSched h f).host = s.host := rfl
@[simp] theorem State.updSched_fab (s : State) (h : Nat) (f : Schedule → Schedule) : (s.updSched h f).fab = s.fab := rfl
@[simp] theorem State.updSched_env (s : State) (h : Nat) (f : Schedule → Schedule) : (s.updSched h f).env = s.env := rfl
@[simp] theorem State.updSched_part (s : State) (h : Nat) (f : Schedule → Schedule) : (s.updSched h f).part = s.part := rfl
@[simp] theorem State.updSched_sec (s : State) (h : Nat) (f : Schedule → Schedule) : (s.updSched h f).sec = s.sec := rfl
@[simp] theorem State.updSched_twin (s : State) (h : Nat) (f : Schedule → Schedule) : (s.updSched h f).twin = s.twin := rfl
@[simp] theorem State.updSched_vid (s : State) (h : Nat) (f : Schedule → Schedule) : (s.updSched h f).vid = s.vid := rfl
@[simp] theorem State.updSched_sms (s : State) (h : Nat) (f : Schedule → Schedule) : (s.updSched h f).sms = s.sms := rfl
@[simp] theorem State.updSched_cvu (s : State) (h : Nat) (f : Schedule → Schedule) : (s.updSched h f).cvu = s.cvu := rfl
@[simp] theorem State.updSched_bist (s : State) (h : Nat) (f : Schedule → Schedule) : (s.updSched h f).bist = s.bist := rfl
@[simp] theorem State.updSched_pwr (s : State) (h : Nat) (f : Schedule → Schedule) : (s.updSched h f).pwr = s.pwr := rfl
@[simp] theorem State.updSched_fw (s : State) (h : Nat) (f : Schedule → Schedule) : (s.updSched h f).fw = s.fw := rfl
@[simp] theorem State.updSched_free (s : State) (h : Nat) (f : Schedule → Schedule) : (s.updSched h f).free = s.free := rfl
@[simp] theorem State.updSched_pending (s : State) (h : Nat) (f : Schedule → Schedule) : (s.updSched h f).pending = s.pending := rfl

/-! `State.updCtx`. -/

@[simp] theorem State.updCtx_now (s : State) (l : Half) (f : Ctx → Ctx) : (s.updCtx l f).now = s.now := rfl
@[simp] theorem State.updCtx_eng (s : State) (l : Half) (f : Ctx → Ctx) : (s.updCtx l f).eng = s.eng := rfl
@[simp] theorem State.updCtx_scheds (s : State) (l : Half) (f : Ctx → Ctx) : (s.updCtx l f).scheds = s.scheds := rfl
@[simp] theorem State.updCtx_jobs (s : State) (l : Half) (f : Ctx → Ctx) : (s.updCtx l f).jobs = s.jobs := rfl
@[simp] theorem State.updCtx_nextJob (s : State) (l : Half) (f : Ctx → Ctx) : (s.updCtx l f).nextJob = s.nextJob := rfl
@[simp] theorem State.updCtx_nextXfer (s : State) (l : Half) (f : Ctx → Ctx) : (s.updCtx l f).nextXfer = s.nextXfer := rfl
@[simp] theorem State.updCtx_hist (s : State) (l : Half) (f : Ctx → Ctx) : (s.updCtx l f).hist = s.hist := rfl
@[simp] theorem State.updCtx_units (s : State) (l : Half) (f : Ctx → Ctx) : (s.updCtx l f).units = s.units := rfl
@[simp] theorem State.updCtx_host (s : State) (l : Half) (f : Ctx → Ctx) : (s.updCtx l f).host = s.host := rfl
@[simp] theorem State.updCtx_fab (s : State) (l : Half) (f : Ctx → Ctx) : (s.updCtx l f).fab = { s.fab with ctxs := updWhere (fun c => c.link = l) f s.fab.ctxs } := rfl
@[simp] theorem State.updCtx_env (s : State) (l : Half) (f : Ctx → Ctx) : (s.updCtx l f).env = s.env := rfl
@[simp] theorem State.updCtx_part (s : State) (l : Half) (f : Ctx → Ctx) : (s.updCtx l f).part = s.part := rfl
@[simp] theorem State.updCtx_sec (s : State) (l : Half) (f : Ctx → Ctx) : (s.updCtx l f).sec = s.sec := rfl
@[simp] theorem State.updCtx_twin (s : State) (l : Half) (f : Ctx → Ctx) : (s.updCtx l f).twin = s.twin := rfl
@[simp] theorem State.updCtx_vid (s : State) (l : Half) (f : Ctx → Ctx) : (s.updCtx l f).vid = s.vid := rfl
@[simp] theorem State.updCtx_sms (s : State) (l : Half) (f : Ctx → Ctx) : (s.updCtx l f).sms = s.sms := rfl
@[simp] theorem State.updCtx_cvu (s : State) (l : Half) (f : Ctx → Ctx) : (s.updCtx l f).cvu = s.cvu := rfl
@[simp] theorem State.updCtx_bist (s : State) (l : Half) (f : Ctx → Ctx) : (s.updCtx l f).bist = s.bist := rfl
@[simp] theorem State.updCtx_pwr (s : State) (l : Half) (f : Ctx → Ctx) : (s.updCtx l f).pwr = s.pwr := rfl
@[simp] theorem State.updCtx_fw (s : State) (l : Half) (f : Ctx → Ctx) : (s.updCtx l f).fw = s.fw := rfl
@[simp] theorem State.updCtx_free (s : State) (l : Half) (f : Ctx → Ctx) : (s.updCtx l f).free = s.free := rfl
@[simp] theorem State.updCtx_pending (s : State) (l : Half) (f : Ctx → Ctx) : (s.updCtx l f).pending = s.pending := rfl

/-! `State.updStream`. -/

@[simp] theorem State.updStream_now (s : State) (n : Nat) (f : Stream → Stream) : (s.updStream n f).now = s.now := rfl
@[simp] theorem State.updStream_eng (s : State) (n : Nat) (f : Stream → Stream) : (s.updStream n f).eng = s.eng := rfl
@[simp] theorem State.updStream_scheds (s : State) (n : Nat) (f : Stream → Stream) : (s.updStream n f).scheds = s.scheds := rfl
@[simp] theorem State.updStream_jobs (s : State) (n : Nat) (f : Stream → Stream) : (s.updStream n f).jobs = s.jobs := rfl
@[simp] theorem State.updStream_nextJob (s : State) (n : Nat) (f : Stream → Stream) : (s.updStream n f).nextJob = s.nextJob := rfl
@[simp] theorem State.updStream_nextXfer (s : State) (n : Nat) (f : Stream → Stream) : (s.updStream n f).nextXfer = s.nextXfer := rfl
@[simp] theorem State.updStream_hist (s : State) (n : Nat) (f : Stream → Stream) : (s.updStream n f).hist = s.hist := rfl
@[simp] theorem State.updStream_units (s : State) (n : Nat) (f : Stream → Stream) : (s.updStream n f).units = s.units := rfl
@[simp] theorem State.updStream_host (s : State) (n : Nat) (f : Stream → Stream) : (s.updStream n f).host = s.host := rfl
@[simp] theorem State.updStream_fab (s : State) (n : Nat) (f : Stream → Stream) : (s.updStream n f).fab = s.fab := rfl
@[simp] theorem State.updStream_env (s : State) (n : Nat) (f : Stream → Stream) : (s.updStream n f).env = s.env := rfl
@[simp] theorem State.updStream_part (s : State) (n : Nat) (f : Stream → Stream) : (s.updStream n f).part = s.part := rfl
@[simp] theorem State.updStream_sec (s : State) (n : Nat) (f : Stream → Stream) : (s.updStream n f).sec = s.sec := rfl
@[simp] theorem State.updStream_twin (s : State) (n : Nat) (f : Stream → Stream) : (s.updStream n f).twin = s.twin := rfl
@[simp] theorem State.updStream_vid (s : State) (n : Nat) (f : Stream → Stream) : (s.updStream n f).vid = { s.vid with streams := updWhere (fun v => v.num = n) f s.vid.streams } := rfl
@[simp] theorem State.updStream_sms (s : State) (n : Nat) (f : Stream → Stream) : (s.updStream n f).sms = s.sms := rfl
@[simp] theorem State.updStream_cvu (s : State) (n : Nat) (f : Stream → Stream) : (s.updStream n f).cvu = s.cvu := rfl
@[simp] theorem State.updStream_bist (s : State) (n : Nat) (f : Stream → Stream) : (s.updStream n f).bist = s.bist := rfl
@[simp] theorem State.updStream_pwr (s : State) (n : Nat) (f : Stream → Stream) : (s.updStream n f).pwr = s.pwr := rfl
@[simp] theorem State.updStream_fw (s : State) (n : Nat) (f : Stream → Stream) : (s.updStream n f).fw = s.fw := rfl
@[simp] theorem State.updStream_free (s : State) (n : Nat) (f : Stream → Stream) : (s.updStream n f).free = s.free := rfl
@[simp] theorem State.updStream_pending (s : State) (n : Nat) (f : Stream → Stream) : (s.updStream n f).pending = s.pending := rfl

/-! `State.updEnvelope`. -/

@[simp] theorem State.updEnvelope_now (s : State) (p : PartId) (h : Half) (f : Envelope → Envelope) : (s.updEnvelope p h f).now = s.now := rfl
@[simp] theorem State.updEnvelope_eng (s : State) (p : PartId) (h : Half) (f : Envelope → Envelope) : (s.updEnvelope p h f).eng = s.eng := rfl
@[simp] theorem State.updEnvelope_scheds (s : State) (p : PartId) (h : Half) (f : Envelope → Envelope) : (s.updEnvelope p h f).scheds = s.scheds := rfl
@[simp] theorem State.updEnvelope_jobs (s : State) (p : PartId) (h : Half) (f : Envelope → Envelope) : (s.updEnvelope p h f).jobs = s.jobs := rfl
@[simp] theorem State.updEnvelope_nextJob (s : State) (p : PartId) (h : Half) (f : Envelope → Envelope) : (s.updEnvelope p h f).nextJob = s.nextJob := rfl
@[simp] theorem State.updEnvelope_nextXfer (s : State) (p : PartId) (h : Half) (f : Envelope → Envelope) : (s.updEnvelope p h f).nextXfer = s.nextXfer := rfl
@[simp] theorem State.updEnvelope_hist (s : State) (p : PartId) (h : Half) (f : Envelope → Envelope) : (s.updEnvelope p h f).hist = s.hist := rfl
@[simp] theorem State.updEnvelope_units (s : State) (p : PartId) (h : Half) (f : Envelope → Envelope) : (s.updEnvelope p h f).units = s.units := rfl
@[simp] theorem State.updEnvelope_host (s : State) (p : PartId) (h : Half) (f : Envelope → Envelope) : (s.updEnvelope p h f).host = s.host := rfl
@[simp] theorem State.updEnvelope_fab (s : State) (p : PartId) (h : Half) (f : Envelope → Envelope) : (s.updEnvelope p h f).fab = s.fab := rfl
@[simp] theorem State.updEnvelope_env (s : State) (p : PartId) (h : Half) (f : Envelope → Envelope) : (s.updEnvelope p h f).env = { s.env with opens := updWhere (fun v => decide (v.part = p ∧ v.handle = h)) f s.env.opens } := rfl
@[simp] theorem State.updEnvelope_part (s : State) (p : PartId) (h : Half) (f : Envelope → Envelope) : (s.updEnvelope p h f).part = s.part := rfl
@[simp] theorem State.updEnvelope_sec (s : State) (p : PartId) (h : Half) (f : Envelope → Envelope) : (s.updEnvelope p h f).sec = s.sec := rfl
@[simp] theorem State.updEnvelope_twin (s : State) (p : PartId) (h : Half) (f : Envelope → Envelope) : (s.updEnvelope p h f).twin = s.twin := rfl
@[simp] theorem State.updEnvelope_vid (s : State) (p : PartId) (h : Half) (f : Envelope → Envelope) : (s.updEnvelope p h f).vid = s.vid := rfl
@[simp] theorem State.updEnvelope_sms (s : State) (p : PartId) (h : Half) (f : Envelope → Envelope) : (s.updEnvelope p h f).sms = s.sms := rfl
@[simp] theorem State.updEnvelope_cvu (s : State) (p : PartId) (h : Half) (f : Envelope → Envelope) : (s.updEnvelope p h f).cvu = s.cvu := rfl
@[simp] theorem State.updEnvelope_bist (s : State) (p : PartId) (h : Half) (f : Envelope → Envelope) : (s.updEnvelope p h f).bist = s.bist := rfl
@[simp] theorem State.updEnvelope_pwr (s : State) (p : PartId) (h : Half) (f : Envelope → Envelope) : (s.updEnvelope p h f).pwr = s.pwr := rfl
@[simp] theorem State.updEnvelope_fw (s : State) (p : PartId) (h : Half) (f : Envelope → Envelope) : (s.updEnvelope p h f).fw = s.fw := rfl
@[simp] theorem State.updEnvelope_free (s : State) (p : PartId) (h : Half) (f : Envelope → Envelope) : (s.updEnvelope p h f).free = s.free := rfl
@[simp] theorem State.updEnvelope_pending (s : State) (p : PartId) (h : Half) (f : Envelope → Envelope) : (s.updEnvelope p h f).pending = s.pending := rfl

end Sys2Proof.Machine
end

