-- ==== Sys2Proof/Laws/Engine.lean ====
section
/-! SUPPORT. What an engine operation does once its job issues, how landings are added, and the lists of addresses that it reads. -/

namespace Sys2Proof.Machine

/-- An engine set to what it is changes nothing. -/
@[simp] theorem State.eng_set_same (s : State) (e : EngId) : s.eng.set e s.eng[e] = s.eng := by
  apply Vector.ext
  intro i hi
  simp

/-- An update that leaves its engine as it is changes nothing. -/
theorem State.updEng_same (s : State) (e : EngId) (f : Engine → Engine) (h : f s.eng[e] = s.eng[e]) : s.updEng e f = s := by
  unfold State.updEng
  rw [h, State.eng_set_same]

/-- Two updates of one engine are one. -/
theorem State.updEng_updEng (s : State) (e : EngId) (f g : Engine → Engine) :
    (s.updEng e f).updEng e g = s.updEng e fun x => g (f x) := by simp [State.updEng]

/-- An operation without a disagreement of the shadow runs for the job that issues. -/
theorem State.engineOp_issuing {s : State} {t : Nat} {e : EngId} {j : Job} (h : (s.advance t).issuing e = some j)
    (k : State → Job → State) : s.engineOp t e {} k = k (s.advance t) j := by
  unfold State.engineOp
  simp only [h, List.contains_nil, Bool.false_eq_true, if_false]

/-- Without a job that issues an operation is the passing of time. -/
theorem State.engineOp_idle {s : State} {t : Nat} {e : EngId} (h : (s.advance t).issuing e = none) (f : Flt)
    (k : State → Job → State) : s.engineOp t e f k = s.advance t := by
  unfold State.engineOp
  simp only [h]

/-- Nothing corrected is nothing counted. -/
@[simp] theorem State.corrected_zero (s : State) (e : EngId) (act : Bool) : s.corrected e act 0 = s :=
  State.updEng_same s e _ rfl

/-- Effects of later cycles become landings, in order. -/
theorem State.pend_later (e : EngId) (j : Job) (vec : Bool) (l : List (Nat × LandEff)) (s : State) (h : ∀ x ∈ l, s.now < x.1) :
    s.pend e j vec l = { s with eng := s.eng.set e { s.eng[e] with
      landings := s.eng[e].landings ++ l.map fun x => { due := x.1, job := j.id, vec := vec, eff := x.2 } } } := by
  unfold State.pend
  induction l generalizing s with
  | nil =>
    simp only [List.map_nil, List.foldl_nil, List.append_nil]
    rw [show ({ s.eng[e] with landings := s.eng[e].landings } : Engine) = s.eng[e] from rfl, State.eng_set_same]
  | cons x l ih =>
    simp only [List.map_cons, List.foldl_cons]
    rw [if_neg (by have := h x (List.mem_cons_self ..); omega)]
    rw [ih _ (by intro y hy; exact h y (List.mem_cons_of_mem _ hy))]
    simp [State.updEng]

/-- A landing leaves the other landings as they are. -/
@[simp] theorem Engine.land_landings (g : Engine) (d : Nat) (vec : Bool) (x : LandEff) : (g.land d vec x).landings = g.landings := by
  cases x <;> simp only [Engine.land, Engine.unitWrite, Engine.setTile, Engine.landArith] <;> first | rfl | (split <;> rfl)

theorem addrRuns_range (n a : Nat) : addrRuns ((List.range (n + 1)).map (a + ·)) = [(a, n + 1)] := by
  induction n generalizing a with
  | zero => simp [addrRuns]
  | succ n ih =>
    rw [List.range_succ_eq_map, List.map_cons, List.map_map]
    have : (List.range (n + 1)).map ((a + ·) ∘ Nat.succ) = (List.range (n + 1)).map ((a + 1) + ·) :=
      List.map_congr_left fun i _ => by simp; omega
    rw [this, addrRuns, ih (a + 1)]
    simp

/-- Bytes at rising addresses are the bytes of one run. -/
theorem memGets_addrsFrom (m : Mem) (a n : Nat) (h : 0 < n) : memGets m (addrsFrom a n) = memRead m a n := by
  obtain ⟨k, rfl⟩ : ∃ k, n = k + 1 := ⟨n - 1, by omega⟩
  unfold memGets addrsFrom
  rw [addrRuns_range]
  simp

/-- Rising addresses that end inside activation SRAM lie in it. -/
theorem inAct_addrsFrom (a n : Nat) (h : a + n ≤ actSize) : inAct (addrsFrom a n) = true := by
  simp only [inAct, addrsFrom, List.all_eq_true, List.mem_map, List.mem_range, decide_eq_true_eq]
  rintro x ⟨i, hi, rfl⟩
  omega

end Sys2Proof.Machine
end

