-- ==== Sys2Proof/Laws/Exec.lean ====
section
/-! SUPPORT. What `exec` runs for each command, one equation a command. -/

namespace Sys2Proof.Machine

theorem exec_echo {t r s} :
    exec (.echo t r) s = execEcho t r s := rfl
theorem exec_funcReset {t r s} :
    exec (.funcReset t r) s = execFuncReset t r s := rfl
theorem exec_funcResetQuiesce {t fn s} :
    exec (.funcResetQuiesce t fn) s = execFuncResetQuiesce t fn s := rfl
theorem exec_modelLoad {t r s} :
    exec (.modelLoad t r) s = execModelLoad t r s := rfl
theorem exec_dwinBind {t r s} :
    exec (.dwinBind t r) s = execDwinBind t r s := rfl
theorem exec_dwinRelease {t r s} :
    exec (.dwinRelease t r) s = execDwinRelease t r s := rfl
theorem exec_historyRead {t r s} :
    exec (.historyRead t r) s = execHistoryRead t r s := rfl
theorem exec_ckptConfig {t r s} :
    exec (.ckptConfig t r) s = execCkptConfig t r s := rfl
theorem exec_ckptRestore {t r s} :
    exec (.ckptRestore t r) s = execCkptRestore t r s := rfl
theorem exec_partitionCreate {t r s} :
    exec (.partitionCreate t r) s = execPartitionCreate t r s := rfl
theorem exec_partitionDissolve {t r s} :
    exec (.partitionDissolve t r) s = execPartitionDissolve t r s := rfl
theorem exec_partitionLayout {t r s} :
    exec (.partitionLayout t r) s = execPartitionLayout t r s := rfl
theorem exec_keyInstall {t r s} :
    exec (.keyInstall t r) s = execKeyInstall t r s := rfl
theorem exec_attest {t r s} :
    exec (.attest t r) s = execAttest t r s := rfl
theorem exec_lifecycleAdvance {t r s} :
    exec (.lifecycleAdvance t r) s = execLifecycleAdvance t r s := rfl
theorem exec_ownerCmd {t r s} :
    exec (.ownerCmd t r) s = execOwnerCmd t r s := rfl
theorem exec_countersRead {t r s} :
    exec (.countersRead t r) s = execCountersRead t r s := rfl
theorem exec_partnerOpen {t r s} :
    exec (.partnerOpen t r) s = execPartnerOpen t r s := rfl
theorem exec_partnerClose {t r s} :
    exec (.partnerClose t r) s = execPartnerClose t r s := rfl
theorem exec_windowGrant {t r s} :
    exec (.windowGrant t r) s = execWindowGrant t r s := rfl
theorem exec_planLoad {t r s} :
    exec (.planLoad t r) s = execPlanLoad t r s := rfl
theorem exec_envOpen {t r s} :
    exec (.envOpen t r) s = execEnvOpen t r s := rfl
theorem exec_envCommit {t r s} :
    exec (.envCommit t r) s = execEnvCommit t r s := rfl
theorem exec_envAbort {t r s} :
    exec (.envAbort t r) s = execEnvAbort t r s := rfl
theorem exec_envStatus {t r s} :
    exec (.envStatus t r) s = execEnvStatus t r s := rfl
theorem exec_scheduleArm {t r s} :
    exec (.scheduleArm t r) s = execScheduleArm t r s := rfl
theorem exec_scheduleDisarm {t r s} :
    exec (.scheduleDisarm t r) s = execScheduleDisarm t r s := rfl
theorem exec_kvPoolConfig {t r s} :
    exec (.kvPoolConfig t r) s = execKvPoolConfig t r s := rfl
theorem exec_kvBind {t r s} :
    exec (.kvBind t r) s = execKvBind t r s := rfl
theorem exec_kvSeqOpen {t r s} :
    exec (.kvSeqOpen t r) s = execKvSeqOpen t r s := rfl
theorem exec_kvSeqTruncate {t r s} :
    exec (.kvSeqTruncate t r) s = execKvSeqTruncate t r s := rfl
theorem exec_kvSeqFree {t r s} :
    exec (.kvSeqFree t r) s = execKvSeqFree t r s := rfl
theorem exec_kvSeqQuery {t r s} :
    exec (.kvSeqQuery t r) s = execKvSeqQuery t r s := rfl
theorem exec_videoDecOpen {t r s} :
    exec (.videoDecOpen t r) s = execVideoDecOpen t r s := rfl
theorem exec_videoEncOpen {t r s} :
    exec (.videoEncOpen t r) s = execVideoEncOpen t r s := rfl
theorem exec_videoClose {t r s} :
    exec (.videoClose t r) s = execVideoClose t r s := rfl
theorem exec_videoQuery {t r s} :
    exec (.videoQuery t r) s = execVideoQuery t r s := rfl
theorem exec_smsStatus {t r s} :
    exec (.smsStatus t r) s = execSmsStatus t r s := rfl
theorem exec_smsFrank {t r s} :
    exec (.smsFrank t r) s = execSmsFrank t r s := rfl
theorem exec_smsZero {t r s} :
    exec (.smsZero t r) s = execSmsZero t r s := rfl
theorem exec_smsTare {t r s} :
    exec (.smsTare t r) s = execSmsTare t r s := rfl
theorem exec_smsPresetTare {t r s} :
    exec (.smsPresetTare t r) s = execSmsPresetTare t r s := rfl
theorem exec_smsTareClear {t r s} :
    exec (.smsTareClear t r) s = execSmsTareClear t r s := rfl
theorem exec_smsRecords {t r s} :
    exec (.smsRecords t r) s = execSmsRecords t r s := rfl
theorem exec_smsCheckpoint {t r s} :
    exec (.smsCheckpoint t r) s = execSmsCheckpoint t r s := rfl
theorem exec_smsSwid {t r s} :
    exec (.smsSwid t r) s = execSmsSwid t r s := rfl
theorem exec_smsParamLoad {t r s} :
    exec (.smsParamLoad t r) s = execSmsParamLoad t r s := rfl
theorem exec_smStage {t r s} :
    exec (.smStage t r) s = execSmStage t r s := rfl
theorem exec_smVerify {t r s} :
    exec (.smVerify t r) s = execSmVerify t r s := rfl
theorem exec_smActivate {t r s} :
    exec (.smActivate t r) s = execSmActivate t r s := rfl
theorem exec_cvuSubmit {t r s} :
    exec (.cvuSubmit t r) s = execCvuSubmit t r s := rfl
theorem exec_testKat {t r res s} :
    exec (.testKat t r res) s = execTestKat t r res s := rfl
theorem exec_bistSlice {t r s} :
    exec (.bistSlice t r) s = execBistSlice t r s := rfl
theorem exec_marginSweep {t r s} :
    exec (.marginSweep t r) s = execMarginSweep t r s := rfl
theorem exec_scanRun {t r s} :
    exec (.scanRun t r) s = execScanRun t r s := rfl
theorem exec_fenceLift {t r s} :
    exec (.fenceLift t r) s = execFenceLift t r s := rfl
theorem exec_maintGrant {t r s} :
    exec (.maintGrant t r) s = execMaintGrant t r s := rfl
theorem exec_twinPair {t r s} :
    exec (.twinPair t r) s = execTwinPair t r s := rfl
theorem exec_twinResync {t r s} :
    exec (.twinResync t r) s = execTwinResync t r s := rfl
theorem exec_twinPermit {t r s} :
    exec (.twinPermit t r) s = execTwinPermit t r s := rfl
theorem exec_twinGiveup {t r s} :
    exec (.twinGiveup t r) s = execTwinGiveup t r s := rfl
theorem exec_fwStage {t r s} :
    exec (.fwStage t r) s = execFwStage t r s := rfl
theorem exec_fwVerify {t r s} :
    exec (.fwVerify t r) s = execFwVerify t r s := rfl
theorem exec_fwActivate {t r s} :
    exec (.fwActivate t r) s = execFwActivate t r s := rfl
theorem exec_fwStatus {t r s} :
    exec (.fwStatus t r) s = execFwStatus t r s := rfl
theorem exec_fwRestart {t r s} :
    exec (.fwRestart t r) s = execFwRestart t r s := rfl
theorem exec_settingsSave {t r s} :
    exec (.settingsSave t r) s = execSettingsSave t r s := rfl
theorem exec_recInfo {t r s} :
    exec (.recInfo t r) s = execRecInfo t r s := rfl
theorem exec_recStage {t r s} :
    exec (.recStage t r) s = execRecStage t r s := rfl
theorem exec_recInstall {t r s} :
    exec (.recInstall t r) s = execRecInstall t r s := rfl
theorem exec_recRestart {t r s} :
    exec (.recRestart t r) s = execRecRestart t r s := rfl
theorem exec_commandWaitStart {t m s} :
    exec (.commandWaitStart t m) s = execCommandWaitStart t m s := rfl
theorem exec_mailboxResponse {t m s} :
    exec (.mailboxResponse t m) s = execMailboxResponse t m s := rfl
theorem exec_put {t port p s} :
    exec (.put t port p) s = execPut t port p s := rfl
theorem exec_putNotify {t port p s} :
    exec (.putNotify t port p) s = execPutNotify t port p s := rfl
theorem exec_get {t port p f s} :
    exec (.get t port p f) s = execGet t port p f s := rfl
theorem exec_fetchAdd {t port p s} :
    exec (.fetchAdd t port p) s = execFetchAdd t port p s := rfl
theorem exec_cas {t port p s} :
    exec (.cas t port p) s = execCas t port p s := rfl
theorem exec_notify {t port p s} :
    exec (.notify t port p) s = execNotify t port p s := rfl
theorem exec_envOpenOp {t port p s} :
    exec (.envOpenOp t port p) s = execEnvOpenOp t port p s := rfl
theorem exec_envCommitOp {t port p s} :
    exec (.envCommitOp t port p) s = execEnvCommitOp t port p s := rfl
theorem exec_envAbortOp {t port p s} :
    exec (.envAbortOp t port p) s = execEnvAbortOp t port p s := rfl
theorem exec_envStatusOp {t port p s} :
    exec (.envStatusOp t port p) s = execEnvStatusOp t port p s := rfl
theorem exec_frame {t port p s} :
    exec (.frame t port p) s = execFrame t port p s := rfl
theorem exec_response {t port op p s} :
    exec (.response t port op p) s = execResponse t port op p s := rfl
theorem exec_ident {t port identity farPort s} :
    exec (.ident t port identity farPort) s = execIdent t port identity farPort s := rfl
theorem exec_idle {t port s} :
    exec (.idle t port) s = execIdle t port s := rfl
theorem exec_credit {t port pairs s} :
    exec (.credit t port pairs) s = execCredit t port pairs s := rfl
theorem exec_depart {t port s} :
    exec (.depart t port) s = execDepart t port s := rfl
theorem exec_blockLockLoss {t port s} :
    exec (.blockLockLoss t port) s = execBlockLockLoss t port s := rfl
theorem exec_uncorrectableCodeword {t port s} :
    exec (.uncorrectableCodeword t port) s = execUncorrectableCodeword t port s := rfl
theorem exec_noBlockTimeout {t port s} :
    exec (.noBlockTimeout t port) s = execNoBlockTimeout t port s := rfl
theorem exec_retrainComplete {t port s} :
    exec (.retrainComplete t port) s = execRetrainComplete t port s := rfl
theorem exec_identSend {t port s} :
    exec (.identSend t port) s = execIdentSend t port s := rfl
theorem exec_idleSend {t port s} :
    exec (.idleSend t port) s = execIdleSend t port s := rfl
theorem exec_egressPacketStart {t port s} :
    exec (.egressPacketStart t port) s = execEgressPacketStart t port s := rfl
theorem exec_remoteTimeout {t port tag s} :
    exec (.remoteTimeout t port tag) s = execRemoteTimeout t port tag s := rfl
theorem exec_tokenPeriod {t s} :
    exec (.tokenPeriod t) s = execTokenPeriod t s := rfl
theorem exec_dwinQuotaPeriod {t s} :
    exec (.dwinQuotaPeriod t) s = execDwinQuotaPeriod t s := rfl
theorem exec_refusalCapPeriod {t s} :
    exec (.refusalCapPeriod t) s = execRefusalCapPeriod t s := rfl
theorem exec_modeRegisterWrite {t ch mr v supported s} :
    exec (.modeRegisterWrite t ch mr v supported) s = execModeRegisterWrite t ch mr v supported s := rfl
theorem exec_modeRegisterRead {t ch mr s} :
    exec (.modeRegisterRead t ch mr) s = execModeRegisterRead t ch mr s := rfl
theorem exec_unsupportedCommand {t ch s} :
    exec (.unsupportedCommand t ch) s = execUnsupportedCommand t ch s := rfl
theorem exec_refresh {t ch s} :
    exec (.refresh t ch) s = execRefresh t ch s := rfl
theorem exec_resetN {t ch s} :
    exec (.resetN t ch) s = execResetN t ch s := rfl
theorem exec_hostDataRowWrite {t w row off bs f s} :
    exec (.hostDataRowWrite t w row off bs f) s = execHostDataRowWrite t w row off bs f s := rfl
theorem exec_triggerRecord {t w bs s} :
    exec (.triggerRecord t w bs) s = execTriggerRecord t w bs s := rfl
theorem exec_sealEntry {t w entry bs s} :
    exec (.sealEntry t w entry bs) s = execSealEntry t w entry bs s := rfl
theorem exec_bulkWrite {t a off bs s} :
    exec (.bulkWrite t a off bs) s = execBulkWrite t a off bs s := rfl
theorem exec_bulkRead {t a off n s} :
    exec (.bulkRead t a off n) s = execBulkRead t a off n s := rfl
theorem exec_bulkFetchDone {t a page s} :
    exec (.bulkFetchDone t a page) s = execBulkFetchDone t a page s := rfl
theorem exec_unmappedWrite {t addr s} :
    exec (.unmappedWrite t addr) s = execUnmappedWrite t addr s := rfl
theorem exec_hstPostmarkLoRead {t s} :
    exec (.hstPostmarkLoRead t) s = execHstPostmarkLoRead t s := rfl
theorem exec_rcFieldRead {t addr s} :
    exec (.rcFieldRead t addr) s = execRcFieldRead t addr s := rfl
theorem exec_hstSafeStopClear {t v s} :
    exec (.hstSafeStopClear t v) s = execHstSafeStopClear t v s := rfl
theorem exec_twnControlClearStop {t v s} :
    exec (.twnControlClearStop t v) s = execTwnControlClearStop t v s := rfl
theorem exec_thmControlClearStop {t v s} :
    exec (.thmControlClearStop t v) s = execThmControlClearStop t v s := rfl
theorem exec_hstUtcHiWrite {t v s} :
    exec (.hstUtcHiWrite t v) s = execHstUtcHiWrite t v s := rfl
theorem exec_hstDwinQuotaWrite {t w v s} :
    exec (.hstDwinQuotaWrite t w v) s = execHstDwinQuotaWrite t w v s := rfl
theorem exec_crrDlqHeadWrite {t p v s} :
    exec (.crrDlqHeadWrite t p v) s = execCrrDlqHeadWrite t p v s := rfl
theorem exec_registerWrite {t addr v s} :
    exec (.registerWrite t addr v) s = execRegisterWrite t addr v s := rfl
theorem exec_jobStart {t e s} :
    exec (.jobStart t e) s = execJobStart t e s := rfl
theorem exec_ldv {t e vline vlen f s} :
    exec (.ldv t e vline vlen f) s = execLdv t e vline vlen f s := rfl
theorem exec_tld {t e row reg shape f s} :
    exec (.tld t e row reg shape f) s = execTld t e row reg shape f s := rfl
theorem exec_kvt {t e row reg shape pop f s} :
    exec (.kvt t e row reg shape pop f) s = execKvt t e row reg shape pop f s := rfl
theorem exec_kva {t e reg f s} :
    exec (.kva t e reg f) s = execKva t e reg f s := rfl
theorem exec_mat {t e m f s} :
    exec (.mat t e m f) s = execMat t e m f s := rfl
theorem exec_vpld {t e v f s} :
    exec (.vpld t e v f) s = execVpld t e v f s := rfl
theorem exec_req {t e v f s} :
    exec (.req t e v f) s = execReq t e v f s := rfl
theorem exec_vadd {t e v f s} :
    exec (.vadd t e v f) s = execVadd t e v f s := rfl
theorem exec_vsub {t e v f s} :
    exec (.vsub t e v f) s = execVsub t e v f s := rfl
theorem exec_vmul {t e v f s} :
    exec (.vmul t e v f) s = execVmul t e v f s := rfl
theorem exec_vfma {t e v f s} :
    exec (.vfma t e v f) s = execVfma t e v f s := rfl
theorem exec_vmax {t e v f s} :
    exec (.vmax t e v f) s = execVmax t e v f s := rfl
theorem exec_vmin {t e v f s} :
    exec (.vmin t e v f) s = execVmin t e v f s := rfl
theorem exec_vexp2 {t e v f s} :
    exec (.vexp2 t e v f) s = execVexp2 t e v f s := rfl
theorem exec_vlog2 {t e v f s} :
    exec (.vlog2 t e v f) s = execVlog2 t e v f s := rfl
theorem exec_vrcp {t e v f s} :
    exec (.vrcp t e v f) s = execVrcp t e v f s := rfl
theorem exec_vrsqrt {t e v f s} :
    exec (.vrsqrt t e v f) s = execVrsqrt t e v f s := rfl
theorem exec_vrsum {t e v f s} :
    exec (.vrsum t e v f) s = execVrsum t e v f s := rfl
theorem exec_vrmax {t e v f s} :
    exec (.vrmax t e v f) s = execVrmax t e v f s := rfl
theorem exec_vrmin {t e v f s} :
    exec (.vrmin t e v f) s = execVrmin t e v f s := rfl
theorem exec_vcvt {t e v f s} :
    exec (.vcvt t e v f) s = execVcvt t e v f s := rfl
theorem exec_vcvtmx {t e v f s} :
    exec (.vcvtmx t e v f) s = execVcvtmx t e v f s := rfl
theorem exec_vext {t e v f s} :
    exec (.vext t e v f) s = execVext t e v f s := rfl
theorem exec_iadd {t e v f s} :
    exec (.iadd t e v f) s = execIadd t e v f s := rfl
theorem exec_isub {t e v f s} :
    exec (.isub t e v f) s = execIsub t e v f s := rfl
theorem exec_imul {t e v f s} :
    exec (.imul t e v f) s = execImul t e v f s := rfl
theorem exec_ishl {t e v f s} :
    exec (.ishl t e v f) s = execIshl t e v f s := rfl
theorem exec_ishr {t e v f s} :
    exec (.ishr t e v f) s = execIshr t e v f s := rfl
theorem exec_isra {t e v f s} :
    exec (.isra t e v f) s = execIsra t e v f s := rfl
theorem exec_iand {t e v f s} :
    exec (.iand t e v f) s = execIand t e v f s := rfl
theorem exec_ior {t e v f s} :
    exec (.ior t e v f) s = execIor t e v f s := rfl
theorem exec_ixor {t e v f s} :
    exec (.ixor t e v f) s = execIxor t e v f s := rfl
theorem exec_imin {t e v f s} :
    exec (.imin t e v f) s = execImin t e v f s := rfl
theorem exec_imax {t e v f s} :
    exec (.imax t e v f) s = execImax t e v f s := rfl
theorem exec_icmp {t e v f s} :
    exec (.icmp t e v f) s = execIcmp t e v f s := rfl
theorem exec_iadds {t e v f s} :
    exec (.iadds t e v f) s = execIadds t e v f s := rfl
theorem exec_isubs {t e v f s} :
    exec (.isubs t e v f) s = execIsubs t e v f s := rfl
theorem exec_vsel {t e v f s} :
    exec (.vsel t e v f) s = execVsel t e v f s := rfl
theorem exec_vbcast {t e v f s} :
    exec (.vbcast t e v f) s = execVbcast t e v f s := rfl
theorem exec_vargmax {t e v f s} :
    exec (.vargmax t e v f) s = execVargmax t e v f s := rfl
theorem exec_vwin {t e v f s} :
    exec (.vwin t e v f) s = execVwin t e v f s := rfl
theorem exec_vs2d {t e v f s} :
    exec (.vs2d t e v f) s = execVs2d t e v f s := rfl
theorem exec_vd2s {t e v f s} :
    exec (.vd2s t e v f) s = execVd2s t e v f s := rfl
theorem exec_vkvp {t e v f s} :
    exec (.vkvp t e v f) s = execVkvp t e v f s := rfl
theorem exec_out {t e line len route last f s} :
    exec (.out t e line len route last f) s = execOut t e line len route last f s := rfl
theorem exec_outn {t e line len route last f s} :
    exec (.outn t e line len route last f) s = execOutn t e line len route last f s := rfl
theorem exec_ldr {t e line route f s} :
    exec (.ldr t e line route f) s = execLdr t e line route f s := rfl
theorem exec_ldw {t e line route f s} :
    exec (.ldw t e line route f) s = execLdw t e line route f s := rfl
theorem exec_wait {t e handle count f s} :
    exec (.wait t e handle count f) s = execWait t e handle count f s := rfl
theorem exec_note {t e handle count f s} :
    exec (.note t e handle count f) s = execNote t e handle count f s := rfl
theorem exec_waitl {t e f s} :
    exec (.waitl t e f) s = execWaitl t e f s := rfl
theorem exec_loop {t e arg f s} :
    exec (.loop t e arg f) s = execLoop t e arg f s := rfl
theorem exec_test {t e arg f s} :
    exec (.test t e arg f) s = execTest t e arg f s := rfl
theorem exec_endJob {t e f s} :
    exec (.endJob t e f) s = execEndJob t e f s := rfl
theorem exec_waitRelease {t e s} :
    exec (.waitRelease t e) s = execWaitRelease t e s := rfl
theorem exec_waitlRelease {t e s} :
    exec (.waitlRelease t e) s = execWaitlRelease t e s := rfl
theorem exec_egressCreditRelease {t e s} :
    exec (.egressCreditRelease t e) s = execEgressCreditRelease t e s := rfl
theorem exec_waitTimeout {t e s} :
    exec (.waitTimeout t e) s = execWaitTimeout t e s := rfl
theorem exec_lpddrSlot {t slot s} :
    exec (.lpddrSlot t slot) s = execLpddrSlot t slot s := rfl
theorem exec_lpddrTransferDone {t e f s} :
    exec (.lpddrTransferDone t e f) s = execLpddrTransferDone t e f s := rfl
theorem exec_jobCompletion {t job s} :
    exec (.jobCompletion t job) s = execJobCompletion t job s := rfl
theorem exec_deadlineMiss {t job s} :
    exec (.deadlineMiss t job) s = execDeadlineMiss t job s := rfl
theorem exec_safeStopMinExpiry {t src s} :
    exec (.safeStopMinExpiry t src) s = execSafeStopMinExpiry t src s := rfl
theorem exec_checkpointSeal {t p s} :
    exec (.checkpointSeal t p) s = execCheckpointSeal t p s := rfl
theorem exec_checkpointMirror {t p s} :
    exec (.checkpointMirror t p) s = execCheckpointMirror t p s := rfl
theorem exec_storeScrub {t e row f s} :
    exec (.storeScrub t e row f) s = execStoreScrub t e row f s := rfl
theorem exec_actScrub {t e f s} :
    exec (.actScrub t e f) s = execActScrub t e f s := rfl
theorem exec_digestEpoch {t s} :
    exec (.digestEpoch t) s = execDigestEpoch t s := rfl
theorem exec_historyProgram {t s} :
    exec (.historyProgram t) s = execHistoryProgram t s := rfl
theorem exec_lockstepMismatch {t s} :
    exec (.lockstepMismatch t) s = execLockstepMismatch t s := rfl
theorem exec_kvWalkStart {t e s} :
    exec (.kvWalkStart t e) s = execKvWalkStart t e s := rfl
theorem exec_kvDescriptorEmit {t e s} :
    exec (.kvDescriptorEmit t e) s = execKvDescriptorEmit t e s := rfl
theorem exec_kvPrefetch {t e s} :
    exec (.kvPrefetch t e) s = execKvPrefetch t e s := rfl
theorem exec_kvSpillDone {t e f s} :
    exec (.kvSpillDone t e f) s = execKvSpillDone t e f s := rfl
theorem exec_kvPageReturn {t e page s} :
    exec (.kvPageReturn t e page) s = execKvPageReturn t e page s := rfl
theorem exec_envCommitCycle {t p h s} :
    exec (.envCommitCycle t p h) s = execEnvCommitCycle t p h s := rfl
theorem exec_envApply {t e f s} :
    exec (.envApply t e f) s = execEnvApply t e f s := rfl
theorem exec_envCopyBack {t p s} :
    exec (.envCopyBack t p) s = execEnvCopyBack t p s := rfl
theorem exec_envLifetimeExpiry {t p h s} :
    exec (.envLifetimeExpiry t p h) s = execEnvLifetimeExpiry t p h s := rfl
theorem exec_twinAdmission {t h port op p last predicted s} :
    exec (.twinAdmission t h port op p last predicted) s = execTwinAdmission t h port op p last predicted s := rfl
theorem exec_twinRelease {t h e job bundle s} :
    exec (.twinRelease t h e job bundle) s = execTwinRelease t h e job bundle s := rfl
theorem exec_twinCommand {t h opcode r s} :
    exec (.twinCommand t h opcode r) s = execTwinCommand t h opcode r s := rfl
theorem exec_twinPrepare {t h handle s} :
    exec (.twinPrepare t h handle) s = execTwinPrepare t h handle s := rfl
theorem exec_twinAbort {t h handle s} :
    exec (.twinAbort t h handle) s = execTwinAbort t h handle s := rfl
theorem exec_twinReport {t h b s} :
    exec (.twinReport t h b) s = execTwinReport t h b s := rfl
theorem exec_twinDigest {t h epoch digests s} :
    exec (.twinDigest t h epoch digests) s = execTwinDigest t h epoch digests s := rfl
theorem exec_twinHeartbeat {t h claimOut claimIn s} :
    exec (.twinHeartbeat t h claimOut claimIn) s = execTwinHeartbeat t h claimOut claimIn s := rfl
theorem exec_twinGiveupRecord {t h cause b s} :
    exec (.twinGiveupRecord t h cause b) s = execTwinGiveupRecord t h cause b s := rfl
theorem exec_twinAck {t h seq s} :
    exec (.twinAck t h seq) s = execTwinAck t h seq s := rfl
theorem exec_twinCopy {t h item s} :
    exec (.twinCopy t h item) s = execTwinCopy t h item s := rfl
theorem exec_twinStepLeft {t h cause s} :
    exec (.twinStepLeft t h cause) s = execTwinStepLeft t h cause s := rfl
theorem exec_mirrorExecute {t s} :
    exec (.mirrorExecute t) s = execMirrorExecute t s := rfl
theorem exec_heartbeatSend {t s} :
    exec (.heartbeatSend t) s = execHeartbeatSend t s := rfl
theorem exec_reportSend {t s} :
    exec (.reportSend t) s = execReportSend t s := rfl
theorem exec_claimWatchdogExpiry {t s} :
    exec (.claimWatchdogExpiry t) s = execClaimWatchdogExpiry t s := rfl
theorem exec_heartbeatLoss {t s} :
    exec (.heartbeatLoss t) s = execHeartbeatLoss t s := rfl
theorem exec_claimInChange {t level s} :
    exec (.claimInChange t level) s = execClaimInChange t level s := rfl
theorem exec_takeover {t s} :
    exec (.takeover t) s = execTakeover t s := rfl
theorem exec_resyncCutover {t s} :
    exec (.resyncCutover t) s = execResyncCutover t s := rfl
theorem exec_videoSlot {t u work s} :
    exec (.videoSlot t u work) s = execVideoSlot t u work s := rfl
theorem exec_bandWrite {t stream b f s} :
    exec (.bandWrite t stream b f) s = execBandWrite t stream b f s := rfl
theorem exec_accessUnitWrite {t stream bs s} :
    exec (.accessUnitWrite t stream bs) s = execAccessUnitWrite t stream bs s := rfl
theorem exec_cvuSlot {t u s} :
    exec (.cvuSlot t u) s = execCvuSlot t u s := rfl
theorem exec_cvuJobStart {t u s} :
    exec (.cvuJobStart t u) s = execCvuJobStart t u s := rfl
theorem exec_cvuJobEnd {t u f s} :
    exec (.cvuJobEnd t u f) s = execCvuJobEnd t u f s := rfl
theorem exec_cvuOverrun {t u blocks s} :
    exec (.cvuOverrun t u blocks) s = execCvuOverrun t u blocks s := rfl
theorem exec_sampleFrame {t c s} :
    exec (.sampleFrame t c) s = execSampleFrame t c s := rfl
theorem exec_channelFaultTimeout {t c s} :
    exec (.channelFaultTimeout t c) s = execChannelFaultTimeout t c s := rfl
theorem exec_zeroTracking {t inst s} :
    exec (.zeroTracking t inst) s = execZeroTracking t inst s := rfl
theorem exec_recordToken {t s} :
    exec (.recordToken t) s = execRecordToken t s := rfl
theorem exec_smsCheckpointSign {t s} :
    exec (.smsCheckpointSign t) s = execSmsCheckpointSign t s := rfl
theorem exec_adjEn {t active s} :
    exec (.adjEn t active) s = execAdjEn t active s := rfl
theorem exec_smsClockFault {t s} :
    exec (.smsClockFault t) s = execSmsClockFault t s := rfl
theorem exec_smsStart {t ok s} :
    exec (.smsStart t ok) s = execSmsStart t ok s := rfl
theorem exec_slice {t e s} :
    exec (.slice t e) s = execSlice t e s := rfl
theorem exec_sliceEnd {t e res s} :
    exec (.sliceEnd t e res) s = execSliceEnd t e res s := rfl
theorem exec_maintGrantExpiry {t s} :
    exec (.maintGrantExpiry t) s = execMaintGrantExpiry t s := rfl
theorem exec_powerUp {t c s} :
    exec (.powerUp t c) s = execPowerUp t c s := rfl
theorem exec_clockSourceSelect {t inRange s} :
    exec (.clockSourceSelect t inRange) s = execClockSourceSelect t inRange s := rfl
theorem exec_romStart {t straps par fuseOk s} :
    exec (.romStart t straps par fuseOk) s = execRomStart t straps par fuseOk s := rfl
theorem exec_imagesVerified {t bad s} :
    exec (.imagesVerified t bad) s = execImagesVerified t bad s := rfl
theorem exec_storeTested {t res goldenOk s} :
    exec (.storeTested t res goldenOk) s = execStoreTested t res goldenOk s := rfl
theorem exec_memoryTrained {t failed s} :
    exec (.memoryTrained t failed) s = execMemoryTrained t failed s := rfl
theorem exec_portsLocked {t locked s} :
    exec (.portsLocked t locked) s = execPortsLocked t locked s := rfl
theorem exec_service {t c s} :
    exec (.service t c) s = execService t c s := rfl
theorem exec_coolantRecheck {t c s} :
    exec (.coolantRecheck t c) s = execCoolantRecheck t c s := rfl
theorem exec_domainRamp {t d s} :
    exec (.domainRamp t d) s = execDomainRamp t d s := rfl
theorem exec_domainFault {t d s} :
    exec (.domainFault t d) s = execDomainFault t d s := rfl
theorem exec_uvWarn {t vin s} :
    exec (.uvWarn t vin) s = execUvWarn t vin s := rfl
theorem exec_eject {t c s} :
    exec (.eject t c) s = execEject t c s := rfl
theorem exec_overvoltage {t vin s} :
    exec (.overvoltage t vin) s = execOvervoltage t vin s := rfl
theorem exec_epo {t s} :
    exec (.epo t) s = execEpo t s := rfl
theorem exec_refLost {t s} :
    exec (.refLost t) s = execRefLost t s := rfl
theorem exec_thermalSample {t sensors s} :
    exec (.thermalSample t sensors) s = execThermalSample t sensors s := rfl
theorem exec_thermalLevelExit {t s} :
    exec (.thermalLevelExit t) s = execThermalLevelExit t s := rfl
theorem exec_thermalTrip {t s} :
    exec (.thermalTrip t) s = execThermalTrip t s := rfl
theorem exec_keyDestroy {t p s} :
    exec (.keyDestroy t p) s = execKeyDestroy t p s := rfl
theorem exec_smbusRead {t item s} :
    exec (.smbusRead t item) s = execSmbusRead t item s := rfl
theorem exec_smbusWrite {t s} :
    exec (.smbusWrite t) s = execSmbusWrite t s := rfl
theorem exec_smbusTimeout {t s} :
    exec (.smbusTimeout t) s = execSmbusTimeout t s := rfl
theorem exec_telemetryRefresh {t s} :
    exec (.telemetryRefresh t) s = execTelemetryRefresh t s := rfl
theorem exec_engineZeroingDone {t e s} :
    exec (.engineZeroingDone t e) s = execEngineZeroingDone t e s := rfl
theorem exec_coolantInletRange {t c s} :
    exec (.coolantInletRange t c) s = execCoolantInletRange t c s := rfl
theorem exec_hostPortTraining {t ch s} :
    exec (.hostPortTraining t ch) s = execHostPortTraining t ch s := rfl

end Sys2Proof.Machine
end

