-- ==== Sys2Proof/Laws/Mem.lean ====
section
/-! SUPPORT. Byte memories: what a read after a write gives, and that every operation keeps the canonical form. -/

namespace Sys2Proof.Machine

/-! The canonical form. -/

/-- A memory is canonical when its addresses rise strictly and no cell holds zero. -/
theorem memWf_iff (m : Mem) : memWf m = true ↔ m.Pairwise (fun c d => c.1 < d.1) ∧ ∀ c ∈ m, c.2 ≠ 0 := by
  induction m with
  | nil => simp [memWf]
  | cons c m ih =>
    obtain ⟨a, b⟩ := c
    cases m with
    | nil => simp [memWf]
    | cons d m =>
      obtain ⟨a', b'⟩ := d
      simp only [memWf, Bool.and_eq_true, decide_eq_true_eq, ih, List.pairwise_cons, List.mem_cons, forall_eq_or_imp,
        ne_eq]
      constructor
      · rintro ⟨⟨hb, ha⟩, ⟨h1, h2⟩, h3, h4⟩
        exact ⟨⟨⟨ha, fun x hx => lt_trans ha (h1 x hx)⟩, h1, h2⟩, hb, h3, h4⟩
      · rintro ⟨⟨⟨ha, -⟩, h1, h2⟩, hb, h3, h4⟩
        exact ⟨⟨hb, ha⟩, ⟨h1, h2⟩, h3, h4⟩

@[simp] theorem memWf_nil : memWf [] = true := rfl

/-- Cells left out of a canonical memory leave a canonical one. -/
theorem memWf_filter {m : Mem} (h : memWf m = true) (p : Host.Cell → Bool) : memWf (m.filter p) = true := by
  rw [memWf_iff] at h ⊢
  exact ⟨h.1.filter _, fun c hc => h.2 c (List.mem_of_mem_filter hc)⟩

theorem memWf_memZero {m : Mem} (h : memWf m = true) (a n : Nat) : memWf (memZero m a n) = true :=
  memWf_filter h _

theorem mem_cellsFrom {bs : List Byte} {a : Nat} {c : Host.Cell} (h : c ∈ cellsFrom a bs) :
    a ≤ c.1 ∧ c.1 < a + bs.length := by
  induction bs generalizing a with
  | nil => simp [cellsFrom] at h
  | cons b bs ih =>
    simp only [cellsFrom, List.mem_cons] at h
    rcases h with rfl | h
    · simp
    · have := ih h
      simp only [List.length_cons]
      omega

theorem cellsFrom_pairwise (a : Nat) (bs : List Byte) : (cellsFrom a bs).Pairwise fun c d => c.1 < d.1 := by
  induction bs generalizing a with
  | nil => simp [cellsFrom]
  | cons b bs ih =>
    simp only [cellsFrom, List.pairwise_cons]
    exact ⟨fun c hc => by have := mem_cellsFrom hc; omega, ih _⟩

/-- A store of bytes keeps the canonical form. -/
theorem memWf_memWrite {m : Mem} (h : memWf m = true) (a : Nat) (bs : List Byte) : memWf (memWrite m a bs) = true := by
  rw [memWf_iff] at h ⊢
  obtain ⟨h1, h2⟩ := h
  unfold memWrite cellsSplice
  constructor
  · simp only [List.pairwise_append, List.mem_append, List.mem_filter, decide_eq_true_eq]
    refine ⟨⟨h1.filter _, (cellsFrom_pairwise a bs).filter _, ?_⟩, h1.filter _, ?_⟩
    · rintro c ⟨-, hc⟩ d ⟨hd, -⟩
      exact lt_of_lt_of_le hc (mem_cellsFrom hd).1
    · rintro c (⟨-, hc⟩ | ⟨hc, -⟩) d ⟨-, hd⟩
      · omega
      · have := mem_cellsFrom hc; omega
  · simp only [List.mem_append, List.mem_filter, decide_eq_true_eq]
    rintro c ((⟨hc, -⟩ | ⟨-, hc⟩) | ⟨hc, -⟩)
    · exact h2 c hc
    · exact hc
    · exact h2 c hc

theorem memWf_memPut {m : Mem} (h : memWf m = true) (ws : List Host.Cell) : memWf (memPut m ws) = true := by
  unfold memPut
  generalize cellRuns ws = rs
  induction rs generalizing m with
  | nil => exact h
  | cons r rs ih => exact ih (memWf_memWrite h r.1 r.2)

theorem cellDrop_sublist (m : List Host.Cell) (a : Nat) : (cellDrop m a).Sublist m := by
  induction m with
  | nil => simp [cellDrop]
  | cons c m ih =>
    obtain ⟨k, b⟩ := c
    unfold cellDrop
    split
    · exact List.sublist_cons_self _ _
    · exact ih.cons_cons _

theorem mem_cellPut {m : List Host.Cell} {a : Nat} {v : Byte} {c : Host.Cell} (h : c ∈ cellPut m a v) :
    c = (a, v) ∨ c ∈ m := by
  induction m with
  | nil => simpa [cellPut] using h
  | cons d m ih =>
    obtain ⟨k, b⟩ := d
    unfold cellPut at h
    split at h
    · simpa using h
    · split at h
      · simp only [List.mem_cons] at h ⊢
        exact h.imp_right .inr
      · simp only [List.mem_cons] at h ⊢
        rcases h with rfl | h
        · exact .inr (.inl rfl)
        · exact (ih h).imp_right .inr

/-- A byte stored keeps the canonical form. -/
theorem memWf_memSet {m : Mem} (h : memWf m = true) (a : Nat) (v : Byte) : memWf (memSet m a v) = true := by
  rw [memWf_iff] at h ⊢
  obtain ⟨h1, h2⟩ := h
  unfold memSet
  split
  · exact ⟨h1.sublist (cellDrop_sublist m a), fun c hc => h2 c ((cellDrop_sublist m a).subset hc)⟩
  · refine ⟨?_, fun c hc => ?_⟩
    · induction m with
      | nil => simp [cellPut]
      | cons d m ih =>
        obtain ⟨k, b⟩ := d
        rw [List.pairwise_cons] at h1
        unfold cellPut
        split
        · rename_i hk
          refine List.pairwise_cons.2 ⟨fun c hc => ?_, List.pairwise_cons.2 h1⟩
          rcases List.mem_cons.1 hc with rfl | hc
          · exact hk
          · exact lt_trans hk (h1.1 c hc)
        · split
          · rename_i hk
            subst hk
            exact List.pairwise_cons.2 h1
          · refine List.pairwise_cons.2 ⟨fun c hc => ?_, ih h1.2 fun c hc => h2 c (List.mem_cons_of_mem _ hc)⟩
            rcases mem_cellPut hc with rfl | hc
            · show k < a
              omega
            · exact h1.1 c hc
    · rcases mem_cellPut hc with rfl | hc
      · assumption
      · exact h2 c hc

/-! Reads after writes. -/

theorem cellAt_append (l l' : List Host.Cell) (x : Nat) : cellAt (l ++ l') x = (cellAt l x).or (cellAt l' x) := by
  induction l with
  | nil => rfl
  | cons c l ih =>
    obtain ⟨k, b⟩ := c
    simp only [List.cons_append, cellAt]
    split
    · rfl
    · exact ih

theorem cellAt_eq_none {l : List Host.Cell} {x : Nat} (h : ∀ c ∈ l, c.1 ≠ x) : cellAt l x = none := by
  induction l with
  | nil => rfl
  | cons c l ih =>
    obtain ⟨k, b⟩ := c
    unfold cellAt
    rw [if_neg (h (k, b) (List.mem_cons_self ..))]
    exact ih fun d hd => h d (List.mem_cons_of_mem _ hd)

/-- Cells that a filter on addresses lets through are still found. -/
theorem cellAt_filter_key (p : Nat → Bool) (l : List Host.Cell) (x : Nat) (h : p x = true) :
    cellAt (l.filter fun c => p c.1) x = cellAt l x := by
  induction l with
  | nil => rfl
  | cons c l ih =>
    obtain ⟨k, b⟩ := c
    rw [List.filter_cons]
    simp only [cellAt]
    split
    · simp only [cellAt, ih]
    · rename_i hk
      rw [ih, if_neg]
      rintro rfl
      exact hk h

theorem cellAt_filter_out (p : Nat → Bool) (l : List Host.Cell) (x : Nat) (h : p x = false) :
    cellAt (l.filter fun c => p c.1) x = none := by
  apply cellAt_eq_none
  intro c hc he
  have := (List.mem_filter.1 hc).2
  rw [he, h] at this
  exact absurd this (by simp)

theorem cellAt_cellsFrom_nz (a : Nat) (bs : List Byte) (i : Nat) :
    (cellAt ((cellsFrom a bs).filter fun c => c.2 ≠ 0) (a + i)).getD 0 = bs.getD i 0 := by
  induction bs generalizing a i with
  | nil => simp [cellsFrom, cellAt]
  | cons b bs ih =>
    rw [cellsFrom, List.filter_cons]
    cases i with
    | zero =>
      have : cellAt ((cellsFrom (a + 1) bs).filter fun c => c.2 ≠ 0) a = none :=
        cellAt_eq_none fun c hc => by
          have := mem_cellsFrom (List.mem_of_mem_filter hc)
          omega
      simp only [Nat.add_zero, decide_eq_true_eq]
      split
      · simp [cellAt]
      · rename_i hb
        rw [this]
        simpa using (not_not.1 hb).symm
    | succ i =>
      have e : a + (i + 1) = a + 1 + i := by omega
      have h := ih (a + 1) i
      rw [e]
      simp only [decide_eq_true_eq]
      split
      · simp only [cellAt]
        rw [if_neg (by omega), h]
        simp
      · rw [h]
        simp

/-- Each byte that a store covers reads as stored. -/
theorem memGet_memWrite_in (m : Mem) (a : Nat) (bs : List Byte) (i : Nat) (h : i < bs.length) :
    memGet (memWrite m a bs) (a + i) = bs.getD i 0 := by
  unfold memGet memWrite cellsSplice
  rw [cellAt_append, cellAt_append, cellAt_filter_out (fun k => decide (k < a)) _ _ (by simp),
    cellAt_filter_out (fun k => decide (a + bs.length ≤ k)) _ _ (by simpa using h)]
  simpa using cellAt_cellsFrom_nz a bs i

/-- Every byte outside a store reads as before. -/
theorem memGet_memWrite_out (m : Mem) (a : Nat) (bs : List Byte) (x : Nat) (h : x < a ∨ a + bs.length ≤ x) :
    memGet (memWrite m a bs) x = memGet m x := by
  have hn : cellAt ((cellsFrom a bs).filter fun c => c.2 ≠ 0) x = none :=
    cellAt_eq_none fun c hc => by
      have := mem_cellsFrom (List.mem_of_mem_filter hc)
      omega
  unfold memGet memWrite cellsSplice
  rw [cellAt_append, cellAt_append, hn]
  rcases h with h | h
  · rw [cellAt_filter_key (fun k => decide (k < a)) _ _ (by simpa using h),
      cellAt_filter_out (fun k => decide (a + bs.length ≤ k)) _ _ (by simp; omega)]
    simp
  · rw [cellAt_filter_out (fun k => decide (k < a)) _ _ (by simp; omega),
      cellAt_filter_key (fun k => decide (a + bs.length ≤ k)) _ _ (by simpa using h)]
    simp

/-- A store of nothing changes no byte. -/
@[simp] theorem memGet_memWrite_nil (m : Mem) (a x : Nat) : memGet (memWrite m a []) x = memGet m x :=
  memGet_memWrite_out m a [] x (by simp; omega)

/-- A zeroed byte reads zero, and every other as before. -/
theorem memGet_memZero (m : Mem) (a n x : Nat) :
    memGet (memZero m a n) x = if a ≤ x ∧ x < a + n then 0 else memGet m x := by
  unfold memGet memZero
  split
  · rename_i h
    rw [cellAt_filter_out (fun k => decide (k < a) || decide (a + n ≤ k)) _ _ (by simp; omega)]
    rfl
  · rename_i h
    rw [cellAt_filter_key (fun k => decide (k < a) || decide (a + n ≤ k)) _ _ (by simp; omega)]

theorem cellsReadBy_eq (d : Nat) (m : List Host.Cell) (a n : Nat) :
    cellsReadBy d m a n = (List.range n).map fun i => cellAt m (a + i) := by
  induction d generalizing m a n with
  | zero => rfl
  | succ d ih =>
    rw [cellsReadBy, ih, ih]
    conv_rhs => rw [show n = n / 2 + (n - n / 2) by omega, List.range_add, List.map_append, List.map_map]
    congr 1
    · refine List.map_congr_left fun i hi => ?_
      rw [List.mem_range] at hi
      exact cellAt_filter_key (fun k => decide (k < a + n / 2)) _ _ (by simpa using hi)
    · refine List.map_congr_left fun i _ => ?_
      rw [Function.comp, ← Nat.add_assoc]
      exact cellAt_filter_key (fun k => decide (a + n / 2 ≤ k)) _ _ (by simp)

/-- Bytes read together are the bytes read one by one. -/
theorem memRead_eq (m : Mem) (a n : Nat) : memRead m a n = (List.range n).map fun i => memGet m (a + i) := by
  unfold memRead cellsRead
  rw [cellsReadBy_eq, List.map_map]
  refine List.map_congr_left fun i hi => ?_
  rw [List.mem_range] at hi
  show (cellAt _ _).getD 0 = memGet m (a + i)
  rw [cellAt_filter_key (fun k => decide (a ≤ k) && decide (k < a + n)) _ _ (by simp; omega)]
  rfl

@[simp] theorem memRead_length (m : Mem) (a n : Nat) : (memRead m a n).length = n := by simp [memRead_eq]

end Sys2Proof.Machine
end

