-- ==== Sys2Proof/Tests/Slice0.lean ====
section
/-! SUPPORT. Tests: for each statement states and operands that meet its premises, with what the command does there; the ranges of operands;
the manual's worked examples; check values of the ciphers. -/

open Sys2Proof Sys2Proof.Machine

namespace Sys2Proof.Tests

-- one theorem at a time keeps the memory that the kernel takes small
set_option Elab.async false

/-! Small states. -/

/-- The state a step answers. -/
def after : Host.Outcome State Fault Refusal → State
  | .next s => s
  | _ => State.reset

/-- Whether a step answers a given next state. -/
def goes (o : Host.Outcome State Fault Refusal) (s : State) : Bool := match o with
  | .next w => w = s
  | _ => false

/-- A module in SERVICE with its host port trained. -/
def svc : State :=
  { State.reset with
    host := { State.reset.host with hpReady := true, trained := Vector.replicate 2 true }
    pwr := { State.reset.pwr with phase := .service, startSrc := false, trained := true } }.rewriteStatus

/-- A partition that holds engine 0, with 1 GiB of LPDDR5X. -/
def pt : Partition :=
  { isThere := true, engines := 1, regionGib := 1, pghBase := 256, pghCount := 64, ctxMax := 4, winMax := 16, kvSteps := 0 }

/-- Its image: two loops that are nested, two pigeonholes, routes of each kind, test windows, and tile shapes. -/
def img : Image :=
  { shapes := [⟨0, 4, 4⟩, ⟨10, 8, 128⟩]
    loops := [⟨0, 9, 3, []⟩, ⟨2, 5, 1, []⟩]
    pghs := [(3, 0), (4, 50)]
    routes := [⟨2, 0, 0, 0, 0, 0⟩, ⟨3, 0, 0, 0, 0, 0⟩, ⟨1, 0, 5, 0, 0, 0⟩, ⟨4, 0, 0, 1, 0, 512⟩, ⟨5, 0, 0, 1, 0, 512⟩, ⟨1, 0, 5, 0, 0, 9⟩]
    windows := [1, 2] }

/-- A job that issues on engine 0. -/
def job : Job :=
  { id := 7, sched := 0, part := 1, cls := some 2, engines := [0], w := 1000, t0 := 10, last := 1100, finish := 1200
    source := .internal, counting := [0], started := some 20, image := [img] }

/-- Engine 0 in a state `g`, with the job above on it, in cycle 100. -/
def run (g : Engine) : State :=
  { svc with
    now := 100
    jobs := [job]
    part := svc.part.set 1 pt
    eng := svc.eng.set 0 { g with seq := { g.seq with job := some 7 } } }

/-- The same with nothing else on the engine. -/
def busy : State := run { act := [⟨0, 3⟩, ⟨1, 0x80⟩, ⟨70, 9⟩] }

/-! The machine (R13, R39, R102). -/

theorem test_step_runs_front : step { svc with pending := [.heartbeatSend 4, .mirrorExecute 5] } =
    exec (.heartbeatSend 4) { svc with pending := [.mirrorExecute 5] } := rfl
theorem test_memories_canonical : Cert.MemInv busy ∧ (after (exec (.ldv 100 0 0 0 {}) busy)).now = 100 := by
  unfold Cert.MemInv; decide +kernel
theorem test_quiet_time : Cert.Quiet busy ∧ Cert.NothingDue busy (max busy.now 90) ∧ Cert.NothingDue busy (max busy.now 200) := by
  unfold Cert.Quiet Cert.NothingDue; decide +kernel
theorem test_due_landing : let s := run { landings := [⟨102, 7, false, .bcast [1, 2]⟩] }
    Cert.Quiet s ∧ s.eng[(0 : EngId)].landings = [⟨102, 7, false, .bcast [1, 2]⟩] ∧ 102 ≤ max s.now 102
      ∧ (∀ x : EngId, x ≠ 0 → s.eng[x].landings = []) ∧ rfRead (s.advance 102).eng[(0 : EngId)].bcast 0 2 = [1, 2]
      ∧ rfRead (s.advance 101).eng[(0 : EngId)].bcast 0 2 = [0, 0] := by
  unfold Cert.Quiet; decide +kernel

/-! Vector operations (R117-R119, R141, R142, Table 05.14). -/

/-- A slot of 16 lanes for each operation: from lines 0 and 1 to line 16, with record 10 (REQ), 2 (VARGMAX), 3 (VWIN), 4 (VS2D, VD2S). -/
def slotOf (op : Nat) : VecSlot :=
  let x : VecSlot := { srcA := 0, srcB := if readsB op then 1 else 0, dst := 16, len := 15 }
  if op = 0x01 then { x with dst := 0 }
  else if op = 0x02 then { x with srcB := 10 }
  else if op = 0x20 then { x with ity := 2, oty := 13 }
  else if op = 0x21 then { x with ity := 13, oty := 4, len := 31 }
  else if op = 0x22 then { x with oty := 13 }
  else if op = 0x40 then { x with srcB := 2 }
  else if op = 0x41 then { x with srcB := 3 }
  else if op = 0x42 ∨ op = 0x43 then { x with srcB := 4 }
  else if op = 0x48 then { x with ity := 13, oty := 4, dst := 0 }
  else x

/-- Their records (Tables 06.3, 05.15); those from 10 on are zero, which REQ takes as multiplier 0. -/
def recs : Mem := [⟨34, 4⟩, ⟨49, 1⟩, ⟨52, 1⟩, ⟨56, 4⟩, ⟨60, 1⟩, ⟨65, 1⟩, ⟨66, 4⟩]

/-- An engine for the vector operations, in a partition whose pool has format 4 and dimension 16. -/
def vecState : State := (run { act := [⟨0, 3⟩, ⟨1, 0x80⟩, ⟨2, 0x80⟩, ⟨3, 0x3F⟩, ⟨70, 9⟩], params := recs }).updPart 1 fun p =>
  { p with kv := { fmt := 4, d := 16, sigma := [127] } }

/-- The premises of a vector operation at a slot. -/
def vecPremises (u : State) (op : Nat) (v : VecSlot) (as : List Nat) : Bool :=
  let g := u.eng[(0 : EngId)]
  let all := Cert.srcAll op v as
  u.issuing 0 = some job && decide (g.seq.vecFrom ≤ u.now) && vecFieldsOk op v && vecUnusedOk op v
    && winFieldsOk op (Cert.vecGeo g op v) v && srcAAddrs op (Cert.vecGeo g op v) v = some as && inAct all
    && chunksApart (all.length / 2048 + 1) all && badPlace g {} (all.take 2048) = none

/-- Whether an operation that works on `got` meets no limit (`Cert.vecGood`). -/
def vecRunsWell (o : VecOpen) (got : List Byte) : Bool :=
  let r := Cert.vecOut o got
  !r.bad && landsInAct r.effs && r.failLane.isNone && chunksApart ((landAddrs r.effs).length / 2048 + 1) (landAddrs r.effs)

/-- The premises of a vector operation of at most 2,048 bytes. -/
def vecRuns (u : State) (op : Nat) (v : VecSlot) : Bool :=
  let g := u.eng[(0 : EngId)]
  match srcAAddrs op (Cert.vecGeo g op v) v with
  | none => false
  | some as =>
    let all := Cert.srcAll op v as
    vecPremises u op v as && decide (all.length ≤ 2048) && vecRunsWell (Cert.vecOpened u 0 job op v as) (g.unitGets u.now all)

theorem test_float_and_move_operations_run :
    (Cert.vecOps.filter fun op => op < 0x28 ∨ 0x35 < op).all (fun op => vecRuns vecState op (slotOf op)) = true := by decide +kernel
theorem test_integer_operations_run :
    (Cert.vecOps.filter fun op => 0x28 ≤ op ∧ op ≤ 0x35).all (fun op => vecRuns vecState op (slotOf op)) = true := by decide +kernel
theorem test_matrix_output_as_source : vecRuns vecState 0x02 { slotOf 0x02 with mo := true } = true
    ∧ Cert.takesFree vecState.eng[(0 : EngId)] 0x08 { slotOf 0x08 with mo := true } = true := by decide +kernel

theorem test_vadd_lands_its_sum :
    let as := addrsFrom 0 64
    let o := Cert.vecOpened vecState 0 job 0x08 (slotOf 0x08) as
    let got := vecState.eng[(0 : EngId)].unitGets 100 (Cert.srcAll 0x08 (slotOf 0x08) as)
    goes (exec (.vadd 100 0 (slotOf 0x08) {}) vecState) (Cert.vecLanding
      (vecState.updEng 0 fun g => { g with seq := { g.seq with vecFrom := 101 } }) 0 job o got) = true := by decide +kernel

/-- 512 lanes from three operands. -/
def slotLong : VecSlot := { srcA := 0, srcB := 32, dst := 64, len := 511 }

theorem test_long_operation_premises : vecFieldsOk 0x08 slotLong = true ∧ vecUnusedOk 0x08 slotLong = true
    ∧ (Cert.srcAll 0x08 slotLong (addrsFrom 0 2048)).length = 4096 ∧ inAct (Cert.srcAll 0x08 slotLong (addrsFrom 0 2048)) = true
    ∧ badPlace vecState.eng[(0 : EngId)] {} (addrsFrom 0 2048) = none
    ∧ Cert.vecCycles vecState.eng[(0 : EngId)] 0x08 slotLong (addrsFrom 0 2048) = 2 := by decide +kernel

/-- VADD of 16 lanes of which b is still to be read. -/
def openAdd : VecOpen :=
  { Cert.vecOpened vecState 0 job 0x08 (slotOf 0x08) (addrsFrom 0 64) with
    got := vecState.eng[(0 : EngId)].unitGets 100 (addrsFrom 0 64), rest := addrsFrom 64 64 }

theorem test_second_issue_cycle_lands :
    let u := { vecState with now := 101 }
    let got := openAdd.got ++ u.eng[(0 : EngId)].unitGets 101 openAdd.rest
    openAdd.rest.length ≤ 2048 ∧ u.now < openAdd.due ∧ badPlace u.eng[(0 : EngId)] {} openAdd.rest = none
      ∧ vecRunsWell openAdd got = true ∧ u.vecStep 0 job openAdd = Cert.vecLanding u 0 job openAdd got := by decide +kernel

theorem test_disallowed_fields_end_the_job :
    vecFieldsOk 0x08 { slotOf 0x08 with sat := true } = false ∧ vecUnusedOk 0x10 { slotOf 0x10 with srcB := 1 } = false
      ∧ goes (exec (.vadd 100 0 { slotOf 0x08 with sat := true } {}) vecState) (vecState.endEarly 7 stBadArg) = true
      ∧ goes (exec (.vexp2 100 0 { slotOf 0x10 with srcB := 1 } {}) vecState) (vecState.endEarly 7 stBadArg) = true := by decide +kernel
/-! Lanes and numbers (R74-R80, Table 03.3). -/

theorem test_saturating_add : intLane 0x34 0 false 0x7FFFFFFF 1 = { code := 0x7FFFFFFF, flags := 0x80, sats := 1 }
    ∧ intLane 0x28 0 false 0x7FFFFFFF 1 = { code := 0x80000000 } := by decide +kernel
theorem test_integer_compare : [0, 1, 2, 3].map (fun rm => (intLane 0x33 rm false 0xFFFFFFFF 1).code) = [0, 1, 1, 1] := by decide +kernel
theorem test_ishr_takes_no_sat : vecFieldsOk 0x2C { slotOf 0x2C with sat := true } = false := by decide +kernel
theorem test_req_rounds_half_up : reqLane 0 5 (natLe 1 4 ++ [1, 0] ++ natLe 0 2 ++ natLe 0xFF80 2 ++ natLe 127 2 ++ natLe 0 4) =
    some { code := 3 } := by decide +kernel
theorem test_req_refuses_crossed_bounds :
    reqLane 0 5 (natLe 1 4 ++ [1, 0] ++ natLe 0 2 ++ natLe 1 2 ++ natLe 0 2 ++ natLe 0 4) = none := by decide +kernel
theorem test_formats_hold_numbers : Cert.formats.all (fun f => decide (1 < 2 ^ (1 + f.ebits + f.mbits)) && match decodeFlt f 1 with
    | .fin neg m e => encodeFlt f 0 false (.fin neg m e) == { code := 1 }
    | _ => false) = true := by decide +kernel
theorem test_infinity_less_infinity_is_invalid : fpSub 0 0x7F800000 0x7F800000 = { code := 0x7FC00000, flags := 8 }
    ∧ fpIsNan 0x7F800000 = false ∧ fpIsNan 0x7FC00001 = true ∧ fpAdd 0 0x7FC00001 0 = { code := 0x7FC00000 } := by decide +kernel

/-! Loads (R83, R89, R90, R96, R115, R166, R168, R170). -/

theorem test_ldv : let u := busy
    badPlace u.eng[(0 : EngId)] {} (addrsFrom 0 64) = none ∧ u.eng[(0 : EngId)].sideAt ≠ u.now
      ∧ goes (exec (.ldv 100 0 0 0 {}) u) (Cert.landing u 0 job 101 [.bcast (memRead u.eng[(0 : EngId)].act 0 64)]) = true := by
  decide +kernel
theorem test_ldv_meets_a_bad_word : badPlace (run { mem := { actBad := [8] } }).eng[(0 : EngId)] {} (addrsFrom 0 64) = some (8, 8)
    ∧ ((after (exec (.ldv 100 0 0 0 {}) (run { mem := { actBad := [8] } }))).jobs.map (·.early)) =
      [some (100, stMemUncorrectable)] := by decide +kernel

/-- An engine with a tile of shape 0 at row 5 and a page at the head of its queue. -/
def loadState : State := run
  { store := [⟨16384 * 5, 1⟩, ⟨16384 * 5 + 17, 2⟩], pageQueue := [{ job := 7, pageRow := 4, seq := 1 }] }

theorem test_tld : (imageOn job 0).shapes[0]? = some ⟨0, 4, 4⟩ ∧ tileRows ⟨0, 4, 4⟩ = 1
    ∧ (after (exec (.tld 100 0 5 true 0 {}) loadState)).eng[(0 : EngId)] = (Cert.loading loadState 0 job 5 true ⟨0, 4, 4⟩ none 0).eng[(0 : EngId)]
    ∧ rfRead (after (exec (.tld 100 0 5 true 0 {}) loadState)).eng[(0 : EngId)].tileB.image 0 2 =
      [1, 0] := by decide +kernel
theorem test_kvt_pops : loadState.eng[(0 : EngId)].pageQueue ≠ [] ∧ (after (exec (.kvt 100 0 1 false 0 true {}) loadState)).eng[(0 : EngId)].pageQueue = []
    ∧ (after (exec (.kvt 100 0 1 false 0 true {}) loadState)).eng[(0 : EngId)].tileA.kvRow = 1 := by decide +kernel
theorem test_kvt_without_a_page : goes (exec (.kvt 100 0 1 false 0 true {}) busy)
    ((busy.endEarly 7 stKvUnderrun).updKv 1 fun k => { k with event := 4 }) = true := by decide +kernel

/-- An engine whose tile register A holds the first tile of a page of format 9 and dimension 32, and B a zero tile of INT8. -/
def kvaState : State := (run
  { tileA := { shape := ⟨9, 64, 64⟩, kv := some { job := 7, pageRow := 8, slot := 3 }, kvRow := 0, kvaCount := 0 }
    tileB := { shape := ⟨0, 4, 4⟩, sums := [0, 0, 0, 0] }, append := { codes := [5] } }).updPart 1 fun p =>
  { p with kv := { fmt := 9, d := 32, sigma := [127] } }

theorem test_kva_premises : ((pageTiles 9 32).find? fun p => p.first = 0).map PageTile.shape = some ⟨9, 64, 64⟩
    ∧ 0 < tileRows ⟨9, 64, 64⟩ ∧ (kvaState.eng[(0 : EngId)].tile false).kv.isSome = true
    ∧ (kvaState.eng[(0 : EngId)].tile true).kv = none ∧ kvaState.eng[(0 : EngId)].portFrom ≤ kvaState.now := by decide +kernel

/-! Matrix operations (R54-R72, R182-R187). -/

/-- A MAT on tile register B that starts a chain and emits it. -/
def matSlot : MatSlot := { reg := true, afmt := 0, start := true, emit := true, entry := 2 }

theorem test_mat_premises : let g := kvaState.eng[(0 : EngId)]
    pairClass (g.tile true).shape.fmt 0 = some .int ∧ matOk matSlot .int g.acc[(2 : Fin 64)] (g.tile true) = true ∧ matFailed g 7 = false
      ∧ checkPasses .int (Cert.matNew g matSlot .int) = true
      ∧ readbackFails (g.tile true).shape (Cert.matTile g matSlot) (g.tile true).sums = none
      ∧ ((after (exec (.mat 100 0 matSlot {}) kvaState)).eng[(0 : EngId)].landings.map Landing.due) = [112, 112] := by decide +kernel
theorem test_mat_dot_product : let b := fun a => [1, 2, 0xFF, 4].getD a 0
    let v := fun a => [3, 0xFE].getD a 0
    (matEntry .int true {} ⟨0, 2, 2⟩ 0 b v).cols.map (fun c => c.val.toInt) = [5, -2]
      ∧ checkPasses .int (matEntry .int true {} ⟨0, 2, 2⟩ 0 b v) = true := by decide +kernel
theorem test_mat_classes : [(0, 1), (3, 2), (9, 4), (11, 11), (0, 2)].map (fun x => pairClass x.1 x.2) =
    [some .int, some .fp8, some .block, some .half, none] := by decide +kernel
theorem test_failed_mat : let g := kvaState.eng[(0 : EngId)]
    let s := after (exec (.mat 100 0 matSlot { mechs := [0] }) kvaState)
    0 ∈ matMechs .int ∧ matFailed g 7 = false ∧ matFailed s.eng[(0 : EngId)] 7 = true
      ∧ s.eng[(0 : EngId)].landings.map Landing.due = [110] ∧ goes (exec (.mat 100 0 matSlot {}) s) s = true := by decide +kernel

/-! The MOV, SYNC and CTL slots (R110, R111, R120-R128, R452). -/

/-- A partner context on port 2 with the link number 0x0101. -/
def ctx1 : Ctx :=
  { part := 1, num := 0, port := 2, clear := true, filter := false, link := 0x0101, remoteLink := 0x0202, serial := 1, creditBlocks := 8, opsBurst := 10
    opsRate := 10, bytesBurst := 4096, bytesRate := 4096, timeout := 5000, opsTok := 10, bytesTok := 4096, outCredit := 8 }

/-- The engine with that context and a remote window on it. -/
def sendState : State := { busy with fab := { busy.fab with
  ctxs := [ctx1], wins := [{ num := 5, part := 1, ctx := 0, kind := .remote, rights := 2, logical := 0, base := 0, length := 4096 }] } }

theorem test_out_premises : badPlace sendState.eng[(0 : EngId)] {} (addrsFrom 0 64) = none ∧ sendState.isStandby = false
    ∧ sendState.eng[(0 : EngId)].unchecked 100 0 64 = false
    ∧ ((imageOn job 0).routes.map RouteEntry.kind) = [2, 3, 1, 4, 5, 1]
    ∧ sendState.outCtx job ⟨1, 0, 5, 0, 0, 0⟩ = some ctx1 ∧ busy.outCtx job ⟨1, 0, 5, 0, 0, 0⟩ = none
    ∧ sendState.portHeld 1 2 = false ∧ sendState.beatBlocks 0 2 64 ≤ 8 ∧ 0 < sendState.beatBlocks 0 2 64 := by decide +kernel
theorem test_out_takes_credit : let s := after (exec (.outn 100 0 0 0 2 true {}) sendState)
    s.fab.ctxs.map Ctx.outCredit = [8 - sendState.beatBlocks 0 2 64]
      ∧ s.eng[(0 : EngId)].landings.map (fun l => (l.due, l.eff)) = [(101, .beat 2 true true (memRead busy.eng[(0 : EngId)].act 0 64))] := by
  decide +kernel

/-- The same without credit, and with the credit of a beat already given. -/
def dryState (g : Option (Nat × Nat)) : State := (sendState.updCtx 0x0101 fun c => { c with outCredit := 0 }).updEng 0 fun x =>
  { x with seq := { x.seq with granted := g } }

theorem test_out_waits_for_credit :
    (after (exec (.out 100 0 0 0 5 true {}) (dryState none))).eng[(0 : EngId)].seq.wait = some (.egress 2 0x0101 5 64 100 109)
      ∧ (after (exec (.out 100 0 0 0 2 true {}) (dryState none))).jobs.map (·.early) = [some (100, stWaitTimeout)]
      ∧ ((after (exec (.out 100 0 0 0 2 true {}) (dryState (some (2, sendState.beatBlocks 0 2 64))))).eng[(0 : EngId)].landings.length) = 1 := by
  decide +kernel

/-- The partition with checkpoints, one slot under construction and perhaps one sealed. -/
def ckptState (b : Option Bool) : State := busy.updPart 1 fun p => { p with
  ckpt := some { cls := 0, mirror := 0, length := 4096, offA := 8, offB := 16, interval := 0, lastSeal := 0, sealedSlot := b } }

theorem test_ldr_premises : regionBytes busy.part[(1 : PartId)] = 1073741824 ∧ busy.lpFenced 512 512 = false
    ∧ ({ busy with units := [{ unit := 0x51, fenced := true }] } : State).lpFenced 512 512 = true ∧ busy.part[(1 : PartId)].ckpt = none
    ∧ (ckptState none).part[(1 : PartId)].ckpt.map Ckpt.sealedSlot = some none
    ∧ (ckptState (some true)).part[(1 : PartId)].ckpt.map Ckpt.sealedSlot = some (some true)
    ∧ ((after (exec (.ldr 100 0 4 3 {}) busy)).eng[(0 : EngId)].seq.xfers.map fun x => (x.regionByte, x.units)) = [(512, [1])]
    ∧ ((after (exec (.ldr 100 0 4 4 {}) (ckptState none))).eng[(0 : EngId)].seq.xfers.map fun x => (x.regionByte, x.zeros)) =
      [(512 * 16 + 512, true)] := by decide +kernel

/-- A transfer of one unit on engine 0, at the start of slot 3 of a frame; the slot is owned by the partition. -/
def xferState (x : Xfer) : State :=
  { (busy.updEng 0 fun g => { g with seq := { g.seq with xfers := [x] } }).updPart 1 fun p => { p with lpSlots := 8 } with now := 1120 }

/-- A read of 512 bytes. -/
def xfer1 : Xfer := { id := 3, job := 7, isRead := true, line := 4, regionByte := 512, length := 512, units := [1] }

theorem test_lpddr_slot : let s := xferState xfer1
    s.frameTime % 1024 = 32 * 3 ∧ s.fab.lpSlotAt ≠ some 1120 ∧ s.slotOwner 3 = some 1 ∧ s.slotEngine 1 = some 0
      ∧ (xferState { xfer1 with units := [] }).slotEngine 1 = none ∧ oldestDirty s.host.bulk[(1 : PartId)].frames = none
      ∧ (after (exec (.lpddrSlot 1120 3) s)).eng[(0 : EngId)].seq.xfers.map Xfer.doneAt = [some 1270] := by decide +kernel
theorem test_transfer_done : let s := xferState { xfer1 with units := [], doneAt := some 1120, length := 8 }
    s.running 0 = some job ∧ s.eng[(0 : EngId)].mem.actBad = [] ∧ s.waiting 0 = none
      ∧ ((after (exec (.lpddrTransferDone 1120 0 {}) s)).eng[(0 : EngId)].seq.xfers.map Xfer.moved) = [true] := by decide +kernel

/-- Engine 0 waiting, in cycle 100, with a pigeonhole of the partition at 5. -/
def waitState (w : Option SeqWait) : State :=
  { (busy.updEng 0 fun g => { g with seq := { g.seq with wait := w } }) with fab := { busy.fab with pgh := [(259, 5)] } }

theorem test_wait_premises : (waitState none).pghIndex 1 3 = some 259 ∧ (imageOn job 0).pghs[0]? = some (3, 0)
    ∧ (waitState none).pghSeen 259 = 5 ∧ (waitState none).issuing 0 = some job
    ∧ (waitState (some (.pgh 3 5 90 100))).waiting 0 = some (job, .pgh 3 5 90 100)
    ∧ (waitState (some (.pgh 3 6 90 100))).waiting 0 = some (job, .pgh 3 6 90 100)
    ∧ (waitState (some (.pgh 3 6 90 101))).waiting 0 = some (job, .pgh 3 6 90 101) := by decide +kernel
theorem test_wait_subtracts : (after (exec (.wait 100 0 0 5 {}) (waitState none))).fab.pgh = []
    ∧ (after (exec (.wait 100 0 1 6 {}) ((waitState none)))).jobs.map (·.early) = [none]
    ∧ (after (exec (.wait 100 0 0 6 {}) ((waitState none)))).jobs.map (·.early) = [some (100, stWaitTimeout)] := by decide +kernel
theorem test_wait_in_the_cycle_of_its_bound :
    (after (exec (.waitTimeout 100 0) (waitState (some (.pgh 3 5 90 100))))).fab.pgh = []
      ∧ (after (exec (.waitTimeout 100 0) (waitState (some (.pgh 3 6 90 100))))).jobs.map (·.early) = [some (100, stWaitTimeout)]
      ∧ (after (exec (.waitTimeout 100 0) (waitState (some (.pgh 3 6 90 101))))).jobs.map (·.early) = [none] := by decide +kernel

/-- Engine 0 with a transfer that has been moved or not, waiting for it or not. -/
def waitlState (moved : Bool) (w : Option SeqWait) : State := (busy.updEng 0 fun g => { g with
  seq := { g.seq with wait := w, sinceWaitl := [3], xfers := [{ xfer1 with moved := moved, doneAt := some 99, units := [] }] } }).updPart 1 fun p =>
    { p with lpSlots := 8 }

theorem test_waitl_premises : (waitlState true none).eng[(0 : EngId)].seq.xfersDone = true ∧ (waitlState false none).eng[(0 : EngId)].seq.xfersDone = false
    ∧ (waitlState false none).waitlBound 0 job ≠ 0
    ∧ (waitlState false (some (.xfers 90 100))).waiting 0 = some (job, .xfers 90 100)
    ∧ (waitlState true (some (.xfers 90 99))).waiting 0 = some (job, .xfers 90 99) := by decide +kernel
theorem test_egress_release : let w : SeqWait := .egress 2 0x0101 2 64 90 100
    let s := sendState.updEng 0 fun g => { g with seq := { g.seq with wait := some w } }
    s.waiting 0 = some (job, w) ∧ s.ctx? 0x0101 = some ctx1
      ∧ (after (exec (.egressCreditRelease 100 0) s)).eng[(0 : EngId)].seq.granted = some (2, sendState.beatBlocks 0 2 64)
      ∧ (after (exec (.egressCreditRelease 100 0) (s.updCtx 0x0101 fun c => { c with outCredit := 0 }))).eng[(0 : EngId)].seq.granted = none := by
  decide +kernel
theorem test_loops_and_windows : let s := after (exec (.loop 100 0 0 {}) busy)
    let inner := after (exec (.loop 100 0 1 {}) s)
    s.eng[(0 : EngId)].seq.loops = [(0, 0)] ∧ inner.eng[(0 : EngId)].seq.loops = [(1, 0), (0, 0)]
      ∧ (after (exec (.loop 100 0 0 {}) inner)).eng[(0 : EngId)].seq.loops = [(0, 1)]
      ∧ (imageOn job 0).loops[2]? = none ∧ (imageOn job 0).windows[1]? = some 2 := by decide +kernel
theorem test_end_of_a_job : assoc (0 : EngId) job.ends = none
    ∧ ((after (exec (.endJob 100 0 {}) busy)).jobs.map (·.ends)) = [[(0, 100)]] := by decide +kernel
/-! Jobs, misses and SAFE_STOP (R36, R42-R47, R105). -/

/-- The job released in cycle 98 and not started. -/
def waitingJob : Job := { job with released := some 98, started := none }

/-- A module with that job at the head of engine 0, in cycle `n`. -/
def releasedState (n : Nat) : State := { busy with now := n, jobs := [waitingJob], eng := svc.eng }

theorem test_job_start : let s := releasedState 100
    s.queueOf 0 = [waitingJob] ∧ s.job? 7 = some waitingJob ∧ s.engineFree waitingJob 0 = true ∧ preloadRows (imageOn waitingJob 0) = []
      ∧ ((after (exec (.jobStart 100 0) s)).jobs.map (·.started)) = [some 100]
      ∧ ((after (exec (.jobStart 99 0) (releasedState 99))).jobs.map (·.started)) = [none]
      ∧ ((s.updEng 0 fun g => { g with seq := { g.seq with freeFrom := 101 } }).engineFree waitingJob 0) = false := by decide +kernel

/-- The job after its END in cycle 99. -/
def endedJob : Job := { job with ends := [(0, 99)] }

/-- A module with an ended job. -/
def endedState (j : Job) : State := { busy with jobs := [j] }

theorem test_job_completion : (endedState endedJob).isComplete endedJob = true ∧ endedJob.completion = 100 ∧ busy.isComplete job = false
    ∧ (endedState endedJob).job? 7 = some endedJob ∧ (after (exec (.jobCompletion 100 7) (endedState endedJob))).jobs = []
    ∧ (after (exec (.jobCompletion 100 7) busy)).jobs = [job]
    ∧ (after (exec (.jobCompletion 100 7) (endedState { endedJob with source := .window 3 5 9 }))).jobs = [] := by decide +kernel

/-- The job once its last collection has passed, with class 2 of engine 0 as given. -/
def missState (pol : Word) (role : TwinRole) : State :=
  { busy.updEng 0 (fun g => { g with dlClass := g.dlClass.set 2 pol }) with now := 1101, twin := { busy.twin with role := role } }.rewriteStatus

theorem test_miss : let s := missState 0x00050003 .unpaired
    s.job? 7 = some job ∧ s.isComplete job = false ∧ s.isStandby = false ∧ hasBit s.eng[(0 : EngId)].dlClass[(2 : Fin 16)] 1 = true
      ∧ (missState 1 .inStep).isStandby = true ∧ hasBit (missState 1 .unpaired).eng[(0 : EngId)].dlClass[(2 : Fin 16)] 1 = false
      ∧ (after (exec (.deadlineMiss 1101 7) s)).pwr.deadlineStop = { active := true, minEnd := 901101, remembered := false }
      ∧ (after (exec (.deadlineMiss 1101 7) s)).eng[(0 : EngId)].dlLastMiss = 1101
      ∧ (after (exec (.deadlineMiss 1101 7) (missState 1 .inStep))).pwr.deadlineStop.active = false := by decide +kernel

/-- A module with the deadline source active until cycle 500, and the thermal level. -/
def stopState (l : BitVec 2) (rem : Bool) : State := { svc with
  pwr := { svc.pwr with deadlineStop := { active := true, minEnd := 500, remembered := rem }, level := l } }.rewriteStatus

theorem test_clear_of_safe_stop : Cert.hostOn (stopState 0 false)
    ∧ (after (exec (.hstSafeStopClear 499 4) (stopState 0 false))).pwr.deadlineStop = { active := true, minEnd := 500, remembered := true }
    ∧ (after (exec (.hstSafeStopClear 500 4) (stopState 0 false))).pwr.deadlineStop = {}
    ∧ (after (exec (.safeStopMinExpiry 500 .deadline) (stopState 0 true))).safeStop = false
    ∧ (stopState 3 false).pwr.level = 3 ∧ (stopState 0 false).safeStop = true := by
  unfold Cert.hostOn; decide +kernel

/-! Scrubbing, digest epochs and the history (R84, R98-R101, R197, R203). -/

/-- Engine 0 with its clock nominal. -/
def scrubState (m : MemHealth) : State := run { clkNominal := true, mem := m }

theorem test_store_scrub : (scrubState {}).eng[(0 : EngId)].portFree 100 = true ∧ hasBit ({} : MemHealth).scrubSeen 8191 = false
    ∧ (scrubState {}).digestRow 0 8191 = false
    ∧ (after (exec (.storeScrub 100 0 8191 { corrected := 1 }) (scrubState { storeStreak := [(8191, 2)] }))).eng[(0 : EngId)].mem.storeMarked = [8191]
    ∧ (after (exec (.storeScrub 100 0 5 {}) (scrubState { storeBad := [5] }))).eng[(0 : EngId)].portTaken = some 100
    ∧ ((scrubState {}).updEng 0 fun g => { g with portTaken := some 100 }).eng[(0 : EngId)].portFree 100 = false
    ∧ hasBit (after (exec (.storeScrub 100 0 0 {}) (scrubState {}))).eng[(0 : EngId)].mem.scrubSeen 0 = true := by decide +kernel
theorem test_weight_row_goes_to_the_check_value_units :
    let s := scrubState {} |>.updEng 0 fun g => { g with digests := { g.digests with reference := [(5, 1)] } }
    s.digestRow 0 5 = true ∧ s.cvu.digestRows.length < 64 := by decide +kernel
theorem test_act_scrub : ({ scrubState {} with now := 1024 } : State).frameTime % 1024 = 0
    ∧ (after (exec (.actScrub 1024 0 {}) { scrubState {} with now := 1024 })).eng[(0 : EngId)].mem.scrubLine = 1 := by decide +kernel
theorem wrong_of_unread {d : Digests} (h : d.reading = []) : d.wrong = [] := by simp [Digests.wrong, h, assoc]
theorem test_digest_epoch_premises : let s := { svc with now := 90000000 }
    s.frameTime % 90000000 = 0 ∧ s.frameTime ≠ 0 ∧ s.twin.role = .unpaired ∧ ∀ e : EngId, s.eng[e].digests.abandoned = false ∧ s.eng[e].digests.wrong = [] := by
  have h : ∀ e : EngId, svc.eng[e].digests.abandoned = false ∧ svc.eng[e].digests.reading = [] := by decide +kernel
  exact ⟨by decide +kernel, by decide +kernel, by decide +kernel, fun e => ⟨(h e).1, wrong_of_unread (h e).2⟩⟩
theorem test_epoch_ends : (svc.endEpoch 3).eng[(3 : EngId)].digests.valid = true := by decide +kernel
theorem test_history_programs_fences_first :
    let s := { svc with hist := { waitingF := [{ type := 4, unit := 3 }], waiting1 := [{ type := 1, unit := 2 }] } }
    s.hist.ring.length < 262144 ∧ (after (exec (.historyProgram 0) s)).hist.ring.map HistRec.type = [4]
      ∧ (after (exec (.historyProgram 0) { svc with hist := { waiting1 := [{ type := 1, unit := 2 }] } })).hist.ring.map HistRec.type = [1] := by
  decide +kernel

/-! The KV walk (R161-R177). -/

/-- A bind of logical engine 0 to layer 2 with a window of 2 pages and one pass. -/
def bind0 : KvBind := { logical := 0, layers := [2], windowPages := 2, slide := true, passes := 1, readyPgh := 9 }

/-- A schedule with that bind. -/
def boundSched : Schedule := { handle := 0, part := 1, cls := 2, trigger := 1, budget := 1000, engines := 1, w := 1000, images := [img], binds := [bind0] }

/-- A job of it on sequence 4, which holds 70 vectors: one full page and an open one. -/
def boundState (g : Engine) : State :=
  let s := run g
  { s.updPart 1 fun p => { p with kv := { valid := true, fmt := 9, layers := 4, d := 32, sequences := 8, tableEntries := 64, spillPages := 4
                                          sigma := [127], seqs := [{ num := 4, state := 1, handle := 0, length := 70
                                                                     lists := [(2, [.resident 0 0, .resident 0 1])] }] } } with
    jobs := [{ job with kvSeq := 4 }], scheds := [boundSched] }

theorem test_walk_start : let s := boundState {}
    s.sched? 0 = some boundSched ∧ s.resetting (.kv 1) = false ∧ (s.queueOf 0).map Job.id = [7] ∧ (s.part[(1 : PartId)].kv.seq 4).state = 1
      ∧ (s.part[(1 : PartId)].kv.seq 4).length % 64 ≠ 0
      ∧ ((after (exec (.kvWalkStart 100 0) s)).eng[(0 : EngId)].walk.map fun w => w.todo.map KvDesc.isOpen) = some [false, true] := by decide +kernel

/-- A walk with one descriptor left. -/
def walkOf (d : KvDesc) : KvWalk := { job := 7, gen := 0, seq := 4, todo := [d] }

theorem test_descriptor_emit : let s := boundState { walk := some (walkOf { job := 7, pageRow := 3 }) }
    s.eng[(0 : EngId)].walk.isSome = true ∧ s.eng[(0 : EngId)].pageQueue.length < 256
      ∧ ((after (exec (.kvDescriptorEmit 100 0) s)).eng[(0 : EngId)].pageQueue.map KvDesc.pageRow) = [3]
      ∧ (boundState { pageQueue := List.replicate 256 {} }).eng[(0 : EngId)].pageQueue.length ≥ 256 := by decide +kernel
theorem test_prefetch_premises : let s := boundState { walk := some (walkOf { job := 7, pageRow := 8192, isStaged := true }), mem := { scrubAt := some 50 } }
    let u := { s with fab := { s.fab with lpFree := [(1, 0)] }, now := 160 }
    u.lpServed 1 150 = true ∧ s.lpServed 1 150 = false ∧ u.eng[(0 : EngId)].portShare u.now u.spanStart = true ∧ u.lpFenced 0 (pageRows 9 32 * 16384) = false
      ∧ u.eng[(0 : EngId)].staging = [] := by decide +kernel
theorem test_page_return : let s := (boundState {}).updKv 1 fun k => { k with pages := [((0, 1), .transit 3)] }
    s.holder 0 = some 1 ∧ assoc ((0 : EngId), 1) s.part[(1 : PartId)].kv.pages = some (.transit 3) ∧ (s.purgeSlots 1).olderWalk 1 3 = false
      ∧ ((s.updEng 0 fun g => { g with walk := some (walkOf {}) }).purgeSlots 1).olderWalk 1 3 = true := by decide +kernel
theorem test_spill_premises : let s := ((boundState { mem := { scrubAt := some 50 } }).updKv 1 fun k => { k with pages := [((0, 0), .spilling 2 40)] })
    let u := { s with fab := { s.fab with lpFree := [(1, 0)] }, now := 160 }
    u.lpServed 1 100 = true ∧ u.eng[(0 : EngId)].portShare u.now u.spanStart = true ∧ u.pinned 1 0 0 = false
      ∧ (u.updEng 0 fun g => { g with pageQueue := [{ pageRow := u.pageRow 1 0 }] }).pinned 1 0 0 = true
      ∧ u.part[(1 : PartId)].kv.pages = [((0, 0), .spilling 2 40)] := by decide +kernel

/-! Mailboxes (R211, R218, R227-R230, R267, R280, R292, R312). -/

/-- A request in mailbox 3. -/
def req0 : MbxReq := { mailbox := 3, doorbell := 5, argBytes := 0, args := [] }

/-- A module with a command in mailbox 3. -/
def cmdState (c : RunCmd) : State := svc.updMbx 3 fun m => { m with cmd := some c, lastDoorbell := 4 }

/-- An ECHO that runs. -/
def echoCmd : RunCmd := { opcode := 1, req := { req0 with argBytes := 2, args := [7, 8] }, order := 0, waiting := false, part := none }

theorem test_every_mailbox_command_rings : Cert.mailboxRows.length = 70
    ∧ (∀ row ∈ Cert.mailboxRows, let r := row.2.1 req0
      r.doorbell ≠ 0 ∧ r.doorbell ≠ svc.host.mbx[r.mailbox].lastDoorbell ∧ svc.host.mbx[r.mailbox].cmd = none)
    ∧ svc.host.hpReady = true ∧ svc.pwr.phase ≠ .recovery := by decide +kernel
theorem test_a_command_starts_at_once : svc.preCheck none 0x0001 req0 true false = none
    ∧ svc.preCheck none 0x0777 req0 false false = some stBadArg
    ∧ ((after (exec (.echo 0 { req0 with argBytes := 2, args := [7, 8] }) svc)).host.mbx[(3 : MbxId)].cmd.map RunCmd.result) =
      some (some (stOk, [7, 8])) := by
  decide +kernel

/-- A command of partition 1 that runs. -/
def armCmd : RunCmd :=
  { opcode := 0x0400, req := { req0 with mailbox := 5, args := [1] }, order := 0, waiting := false, part := some 1 }

theorem test_a_free_module_starts_a_command : Cert.startsNow svc 0x0001 req0 := by
  simp [Cert.startsNow, (by decide : svc.accepted = [])]
  rintro ⟨d, h, -⟩
  exact absurd h (by simp [(by decide : svc.accepted = [])])
theorem test_a_command_waits_for_its_partition :
    let u := (svc.updMbx 5 fun m => { m with cmd := some armCmd }).updHost fun h => { h with nextOrder := 1 }
    let r := { req0 with args := [1] }
    u.namedPart 0x0401 r = some 1 ∧ u.accepted = [armCmd]
      ∧ ((after (exec (.scheduleDisarm 0 r) u)).host.mbx[(3 : MbxId)].cmd.map RunCmd.waiting) = some true := by
  decide +kernel
theorem test_commands_that_fence : svc.namedFunc 0x0002 { req0 with args := [0, 0, 2, 0] } = some (.engine 2)
    ∧ Cert.noFence svc 3 ∧ (∀ v ∈ svc.env.opens, v.handle ≠ 9)
    ∧ ((svc.fenceAhead 3 0x0002 { req0 with args := [0, 0, 2, 0] }).host.resets.map ResetRun.func) = [.engine 2] := by
  unfold Cert.noFence; decide +kernel
theorem test_response : let s := cmdState { echoCmd with result := some (stOk, [7, 8]) }
    let w := after (exec (.mailboxResponse 0 3) s)
    s.abortHeld { echoCmd with result := some (stOk, [7, 8]) } = false ∧ w.host.mbx[(3 : MbxId)].cmd = none
      ∧ w.host.mbx[(3 : MbxId)].resp.bytes = [7, 8] ∧ w.host.mbxDone = 8
      ∧ goes (exec (.mailboxResponse 0 3) (cmdState echoCmd)) (cmdState echoCmd) = true := by decide +kernel
theorem test_a_waiting_command_starts : let c := { echoCmd with waiting := true }
    let s := cmdState c
    s.mayStart c = true ∧ (∀ d ∈ s.accepted, d.waiting = true → d.order < c.order → s.mayStart d = false) ∧ Cert.noFence s 3
      ∧ s.preCheck none 1 c.req true false = none
      ∧ ((after (exec (.commandWaitStart 0 3) s)).host.mbx[(3 : MbxId)].cmd.map RunCmd.waiting) = some false := by
  unfold Cert.noFence; decide +kernel

/-- A module in a phase, a twin role and a lifecycle state. -/
def gateState (ph : Phase) (role : TwinRole) (lc : BitVec 3) : State :=
  { svc with pwr := { svc.pwr with phase := ph }, twin := { svc.twin with role := role }, sec := { svc.sec with lifecycle := lc } }

theorem test_checks_before_a_command : let ask := fun (u : State) (op : Nat) (r : MbxReq) => u.preCheck none op r true false
    ask (gateState .portsLocked .unpaired 3) 0x0002 req0 = some stNotReady
      ∧ ask (gateState .portsLocked .unpaired 3) 0x0001 req0 = none
      ∧ ask (gateState .service .unpaired 3) 0x0001 { req0 with env := 4 } = some stBadArg
      ∧ ask (gateState .service .inStep 3) 0x0002 req0 = some stTwinStandby ∧ ask (gateState .service .inStep 3) 0x0303 req0 = none
      ∧ ask (gateState .service .gaveUp 3) 0x0A01 req0 = some stTwinStandby ∧ ask (gateState .service .gaveUp 3) 0x0A00 req0 = none
      ∧ ask (gateState .service .unpaired 2) 0x0100 req0 = some stDenied ∧ ask (gateState .service .unpaired 1) 0x0104 req0 = some stDenied
      ∧ ask (gateState .service .unpaired 3) 0x0104 req0 = some stBadArg
      ∧ ask (gateState .service .unpaired 3) 0x0F00 { req0 with mailbox := 64 } = some stDenied
      ∧ ask (gateState .recovery .unpaired 3) 0x0F00 { req0 with mailbox := 64 } = none := by decide +kernel
theorem test_confidential_partitions_are_not_exposed :
    let u := svc.updPart 1 fun p => { p with isThere := true, confidential := true, owner := some { epoch := 1, key := [] } }
    exposes 0x0400 { req0 with args := [1] } true = true ∧ u.preCheck none 0x0400 { req0 with args := [1] } true false = some stDenied := by
  decide +kernel

/-! Mailbox commands of chapters 08, 09 and 12. -/

/-- A command of mailbox 3 with argument bytes. -/
def ask (bs : List Byte) : MbxReq := { mailbox := 3, doorbell := 5, argBytes := BitVec.ofNat 16 bs.length, args := bs }

/-- Whether a command runs in a module in which no other one is accepted. -/
def runsAlone (u : State) (op : Nat) (r : MbxReq) : Bool :=
  u.accepted = [] && u.host.hpReady && (decide (64 ≤ r.mailbox.val) || u.pwr.phase ≠ .recovery) && r.doorbell ≠ 0
    && r.doorbell ≠ u.host.mbx[r.mailbox].lastDoorbell && u.host.mbx[r.mailbox].cmd.isNone
    && (u.preCheck none op r (if r.mailbox.val = 64 then opcodesRecovery.contains op else opcodes64.contains op) false).isNone

/-- Such a command meets the premise that the statements about mailbox commands share. -/
theorem runs_of_runsAlone {u : State} {op : Nat} {r : MbxReq} (h : runsAlone u op r = true) : Cert.runs u op r := by
  simp only [runsAlone, Bool.and_eq_true, decide_eq_true_eq, Option.isNone_iff_eq_none, Bool.or_eq_true] at h
  obtain ⟨⟨⟨⟨⟨⟨ha, hp⟩, hr⟩, h0⟩, hl⟩, hc⟩, hk⟩ := h
  refine ⟨hp, fun hm => hr.resolve_left (by omega), h0, hl, hc, ⟨by simp [ha], ?_, by simp [ha]⟩, hk⟩
  rintro ⟨d, hd, -⟩
  simp [ha] at hd

/-- A module in SERVICE with partition 1, which holds engine 0. -/
def parted : State := svc.updPart 1 fun _ => pt

/-- How a mailbox command ends that completes at once. -/
def answerOf (o : Host.Outcome State Fault Refusal) : Option (Status × List Byte) :=
  match (after o).host.mbx[(3 : MbxId)].cmd with
  | none => none
  | some c => c.result

theorem test_echo : runsAlone parted 0x0001 (ask [7, 8]) = true ∧ answerOf (exec (.echo 0 (ask [7, 8])) parted) = some (stOk, [7, 8])
    ∧ answerOf (exec (.echo 0 { ask [] with argBytes := 1921 }) parted) = some (stBadArg, []) := by decide +kernel
theorem test_func_reset : let r : MbxReq := ask [0, 0, 2, 0, 0, 0, 0, 0]
    runsAlone parted 0x0002 r = true ∧ r.form 8 [(4, 4)] = true ∧ parted.funcOf 0 0 2 = some (.engine 2) ∧ parted.funcOf 0 0 6 = none
      ∧ (after (exec (.funcReset 0 r) parted)).host.resets.map ResetRun.func = [.engine 2]
      ∧ (∀ x ∈ parted.host.resets, x.func = .engine 2 → x.started = false) ∧ Cert.noFence parted 3 := by
  unfold Cert.noFence; decide +kernel

/-- A module that resets engine 2 since cycle 50. -/
def resetting : State := parted.updHost fun h => { h with resets := [{ func := .engine 2, mailbox := 3, fence := 50 }] }

theorem test_func_reset_quiesce : resetting.quiescent (.engine 2) = true ∧ resetting.queueOf 2 = [] ∧ resetting.scheds = []
    ∧ ((busy.updHost fun h => { h with resets := [{ func := .engine 0, mailbox := 3, fence := 50 }] }).quiescent (.engine 0)) = false
    ∧ (after (exec (.funcResetQuiesce 60 (.engine 2)) resetting)).host.resets = []
    ∧ answerOf (exec (.funcReset 0 (ask [0, 0, 2, 0, 0, 0, 0, 0])) resetting) = some (stBusy, []) := by decide +kernel

/-- DWIN_BIND of window 4 to engine 0 of partition 1, unsealed, 16 rows to line 32. -/
def bindReq : MbxReq := ask ([4, 1, 0, 0] ++ natLe 32 4 ++ natLe 16 2 ++ List.replicate 6 0)

/-- Window 4 bound, perhaps with a job of it. -/
def boundWin (j : List Job) : State := { parted.updWin 4 fun w => { w with bound := some 1 } with jobs := j }

theorem test_dwin_bind : runsAlone parted 0x0004 bindReq = true ∧ bindReq.form 16 [(10, 6)] = true ∧ parted.compOf (bindReq.arg 1 1) = some 1
    ∧ parted.paired = false ∧ parted.owns 1 0 = true
    ∧ (after (exec (.dwinBind 0 bindReq) parted)).host.win[(4 : WinId)].bound = some 1
    ∧ answerOf (exec (.dwinBind 0 bindReq) (boundWin [])) = some (stBusy, []) := by decide +kernel
theorem test_dwin_release : let r := ask [4, 0, 0, 0]
    let j := { job with source := .window 4 0 0 }
    runsAlone (boundWin []) 0x0005 r = true ∧ r.form 4 [(1, 3)] = true ∧ (boundWin []).windowBusy 4 = false
      ∧ (boundWin [j]).windowBusy 4 = true ∧ (after (exec (.dwinRelease 0 r) (boundWin []))).host.win[(4 : WinId)].bound = none
      ∧ answerOf (exec (.dwinRelease 0 r) parted) = some (stBadArg, []) := by decide +kernel
theorem test_history_read : let r := ask (natLe 0 4 ++ [1, 0, 0, 0])
    let u := { parted with hist := { ring := [{ type := 1, unit := 2, sequence := 6 }], next := 7 } }
    runsAlone u 0x0006 r = true ∧ r.form 8 [(7, 1)] = true
      ∧ ((answerOf (exec (.historyRead 0 r) u)).map fun x => (x.1, x.2.take 16, x.2.length)) =
        some (stOk, [6, 0, 0, 0, 7, 0, 0, 0, 0, 0, 0, 0, 0, 1, 0, 0], 80) := by decide +kernel

/-- MODEL_LOAD of line 3 of engine 0 from the start of the system partition's bulk area. -/
def loadReq (dest : Byte) : MbxReq := ask ([1, 0, dest, 0] ++ natLe 3 4 ++ natLe 1 4 ++ natLe 0 4 ++ natLe 0x10010000 8)

/-- The status of a refusal. -/
def errorOf {α : Type} : Except Status α → Option Status
  | .ok _ => none
  | .error st => some st

theorem test_model_load : let u := parted.updPart 0 fun p => { p with isThere := true, regionGib := 1 }
    runsAlone u 0x0003 (loadReq 1) = true ∧ (u.modelLoadGate (loadReq 1)).toOption = some (1, 0) ∧ errorOf (u.modelLoadGate (loadReq 2)) = some stBadArg
      ∧ answerOf (exec (.modelLoad 0 (loadReq 1)) u) = some (stOk, []) := by decide +kernel

/-- CKPT_CONFIG of class 2, without mirror, of 512 bytes at units 8 and 16. -/
def ckptReq (interval : Nat) : MbxReq :=
  ask ([1, 2, 0xFF, 0xFF] ++ natLe 512 4 ++ natLe 8 4 ++ natLe 16 4 ++ natLe interval 4 ++ List.replicate 12 0)

theorem test_ckpt_config : runsAlone parted 0x0007 (ckptReq 9000000) = true ∧ (ckptReq 9000000).form 32 [(20, 12)] = true
    ∧ ((after (exec (.ckptConfig 0 (ckptReq 9000000)) parted)).part[(1 : PartId)].ckpt.map fun c => (c.offA, c.offB, c.interval)) = some (8, 16, 9000000)
    ∧ answerOf (exec (.ckptConfig 0 (ckptReq 8999999)) parted) = some (stBadArg, []) := by decide +kernel

/-- A checkpoint of 4 bytes, sealed as number 6 in slot A. -/
def ckpt4 : Ckpt := { cls := 2, mirror := 0xFFFF, length := 4, offA := 8, offB := 16, interval := 9000000, lastSeal := 0 }

/-- Partition 1 with that checkpoint in the region. -/
def ckptPart (c : Ckpt) : Partition := { regionWrite pt 4096 ([1, 2, 3, 4] ++ ckptHeader 1 6 5 0 2 4 (ckptCrc 6 [1, 2, 3, 4])) with ckpt := some c }

theorem test_ckpt_restore : let u := parted.updPart 1 fun _ => ckptPart ckpt4
    runsAlone u 0x0008 (ask [1, 0, 0, 0]) = true ∧ ckptSeq 1 4 (regionRead u.part[(1 : PartId)] 4096 68) = some 6
      ∧ ckptSeq 1 4 (regionRead u.part[(1 : PartId)] 8192 68) = none ∧ u.lpFenced 4096 68 = false ∧ u.lpFenced 8192 68 = false
      ∧ ({ u with units := [{ unit := 0x58, fenced := true }] } : State).lpFenced 4096 68 = true
      ∧ ((after (exec (.ckptRestore 0 (ask [1, 0, 0, 0])) u)).part[(1 : PartId)].ckpt.map fun c => (c.sealedSlot, c.underB, c.nextSeq)) =
        some (some false, true, 7) := by decide +kernel
theorem test_written_rows : let g := parted.eng[(0 : EngId)]
    g.fenced = false ∧ (5 ∉ g.mem.storeMarked ∨ g.mem.spared.length < 32) ∧ (List.replicate 16384 (1 : Byte)).length = 16384 := by decide +kernel
theorem test_checkpoint_seal : let u := parted.updPart 1 fun _ => ckptPart { ckpt4 with dueJobs := [7] }
    u.job? 7 = none ∧ ({ u with jobs := [job] } : State).job? 7 = some job ∧ u.lpFenced 4096 68 = false
      ∧ ((after (exec (.checkpointSeal 0 1) u)).part[(1 : PartId)].ckpt.map fun c => (c.sealedSlot, c.underB, c.nextSeq)) =
        some (some false, true, 1) := by decide +kernel
theorem test_checkpoint_mirror_premises :
    let u := { sendState.updPart 1 (fun _ => ckptPart { ckpt4 with mirror := 5, mirrorQueue := [false] }) with
      fab := { sendState.fab with lpFree := [(1, 0)] }, now := 160 }
    u.win? 5 = sendState.fab.wins.head? ∧ u.ctxNum? 1 0 = some ctx1 ∧ u.lpServed 1 150 = true ∧ u.isStandby = false
      ∧ sendState.lpServed 1 150 = false ∧ ({ u with twin := { u.twin with role := .inStep } } : State).isStandby = true := by decide +kernel

/-- PARTITION_CREATE of partition 2 with engines 1 and 2, 4 GiB, 1,024 pigeonholes. -/
def createReq (flags engines : Byte) : MbxReq :=
  ask ([2, flags, engines, 4] ++ natLe 4 2 ++ natLe 1 2 ++ natLe 2 4 ++ natLe 8 2 ++ natLe 16 2 ++ natLe 1 8 ++ natLe 2 2 ++ natLe 2 2
    ++ List.replicate 4 0)

theorem test_partition_create : let r := createReq 1 6
    runsAlone svc 0x0100 r = true ∧ r.form 32 [(28, 4)] = true ∧ r.arg 8 4 = 2 ∧ r.arg 16 8 = 1 ∧ svc.sec.lifecycle = 3 ∧ svc.units = []
      ∧ findRoom 120 4 (svc.comps.map fun q => (q.regionBase, q.regionGib)) = some 0
      ∧ findRoom 60 1 (svc.comps.map fun q => (q.pghBase / 1024 - 4, q.pghCount / 1024)) = some 0
      ∧ (after (exec (.partitionCreate 0 r) svc)).part[(2 : PartId)].engines = 6
      ∧ answerOf (exec (.partitionCreate 0 (createReq 0 1)) parted) = some (stBusy, [])
      ∧ answerOf (exec (.partitionCreate 0 r) { svc with sec := { svc.sec with lifecycle := 1 } }) = some (stDenied, [])
      ∧ answerOf (exec (.partitionCreate 0 r) { svc with units := [{ unit := 0x50, fenced := true }] }) = some (stFenced, []) := by decide +kernel
theorem test_partition_dissolve : runsAlone parted 0x0101 (ask [1, 0, 0, 0]) = true
    ∧ (after (exec (.partitionDissolve 0 (ask [1, 0, 0, 0])) parted)).part[(1 : PartId)].dissolving.isSome = true := by decide +kernel
theorem test_key_destroy : let u := parted.updPart 1 fun p => { p with xtsKey := some 3, region := [⟨5, 1⟩], dissolving := some ⟨0, 3, false⟩ }
    parted.part[(1 : PartId)].dissolving = none ∧ (after (exec (.keyDestroy 0 1) u)).part[(1 : PartId)].region = [] := by decide +kernel
theorem test_engine_zeroing : let u := { parted.updEng 3 (fun g => { g with leaving := some 10, store := [⟨0, 1⟩] }) with now := 8202 }
    u.queueOf 3 = [] ∧ (∀ a ∈ u.env.applies, a.engine ≠ 3) ∧ max 10 u.eng[(3 : EngId)].busyUntil + 8192 ≤ 8202
      ∧ (after (exec (.engineZeroingDone 8202 3) u)).eng[(3 : EngId)].store = []
      ∧ (after (exec (.engineZeroingDone 8201 3) { u with now := 8201 })).eng[(3 : EngId)].leaving = some 10 := by decide +kernel

/-- The arguments of KEY_INSTALL with eight header bytes, a ciphertext and a wrapped key of zeros, and a tag. -/
def wrapArgs (h tag : List Byte) : List Byte := h ++ (List.replicate 1088 0 ++ (List.replicate 32 0 ++ tag))

/-- The tag with which they open. -/
def wrapTag (q : Partition) (h : List Byte) : List Byte :=
  gcmTagOf (roundKeys ((shake256 ((List.range 32).map (Config.decapsByte (q.kemKey.getD 0) (List.replicate 1088 0)) ++
    [0x58, 0x42, 0x36, 0x2D, 0x4B, 0x45, 0x59] ++ h.take 6)).take 32)) (List.replicate 12 0) [] (List.replicate 32 0)

/-- A wrapped key opens exactly under that tag, whatever the decapsulation gives. -/
theorem unwrapKey_wrapArgs (q : Partition) (h tag : List Byte) (hh : h.length = 8) (ht : tag.length = 16) :
    (q.unwrapKey (padTo 1144 (wrapArgs h tag))).isSome = true ↔ wrapTag q h = tag := by
  have hp : padTo 1144 (wrapArgs h tag) = wrapArgs h tag := padTo_of_length (by
    simp only [wrapArgs, List.length_append, List.length_replicate, hh, ht])
  have h6 : (wrapArgs h tag).take 6 = h.take 6 := List.take_append_of_le_length (by omega)
  have hd : (wrapArgs h tag).drop 8 = List.replicate 1088 0 ++ (List.replicate 32 0 ++ tag) := List.drop_left' hh
  have hk : (wrapArgs h tag).drop 1096 = List.replicate 32 0 ++ tag := by
    rw [show 1096 = 8 + 1088 from rfl, ← List.drop_drop, hd]; exact List.drop_left' List.length_replicate
  have ht' : (wrapArgs h tag).drop 1128 = tag := by
    rw [show 1128 = 1096 + 32 from rfl, ← List.drop_drop, hk]; exact List.drop_left' List.length_replicate
  simp only [Partition.unwrapKey, hp, h6, hd, hk, ht', List.take_left' List.length_replicate, List.take_of_length_le ht.le, gcmOpen_eq,
    wrapTag]
  generalize gcmTagOf _ _ _ _ = x
  split
  · exact ⟨fun _ => ‹_›, fun _ => rfl⟩
  · exact ⟨fun h => absurd h (by decide), fun h => absurd h ‹_›⟩

/-- KEY_INSTALL of a host key of partition 1 under epoch 3. -/
def keyReq (tag : List Byte) : MbxReq := ask (wrapArgs [1, 2, 0, 0, 3, 0, 0, 0] tag)

theorem test_key_install_premises : let r := keyReq (List.replicate 16 0)
    runsAlone parted 0x0103 r = true ∧ r.arg 1 1 = 2 ∧ r.form 1144 [(7, 1)] = true ∧ r.arg 2 2 = 0 ∧ r.arg 6 1 = 0 ∧ r.arg 4 2 = 3
      ∧ (parted.part[(1 : PartId)].host.installed.map Prod.fst).foldl max parted.part[(1 : PartId)].host.retired = 0
      ∧ parted.part[(1 : PartId)].dissolving = none := by decide +kernel
theorem test_some_key_opens (q : Partition) : ∃ tag, tag.length = 16 ∧ (q.unwrapKey (padTo 1144 (keyReq tag).args)).isSome = true :=
  ⟨_, gcmTagOf_length _ _ _ _, (unwrapKey_wrapArgs q _ _ rfl (gcmTagOf_length _ _ _ _)).mpr rfl⟩
theorem test_some_key_does_not_open (q : Partition) : ∃ tag, tag.length = 16 ∧ q.unwrapKey (padTo 1144 (keyReq tag).args) = none := by
  by_cases h : wrapTag q [1, 2, 0, 0, 3, 0, 0, 0] = List.replicate 16 0
  · refine ⟨List.replicate 16 1, rfl, Option.not_isSome_iff_eq_none.mp fun hs => ?_⟩
    rw [keyReq, ask, unwrapKey_wrapArgs q _ _ rfl rfl, h] at hs
    exact absurd hs (by decide)
  · exact ⟨List.replicate 16 0, rfl, Option.not_isSome_iff_eq_none.mp fun hs => h ((unwrapKey_wrapArgs q _ _ rfl rfl).mp hs)⟩

theorem test_lifecycle_advance : let r := ask ([3, 0, 0, 0] ++ List.replicate 12 0)
    let u := { svc with sec := { svc.sec with lifecycle := 2 } }
    runsAlone u 0x0105 r = true ∧ r.form 16 [(1, 3)] = true ∧ r.arg 0 1 = 3 ∧ r.arg 4 4 = 0
      ∧ (after (exec (.lifecycleAdvance 0 r) u)).sec.lifecycle = 3 ∧ answerOf (exec (.lifecycleAdvance 0 r) svc) = some (stBadArg, []) := by
  decide +kernel

/-- ATTEST of partition 1 with a response address in the system partition's bulk area. -/
def attestReq : MbxReq := { ask (List.replicate 32 9 ++ [1] ++ List.replicate 7 0) with respAddr := 0x10010000 }

theorem test_attest_premises : let u := { parted with sec := { parted.sec with reservedTo := 4 } }
    runsAlone u 0x0104 attestReq = true ∧ attestReq.form 40 [(33, 7)] = true ∧ u.partOf (attestReq.arg 32 1) = some 1 ∧ u.sec.exhausted = false
      ∧ u.sec.seedHeld = true ∧ u.sec.xmssNext.toNat < u.sec.reservedTo
      ∧ answerOf (exec (.attest 0 attestReq) { u with sec := { u.sec with exhausted := true } }) = some (stXmssExhausted, []) := by decide +kernel

/-- A partition whose owner holds the key of zeros, in epoch 1. -/
def ownedPart : Partition := { pt with confidential := true, owner := some { epoch := 1, key := List.replicate 32 0 } }

/-- OWNER_CMD of an ECHO of two bytes as sequence number 7, with a tag. -/
def ownerReq (tag : List Byte) : MbxReq := ask ([1, 0, 1, 0, 2, 0, 1, 0] ++ natLe 7 8 ++ [0xAB, 0xCD] ++ tag)

/-- The tag with which its owner sends it. -/
def ownerTag : List Byte :=
  gcmTagOf (roundKeys (List.replicate 32 0)) ([0, 1, 0, 0] ++ natLe 7 8) ([1, 0, 1, 0, 2, 0, 1, 0] ++ natLe 7 8 ++ [0xAB, 0xCD]) []

theorem test_owner_cmd_premises : let u := svc.updPart 1 fun _ => ownedPart
    runsAlone u 0x0106 (ownerReq (List.replicate 16 0)) = true ∧ (ownerReq (List.replicate 16 0)).form 34 [(1, 1)] = true
      ∧ (ownerReq (List.replicate 16 0)).arg 2 2 = 0x0001 ∧ (ownerReq (List.replicate 16 0)).arg 6 2 = 1
      ∧ u.preCheck (some 1) 0x0001 (ask [0xAB, 0xCD]) true false = none := by decide +kernel
theorem test_owner_tag_opens : gcmOpen (List.replicate 32 0) ([0, 1, 0, 0] ++ natLe 7 8) ([1, 0, 1, 0, 2, 0, 1, 0] ++ natLe 7 8 ++ [0xAB, 0xCD]) [] ownerTag ≠ none := by
  rw [ownerTag, gcmOpen_own]; exact Option.some_ne_none _
theorem test_counters_read : runsAlone parted 0x0107 { ask [1, 0, 0, 0] with respAddr := 0x10010000 } = true ∧ parted.compOf 1 = some 1
    ∧ (engines.filter fun e => parted.owns 1 e) = [0] := by decide +kernel

/-! Contexts, windows, plans and envelopes (chapters 10 and 11). -/

/-- A plan whose port 2 has MODE 1, with its bytes' checksum. -/
def planBytes : List Byte :=
  let b := [0x50, 0x4C, 0x41, 0x4E] ++ natLe 1 2 ++ natLe 0x25 2 ++ natLe 0xFFFF 2 ++ natLe 236 2 ++ natLe 0 4 ++ List.replicate 48 0 ++ [1, 4]
    ++ List.replicate 166 0
  b ++ natLe (crc32c b) 4

/-- Partition 1 with that plan in use. -/
def planned : State := { parted with fab := { parted.fab with plan := parsePlan planBytes } }

/-- PARTNER_OPEN of partition 1 at a port: keyed, 16 blocks. -/
def openReq (port : Byte) : MbxReq :=
  ask ([1, port, 0, 0] ++ natLe 0x202 2 ++ natLe 16 2 ++ natLe 10 2 ++ natLe 1 2 ++ natLe 4096 4 ++ natLe 64 4 ++ natLe 0 4 ++ List.replicate 8 0)

theorem test_plan_is_valid : (parsePlan planBytes).isSome = true ∧ parsePlan (planBytes.take 200) = none := by decide +kernel
theorem test_partner_open_premises : runsAlone planned 0x0200 (openReq 2) = true ∧ (openReq 2).form 32 [(24, 8)] = true
    ∧ (planned.planPort 2).mode = 1 ∧ (planned.planPort 3).mode = 0 ∧ planned.fab.ports[portLink 2].serves = none
    ∧ planned.twin.twinPaired = false ∧ (planned.fab.ctxs.filter fun c => c.part = 1).length < planned.part[(1 : PartId)].ctxMax
    ∧ planned.ctx? 0 = none ∧ planned.ctxNum? 1 0 = none ∧ (openReq 2).arg 6 2 = 16 ∧ (openReq 2).arg 12 4 = 4096 := by decide +kernel
theorem test_partner_open : (after (exec (.partnerOpen 0 (openReq 2)) planned)).fab.ctxs.map (fun c => (c.link, c.creditBlocks)) = [(0, 16)]
    ∧ answerOf (exec (.partnerOpen 0 (openReq 3)) planned) = some (stBadArg, [])
    ∧ answerOf (exec (.partnerOpen 0 (openReq 2)) (planned.updPort 2 fun p => { p with serves := some 2 })) = some (stBusy, []) := by
  decide +kernel

/-- A context that is not clear, and the module with it and one window on it. -/
def ctx2 : Ctx := { ctx1 with clear := false }

/-- Partition 1 with that context and a PGH window, number 0. -/
def withCtx : State := { parted with fab := { parted.fab with
  ctxs := [ctx2], nextCtx := 2
  wins := [{ num := 0, part := 1, ctx := 0, kind := .pgh, rights := 0, logical := 0, base := 0, length := 8 }] } }

theorem test_partner_close : let r := ask [1, 0, 0, 0]
    runsAlone withCtx 0x0201 r = true ∧ r.form 4 [(1, 1)] = true ∧ withCtx.ctxNum? 1 0 = some ctx2 ∧ Cert.noFence withCtx 3
      ∧ (after (exec (.partnerClose 0 r) withCtx)).host.resets.map (fun x => (x.func, x.isClose)) = [(.context 1 0, true)] := by
  unfold Cert.noFence; decide +kernel

/-- WINDOW_GRANT on context 0 of partition 1: a removal of window `n`, or a grant of a kind. -/
def grantReq (remove n kind rights : Byte) (base len : Nat) : MbxReq :=
  ask ([1, remove, 0, 0, kind, rights, n, 0, 0, 0, 0, 0, 0, 0, 0, 0] ++ natLe base 8 ++ natLe len 8)

theorem test_window_grant : let r := grantReq 0 0 1 3 512 1024
    runsAlone withCtx 0x0202 r = true ∧ r.form 32 [(9, 7)] = true ∧ winKindOf (r.arg 4 1) = some .lpddr
      ∧ r.arg 16 8 + r.arg 24 8 ≤ regionBytes withCtx.part[(1 : PartId)] ∧ withCtx.env.opens = []
      ∧ (after (exec (.windowGrant 0 r) withCtx)).fab.wins.map Win.num = [0, 1]
      ∧ answerOf (exec (.windowGrant 0 (grantReq 1 0 2 0 0 0)) withCtx) = some (stOk, [0, 0])
      ∧ answerOf (exec (.windowGrant 0 (grantReq 1 5 2 0 0 0)) withCtx) = some (stBadArg, [])
      ∧ answerOf (exec (.windowGrant 0 r) (withCtx.updPart 1 fun p => { p with winMax := 1 })) = some (stBusy, []) := by decide +kernel
theorem test_window_ranges : let r := grantReq 0 0
    64 * (r 0 3 1 64).arg 16 8 + (r 0 3 1 64).arg 24 8 ≤ 25165824 ∧ (r 2 0 8 16).arg 16 8 + (r 2 0 8 16).arg 24 8 ≤ withCtx.part[(1 : PartId)].pghCount
      ∧ ctx2.remoteLink ≠ 0xFFFF ∧ ctx2.clear = false := by decide +kernel
theorem test_a_removal_waits_for_its_operations :
    let h : HeldPkt := { port := 2, op := 1, pkt := { window := 0 }, space := .lpddr, addr := 0 }
    let u := withCtx.updCtx 0x0101 fun c => { c with held := [h] }
    runsAlone u 0x0202 (grantReq 1 0 2 0 0 0) = true ∧ answerOf (exec (.windowGrant 0 (grantReq 1 0 2 0 0 0)) u) = none
      ∧ (after (exec (.windowGrant 0 (grantReq 1 0 2 0 0 0)) u)).fab.wins = [] := by decide +kernel

/-- PLAN_LOAD from the start of the system partition's bulk area, which holds the plan. -/
def loadsPlan : State := parted.updPart 0 fun _ =>
  { isThere := true, regionGib := 1, region := memWrite [] (bulkBase { regionGib := 1 } 0) planBytes }

theorem test_plan_load_premises : let r := ask (natLe 0x10010000 8 ++ natLe 236 4)
    runsAlone loadsPlan 0x0203 r = true ∧ r.argBytes = 12 ∧ bulkAt (r.arg 0 8) (r.arg 8 4) = some (0, 0)
      ∧ (loadsPlan.bulkRead 0 0 236).2 = planBytes
      ∧ answerOf (exec (.planLoad 0 (ask (natLe 0x10010000 8 ++ natLe 235 4))) loadsPlan) = some (stBadArg, []) := by decide +kernel

/-- An envelope of partition 1 under handle 3. -/
def envOf (st : EnvState) (a : Option EnvAsker) : Envelope :=
  { part := 1, handle := 3, opener := none, expiry := 100, state := st, asker := a }

/-- Partition 1 with that envelope open, and with outcomes kept. -/
def withEnv (v : List Envelope) (o : List EnvOutcome) : State := { parted with env := { parted.env with opens := v, outcomes := o } }

/-- A kept outcome of handle 3. -/
def outcome3 (c : Bool) : EnvOutcome := { part := 1, handle := 3, opener := none, committed := c, casMisses := 2, staged := 4, postmark := 9 }

theorem test_env_open : let r := ask [1, 0, 0, 0, 0, 0, 0, 0]
    runsAlone parted 0x0300 r = true ∧ r.form 8 [(1, 3)] = true ∧ parted.partOf (r.arg 0 1) = some 1
      ∧ (after (exec (.envOpen 0 r) parted)).env.opens.map Envelope.expiry = [90000000]
      ∧ answerOf (exec (.envOpen 0 r) (withEnv (List.replicate 16 (envOf .opened none)) [])) = some (stEnvLimit, []) := by decide +kernel

/-- PARTITION_LAYOUT of partition 1 to engines 0 and 1, in envelope 3. -/
def layoutReq (engines : Byte) : MbxReq := { ask [1, engines, 0, 0, 0, 0, 0, 0] with env := 3 }

theorem test_partition_layout : let u := withEnv [envOf .opened none] []
    runsAlone u 0x0102 (layoutReq 3) = true ∧ u.env? 1 3 = some (envOf .opened none) ∧ u.actShadow 1 ≤ 256 ∧ u.lpddrShadow 1 ≤ 16384
      ∧ (changeLayout (Cert.accepted u 0x0102 (layoutReq 3) false) (layoutReq 3) [] none).toOption.isSome = true
      ∧ errorOf (changeLayout (Cert.accepted u 0x0102 (layoutReq 0) false) (layoutReq 0) [] none) = some stBadArg
      ∧ answerOf (exec (.partitionLayout 0 { layoutReq 3 with env := 0xFFFF }) u) = some (stBadArg, [])
      ∧ (after (exec (.partitionLayout 0 (layoutReq 0)) u)).env.opens.map Envelope.state = [.doomed] := by decide +kernel
theorem test_env_commit : let r := ask [1, 0, 3, 0]
    let u := withEnv [envOf .opened none] []
    runsAlone u 0x0301 r = true ∧ r.form 4 [(1, 1)] = true ∧ u.hasStandby = false
      ∧ (after (exec (.envCommit 0 r) u)).env.opens.map Envelope.state = [.settling]
      ∧ answerOf (exec (.envCommit 0 r) (withEnv [envOf .settling (some (.mailbox 9))] [])) = some (stBusy, [])
      ∧ answerOf (exec (.envCommit 0 r) (withEnv [] [outcome3 true])) = some (stEnvAlreadyCommitted, [])
      ∧ answerOf (exec (.envCommit 0 r) (withEnv [] [outcome3 false])) = some (stEnvAborted, [])
      ∧ answerOf (exec (.envCommit 0 r) parted) = some (stBadArg, []) := by decide +kernel
theorem test_env_abort : let r := ask [1, 0, 3, 0]
    runsAlone (withEnv [envOf .opened none] []) 0x0302 r = true
      ∧ (after (exec (.envAbort 0 r) (withEnv [envOf .opened none] []))).env.outcomes.map EnvOutcome.reason = [1]
      ∧ ((after (exec (.envAbort 0 r) (withEnv [envOf .settling (some (.mailbox 9))] []))).env.opens.map fun v => v.closing.map EnvClosing.reason) =
        [some 1] := by decide +kernel
theorem test_env_status : let r := ask [1, 0, 3, 0]
    runsAlone parted 0x0303 r = true ∧ answerOf (exec (.envStatus 0 r) (withEnv [envOf .opened none] [])) = some (stOk, [1, 0, 0, 0] ++ natLe 0 8)
      ∧ answerOf (exec (.envStatus 0 r) (withEnv [] [outcome3 true])) = some (stOk, [4, 2, 4, 0] ++ natLe 9 8)
      ∧ answerOf (exec (.envStatus 0 r) parted) = some (stOk, natLe 0 12) := by decide +kernel
theorem test_env_commit_cycle : let v := envOf .settling (some (.mailbox 9))
    let u := withEnv [v] []
    u.env? 1 3 = some v ∧ u.isStandby = false ∧ (∀ c ∈ u.fab.ctxs, c.held = []) ∧ (∀ a ∈ u.env.applies, a.group ≠ u.env.nextApply)
      ∧ (after (exec (.envCommitCycle 7 1 3) u)).env.outcomes.map (fun o => (o.committed, o.postmark)) = [(true, 7)]
      ∧ (after (exec (.envCommitCycle 7 1 3) (withEnv [envOf .doomed (some (.mailbox 9))] []))).env.outcomes.map EnvOutcome.reason = [2]
      ∧ (after (exec (.envLifetimeExpiry 100 1 3) (withEnv [envOf .opened none] []))).env.outcomes.map EnvOutcome.reason = [3]
      ∧ (after (exec (.envLifetimeExpiry 99 1 3) (withEnv [envOf .opened none] []))).env.opens = [envOf .opened none] := by decide +kernel

/-- An apply of two bytes on engine 0. -/
def apply0 (jobs : List Nat) : EnvApply :=
  { id := 0, group := 5, part := 1, handle := 3, engine := 0, cells := [⟨2, 7⟩, ⟨64, 0⟩], atomics := [], waitJobs := jobs }

theorem test_env_apply : let u := { busy with env := { busy.env with applies := [apply0 []] } }
    (u.env.applies.find? fun x => x.engine = 0) = some (apply0 []) ∧ memWf u.eng[(0 : EngId)].act = true ∧ u.scheds = [] ∧ u.fab.ctxs = []
      ∧ ((apply0 []).cells.Pairwise fun c d => c.1 < d.1) ∧ job ∈ u.jobs ∧ (0 : EngId) ∈ job.counting
      ∧ memGet (after (exec (.envApply 100 0 {}) u)).eng[(0 : EngId)].act 2 = 7
      ∧ (after (exec (.envApply 100 0 {}) { busy with env := { busy.env with applies := [apply0 [7]] } })).env.applies = [apply0 [7]] := by
  decide +kernel
theorem test_env_copy_back : let u := parted.updPart 1 fun p => { p with shadow := [(0, [⟨5, 9⟩])] }
    (u.lpServed 1 100 = false ∧ u.frameTime % 1024 < 100) ∧ ({ u with now := 100 } : State).frameTime % 1024 = 100
      ∧ (after (exec (.envCopyBack 100 1) u)).part[(1 : PartId)].region = [⟨5, 9⟩]
      ∧ (after (exec (.envCopyBack 99 1) u)).part[(1 : PartId)].region = [] := by decide +kernel

/-! Schedules and the KV cache (chapters 05 and 07). -/

/-- An image whose only bundle ends the job, with its W. -/
def endImage : List Byte :=
  natLe 96 4 ++ [0, 0] ++ natLe 1 2 ++ List.replicate 20 0 ++ natLe 1 4 ++ List.replicate 32 0 ++ natLe (3 * 2 ^ 240) 32

/-- The package of its one variant; the digest has been computed apart from the model. -/
def endPackage : List Byte :=
  let rest := [1, 0, 0, 0] ++ natLe 1 4 ++ natLe 128 4 ++ natLe 96 4 ++ List.replicate 48 0 ++ endImage
  let digest := [0xB5, 0xC2, 0x96, 0xAA, 0xEA, 0xCD, 0xAC, 0x5D, 0x65, 0x22, 0x2F, 0x61, 0xAB, 0xBD, 0xA3, 0xCF,
    0xF9, 0x5D, 0xB6, 0xD1, 0x27, 0x81, 0x34, 0x2D, 0x38, 0x8A, 0xD8, 0xD0, 0x07, 0x13, 0xDE, 0xD1]
  natLe 0x53504B36 4 ++ natLe 1 2 ++ [1, 0] ++ List.replicate 8 0 ++ natLe 224 4 ++ List.replicate 12 0 ++ digest ++ rest

/-- Partition 1, with the package in the system partition's bulk area. -/
def armable : State := parted.updPart 0 fun _ =>
  { isThere := true, regionGib := 1, region := memWrite [] (bulkBase { regionGib := 1 } 0) endPackage }

/-- SCHEDULE_ARM of it for class 2 on pigeonhole 6. -/
def armReq : MbxReq := ask ([1, 2, 0, 0] ++ natLe 6 2 ++ natLe 0 2 ++ natLe 1000 4 ++ natLe 224 4 ++ natLe 0x10010000 8)

/-- The schedule that it asks for, without images. -/
def askedSched : Schedule := { handle := 1, part := 1, cls := 2, trigger := 6, budget := 1000, engines := 0, w := 0, images := [] }

theorem test_schedule_arm_premises : runsAlone armable 0x0400 armReq = true ∧ armReq.form 24 [(3, 1)] = true ∧ armReq.arg 2 1 = 0 ∧ armReq.arg 6 2 = 0
    ∧ armReq.arg 4 2 < armable.part[(1 : PartId)].pghCount ∧ armable.classBad 1 2 = false ∧ armable.trigger? 1 6 = none ∧ armable.sched? 1 = none
    ∧ (armable.bulkRead 0 0 224).2 = endPackage ∧ armable.env.opens = [] := by decide +kernel
theorem test_schedule_arms : ((armable.armed askedSched endPackage).map fun c =>
      (c.engines, c.w, selfOk c, hasPreload c, fitsWith [] [] c)) = some (1, 1, true, false, true)
    ∧ armable.armed askedSched (endPackage.take 200) = none := by decide +kernel
theorem test_arm_of_a_taken_trigger : let u := { armable with scheds := [{ boundSched with trigger := 6 }] }
    (u.trigger? 1 6).isSome = true ∧ answerOf (exec (.scheduleArm 0 armReq) u) = some (stBusy, [])
      ∧ (armable.updEng 0 fun g => { g with dlClass := g.dlClass.set 2 5 }).classBad 1 2 = true := by decide +kernel
theorem test_schedule_disarm : let r := ask [1, 0, 0, 0]
    let u := { parted with scheds := [boundSched] }
    runsAlone u 0x0401 r = true ∧ r.form 4 [(1, 1)] = true
      ∧ (after (exec (.scheduleDisarm 0 r) u)).scheds.map Schedule.disarming = [true] ∧ answerOf (exec (.scheduleDisarm 0 r) u) = some (stOk, [])
      ∧ answerOf (exec (.scheduleDisarm 0 r) { u with jobs := [job] }) = none
      ∧ answerOf (exec (.scheduleDisarm 0 r) parted) = some (stBadArg, []) := by decide +kernel

/-- An image that reads and extends the one page of each layer: WAIT, KVT and KVA of its two tiles, END. -/
def kvImage : Image :=
  { shapes := [⟨9, 64, 64⟩, ⟨9, 64, 32⟩], pghs := [(9, 100)]
    bundles := [1 * 2 ^ 216 + 1 * 2 ^ 229, 2 * 2 ^ 26, 3 * 2 ^ 26, 2 * 2 ^ 26 + 2 ^ 29 + 2 ^ 42 + 2 ^ 43 + 2 ^ 49, 3 * 2 ^ 26 + 2 ^ 42, 3 * 2 ^ 240] }

/-- Partition 1 with a pool and a schedule of that image. -/
def bindable : State := { parted with
  scheds := [{ boundSched with handle := 1, images := [kvImage], binds := [] }]
  part := parted.part.set 1 { pt with kv := { valid := true, fmt := 9, layers := 4, d := 32, sequences := 8, tableEntries := 64, sigma := [127] } } }

/-- KV_BIND of logical engine 0 to layer 2 with a window of one page. -/
def bindArgs (ready : Nat) : MbxReq := ask (natLe 1 2 ++ [0, 1, 1, 0, 0, 1] ++ natLe ready 2 ++ List.replicate 6 0 ++ [2])

theorem test_kv_bind : runsAlone bindable 0x0501 (bindArgs 9) = true ∧ (bindArgs 9).form 17 [(10, 6)] = true ∧ usesKv kvImage = true ∧ usesKv img = false
    ∧ ((after (exec (.kvBind 0 (bindArgs 9)) bindable)).scheds.map fun c => c.binds.map KvBind.layers) = [[[2]]]
    ∧ answerOf (exec (.kvBind 0 (bindArgs 10)) bindable) = some (stBadArg, []) := by decide +kernel

/-- KV_POOL_CONFIG of partition 1: format 9, 4 layers, dimension 32, 8 sequences. -/
def poolReq : MbxReq :=
  ask ([1, 9, 4, 0] ++ natLe 32 2 ++ natLe 8 2 ++ natLe 64 4 ++ natLe 0 4 ++ natLe 0 4 ++ List.replicate 12 0 ++ [127] ++ List.replicate 15 0)

theorem test_kv_pool_config_premises : let u := parted.updPart 1 fun p => { p with kvSteps := 1 }
    runsAlone u 0x0500 poolReq = true ∧ poolReq.form 48 [(20, 12)] = true ∧ 0 < pageCount 1 (pageRows 9 32) ∧ poolReq.arg 4 2 = 32
      ∧ (∀ q ∈ u.part[(1 : PartId)].kv.seqs, q.state = 0) ∧ u.owns 1 1 = false ∧ memWf u.eng[(0 : EngId)].store = true
      ∧ (let w := u.updPart 1 fun p => { p with kv := { seqs := [{ num := 4, state := 1 }] } }
         runsAlone w 0x0500 poolReq = true ∧ answerOf (exec (.kvPoolConfig 0 poolReq) w) = some (stBusy, [])) := by decide +kernel

/-- A pool with sequence 4 open at 70 vectors of layer 2, and perhaps an envelope that has staged an edit of it. -/
def seqState (v : List Envelope) : State := { bindable with
  scheds := [{ boundSched with handle := 1 }]
  env := { bindable.env with opens := v }
  part := bindable.part.set 1 { pt with kv := { valid := true, fmt := 9, layers := 4, d := 32, sequences := 8, tableEntries := 64, sigma := [127]
                                                seqs := [{ num := 4, state := 1, handle := 1, length := 70, lists := [(2, [.resident 0 0, .spilled 0 1])] }] } } }

theorem test_sequences : let r := fun (n : Byte) (a : Nat) => ask ([1, 0, n, 0] ++ natLe a 4)
    runsAlone (seqState []) 0x0502 (r 5 1) = true ∧ runsAlone (seqState []) 0x0503 (r 4 64) = true ∧ runsAlone (seqState []) 0x0504 (r 4 0) = true
      ∧ ((after (exec (.kvSeqOpen 0 (r 5 1)) (seqState []))).part[(1 : PartId)].kv.seq 5).state = 1
      ∧ answerOf (exec (.kvSeqOpen 0 (r 4 1)) (seqState [])) = some (stBusy, [])
      ∧ ((after (exec (.kvSeqTruncate 0 (r 4 64)) (seqState []))).part[(1 : PartId)].kv.seq 4).lists = [(2, [.resident 0 0])]
      ∧ answerOf (exec (.kvSeqTruncate 0 (r 4 71)) (seqState [])) = some (stBadArg, [])
      ∧ ((after (exec (.kvSeqFree 0 (r 4 0)) (seqState []))).part[(1 : PartId)].kv.seq 4).state = 0
      ∧ answerOf (exec (.kvSeqFree 0 (r 5 0)) (seqState [])) = some (stBadArg, []) := by decide +kernel
theorem test_staged_edit_conflicts : let r := ask ([1, 0, 4, 0] ++ natLe 0 4)
    let u := seqState [{ envOf .opened none with items := [.cmd 0x0504 r 0 []] }]
    u.seqStaged 1 4 = true ∧ runsAlone u 0x0504 r = true ∧ answerOf (exec (.kvSeqFree 0 r) u) = some (stEnvConflict, []) := by decide +kernel
theorem test_kv_seq_query : let r := ask ([1, 0, 4, 0] ++ natLe 0 4)
    runsAlone (seqState []) 0x0505 r = true ∧ answerOf (exec (.kvSeqQuery 0 r) (seqState [])) =
      some (stOk, [1, 0, 1, 0] ++ natLe 70 4 ++ natLe 1 4 ++ natLe 1 4 ++ natLe 0 4) := by decide +kernel

/-! Video (chapter 14). -/

/-- Partition 1 with video slot 2. -/
def vidPart : Partition := { pt with vidSlots := 4 }

/-- Partition 1 with that slot, and open streams. -/
def vidState (l : List Stream) : State :=
  { parted with part := parted.part.set 1 vidPart, vid := { parted.vid with streams := l } }

/-- VIDEO_DEC_OPEN of a 64 x 48 stream with tensors of two slots of 256 lines, on unit 0. -/
def decReq : MbxReq :=
  ask ([1, 0, 0, 1] ++ natLe 64 2 ++ natLe 48 2 ++ natLe 16 4 ++ natLe 65536 4 ++ [4, 0] ++ natLe 1 2 ++ [0xFF, 0xFF, 0xFF, 0xFF, 0, 0, 0, 1, 0, 2]
    ++ natLe 2 2 ++ natLe 0 4 ++ natLe 256 4 ++ natLe 4 2 ++ natLe 0 2 ++ natLe 3 2 ++ natLe 0 2)

/-- VIDEO_ENC_OPEN of a 64 x 64 stream at one picture a second. -/
def encReq : MbxReq :=
  ask ([1, 0, 0, 30] ++ natLe 64 2 ++ natLe 64 2 ++ natLe 1 2 ++ natLe 1 2 ++ natLe 0 4 ++ natLe 20000 4 ++ natLe 100 4 ++ natLe 10 2 ++ [10, 40]
    ++ natLe 512 4 ++ natLe 65536 4 ++ natLe 1 2 ++ natLe 2 2 ++ natLe 3 2 ++ List.replicate 6 0)

theorem test_video_dec_open : let u := vidState []
    let v : Stream := { num := 0, unit := 0, part := 1, args := decReq.args, freeBands := decReq.arg 29 1 }
    runsAlone u 0x0600 decReq = true ∧ decReq.form 48 [(46, 2)] = true ∧ decRanges decReq = true ∧ u.decPghs 1 decReq = true ∧ decRing decReq = true
      ∧ v.base + v.frameAt 4 ≤ regionBytes u.part[(1 : PartId)] ∧ u.unitFenced 96 = false ∧ u.lpFenced v.base 64 = false
      ∧ (after (exec (.videoDecOpen 0 decReq) u)).vid.streams = [v]
      ∧ answerOf (exec (.videoDecOpen 0 decReq) parted) = some (stBusy, []) := by decide +kernel
theorem test_video_enc_open : let u := vidState []
    let v : Stream := { num := 0, unit := 2, part := 1, args := encReq.args, encoding := true }
    runsAlone u 0x0601 encReq = true ∧ encReq.form 48 [(42, 6)] = true ∧ encRanges encReq = true ∧ u.encFits 1 [v] = true ∧ u.ownPgh 1 3 = true
      ∧ u.unitFenced 98 = false ∧ (after (exec (.videoEncOpen 0 encReq) u)).vid.streams = [v]
      ∧ answerOf (exec (.videoEncOpen 0 encReq) parted) = some (stBusy, []) := by decide +kernel

/-- Stream 0, of those arguments. -/
def stream0 : Stream := { num := 0, unit := 0, part := 1, args := decReq.args, freeBands := 2 }

theorem test_video_query_and_close : let r := ask [0, 0, 0, 0]
    let u := vidState [{ stream0 with consumed := 5 }]
    runsAlone u 0x0603 r = true ∧ runsAlone u 0x0602 r = true ∧ r.form 4 [(1, 3)] = true ∧ u.stream? 0 = some { stream0 with consumed := 5 }
      ∧ ({ u with units := [{ unit := 0x50, fenced := true }] } : State).lpFenced stream0.base 64 = true
      ∧ answerOf (exec (.videoQuery 0 r) u) = some (stOk, List.replicate 64 0)
      ∧ (after (exec (.videoClose 0 r) u)).vid.streams = [] := by decide +kernel

/-- The stream at a cycle, its unit's slot as noted, at work on it or not; LPDDR5X slots as given. -/
def turn (v : Stream) (n : Nat) (at' : List (VidId × Nat)) (work : List (VidId × Nat)) (lp : List (PartId × Nat)) : State :=
  let u := vidState [v]
  { u with now := n, vid := { u.vid with slotAt := at', working := work }, fab := { u.fab with lpFree := lp } }

theorem test_video_slot_begins : let u := turn stream0 20480 [] [] []
    u.now = u.now / 10240 * 10240 ∧ hasBit u.part[(1 : PartId)].vidSlots (u.now / 10240 % 16) = true
      ∧ ((List.finRange 7).find? fun p => u.part[p].isThere && hasBit u.part[p].vidSlots (u.now / 10240 % 16)) = some 1
      ∧ (after (exec (.videoSlot 20480 0 [(0, .chunkParsed)]) u)).vid.working = [(0, 0)]
      ∧ (after (exec (.videoSlot 20480 0 []) u)).vid.slotAt = [(0, 20480)]
      ∧ hasBit (turn stream0 10240 [] [] []).part[(1 : PartId)].vidSlots 1 = false
      ∧ goes (exec (.videoSlot 20481 0 []) (turn stream0 20481 [] [] [])) (turn stream0 20481 [] [] []) = true := by decide +kernel
theorem test_seeking_stream_decodes_again : let v := { stream0 with state := 1, args := decReq.args.set 3 0 }
    let u := turn v 20700 [(0, 20480)] [(0, 0)] [(1, 20500)]
    u.vidServed v = true ∧ (turn v 20649 [(0, 20480)] [(0, 0)] [(1, 20500)]).vidServed v = false ∧ u.lpFenced v.base 64 = false
      ∧ (after (exec (.videoSlot 20700 0 [(0, .randomAccess)]) u)).vid.streams.map Stream.state = [0] := by decide +kernel

/-- The picture in progress. -/
def pic : Picture := { frame := 1, index := 6, poc := 3, width := 64, height := 48 }

/-- A band of 16 grey rows of 16 samples. -/
def band : BandSrc :=
  { ctb := 16, luma := List.replicate 16 (List.replicate 16 128), cb := List.replicate 8 (List.replicate 8 128), cr := List.replicate 8 (List.replicate 8 128) }

theorem test_band_write_premises : let v := { stream0 with current := some pic }
    let u := turn v 20700 [(0, 20480)] [(0, 0)] [(1, 20500)]
    u.vidTurn v = true ∧ bitAt (v.arg 3 1) 0 = true ∧ (u.live 1)[v.arg 24 1]? = some 0 ∧ u.resetting (.engine 0) = false ∧ u.scheds = []
      ∧ memWf u.eng[(0 : EngId)].act = true ∧ 1 ≤ v.arg 36 4 ∧ u.vidServed v = true
      ∧ (after (exec (.bandWrite 20700 0 band {}) (turn { v with freeBands := 0 } 20700 [(0, 20480)] [(0, 0)] [(1, 20500)]))).vid.streams.map
        (fun v => (v.state, v.forBand)) = [(2, true)]
      ∧ (u.updPart 1 fun p => { p with engines := 0 }).live 1 = [] := by decide +kernel

/-- An encode stream that has taken a picture. -/
def encStream : Stream := { num := 0, unit := 2, part := 1, args := encReq.args, encoding := true, consumed := 1 }

theorem test_access_unit_write : let u := turn encStream 20700 [(2, 20480)] [(2, 0)] [(1, 20500)]
    u.vidServed encStream = true ∧ encStream.written < encStream.consumed ∧ u.pwr.level.toNat < 2
      ∧ encStream.arg 16 4 ≤ 8 * encStream.arg 32 4 ∧ u.part[(1 : PartId)].shadow = [] ∧ memWf u.part[(1 : PartId)].region = true ∧ u.units = []
      ∧ (after (exec (.accessUnitWrite 20700 0 [1, 2, 3]) u)).vid.streams.map Stream.unread = [[(0, 3)]]
      ∧ (after (exec (.accessUnitWrite 20700 0 [1, 2, 3]) (turn { encStream with unread := [(0, 65536)] } 20700 [(2, 20480)] [(2, 0)]
        [(1, 20500)]))).vid.streams.map Stream.state = [2] := by decide +kernel

/-! Metrology (chapter 15). -/

/-- An instrument entry: g, e of 1, Max of 3,000, a filter and a window. -/
def instBytes (flags filter : Nat) : List Byte :=
  [BitVec.ofNat 8 flags, 0, 1, 0] ++ natLe 3000 2 ++ natLe 20 2 ++ natLe filter 2 ++ natLe 100 2 ++ [5, 3, 0, 0]

/-- A channel entry for instrument 0 on port 2, rate 100, offset 4, gain 2^30. -/
def chanBytes (keyId : List Byte) : List Byte :=
  [1, 2] ++ natLe 100 2 ++ natLe 4 4 ++ natLe (2 ^ 30) 4 ++ [0, 0, 0, 0] ++ natLe 77 8 ++ keyId

/-- A parameter set with channel 0 and instrument 0, and a CRC. -/
def params0 (keyId crc : List Byte) : List Byte :=
  natLe 0x50534D53 4 ++ [1, 0, 0, 0] ++ chanBytes keyId ++ List.replicate 480 0 ++ instBytes 3 2 ++ List.replicate 48 0 ++ crc

/-- The metrology die in STATE 1 on that set, after another change. -/
def smsState (f : Sms → Sms) : State :=
  { parted with sms := f { parted.sms with state := 1, tokens := 3, params := params0 (List.replicate 8 0) (List.replicate 4 0)
                                           chans := parted.sms.chans.set 0 { parted.sms.chans[0] with state := 1 } } }

/-- SMS_QUERY with PARAM and a source. -/
def smsAsk (i p a : Nat) : MbxReq := ask ([0, BitVec.ofNat 8 i] ++ List.replicate 6 0 ++ natLe p 8 ++ natLe a 8)

/-- Instrument 0 with values. -/
def withInst (x : SmsInst) : State := smsState fun m => { m with insts := m.insts.set 0 x }

/-- An indication of 100 e. -/
def inst100 : SmsInst := { x := some (100 * 2 ^ 32), zeroed := true, stable := true }

theorem test_instrument_functions : let u := withInst inst100
    [1, 2, 3, 4, 5].all (fun k => runsAlone u 0x0700 (smsReq k (smsAsk 0 20 0)) && (smsReq k (smsAsk 0 20 0)).form 24 [(2, 6)]) = true
      ∧ (instParam u.sms.params 0).enabled = true ∧ (instParam u.sms.params 0).n = 3000 ∧ instChans u.sms.params 0 = [0] ∧ u.sms.adjEn = false
      ∧ u.sms.overload 0 = false ∧ u.sms.underload 0 = false := by decide +kernel
theorem test_frank : let u := withInst inst100
    let o := exec (.smsFrank 0 (smsAsk 0 0 0)) u
    ((answerOf o).map fun x => (x.1, x.2.take 8, field x.2 32 4, x.2.length)) = some (stOk, [1, 0, 0, 0, 1, 0, 0xB8, 0x0B], 100, 128)
      ∧ (after o).sms.tokens = 2 ∧ (after o).sms.nextSeq = u.sms.nextSeq + 1
      ∧ answerOf (exec (.smsFrank 0 (smsAsk 0 0 0)) (smsState fun m => { m with adjEn := true })) = some (stMtrAdjusting, [])
      ∧ answerOf (exec (.smsFrank 0 (smsAsk 0 0 0)) (withInst { inst100 with zeroed := false })) = some (stMtrNotZeroed, [])
      ∧ answerOf (exec (.smsFrank 0 (smsAsk 0 0 0)) (withInst { inst100 with x := some (3010 * 2 ^ 32) })) = some (stMtrRange, [])
      ∧ answerOf (exec (.smsFrank 0 (smsAsk 0 0 0)) (withInst { inst100 with stable := false })) = some (stMtrUnstable, [])
      ∧ answerOf (exec (.smsFrank 0 (smsAsk 0 0 0)) (smsState fun m =>
        { m with chans := m.chans.set 0 { m.chans[0] with state := 2 } })) = some (stMtrFault, [])
      ∧ answerOf (exec (.smsFrank 0 (smsAsk 0 0 0)) { u with sms := { u.sms with tokens := 0 } }) = some (stMtrBusy, []) := by decide +kernel
theorem test_zero : let z := fun (x : SmsInst) =>
      let o := exec (.smsZero 0 (smsAsk 0 0 0)) (withInst x)
      ((after o).sms.insts[0].zero, (after o).sms.insts[0].initialZero, (answerOf o).map Prod.fst)
    z { inst100 with x := some (60 * 2 ^ 32) } = (60 * 2 ^ 32, 0, some stOk) ∧ z { inst100 with x := some (60 * 2 ^ 32 + 1) } = (0, 0, some stMtrRange)
      ∧ z { inst100 with zeroed := false, x := some (450 * 2 ^ 32) } = (450 * 2 ^ 32, 450 * 2 ^ 32, some stOk)
      ∧ z { inst100 with zeroed := false, x := some (-150 * 2 ^ 32 - 1) } = (0, 0, some stMtrRange)
      ∧ z { inst100 with tare := some 5 } = (0, 0, some stBusy) ∧ z { inst100 with stable := false } = (0, 0, some stMtrUnstable) := by decide +kernel
theorem test_tare : let u := withInst inst100
    (after (exec (.smsTare 0 (smsAsk 0 0 0)) u)).sms.insts[0] = { inst100 with tare := some 100 }
      ∧ answerOf (exec (.smsTare 0 (smsAsk 0 0 0)) (withInst { inst100 with x := some 2147483647 })) = some (stMtrRange, [])
      ∧ (after (exec (.smsPresetTare 0 (smsAsk 0 3000 0)) u)).sms.insts[0] = { inst100 with tare := some 3000, preset := true }
      ∧ answerOf (exec (.smsPresetTare 0 (smsAsk 0 3001 0)) u) = some (stMtrRange, [])
      ∧ (after (exec (.smsTareClear 0 (smsAsk 0 0 0)) (withInst { inst100 with tare := some 5 }))).sms.insts[0] = inst100 := by decide +kernel
theorem test_sms_reads : let u := smsState fun m => { m with records := [padTo 128 [1], padTo 128 (List.replicate 8 0 ++ [9])], lastCheckpoint := [1, 2] }
    let r := { smsAsk 0 0 0 with respAddr := 0x10010000 }
    [0, 6, 8].all (fun k => runsAlone u 0x0700 (smsReq k (smsAsk 0 9 0)) && (smsReq k (smsAsk 0 9 0)).form 24 [(1, 7)]) = true
      ∧ runsAlone u 0x0700 (smsReq 7 r) = true ∧ (smsReq 7 r).form 24 [(1, 7)] = true
      ∧ answerOf (exec (.smsRecords 0 (smsAsk 0 9 0)) u) = some (stOk, padTo 128 (List.replicate 8 0 ++ [9]))
      ∧ answerOf (exec (.smsCheckpoint 0 r) u) = some (stOk, [1, 2]) ∧ u.sms.head.length = 32
      ∧ (u.sms.block.take 4) = [9, 0, 0, 0] := by decide +kernel
theorem test_record_layout : let b := ({ (withInst inst100).sms with nextSeq := 5 }).record 3 (some 0) 17 0 []
    b.length = 128 ∧ field b 0 1 = 3 ∧ field b 8 8 = 5 ∧ field b 16 8 = 17 ∧ b.drop 96 = List.replicate 32 0 := by decide +kernel

theorem test_sms_lock : let u := smsState id
    [9, 16, 17, 18].all (fun k => runsAlone u 0x0700 (smsReq k (smsAsk 0 0 0)) && (smsReq k (smsAsk 0 0 0)).form 24 [(1, 7)]) = true
      ∧ answerOf (exec (.smsParamLoad 0 (smsAsk 0 0 0)) u) = some (stMtrLocked, []) ∧ answerOf (exec (.smStage 0 (smsAsk 0 0 0)) u) = some (stMtrLocked, [])
      ∧ answerOf (exec (.smVerify 0 (smsAsk 0 0 0)) u) = some (stMtrLocked, []) ∧ answerOf (exec (.smActivate 0 (smsAsk 0 0 0)) u) = some (stMtrLocked, []) := by
  decide +kernel

/-- The parameter set with instrument 0 alone; the CRC has been computed apart from the model. -/
def paramsNew : List Byte :=
  natLe 0x50534D53 4 ++ [1, 0, 0, 0] ++ List.replicate 512 0 ++ instBytes 3 2 ++ List.replicate 48 0 ++ natLe 0x47DC13BF 4

/-- The die under ADJ_EN, after another change, with bytes in the system partition's bulk area. -/
def adjState (bs : List Byte) (f : Sms → Sms) : State :=
  (smsState fun m => f { m with adjEn := true }).updPart 0 fun _ =>
    { isThere := true, regionGib := 1, region := memWrite [] (bulkBase { regionGib := 1 } 0) bs }

/-- A part of the set. -/
def paramsPart (k : Nat) : List Byte := ((paramsNew.take 584).drop (146 * k)).take 146

theorem crcRaw_append (p : CrcParams) (r : Nat) (a b : List Byte) : crcRaw p r (a ++ b) = crcRaw p (crcRaw p r a) b := by
  rw [crcRaw, List.foldl_append]; rfl
theorem crc_part0 : crcRaw crc32cParams 0xFFFFFFFF (paramsPart 0) = 0xfd0440aa := by decide +kernel
theorem crc_part1 : crcRaw crc32cParams 0xfd0440aa (paramsPart 1) = 0x3fb819ee := by decide +kernel
theorem crc_part2 : crcRaw crc32cParams 0x3fb819ee (paramsPart 2) = 0x3ca3b192 := by decide +kernel
theorem crc_part3 : crcRaw crc32cParams 0x3ca3b192 (paramsPart 3) = 0x237c41d := by decide +kernel
theorem test_parameter_set_passes_its_checks : paramsOk paramsNew [] = true := by
  have hs : paramsNew.take 584 = paramsPart 0 ++ (paramsPart 1 ++ (paramsPart 2 ++ paramsPart 3)) := by decide +kernel
  have hc : crc32c (paramsNew.take 584) = 0x47DC13BF := by
    rw [crc32c, hs, crcRaw_append, crc_part0, crcRaw_append, crc_part1, crcRaw_append, crc_part2, crc_part3]
    decide +kernel
  unfold paramsOk
  rw [hc]
  decide +kernel
theorem test_param_load_premises : let u := adjState paramsNew id
    runsAlone u 0x0700 (smsReq 9 (smsAsk 0 0 0x10010000)) = true ∧ bulkAt 0x10010000 588 = some (0, 0) ∧ (u.bulkRead 0 0 588).2 = paramsNew
      ∧ keysAfter 0 [] u.sms.keys = [] ∧ u.sms.tokens ≠ 0 ∧ u.sms.audit < 4095 := by decide +kernel
theorem test_sm_stage : let r := fun (crc : Nat) => smsAsk 0 (crc + 2 ^ 40) 0x10010000
    let u := adjState [7] id
    runsAlone u 0x0700 (smsReq 16 (r 0)) = true ∧ bitsOf (2 ^ 40) 56 40 = 1 ∧ bulkAt 0x10010000 1 = some (0, 0)
      ∧ (after (exec (.smStage 0 (r 0x86B737BA)) u)).sms.nor = [⟨0x60000, 7⟩]
      ∧ (after (exec (.smStage 0 (r 0x86B737BA)) u)).sms.stage.blocks = [(0, 1)]
      ∧ answerOf (exec (.smStage 0 (r 0)) u) = some (stFwBadBlock, []) := by decide +kernel

/-- An image header that accepts interface 1 of every other image. -/
def headBytes (type stepping bytes settings : Nat) : List Byte :=
  natLe 0x474D4958 4 ++ natLe type 1 ++ natLe stepping 1 ++ [0, 0] ++ natLe 9 4 ++ natLe bytes 4 ++ natLe 1 2 ++ natLe settings 2
    ++ (List.replicate 5 [1, 0, 1, 0]).flatten

/-- A module with that header at the start of each slot of the boot NOR and of both slots of the SMS NOR. -/
def imaged (f : Sms → Sms) : State :=
  let nor := [1, 2, 3, 4].foldl (fun m i => memWrite m (Machine.slotOf i).1 (headBytes i 0xA2 2884 (if i = 1 then 1 else 0))) []
  let sms := [0, 0x60000].foldl (fun m a => memWrite m a (headBytes 5 0xA2 2884 0)) []
  { adjState [] (fun m => f { m with nor := sms, stage := { blocks := [(0, 2884)] } }) with fw := { svc.fw with nor := nor } }

theorem test_sm_verify_premises : let u := imaged id
    let head := imageHead (memRead u.sms.nor 0x60000 64)
    runsAlone u 0x0700 (smsReq 17 (smsAsk 0 0 0)) = true ∧ head.bytes = 2884 ∧ headOk head 5 0xA2 0x60000 = true
      ∧ blocksOk u.sms.stage.blocks head.bytes = true ∧ u.fits head = true
      ∧ u.fits { head with iface := 2 } = false
      ∧ answerOf (exec (.smVerify 0 { smsAsk 0 0 0 with verdict := false }) u) = some (stFwBadSignature, [])
      ∧ answerOf (exec (.smVerify 0 (smsAsk 0 0 0)) (imaged fun m => { m with stage := {} })) = some (stFwBadBlock, []) := by decide +kernel
theorem test_sm_activate : let r := smsAsk 0 0 0
    let w := after (exec (.smActivate 0 r) (adjState [] fun m => { m with stage := { verified := true }, insts := m.insts.set 0 inst100 }))
    runsAlone (adjState [] id) 0x0700 (smsReq 18 r) = true ∧ w.sms.slotB = true ∧ w.sms.audit = 1 ∧ w.sms.nextSeq = 2 ∧ w.sms.tokens = 2 ∧ w.sms.stage = {}
      ∧ w.sms.insts[0].zeroed = false ∧ answerOf (exec (.smActivate 0 r) (adjState [] id)) = some (stBadArg, []) := by decide +kernel

/-- A sample frame of channel 0 up to its MAC: SEQ, flags, one sample, and its CRC. -/
def frameHead (seq flags sample : Nat) : List Byte :=
  let b := [1, 1] ++ natLe flags 2 ++ natLe seq 4 ++ natLe 77 8 ++ natLe sample 4
  b ++ natLe (frameCrc seq b) 4

/-- The frame with its MAC under a key of zeros. -/
def frameBytes (seq flags sample : Nat) : List Byte :=
  frameHead seq flags sample ++ (cmac (List.replicate 32 0) (frameHead seq flags sample)).take 8

/-- The die with a frame in the inbox of channel 0, which expects SEQ 5. -/
def frameState (b : List Byte) (st : BitVec 2) : State := smsState fun m => { m with
  state := st, keys := [(0, List.replicate 32 0)]
  chans := m.chans.set 0 { m.chans[0] with inbox := [⟨2, 50, b⟩], expected := some 5, products := [7, 8] } }

/-- The MAC of such a frame is the one that is looked for. -/
theorem frame_mac (seq flags sample : Nat) : (frameBytes seq flags sample).drop 24 =
    (cmac (List.replicate 32 0) ((frameBytes seq flags sample).take 24)).take 8 := by
  have h : (frameHead seq flags sample).length = 24 := by simp [frameHead]
  simp only [frameBytes, List.drop_left' h, List.take_left' h]

theorem test_sample_frame_premises : let u := frameState (frameBytes 6 0 9) 1
    let b := frameBytes 6 0 9
    let cp := chanParam u.sms.params 0
    (u.sms.chans[0].inbox = [⟨2, 50, b⟩]) ∧ cp.enabled = true ∧ cp.port = 2 ∧ cp.inst = 0 ∧ cp.cellId = 77
      ∧ field b 0 1 = 1 ∧ field b 1 1 = 1 ∧ field b 2 2 = 0 ∧ field b 4 4 = 6 ∧ field b 8 8 = 77
      ∧ field b 20 4 = frameCrc 6 (b.take 20) ∧ (assoc 0 u.sms.keys).getD [] = List.replicate 32 0 :=
  ⟨rfl, by decide +kernel⟩
theorem test_sample_frame_length : (frameBytes 6 0 9).length = 32 := by decide +kernel
theorem test_wrong_frame_counts_as_bad : let c := fun (u : State) =>
      ((after (exec (.sampleFrame 60 0) u)).sms.chans[0].bad, (after (exec (.sampleFrame 60 0) u)).sms.chans[0].inbox.length)
    c (frameState [1, 1] 1) = (1, 0) ∧ c (frameState [1, 1] 2) = (0, 0) ∧ c (smsState id) = (0, 0) := by decide +kernel

/-- The die at a cycle. -/
def smsAt (n : Nat) (f : Sms → Sms) : State := { smsState f with now := n }

theorem test_channel_timeout : let f := fun (m : Sms) => { m with chans := m.chans.set 0 { m.chans[0] with lastFrame := 100 } }
    let o := fun (n : Nat) => (after (exec (.channelFaultTimeout n 0) (smsAt n f))).sms
    (o 90000100).chans[0].state = 2 ∧ (o 90000100).nextSeq = (smsAt 0 f).sms.nextSeq + 1 ∧ ((o 90000100).records.map fun r => field r 0 1) = [8]
      ∧ (o 90000099).chans[0].state = 1 := by decide +kernel
theorem test_zero_tracking : let o := fun (n : Nat) (x : Int) (tare : Option Nat) =>
      (after (exec (.zeroTracking n 0) { withInst { inst100 with x := some x, tare := tare } with now := n })).sms.insts[0].zero
    o 900000000 (2 ^ 31 - 1) none = 2 ^ 31 - 1 ∧ o 900000000 (2 ^ 31) none = 0 ∧ o 899999999 5 none = 0 ∧ o 900000000 5 (some 1) = 0
      ∧ (instParam (withInst inst100).sms.params 0).tracking = true := by decide +kernel
theorem test_record_token : let o := fun (n k : Nat) => (after (exec (.recordToken n) (smsAt n fun m => { m with tokens := k }))).sms.tokens
    o 900000000 3 = 4 ∧ o 900000000 64 = 64 ∧ o 900000001 3 = 3 := by decide +kernel
theorem test_checkpoint_sign : let f := fun (n : Nat) (m : Sms) =>
      { m with epoch := 1, epochOk := true, xmssNext := 0, uncovered := n, firstUncovered := some 100, nextSeq := 300, nextCovered := 44 }
    let o := fun (n t : Nat) => (after (exec (.smsCheckpointSign t) (smsAt t (f n)))).sms
    ((o 256 200).xmssNext, (o 256 200).reservedTo, (o 256 200).uncovered, (o 256 200).nextCovered) = (1, 256, 0, 300)
      ∧ (o 255 200).xmssNext = 0 ∧ (o 1 900000100).xmssNext = 1 ∧ (o 1 900000099).xmssNext = 0
      ∧ ((o 256 200).lastCheckpoint.drop 8).take 16 = natLe 44 8 ++ natLe 299 8 := by decide +kernel
theorem test_sms_start : let o := fun (ok : Bool) (e : Nat) => (after (exec (.smsStart 5 ok) (smsAt 5 fun m => { m with state := 0, epoch := e }))).sms
    ((o true 3).state, (o true 3).epoch, (o true 3).epochOk) = (1, 4, true) ∧ (o false 3).state = 2 ∧ ((o true 4095).epoch, (o true 4095).epochOk) = (4095, false)
      ∧ (after (exec (.adjEn 5 true) (smsAt 5 id))).sms.adjEn = true
      ∧ (after (exec (.smsClockFault 5) (withInst inst100))).sms.insts[0].x = none := by decide +kernel

/-! Check-value units (chapter 16). -/

/-- Partition 1 with slots 2 and 3 of the check-value units and a text in its region. -/
def cvuState (f : CvuBlock → CvuBlock) : State :=
  let s := parted.updPart 1 fun p =>
    { p with cvuSlots := 0xC, lpSlots := 8, region := memWrite [] 512 [0x31, 0x32, 0x33, 0x34, 0x35, 0x36, 0x37, 0x38, 0x39] }
  { s with cvu := f s.cvu }

/-- CVU_SUBMIT of the CRC-32C of that text to any unit, with its result at 64 times 3. -/
def crcReq (flags : Byte) : MbxReq :=
  ask ([1, 0xFF, 32, flags, 1, 0, 6, 0] ++ natLe 0x1EDC6F41 8 ++ natLe 0xFFFFFFFF 8 ++ natLe 0xFFFFFFFF 8 ++ natLe 0 8 ++ natLe 3 4 ++ natLe 0 4
    ++ [1, 0, 0, 0] ++ natLe 9 4 ++ natLe 512 8)

/-- The job that it describes. -/
def crcJob : CvuJob :=
  { num := 0, part := 1, width := 32, refin := true, refout := true, fold := 0, poly := 0x1EDC6F41, init := 0xFFFFFFFF, xorout := 0xFFFFFFFF
    foldBase := 0, donePgh := 6, resultOff := 3, steps := [(1, 0, 9, 512)], duration := 16 + 80 + 8 }

theorem test_cvu_submit : let u := cvuState id
    runsAlone u 0x0800 (crcReq 3) = true ∧ (crcReq 3).form 64 [(5, 1), (44, 4)] = true ∧ u.cvuCount 1 = 2 ∧ crcJob.duration ≤ u.longestRun 1
      ∧ u.unitFenced 112 = false ∧ u.cvu.units[(0 : CvuId)] = {} ∧ parted.cvuCount 1 = 0
      ∧ (after (exec (.cvuSubmit 0 (crcReq 3)) u)).cvu.units[(0 : CvuId)].queue = [crcJob]
      ∧ answerOf (exec (.cvuSubmit 0 (crcReq 3)) parted) = some (stBusy, [])
      ∧ answerOf (exec (.cvuSubmit 0 (crcReq 0x13)) u) = some (stBadArg, []) := by decide +kernel
theorem test_cvu_submit_skips_a_full_unit : let full := cvuState fun c => { c with units := c.units.set 0 { queue := [crcJob, crcJob] } }
    (after (exec (.cvuSubmit 0 (crcReq 3)) full)).cvu.units[(1 : CvuId)].queue = [crcJob] := by decide +kernel
theorem test_cvu_job_too_long : let r := { crcReq 3 with args := ((crcReq 3).args.take 52) ++ natLe 16777216 4 ++ natLe 512 8 }
    (cvuState id).longestRun 1 < 24 + 79 + 16777216 / 64 ∧ runsAlone (cvuState id) 0x0800 r = true
      ∧ answerOf (exec (.cvuSubmit 0 r) (cvuState id)) = some (stBadArg, []) := by decide +kernel

theorem test_cvu_slot : let u := { cvuState (fun c => { c with digestRows := (List.range 16).map fun i => (2, i, 5) }) with now := 4 * 8192 }
    u.cvuOwner 4 = none ∧ u.cvuOwner 2 = some 1 ∧ (after (exec (.cvuSlot 32768 0) u)).cvu.digestRows = [(2, 15, 5)]
      ∧ assoc 14 (after (exec (.cvuSlot 32768 0) u)).eng[(2 : EngId)].digests.reading = some 5
      ∧ (after (exec (.cvuSlot 32769 0) u)).cvu.digestRows.length = 16 := by decide +kernel
theorem test_cvu_job_start : let u := cvuState fun c => { c with units := c.units.set 0 { queue := [crcJob] } }
    let o := fun (n : Nat) => (after (exec (.cvuJobStart n 0) { u with now := n })).cvu.units[(0 : CvuId)].running.map CvuJob.startedAt
    ({ u with now := 16384 } : State).runEnd 1 16384 = 32768 ∧ o 16384 = some 16384 ∧ o (32768 - 208) = some (32768 - 208) ∧ o (32768 - 207) = none
      ∧ o 8192 = none ∧ u.resetting (.cvu 0) = false := by decide +kernel

/-- A unit that runs the job since cycle 16384, at a cycle, with the partition's LPDDR5X slots served. -/
def cvuRunning (n : Nat) (j : CvuJob) : State :=
  let s := cvuState fun c => { c with units := c.units.set 0 { running := some { j with startedAt := 16384 } } }
  { s with now := n, fab := { s.fab with lpFree := [(1, n - 150)] } }

theorem test_cvu_stream_and_result : let u := cvuRunning 16592 crcJob
    u.lpServed 1 150 = true ∧ u.runEnd 1 16384 = 32768 ∧ (u.cvuStream crcJob crcJob.steps).1.length = 9 ∧ (u.cvuStream crcJob crcJob.steps).2 = none
      ∧ crcResult crcJob.params (cvuRaw crcJob (u.cvuStream crcJob crcJob.steps).1) = 0xE3069283 ∧ u.lpFenced 192 64 = false := by decide +kernel
theorem test_cvu_job_end : let o := fun (n : Nat) => after (exec (.cvuJobEnd n 0 {}) (cvuRunning n crcJob))
    regionRead (o 16592).part[(1 : PartId)] 192 16 = natLe 0 4 ++ [0, 0, 0, 1] ++ natLe 0xE3069283 8
      ∧ (o 16591).cvu.units[(0 : CvuId)].running.isSome = true ∧ (o 32769).cvu.units[(0 : CvuId)].running.isSome = true := by decide +kernel
theorem test_cvu_stopped_stream : let j := { crcJob with steps := [(0, 0, 9, 0)] }
    let u := (cvuRunning 16500 j).updPart 1 fun p => { p with engines := 0 }
    (u.cvuStream j j.steps).2 = some stFenced ∧ u.lpServed 1 100 = true
      ∧ regionRead (after (exec (.cvuJobEnd 16500 0 {}) u)).part[(1 : PartId)] 196 2 = natLe stFenced.toNat 2
      ∧ hasBit (after (exec (.cvuJobEnd 16500 0 {}) u)).cvu.event 3 = true := by decide +kernel
theorem test_cvu_overrun : let o := fun (n : Nat) => after (exec (.cvuOverrun n 0 0) (cvuRunning n crcJob))
    regionRead (o 32768).part[(1 : PartId)] 196 2 = natLe stCvuOverrun.toNat 2 ∧ hasBit (o 32768).cvu.event 0 = true
      ∧ (o 32767).cvu.units[(0 : CvuId)].running.isSome = true := by decide +kernel

/-! Self-test (chapter 17). -/

/-- Partition 1 with engine 2 granted for maintenance, in a state of its self-test. -/
def testState (b : BistEng) (f : Engine → Engine) : State :=
  let s := parted.updEng 2 fun g => f { g with bist := b, clkNominal := true }
  { s with bist := { s.bist with granted := 4, grantEnd := 5000, goldenValid := true } }

/-- A command to an engine. -/
def toEngine (e : Byte) (bs : List Byte) : MbxReq := ask (e :: bs)

theorem test_maint_grant : let r := fun (mask : Byte) => ask [mask, 0, 16, 14]
    runsAlone parted 0x0905 (r 6) = true ∧ (r 6).form 4 [(1, 1)] = true ∧ (r 6).arg 2 2 = 3600 ∧ (parted.keeper 1).isNone = true ∧ (parted.keeper 2).isNone = true
      ∧ (after (exec (.maintGrant 9 (r 6)) parted)).bist.grantEnd = 9 + 3600 * 900000000
      ∧ answerOf (exec (.maintGrant 0 (r 7)) parted) = some (stBusy, [])
      ∧ answerOf (exec (.maintGrant 0 (ask [6, 0, 17, 14])) parted) = some (stBadArg, []) := by decide +kernel
theorem test_bist_slice : let r := fun (k n : Byte) => toEngine 2 [k, n, if n = 0xFF then 0xFF else 0, 0, 0, 0, 0]
    let u := testState {} id
    let o := fun (q : MbxReq) => (after (exec (.bistSlice 0 q) u)).eng[(2 : EngId)].bist.onDemand
    runsAlone u 0x0901 (r 4 0xFF) = true ∧ (r 4 0xFF).form 8 [(4, 4)] = true ∧ u.engSecret 2 = false ∧ o (r 1 127) = [639]
      ∧ o (r 4 0xFF) = (List.range 103).map (810 + ·)
      ∧ answerOf (exec (.bistSlice 0 (r 1 128)) u) = some (stBadArg, [])
      ∧ answerOf (exec (.bistSlice 0 (r 1 0xFF)) parted) = some (stDenied, [])
      ∧ answerOf (exec (.bistSlice 0 (r 1 0)) (testState { demandMbx := some 1 } id)) = some (stBusy, []) := by decide +kernel
theorem test_scan_run : let r : MbxReq := { toEngine 2 [0, 0, 0, 7, 0, 0, 0] with extra := natLe 9 4 ++ natLe 0 4 }
    let u := testState {} id
    runsAlone u 0x0903 r = true ∧ r.form 8 [(1, 3)] = true ∧ (u.keeper 2).isNone = true
      ∧ ((after (exec (.scanRun 0 r) u)).bist.scans.map fun x => (x.full, x.out)) = [(true, natLe 9 4 ++ natLe 0 4 ++ natLe 0xFFFFFFFF 4)]
      ∧ answerOf (exec (.scanRun 0 { r with verdict := false }) u) = some (stFwBadSignature, [])
      ∧ answerOf (exec (.scanRun 0 r) parted) = some (stDenied, []) := by decide +kernel
theorem test_fence_lift : let r := toEngine 2 [0, 0, 0]
    let proven : BistEng := { scanSinceGrant := true, katSinceGrant := 127, passedSinceGrant := List.range 913 }
    let u := testState proven fun g => { g with fenced := true, classification := 1 }
    runsAlone u 0x0904 r = true ∧ r.form 4 [(1, 3)] = true ∧ (after (exec (.fenceLift 0 r) u)).eng[(2 : EngId)].fenced = false
      ∧ ((after (exec (.fenceLift 0 r) u)).hist.waitingF.map fun x => (x.type, x.unit)) = [(3, 2)]
      ∧ answerOf (exec (.fenceLift 0 r) (testState { proven with passedSinceGrant := List.range 912 } fun g => { g with fenced := true })) =
        some (stBistFail, []) := by decide +kernel

/-- TEST_KAT of kernels 0 and 1 on engine 0 of partition 1. -/
def katReq : MbxReq := ask ([1, 0, 3, 1] ++ natLe 1000000 4 ++ natLe 0 8)

theorem test_test_kat : let r := { katReq with aux := 0 }
    runsAlone parted 0x0900 r = true ∧ r.form 16 [] = true ∧ parted.testEngine r = some (1, 0) ∧ parted.bist.sweeping 0 = false
      ∧ ((after (exec (.testKat 0 katReq { failed := 0 }) parted)).jobs.map fun j => (j.w, j.engines)) = [(katCycles 0, [0])]
      ∧ ((after (exec (.testKat 0 katReq { failed := 0 }) parted)).bist.kats.map KatRun.todo) = [[1]]
      ∧ answerOf (exec (.testKat 0 katReq { failed := 0 }) { parted with pwr := { parted.pwr with ejectAt := some 9 } }) = some (stEjected, []) := by
  decide +kernel

/-- MARGIN_SWEEP of kernel 2 on engine 0 from a supply to a supply in steps of 5 mV, up to 95 degC. -/
def sweepReq (p e : Byte) (lo hi : Nat) : MbxReq :=
  { ask ([p, e, 4, 0] ++ natLe lo 2 ++ natLe hi 2 ++ [5, 0] ++ natLe 100 2 ++ natLe 380 2 ++ [0, 0] ++ natLe 0 8) with
    extra := (List.replicate 9 (natLe 200 2 ++ [0, 0] ++ natLe 5 4)).flatten }

theorem test_margin_sweep : let r := sweepReq 1 0 730 770
    runsAlone parted 0x0902 r = true ∧ r.form 24 [(9, 1), (14, 2)] = true ∧ parted.testEngine r = some (1, 0) ∧ parted.bist.sweeping 0 = false
      ∧ (parted.sweepAt 0 r).map Prod.fst = (List.range 9).map (730 + 5 * ·)
      ∧ ((after (exec (.marginSweep 0 r) parted)).bist.sweeps.map fun w => w.points.length) = [9]
      ∧ answerOf (exec (.marginSweep 0 (sweepReq 1 0 725 770)) parted) = some (stDenied, [])
      ∧ ((after (exec (.marginSweep 0 (sweepReq 0 2 690 730)) (testState {} id))).bist.sweeps.length) = 1 := by decide +kernel

theorem test_slice_of_an_engine_in_no_partition : let o := fun (b : BistEng) (f : Engine → Engine) => after (exec (.slice 50 2) { testState b f with now := 50 })
    (o { position := 671 } id).eng[(2 : EngId)].bist.inSlice = some { idx := 671, startAt := 50 }
      ∧ (o { position := 671 } id).free = 76 ∧ (o { position := 672 } id).free = 0 ∧ (o { position := 912 } id).eng[(2 : EngId)].bist.inSlice.isSome = true
      ∧ (o {} fun g => { g with vddE := 727 }).eng[(2 : EngId)].bist.inSlice = none
      ∧ (o { inSlice := some { idx := 3, startAt := 40 } } id).free = 0 ∧ (testState {} id).resetting (.engine 2) = false := by decide +kernel

/-- Engine 0 in service within a test window up to a cycle. -/
def windowState (until' : Nat) (f : Engine → Engine) : State :=
  let s := run (f { clkNominal := true, seq := { testUntil := until' } })
  { s with bist := { s.bist with goldenValid := true } }

theorem test_slice_of_an_engine_in_service : let o := fun (n : Nat) (f : Engine → Engine) => after (exec (.slice 100 0) (windowState n f))
    (windowState 355 id).keeper 0 = some 1 ∧ (o 355 id).eng[(0 : EngId)].bist.inSlice.isSome = true ∧ (o 611 id).eng[(0 : EngId)].bist.inSlice.isSome = true
      ∧ (o 354 id).eng[(0 : EngId)].bist.inSlice = none ∧ (o 354 id).bist.skipped = 0
      ∧ (o 355 fun g => { g with vddE := 773 }).bist.skipped = 1 := by decide +kernel
theorem test_slice_end : let x : SliceRun := { idx := 912, startAt := 50 }
    let o := fun (n : Nat) (res : SliceResult) => after (exec (.sliceEnd n 2 res) { testState { inSlice := some x, position := 912 } id with now := n })
    (o 306 .pass).eng[(2 : EngId)].bist = { position := 0, rotations := 1, passedSinceGrant := [912] }
      ∧ (o 305 .pass).eng[(2 : EngId)].bist.inSlice = some x ∧ (o 306 .discarded).eng[(2 : EngId)].bist.position = 912
      ∧ (o 306 .discarded).bist.skipped = 1 := by decide +kernel
theorem test_grant_expiry : let o := fun (n : Nat) => (after (exec (.maintGrantExpiry n) { testState {} id with now := n })).bist.granted
    o 5000 = 0 ∧ o 4999 = 4 := by decide +kernel

/-! The pair's commands, and firmware (chapters 13 and 19). -/

/-- A module wired to a twin, in a state of the pair. -/
def wired (f : Twin → Twin) : State := { svc with
  twin := f svc.twin
  fab := { svc.fab with
    plan := some { slot := 37, twinSlot := 38, ports := List.replicate 8 {} ++ [{ mode := 3 }], filters := [], bytes := [] }
    ports := svc.fab.ports.set twinLink { svc.fab.ports[twinLink] with state := .openPort } } }

/-- TWIN_PAIR as active (1) or standby (2). -/
def pairReq (role bits : Byte) : MbxReq := { ask [role, 0, 0, 0] with extra := [bits] }

theorem test_twin_pair : let u := wired id
    let o := fun (r : MbxReq) (w : State) => (after (exec (.twinPair 0 r) w)).twin
    runsAlone u 0x0A00 (pairReq 1 0) = true ∧ (pairReq 1 0).form 4 [(1, 3)] = true ∧ u.pwr.source = false ∧ u.sec.lifecycle = 3 ∧ (u.planPort 8).mode = 3
      ∧ (∀ w : WinId, u.host.win[w].bound = none) ∧ u.fab.ctxs = [] ∧ u.twin.role ≠ .gaveUp
      ∧ ((o (pairReq 1 0) u).role, (o (pairReq 1 0) u).claimOut, (o (pairReq 1 0) u).txSeq) = (.active, true, 1)
      ∧ (∀ p : PartId, p ≠ 0 → u.part[p].isThere = false) ∧ (o (pairReq 2 0) (wired fun t => { t with claimIn := true })).role = .joining := by
  decide +kernel
theorem test_twin_pair_refused : let o := fun (w : State) => answerOf (exec (.twinPair 0 (pairReq 1 0)) w)
    o svc = some (stBadArg, []) ∧ o { wired id with sec := { svc.sec with lifecycle := 1 } } = some (stDenied, [])
      ∧ o ((wired id).updWin 4 fun w => { w with bound := some 1 }) = some (stBusy, [])
      ∧ answerOf (exec (.twinPair 0 (pairReq 1 64)) (wired id)) = some (stBadArg, []) := by decide +kernel
theorem test_twin_resync : let r := ask [0, 0, 0, 0]
    let u := wired fun t => { t with role := .outOfStep, claimIn := true }
    runsAlone u 0x0A01 r = true ∧ r.form 4 [(0, 4)] = true ∧ (after (exec (.twinResync 0 r) u)).twin.role = .joining
      ∧ (after (exec (.twinResync 0 r) u)).twin.resyncMbx = some 3 ∧ runsAlone (wired fun t => { t with role := .inStep }) 0x0A01 r = true
      ∧ answerOf (exec (.twinResync 0 r) (wired fun t => { t with role := .inStep })) = some (stOk, [])
      ∧ answerOf (exec (.twinResync 0 r) (wired fun t => { t with role := .joining, resyncMbx := some 1 })) = some (stBusy, [])
      ∧ answerOf (exec (.twinResync 0 r) (wired id)) = some (stBadArg, []) := by decide +kernel
theorem test_twin_giveup : let r := ask [0, 0, 0, 0]
    let u := wired fun t => { t with role := .active, twinPaired := true, claimOut := true, peerInStep := true }
    runsAlone u 0x0A03 r = true ∧ u.hasStandby = true ∧ (after (exec (.twinGiveup 5 r) u)).twin.role = .gaveUp
      ∧ (after (exec (.twinGiveup 5 r) u)).twin.stop = { active := true, minEnd := 900005, remembered := false }
      ∧ answerOf (exec (.twinGiveup 5 r) (wired id)) = some (stNotReady, []) := by decide +kernel

/-- OWNER_CMD of a TWIN_ADMIT of module 9 as sequence number 7, without its tag. -/
def permitHead : List Byte := [1, 0, 2, 10, 16, 0, 1, 0] ++ natLe 7 8 ++ natLe 9 8 ++ natLe 0 8

/-- The command with its tag. -/
def permitReq : MbxReq := ask (permitHead ++ gcmTagOf (roundKeys (List.replicate 32 0)) ([0, 1, 0, 0] ++ natLe 7 8) permitHead [])

theorem test_twin_admit_premises : let u := svc.updPart 1 fun _ => ownedPart
    let inner := ask (natLe 9 8 ++ natLe 0 8)
    (ask (permitHead ++ List.replicate 16 0)).form 48 [(1, 1)] = true ∧ permitHead.length = 32 ∧ u.forwards = false
      ∧ u.preCheck (some 1) 0x0A02 inner true false = none ∧ runsAlone u 0x0106 (ask (permitHead ++ List.replicate 16 0)) = true
      ∧ runsAlone u 0x0A02 inner = true ∧ answerOf (exec (.twinPermit 0 inner) u) = some (stDenied, []) := by decide +kernel
theorem test_twin_admit_opens : ownerOk 1 { epoch := 1, key := List.replicate 32 0 } permitReq = true := by
  have ht := gcmTagOf_length (List.replicate 32 0) ([0, 1, 0, 0] ++ natLe 7 8) permitHead []
  have hn : permitReq.arg 4 2 = 16 := rfl
  have h8 : permitReq.arg 8 8 = 7 := rfl
  have h6 : permitReq.arg 6 2 = 1 := rfl
  have hh : permitHead.length = 32 := rfl
  rw [ownerOk, hn, h8, h6]
  simp only [permitReq, ask, List.take_left' hh, List.drop_left' hh, List.take_of_length_le ht.le, padTo_of_length ht, padTo_of_length hh]
  rw [show ([0, BitVec.ofNat 8 (1 : PartId).val, 0, 0] : List Byte) = [0, 1, 0, 0] from rfl, gcmOpen_own]
  rfl

/-- A module with one byte in the system partition's bulk area and a staged image, after another change. -/
def fwState (f : Firmware → Firmware) : State :=
  let s := imaged id
  { s with fw := f { s.fw with
      nor := memWrite s.fw.nor 0x1D00000 (headBytes 2 0xB1 2884 0), stagedType := 2, staged := [(0, 2884)] } }.updPart 0 fun p =>
    { p with region := memWrite [] (bulkBase { regionGib := 1 } 0) [7] }

theorem test_fw_stage : let r := fun (crc : Nat) => ask ([2, 0, 1, 0] ++ natLe 1 4 ++ natLe crc 4 ++ natLe 0 4 ++ natLe 0x10010000 8)
    let u := fwState id
    runsAlone u 0x0B00 (r 0x86B737BA) = true ∧ (r 0).form 24 [(1, 1), (12, 4)] = true ∧ bulkAt 0x10010000 1 = some (0, 0)
      ∧ memGet (after (exec (.fwStage 0 (r 0x86B737BA)) u)).fw.nor 0x1D10000 = 7
      ∧ (after (exec (.fwStage 0 (r 0x86B737BA)) u)).fw.staged = [(1, 1), (0, 2884)]
      ∧ answerOf (exec (.fwStage 0 (r 1)) u) = some (stFwBadBlock, []) := by decide +kernel
theorem test_fw_verify_premises : let r := ask [2, 0, 0, 0]
    let u := fwState id
    let head := imageHead (memRead u.fw.nor 0x1D00000 64)
    runsAlone u 0x0B01 r = true ∧ r.form 4 [(1, 3)] = true ∧ headOk head 2 0xB1 (Machine.slotOf 2).2 = true ∧ blocksOk u.fw.blocks head.bytes = true
      ∧ u.fits head = true ∧ answerOf (exec (.fwVerify 0 { r with verdict := false }) u) = some (stFwBadSignature, [])
      ∧ answerOf (exec (.fwVerify 0 (ask [3, 0, 0, 0])) u) = some (stFwBadBlock, []) := by decide +kernel
theorem test_fw_activate : let r := ask [2, 0, 0, 0]
    let u := fwState fun f => { f with verified := true }
    runsAlone u 0x0B02 r = true ∧ ((after (exec (.fwActivate 0 r) u)).fw.activating, (after (exec (.fwActivate 0 r) u)).fw.invalid) = (some 3, [2])
      ∧ answerOf (exec (.fwActivate 0 r) (fwState id)) = some (stBadArg, []) := by decide +kernel
theorem test_firmware_status_and_settings : let r := ask [0, 0, 0, 0]
    let u := fwState id
    [0x0B03, 0x0B04, 0x0B05].all (fun op => runsAlone u op r) = true ∧ r.form 4 [(0, 4)] = true
      ∧ ((answerOf (exec (.fwStatus 0 r) u)).map fun x => (x.1, (x.2.drop 16).take 8)) = some (stOk, natLe 0 4 ++ natLe 9 4)
      ∧ (after (exec (.settingsSave 0 r) u)).fw.settingsCopy = some (0, 1)
      ∧ (after (exec (.settingsSave 0 r) (fwState fun f => { f with settingsCopy := some (0, 4294967295) }))).fw.settingsCopy = some (1, 0)
      ∧ (after (exec (.fwRestart 5 r) u)).pwr.rebootFrom = some 5
      ∧ answerOf (exec (.fwRestart 5 r) (fwState fun f => { f with activating := some 4 })) = some (stBusy, []) := by decide +kernel

/-- The module in ROM recovery, its loader bad or not. -/
def recState (bad : Bool) : State := let s := fwState id
  { s with pwr := { s.pwr with phase := .recovery, loaderBad := bad } }

/-- A command of the recovery mailbox. -/
def recAsk (bs : List Byte) : MbxReq := { ask bs with mailbox := 64 }

/-- How a command of the recovery mailbox ends that completes at once. -/
def recAnswer (o : Host.Outcome State Fault Refusal) : Option Status := ((after o).host.mbx[(64 : MbxId)].cmd.bind RunCmd.result).map Prod.fst

theorem test_recovery_stage : let r := recAsk ([2, 0, 1, 0, 63, 0, 1, 0] ++ natLe 0x86B737BA 4 ++ natLe 0 4 ++ [7])
    runsAlone (recState false) 0x0F01 r = true ∧ r.form 17 [(1, 1), (12, 4)] = true
      ∧ (after (exec (.recStage 0 r) (recState false))).fw.chunks = [(1, 63, 1)]
      ∧ memGet (after (exec (.recStage 0 r) (recState false))).fw.nor (0x1D10000 + 64512) = 7
      ∧ recAnswer (exec (.recStage 0 r) (recState true)) = some stDenied := by decide +kernel
theorem test_recovery_commands : let z := recAsk [0, 0, 0, 0]
    let r := recAsk [2, 0, 0, 0]
    [0x0F00, 0x0F03].all (fun op => runsAlone (recState false) op z) = true ∧ runsAlone (recState false) 0x0F02 r = true
      ∧ (after (exec (.recInstall 0 r) (recState false))).fw.activating = some 64
      ∧ recAnswer (exec (.recInstall 0 (recAsk [3, 0, 0, 0])) (recState false)) = some stFwBadBlock
      ∧ recAnswer (exec (.recInstall 0 r) (recState true)) = some stDenied
      ∧ (after (exec (.recRestart 0 z) (recState false))).pwr.phase ≠ .recovery := by decide +kernel
theorem test_activation_response_premises : let r := ask [2, 0, 0, 0]
    let w := after (exec (.fwActivate 0 r) (fwState fun f => { f with verified := true }))
    (w.host.mbx[(3 : MbxId)].cmd.map fun c => (c.opcode, c.owner.isNone, c.waiting, c.result.isNone, c.req.aux)) = some (0x0B02, true, false, true, 0)
      ∧ w.fw.stagedType = 2 := by decide +kernel

/-! Courier packets (chapter 10). -/

/-- A packet with its ciphertext, tag and CRC. -/
def wearing (p : Packet) (ct : List Byte) (tag : BitVec 128) (crc : Word) : Packet := { p with payload := ct, gcmTag := tag, crc := crc }

theorem headerBytes_wearing (op : Byte) (p : Packet) (ct : List Byte) (tag : BitVec 128) (crc : Word) :
    headerBytes op (wearing p ct tag crc) = headerBytes op p := rfl
theorem packetCrc_wearing (op : Byte) (p : Packet) (ct : List Byte) (tag : BitVec 128) (crc : Word) :
    packetCrc op (wearing p ct tag crc) = packetCrc op (wearing p ct tag 0) := rfl
theorem formOk_wearing (c : Ctx) (op : Byte) (p : Packet) (tag : BitVec 128) (crc : Word) :
    formOk c op (wearing p p.payload tag crc) = formOk c op p := rfl

/-- The seal of a packet whose payload is the plaintext, under a key of zeros. -/
def sealOf (op : Byte) (p : Packet) : List Byte × List Byte :=
  gcmSeal (List.replicate 32 0) (natLe p.link.toNat 2 ++ natLe p.epoch.toNat 2 ++ natLe p.pktSeq.toNat 4 ++ [0, 0, 0, 0]) (headerBytes op p) p.payload

/-- Its tag as a number. -/
def sealTag (op : Byte) (p : Packet) : BitVec 128 := BitVec.ofNat 128 (leNat (sealOf op p).2)

/-- Its CRC. -/
def sealCrc (op : Byte) (p : Packet) : Word := BitVec.ofNat 32 (packetCrc op (wearing p (sealOf op p).1 (sealTag op p) 0))

/-- The CRC of a sealed packet is right. -/
theorem sealCrc_is_right (op : Byte) (p : Packet) :
    (sealCrc op p).toNat = packetCrc op (wearing p (sealOf op p).1 (sealTag op p) (sealCrc op p)) := by
  rw [packetCrc_wearing, sealCrc, BitVec.toNat_ofNat]
  exact Nat.mod_eq_of_lt (crc32c_lt _)

/-- A packet opens where its tag is the one of what it carries. -/
theorem opened_of (c : Ctx) (op : Byte) (p : Packet) (ct tag : List Byte) (n : BitVec 128) (r : Word)
    (h : c.key.installed = [(p.epoch.toNat, List.replicate 32 0)]) (ht : natLe n.toNat 16 = tag)
    (ho : gcmOpen (List.replicate 32 0) (natLe p.link.toNat 2 ++ natLe p.epoch.toNat 2 ++ natLe p.pktSeq.toNat 4 ++ [0, 0, 0, 0]) (headerBytes op p)
      ct tag = some p.payload) : Cert.opened c op (wearing p ct n r) = some (wearing p p.payload n r) := by
  show ((c.key.installed.find? fun k => k.1 = p.epoch.toNat).bind fun k => gcmOpen k.2
    (natLe p.link.toNat 2 ++ natLe p.epoch.toNat 2 ++ natLe p.pktSeq.toNat 4 ++ [0, 0, 0, 0]) (headerBytes op p) ct (natLe n.toNat 16)).map _ = _
  rw [h, ht, List.find?_cons_of_pos (by simp), Option.bind_some, ho]
  rfl

/-- A sealed packet opens in a context that holds its epoch with that key. -/
theorem sealed_opens (c : Ctx) (op : Byte) (p : Packet) (h : c.key.installed = [(p.epoch.toNat, List.replicate 32 0)]) :
    Cert.opened c op (wearing p (sealOf op p).1 (sealTag op p) (sealCrc op p)) =
      some (wearing p p.payload (sealTag op p) (sealCrc op p)) := by
  have hl : (sealOf op p).2.length = 16 := by rw [sealOf]; exact gcmSeal_snd_length _ _ _ _
  have hT : natLe (sealTag op p).toNat 16 = (sealOf op p).2 := by
    rw [sealTag, BitVec.toNat_ofNat, Nat.mod_eq_of_lt (by have := leNat_lt (sealOf op p).2; rw [hl] at this; exact this)]
    conv_lhs => rw [← hl]
    exact natLe_leNat _
  have hG : gcmOpen (List.replicate 32 0) (natLe p.link.toNat 2 ++ natLe p.epoch.toNat 2 ++ natLe p.pktSeq.toNat 4 ++ [0, 0, 0, 0])
      (headerBytes op p) (sealOf op p).1 (sealOf op p).2 = some p.payload := by
    rw [sealOf]; exact gcmOpen_gcmSeal _ _ _ _
  exact opened_of c op p (sealOf op p).1 (sealOf op p).2 (sealTag op p) (sealCrc op p) h hT hG

/-- A context on port 2 with the link number 0x0101 that holds the key of zeros as epoch 1 and has heard PKT_SEQ 8. -/
def ctxS : Ctx := { ctx1 with clear := false, key := { installed := [(1, List.replicate 32 0)] }, rx := [(1, 8)] }

/-- A PUT of three bytes at the start of window 5, with the PKT_SEQ that comes next. -/
def putPkt : Packet := { length := 3, link := 0x0101, epoch := 1, pktSeq := 9, tag := 77, window := 5, payload := [1, 2, 3] }

/-- The packet of a row with the operands that it asks for. -/
def rowPkt (op : Byte) : Packet :=
  let p := { putPkt with length := 0, payload := [] }
  if op = 1 then putPkt
  else if op = 2 then { putPkt with notifyPgh := 3, notifyAdd := 2 }
  else if op = 3 then { p with arg := 4096 }
  else if op = 4 then { p with length := 8, payload := natLe 5 8 }
  else if op = 5 then { p with length := 16, payload := natLe 5 8 ++ natLe 6 8 }
  else if op = 6 then { p with notifyPgh := 3, notifyAdd := 1, window := 6 }
  else p

/-- Partition 1 with that context, port 2 in a state, and windows on the region, on the activation SRAM and on pigeonholes. -/
def linkState (st : PortState) (ws : List Win) : State := { parted with fab := { parted.fab with
  ports := parted.fab.ports.set (portLink 2) { parted.fab.ports[portLink 2] with state := st, clearLeft := 1 }
  ctxs := [ctxS], wins := ws } }

/-- Window 5 of a kind with rights, and window 6 on pigeonholes 2 to 5. -/
def windows (k : WinKind) (rights : BitVec 3) : List Win :=
  [{ num := 5, part := 1, ctx := 0, kind := k, rights := rights, logical := 0, base := 4, length := 4096 },
   { num := 6, part := 1, ctx := 0, kind := .pgh, rights := 0, logical := 0, base := 2, length := 4 }]

/-- The module that takes the packets. -/
def pktState : State := linkState .openPort (windows .lpddr 7)

theorem test_sealed_packets_are_known : let u := pktState
    u.fab.ports[portLink 2].state = .openPort ∧ u.pwr.ejectAt = none ∧ u.resetting (.port 2) = false ∧ u.ctx? 0x0101 = some ctxS ∧ ctxS.port = 2
      ∧ u.host.resets = [] ∧ (∀ d ∈ u.fab.ctxs, d.held = []) ∧ ctxS.clear = false ∧ ctxS.key.retired = 0 ∧ ctxS.lastRx 1 = 8
      ∧ [1, 2, 3, 4, 5, 6, 0x10].all (fun op => decide (ctxS.heldBlocks + creditBlocks (rowPkt op).payload.length ≤ ctxS.creditBlocks)) = true := by
  decide +kernel
theorem test_forms : [1, 2, 3, 4, 5, 6, 0x10, 0x11, 0x12, 0x13].all (fun op => formOk ctxS op (rowPkt op)) = true
    ∧ formOk ctxS 1 { putPkt with rsvd23 := 1 } = false ∧ formOk ctxS 0x21 putPkt = false
    ∧ formOk ctxS 4 { rowPkt 4 with offset := 4 } = false := by decide +kernel
theorem test_service_of_a_context : Cert.serves pktState ctxS ∧ ctxS.filter = false ∧ putPkt.env = 0xFFFF := by
  unfold Cert.serves; decide +kernel
theorem test_windows_of_a_context : let u := pktState
    (u.win? 5).map Win.kind = some .lpddr ∧ u.win? 4 = none ∧ (windows .lpddr 1).map (fun w => hasBit w.rights 1) = [false, false]
      ∧ hasBit (7 : BitVec 3) 2 = true ∧ putPkt.offset.toNat + 3 ≤ 4096 ∧ u.units = [] ∧ ctxS.opsTok ≠ 0 ∧ ceilDiv 4096 64 ≤ ctxS.bytesTok := by
  decide +kernel

/-- A CRC-right packet of an epoch that no key is installed for, without payload. -/
def strange (link : Half) : Packet :=
  let p : Packet := { link := link, epoch := 4, pktSeq := 1 }
  { p with crc := BitVec.ofNat 32 (packetCrc 1 p) }

theorem test_wrong_crc_is_dropped : let u := after (exec (.put 0 2 {}) pktState)
    u.fab.ports[portLink 2].dropCrc = 1 ∧ u.fab.ports[portLink 2].queue = [] := by decide +kernel
theorem test_packets_before_a_context : let o := fun (st : PortState) (link : Half) =>
      (after (exec (.put 0 2 (strange link)) (linkState st []))).fab.ports[portLink 2]
    (o .openPort 0x0101).dropAuth = 1 ∧ (o .openPort 0x0909).queue.map (fun x => (x.op, x.pkt.kvSeq)) = [(0x81, stNotReady)]
      ∧ ((o .locked 0x0101).queue.map fun x => x.pkt.kvSeq) = [stNotReady] := by decide +kernel
theorem test_fenced_port_answers : let o := fun (i : Instr) => (after (exec i (linkState .fencedId []))).fab.ports[portLink 2]
    ((o (.put 0 2 (strange 0x0101))).queue.map fun x => x.pkt.kvSeq) = [stFenced]
      ∧ (after (exec (.put 0 2 (strange 0x0101)) (linkState .down []))).fab.ports[portLink 2].queue = [] := by decide +kernel

/-- A packet with its right CRC and a tag that verifies passes up to its window. -/
theorem granted_of (ct : List Byte) (n : BitVec 128) (r : Word) (hc : r.toNat = packetCrc 1 (wearing putPkt ct n r))
    (ho : Cert.opened ctxS 1 (wearing putPkt ct n r) = some (wearing putPkt putPkt.payload n r)) :
    Cert.granted pktState 2 1 (wearing putPkt ct n r) (wearing putPkt putPkt.payload n r) ctxS
      { num := 5, part := 1, ctx := 0, kind := .lpddr, rights := 7, logical := 0, base := 4, length := 4096 } 3 3 1 := by
  simp only [Cert.granted, Cert.known, Cert.authentic, Cert.plain, Cert.serves, formOk_wearing]
  refine ⟨⟨?_, ?_, hc, ?_⟩, ⟨?_, ?_, ho, ?_⟩, ?_⟩ <;> (try simp only [wearing]) <;> decide +kernel
theorem test_a_put_is_granted : ∃ p p' : Packet, p'.payload = [1, 2, 3] ∧ Cert.granted pktState 2 1 p p' ctxS
    { num := 5, part := 1, ctx := 0, kind := .lpddr, rights := 7, logical := 0, base := 4, length := 4096 } 3 3 1 :=
  ⟨_, _, rfl, granted_of _ _ _ (sealCrc_is_right 1 putPkt) (sealed_opens ctxS 1 putPkt rfl)⟩
theorem test_get_waits_for_a_slot : pktState.lpNow 1 = false
    ∧ ({ pktState with fab := { pktState.fab with lpFree := [(1, 0)] } } : State).lpNow 1 = true := by decide +kernel
theorem test_act_window : let u := linkState .openPort (windows .act 7)
    (u.live 1)[0]? = some 0 ∧ u.resetting (.engine 0) = false ∧ u.eng[(0 : EngId)].mem.actBad = [] ∧ u.eng[(0 : EngId)].unitAt ≠ 1 ∧ u.eng[(0 : EngId)].vecLanded = [] := by
  decide +kernel
theorem test_pigeonhole_window : let u := pktState
    u.pghGranted ctxS 3 = true ∧ u.trigger? 1 3 = none ∧ u.pghIndex 1 3 = some 259 ∧ (rowPkt 6).notifyPgh.toNat = 3 ∧ (rowPkt 6).payload.length = 0 := by
  decide +kernel

/-- A schedule that pigeonhole 3 triggers, and a module with it. -/
def trigSched : Schedule := { boundSched with trigger := 3, binds := [] }

theorem test_trigger_premises : let u := { pktState with scheds := [trigSched] }
    u.trigger? 1 3 = some trigSched ∧ u.triggerGate trigSched = none ∧ (∀ e ∈ u.live 1, (u.queueOf e).length < 64) ∧ u.jobs = []
      ∧ (u.live 1).foldl (fun m e => max m u.eng[e].busyUntil) 11 + trigSched.w = 1011 ∧ trigSched.budget.toNat = 1000 := by decide +kernel

/-- A clear context of a filter. -/
def ctxF : Ctx := { ctx1 with filter := true }

/-- The module with the filter context. -/
def frameLink : State := { pktState with fab := { pktState.fab with ctxs := [ctxF] } }

/-- A FRAME of two bytes on it, with its CRC. -/
def framePkt : Packet :=
  let p : Packet := { flags := 2, length := 2, link := 0x0101, window := 0, payload := [1, 2] }
  { p with crc := BitVec.ofNat 32 (packetCrc 0x20 p) }

theorem test_frame_premises : framePkt.crc.toNat = packetCrc 0x20 framePkt ∧ formOk ctxF 0x20 framePkt = true ∧ frameLink.ctx? 0x0101 = some ctxF
    ∧ framePkt.epoch = 0 ∧ framePkt.gcmTag = 0 ∧ (Cert.heard frameLink 2).filter 2 0x20 framePkt ≠ .pass := by decide +kernel

theorem test_partner_envelopes : let u := pktState
    let v : Envelope := { part := 1, handle := 9, opener := some 1, expiry := 100 }
    let w := { u with env := { u.env with opens := [v] } }
    (u.env.opens.filter fun v => v.part = 1 && v.opener = some ctxS.serial).length < 4 ∧ w.env? 1 9 = some v ∧ v.opener = some ctxS.serial ∧ v.asker = none
      ∧ v.state = .opened ∧ v.prepared = none ∧ u.env? 1 9 = none ∧ u.outcome? 1 9 = none ∧ u.part[(1 : PartId)].shadow = []
      ∧ formOk ctxS 1 { putPkt with env := 9 } = true
      ∧ (w.addItem 1 9 (.op { kind := .put, space := .lpddr, addr := 4, data := [1, 2, 3], window := some 5, port := 2 }) 3).toOption.isSome = true
      ∧ (4 ≤ (({ u with env := { u.env with opens := List.replicate 4 v } } : State).env.opens.filter fun v =>
        v.part = 1 && v.opener = some ctxS.serial).length) := by decide +kernel

/-! Links (chapter 10). -/

/-- A module in cycle 100000 whose link 2 is in lock, open, and as given. -/
def linked (f : Port → Port) : State :=
  let s := linkState .openPort (windows .lpddr 7)
  { s with now := 100000
           pwr := { s.pwr with slotId := 37 }
           fab := { s.fab with
             plan := some { slot := 37, twinSlot := 0xFFFF, ports := [{}, {}, { mode := 2, farId := 88, farPort := 5 }], filters := [], bytes := [] }
             ports := s.fab.ports.set 2 (f { s.fab.ports[(2 : LinkId)] with lock := true, lastBlock := 99990, identAt := some 50000 }) } }

/-- Link 2 after a command on it. -/
def port2 (i : Instr) (u : State) : Port := (after (exec i u)).fab.ports[(2 : LinkId)]

theorem test_ident : let u := linked fun q => { q with state := .locked }
    u.pwr.phase = .service ∧ (port2 (.ident 100000 2 88 5) u).state = .openPort ∧ (port2 (.ident 100000 2 88 4) u).state = .fencedId
      ∧ (port2 (.ident 100000 2 87 5) u).farId = 87 ∧ (port2 (.ident 100000 2 87 5) (linked id)).state = .openPort
      ∧ (port2 (.ident 100000 2 88 5) (linked fun q => { q with state := .unused })).farId = u.fab.ports[(2 : LinkId)].farId := by decide +kernel
theorem test_credit : let c := after (exec (.credit 100000 2 [(0x0202, 3), (0x0203, 9), (0x0202, 4), (0, 0), (0, 0), (0x0202, 50)]) (linked id))
    (c.fab.ctxs.map Ctx.outCredit) = [8 + 7] ∧ (port2 (.depart 100000 2) (linked id)).departSeen = true
      ∧ (port2 (.idle 100000 2) (linked fun q => { q with uncorrRun := 6 })).uncorrRun = 0 := by decide +kernel

/-- An operation that awaits its response on port 2. -/
def awaited : OutOp := { port := 2, tag := 77, limit := 100500, op := 1, pkt := putPkt, part := 1 }

/-- The module with that operation. -/
def awaiting (f : Port → Port) : State := let s := linked f
  { s with fab := { s.fab with outstanding := [awaited] } }

theorem test_link_losses : let o := fun (i : Instr) (f : Port → Port) => (after (exec i (awaiting f)))
    (o (.blockLockLoss 100000 2) id).fab.outstanding = [] ∧ (o (.blockLockLoss 100000 2) id).fab.ports[(2 : LinkId)].state = .training
      ∧ (o (.blockLockLoss 100000 2) id).fab.ctxs.map Ctx.outCredit = [8]
      ∧ (o (.uncorrectableCodeword 100000 2) fun q => { q with uncorrRun := 6 }).fab.ports[(2 : LinkId)].uncorrRun = 7
      ∧ (o (.uncorrectableCodeword 100000 2) fun q => { q with uncorrRun := 7 }).fab.ports[(2 : LinkId)].lock = false
      ∧ (o (.noBlockTimeout 100000 2) fun q => { q with lastBlock := 91000 }).fab.ports[(2 : LinkId)].lock = false
      ∧ (o (.noBlockTimeout 100000 2) fun q => { q with lastBlock := 91001 }).fab.ports[(2 : LinkId)].lock = true
      ∧ (o (.blockLockLoss 100000 2) fun q => { q with lock := false }).fab.outstanding.length = 1 := by decide +kernel
theorem test_loss_of_the_twin_link : let s := svc
    let u : State := { s with
      twin := { s.twin with role := .inStep, claimIn := true }, fab := { s.fab with ports := s.fab.ports.set 8 { s.fab.ports[(8 : LinkId)] with lock := true } } }
    (after (exec (.blockLockLoss 0 8) u)).twin.role = .outOfStep := by decide +kernel
theorem test_retrain_and_send : let me : TxBlock := .ident svc.sec.identity 2
    let down := port2 (.retrainComplete 100000 2) (linked fun q => { q with lock := false, state := .training })
    (down.state, down.blocks, down.identAt) = (.locked, [me], some 100000)
      ∧ (port2 (.retrainComplete 100000 2) (linked fun q => { q with lock := false, state := .fencedId })).state = .fencedId
      ∧ (port2 (.identSend 100000 2) (linked fun q => { q with blocks := [me] })).sentBlocks = [me]
      ∧ (port2 (.identSend 100000 2) (linked id)).sentBlocks = []
      ∧ (port2 (.identSend 100000 2) (linked fun q => { q with identAt := none })).sentBlocks = [me] := by decide +kernel

/-- A response that waits on port 2, and one that waits for a request's credit. -/
def txResp : TxPkt := { cls := .response, op := 0x81, pkt := putPkt, ctx := some 0x0101, part := 1 }

/-- A request that the module sends. -/
def txAsk : TxPkt := { txResp with cls := .other, op := 1 }

theorem test_idle_send : (port2 (.idleSend 100000 2) (linked id)).sentBlocks = [.idle]
    ∧ (port2 (.idleSend 100000 2) (linked fun q => { q with blocks := [.depart] })).sentBlocks = [.depart]
    ∧ (port2 (.idleSend 100000 2) (linked fun q => { q with queue := [txResp] })).lastSent = (linked id).fab.ports[(2 : LinkId)].lastSent
    ∧ (port2 (.idleSend 100000 2) (linked fun q => { q with wire := some (txResp, 100001) })).sentBlocks = [] := by decide +kernel
theorem test_packet_may_leave : Cert.mayLeave (linked id) txResp ∧ Cert.mayLeave (linked id) txAsk := by
  have hc : (linked id).ctx? (BitVec.ofNat 16 0x0101) = some ctxS := by decide +kernel
  constructor <;> intro l hl <;> cases hl <;> rw [hc] <;> refine ⟨nofun, fun c h => ?_⟩ <;> cases h <;> decide +kernel

/-- The module in which ctxS is clear, so that nothing has to be enciphered. -/
def clearLink (q : List TxPkt) : State := let s := linked fun p => { p with queue := q }
  { s with fab := { s.fab with ctxs := [{ ctxS with clear := true }] } }

theorem test_packet_leaves : let w := after (exec (.egressPacketStart 100000 2) (clearLink [txAsk, { txResp with op := 0x82 }]))
    w.fab.ports[(2 : LinkId)].queue = [txAsk] ∧ (w.fab.ports[(2 : LinkId)].wire.map fun x => (x.1.op, x.2)) = some (0x82, 100004)
      ∧ w.fab.outstanding = [] ∧ txResp.cls.rank < txAsk.cls.rank := by decide +kernel
theorem test_request_is_awaited : let w := after (exec (.egressPacketStart 100000 2) (clearLink [txAsk]))
    (w.fab.outstanding.map fun o => (o.tag, o.limit)) = [(77, 105000)] ∧ w.fab.ctxs.map Ctx.outCredit = [8 - creditBlocks 3]
      ∧ (after (exec (.egressPacketStart 100000 2) (linked fun q => { q with lock := false, queue := [txAsk] }))).fab.outstanding = [] := by decide +kernel

/-- A clear response to the awaited operation with a status. -/
def respPkt (st : Status) : Packet :=
  let p : Packet := { flags := 2, link := 0x0101, tag := 77, kvSeq := st }
  { p with crc := BitVec.ofNat 32 (packetCrc 0x81 p) }

theorem test_response_ends_an_operation : let o := fun (p : Packet) => after (exec (.response 100000 2 0x81 p) (awaiting id))
    (respPkt stOk).crc.toNat = packetCrc 0x81 (respPkt stOk) ∧ awaited.pkt.link = 0x0101 ∧ (o (respPkt stOk)).fab.outstanding = []
      ∧ (o { respPkt stOk with crc := 0 }).fab.ports[(2 : LinkId)].dropCrc = 1 := by decide +kernel
theorem test_remote_timeout : let o := fun (n : Nat) (tag : Word) => (after (exec (.remoteTimeout n 2 tag) { awaiting id with now := n })).fab.outstanding.length
    o 100500 77 = 0 ∧ o 100499 77 = 1 ∧ o 100500 76 = 1 := by decide +kernel
theorem test_periods : let u := { linked id with now := 102400 }
    let dry := u.updCtx 0x0101 fun c => { c with opsTok := 1, bytesTok := 5 }
    let o := fun (n : Nat) => (after (exec (.tokenPeriod n) { dry with now := n })).fab.ctxs.map fun c => (c.opsTok, c.bytesTok)
    u.frameTime % 4096 = 0 ∧ u.fab.tokenAt ≠ some 102400 ∧ o 102400 = [(10, 4096)] ∧ o 102401 = [(1, 5)]
      ∧ (after (exec (.refusalCapPeriod 102400) u)).fab.ports[(2 : LinkId)].clearLeft = 8
      ∧ (after (exec (.refusalCapPeriod 102401) { u with now := 102401 })).fab.ports[(2 : LinkId)].clearLeft = 1 := by decide +kernel
theorem test_packets_of_a_secure_context_answer (op : Byte) : ∃ p p' : Packet, p.crc.toNat = packetCrc op p ∧ Cert.opened ctxS op p = some p'
    ∧ p.pktSeq = 9 ∧ p.link = 0x0101 := ⟨_, _, sealCrc_is_right op putPkt, sealed_opens ctxS op putPkt rfl, rfl, rfl⟩

/-! The LPDDR5 device (chapter 09). -/

theorem test_lpddr5_device : let u := svc
    u.host.hpReady = true ∧ (after (exec (.modeRegisterWrite 0 1 12 7 true) u)).modeReg 1 12 = 7
      ∧ (after (exec (.modeRegisterWrite 0 1 5 7 true) u)).modeReg 1 5 = 0x5D ∧ (after (exec (.modeRegisterWrite 0 1 12 7 false) u)).host.err ≠ 0
      ∧ (after (exec (.unsupportedCommand 0 1) u)).host.err ≠ 0 ∧ u.host.modeRegs[(0 : Fin 2)] = []
      ∧ (after (exec (.modeRegisterRead 0 1 6) u)).host.rdata = [0xB1]
      ∧ (after (exec (.resetN 0 1) u)).host.trained[(1 : Fin 2)] = false := by decide +kernel
theorem test_host_port_off : let u := svc.updHost fun h => { h with hpReady := false }
    (after (exec (.hostPortTraining 0 1) (u.updHost fun h => { h with trained := Vector.replicate 2 false }))).host.trained[(1 : Fin 2)] = false := by
  decide +kernel

/-! Direct windows (chapter 09). -/

/-- Window 4 bound to engine 0 of partition 1 with 16 rows to line 32, after another change. -/
def winState (f : DWin → DWin) : State :=
  let s := parted.updPart 1 fun p => { p with host := { installed := [(3, List.replicate 32 0)] } }
  (s.updWin 4 fun w => f { w with bound := some 1, engine := 0, inputLine := 32, inputRows := 16 })

/-- The window after a command. -/
def win4 (o : Host.Outcome State Fault Refusal) : DWin := (after o).host.win[(4 : WinId)]

theorem test_host_data_row : let u := winState id
    let o := fun (row : Nat) (w : State) => after (exec (.hostDataRowWrite 5 4 row 8 [1, 2] {}) w)
    u.host.hpReady = true ∧ u.pwr.phase ≠ .recovery ∧ memRead (o 15 u).eng[(0 : EngId)].act (64 * 47 + 8) 2 = [1, 2]
      ∧ memRead (o 15 u).host.win[(4 : WinId)].rows (64 * 15 + 8) 2 = [1, 2] ∧ (o 16 u).eng[(0 : EngId)].act = []
      ∧ (o 3 (winState fun w => { w with isSealed := true })).eng[(0 : EngId)].act = []
      ∧ hasBit (o 3 { u with pwr := { u.pwr with phase := .recovery } }).host.err 1 = true
      ∧ memWf u.eng[(0 : EngId)].act = true ∧ u.eng[(0 : EngId)].mem.actBad = [] := by decide +kernel

/-- A trigger record of pigeonhole 3 with a budget, for a status row. -/
def trigBytes (pgh budget row : Nat) : List Byte := natLe pgh 2 ++ natLe 0xFFFF 2 ++ natLe budget 4 ++ natLe 77 4 ++ natLe row 2 ++ [0, 0]

/-- The module with a schedule that the pigeonhole triggers. -/
def trigState (f : DWin → DWin) : State := { winState f with scheds := [trigSched] }

/-- The status that a trigger record gets in row 960. -/
def trigRow (u : State) (bs : List Byte) : Nat := field (memRead (win4 (exec (.triggerRecord 5 4 bs) u)).rows (64 * 960) 2) 0 2

theorem test_trigger_record : let u := trigState id
    u.trigger? 1 3 = some trigSched ∧ u.triggerGate trigSched = none ∧ (∀ e ∈ u.live 1, (u.queueOf e).length < 64)
      ∧ ((after (exec (.triggerRecord 5 4 (trigBytes 3 1016 960)) u)).jobs.map fun j => (j.finish, j.last, j.released)) = [(1021, 1021, some 19)]
      ∧ trigRow u (trigBytes 3 1015 960) = stRefusedDeadline.toNat ∧ trigRow u (trigBytes 4 1016 960) = stBadArg.toNat
      ∧ trigRow u (trigBytes 3 1016 960 ++ [1]) = stBadArg.toNat
      ∧ trigRow (trigState fun w => { w with failedEntry := true }) (trigBytes 3 1016 960) = stDenied.toNat
      ∧ trigRow (trigState fun w => { w with rate := 1, tokens := 0 }) (trigBytes 3 1016 960) = stRefusedQuota.toNat := by decide +kernel
theorem test_trigger_of_no_window : let o := fun (u : State) (row : Nat) => (after (exec (.triggerRecord 5 4 (trigBytes 3 1016 row)) u)).host.err
    hasBit (o parted 960) 3 = true ∧ hasBit (o (trigState id) 959) 3 = true ∧ hasBit (o (trigState id) 1008) 3 = true ∧ o (trigState id) 1007 = 0
      ∧ hasBit (o (let s := trigState id; { s with pwr := { s.pwr with phase := .recovery } }) 960) 1 = true := by decide +kernel
theorem test_trigger_takes_a_token : let u := trigState fun w => { w with rate := 1, tokens := 2 }
    (win4 (exec (.triggerRecord 5 4 (trigBytes 3 1016 960)) u)).tokens = 1
      ∧ u.scheds.all (fun c => c.trigger ≠ 4) = true ∧ ({ u with scheds := [{ trigSched with suspended := true }] } : State).triggerGate
        { trigSched with suspended := true } ≠ none := by decide +kernel

/-- A seal entry of row 0: MSG_SEQ 7 under epoch 3. -/
def entryHead (seq : Nat) : List Byte := natLe seq 8 ++ natLe 0 2 ++ natLe 1 2 ++ natLe 3 2 ++ [0, 0]

/-- Its tag where the row is all zero. -/
def entryTag (seq : Nat) : List Byte :=
  gcmTagOf (roundKeys (List.replicate 32 0)) ([0, 4, 0, 0] ++ natLe seq 8) (entryHead seq) (List.replicate 64 0)

/-- A seal entry with that tag opens. -/
theorem entry_opens (seq : Nat) : (gcmOpen (List.replicate 32 0) ([0, 4, 0, 0] ++ natLe seq 8) ((padTo 32 (entryHead seq ++ entryTag seq)).take 16)
    (memRead (memWrite [] (64 * 928) (padTo 32 (entryHead seq ++ entryTag seq))) 0 64)
    (((padTo 32 (entryHead seq ++ entryTag seq)).drop 16).take 16)).isSome = true := by
  have hh : (entryHead seq).length = 16 := by simp [entryHead]
  have ht : (entryTag seq).length = 16 := by rw [entryTag]; exact gcmTagOf_length _ _ _ _
  have hp : padTo 32 (entryHead seq ++ entryTag seq) = entryHead seq ++ entryTag seq := padTo_of_length (by simp [hh, ht])
  have hr : memRead (memWrite [] (64 * 928) (entryHead seq ++ entryTag seq)) 0 64 = List.replicate 64 0 := by
    rw [memRead_eq, List.eq_replicate_iff]
    refine ⟨by simp, fun b hb => ?_⟩
    obtain ⟨i, hi, rfl⟩ := List.mem_map.mp hb
    rw [memGet_memWrite_out _ _ _ _ (.inl (by have := List.mem_range.mp hi; omega))]
    rfl
  rw [hp, hr, List.take_left' hh, List.drop_left' hh, List.take_of_length_le ht.le]
  unfold entryTag
  rw [gcmOpen_own]
  rfl

theorem test_seal_entry_premises : let u := winState fun w => { w with isSealed := true }
    let b := padTo 32 (entryHead 7)
    field b 0 8 = 7 ∧ field b 8 2 = 0 ∧ field b 10 2 = 1 ∧ field b 12 2 = 3 ∧ field b 14 2 = 0 ∧ (assoc 3 u.part[(1 : PartId)].host.installed).isSome = true
      ∧ (assoc (4, 0, 3) u.part[(1 : PartId)].series).isNone = true ∧ u.eng[(0 : EngId)].fenced = false ∧ u.resetting (.engine 0) = false
      ∧ u.host.win[(4 : WinId)].rows = [] := by decide +kernel
theorem test_bad_seal_entry : let u := winState fun w => { w with isSealed := true }
    let o := exec (.sealEntry 5 4 0 (natLe 7 8 ++ natLe 0 2 ++ natLe 0 2 ++ natLe 3 2)) u
    (win4 o).failedEntry = true ∧ hasBit (after o).sec.event 2 = true
      ∧ hasBit (after (exec (.sealEntry 5 4 0 []) { u with pwr := { u.pwr with phase := .recovery } })).host.err 1 = true := by decide +kernel
theorem test_quota : let o := fun (v : Word) => win4 (exec (.hstDwinQuotaWrite 5 4 v) (winState fun w => { w with burst := 9 }))
    ((o 0x00030002).rate, (o 0x00030002).burst, (o 0x00030002).tokens) = (2, 3, 3) ∧ (o 2).tokens = 9
      ∧ (win4 (exec (.dwinQuotaPeriod 65536) { winState (fun w => { w with rate := 4, burst := 9, tokens := 3 }) with now := 65536 })).tokens = 7
      ∧ (win4 (exec (.dwinQuotaPeriod 65536) { winState (fun w => { w with rate := 4, burst := 9, tokens := 6 }) with now := 65536 })).tokens = 9
      ∧ (winState id).host.quotaAt ≠ some 65536
      ∧ (win4 (exec (.dwinQuotaPeriod 65537) { winState (fun w => { w with rate := 4, burst := 9, tokens := 6 }) with now := 65537 })).tokens = 6 := by
  decide +kernel
theorem test_quota_after_power_up : let u := { svc with pwr := { svc.pwr with phase := .unpowered } }
    let c : PowerUpCond := { present := true, epo := false, heldOneSecond := true, vin := 5400 }
    (win4 (exec (.powerUp 5 c) u)).tokens = (win4 (exec (.powerUp 5 c) u)).burst ∧ u.pwr.latchedOpen = false := by decide +kernel

/-! Registers and the bulk area (chapter 09). -/

/-- A register write. -/
def put (u : State) (addr : Word) (v : Dword) : State := after (exec (.registerWrite 5 addr v) u)

theorem test_no_confidential_partition : (∀ p : PartId, parted.part[p].confidential = false) ∧ parted.host.hpReady = true
    ∧ parted.pwr.phase = .service ∧ (parted.updPart 1 fun q => { q with confidential := true }).part[(1 : PartId)].confidential = true := by
  decide +kernel
theorem test_unit_register_writes : let u := parted.updHost fun h => { h with errWas := 0xF, err := 0xF }
    (put u 0x10200 5).host.errWas = 0xA ∧ (put u 0x10120 9).host.utcLo = 9 ∧ (put u 0x10340 9).host = (u.advance 5).host
      ∧ (after (exec (.hstUtcHiWrite 5 2) (put u 0x10120 9))).host.utcBase = some (2 ^ 33 + 9, 5)
      ∧ (put { u with bist := { u.bist with granted := 1 } } 0x680000 0x1A).bist.maxConcurrent = 6
      ∧ (put { u with bist := { u.bist with granted := 1 } } 0x680000 0x1E).bist.maxConcurrent = 1
      ∧ (put u 0x680000 0x1A).bist.maxConcurrent = 1 ∧ hasBit (put u 0x670010 2).sec.debug 1 = true := by decide +kernel
theorem test_dead_letter_head : let u := { parted with fab := { parted.fab with dlq := parted.fab.dlq.set 1 { parted.fab.dlq[1] with full := true } } }
    let o := fun (v : Word) => (after (exec (.crrDlqHeadWrite 5 1 v) u)).fab.dlq[1]
    (o 0).full = true ∧ (o 63).full = false ∧ (o 63).head = 63 := by decide +kernel
theorem test_engine_register_writes : let u := parted.updEng 2 fun g => { g with rerunMask := 3, chkStatusWas := 7 }
    (put u 0x42043C 5).eng[(2 : EngId)].dlClass[15] = u.eng[(2 : EngId)].dlClass[15] ∧ (put u 0x42043C 0xFFFFFFFB).eng[(2 : EngId)].dlClass[15] = 0xFFFF0003
      ∧ (put u 0x420914 0x12345).eng[(2 : EngId)].rerunMask = 0x2345 ∧ (put u 0x420900 5).eng[(2 : EngId)].chkStatusWas = 2
      ∧ (put u 0x500040 64).part[(1 : PartId)].kv.reserve = 64 ∧ (put u 0x500040 65).part[(1 : PartId)].kv.reserve = 16 := by decide +kernel
theorem test_reads_subtract : let u := parted.updEng 2 fun g => { g with satCountWas := 9, dlMissCountWas := 4 }
    let o := fun (addr : Word) => after (exec (.rcFieldRead 5 addr) u)
    ((o 0x420504).host.rdata, (o 0x420504).eng[(2 : EngId)].satCountWas) = (natLe 9 4, 0) ∧ (o 0x420444).eng[(2 : EngId)].dlMissCountWas = 0
      ∧ (o 0x420444).eng[(2 : EngId)].satCountWas = 9 ∧ (o 0x2000).host.rdata = [0, 0, 0, 0]
      ∧ (after (exec (.hstPostmarkLoRead 8589934597) u)).host.postmarkHi = 2 := by decide +kernel
theorem test_ignored_writes : let e := fun (u : State) (addr : Word) => hasBit (put u addr 1).host.err 1
    [0, 0xFFFF, 0x20000, 0xFFFFF, 0xFFF800, 0x100800, 0x20F000, 0x20FBC0, 0x1E000000, 0xFFFFFFFF, 0x10000000, 0x1200FFFF].all (e parted) = true
      ∧ e parted 0x100000 = false ∧ e parted 0x20EFC0 = false
      ∧ e { parted with pwr := { parted.pwr with phase := .recovery } } 0x10120 = true
      ∧ e { parted with pwr := { parted.pwr with phase := .recovery } } 0xFFF000 = false
      ∧ hasBit (after (exec (.unmappedWrite 5 0x20000) parted)).host.err 1 = true
      ∧ hasBit (put (parted.updHost fun h => { h with hpReady := false }) 0 1).host.err 1 = false := by decide +kernel

/-- Partition 1 with frames in its bulk area. -/
def framesState (fs : List Frame) : State := parted.updHost fun h => { h with bulk := h.bulk.set 1 { h.bulk[1] with frames := fs } }

/-- 64 frames: clean ones that were used in cycles 70, 69, ... where `c` tells so, else dirty. -/
def fullFrames (c : Bool) : List Frame := (List.range 64).map fun i =>
  { page := 100 + i, lastUse := 70 - i, dirtySince := if c && i % 2 = 0 then none else some 3 }

/-- The pages of the frames. -/
def pagesNow (u : State) : List Nat := u.host.bulk[(1 : PartId)].frames.map Frame.page

theorem test_frames : (fullFrames true).length = 64 ∧ (∀ f ∈ fullFrames false, f.clean = false) ∧ (∃ f ∈ fullFrames true, f.clean = true)
    ∧ ((framesState (fullFrames true)).host.bulk[(1 : PartId)].room.map fun b => b.frames.length) = some 63
    ∧ parted.part[(1 : PartId)].isThere = true ∧ parted.part[(2 : PartId)].isThere = false := by decide +kernel
theorem test_bulk_write : let o := fun (u : State) => after (exec (.bulkWrite 5 1 (4096 * 7 + 4095) [1, 2]) u)
    pagesNow (o parted) = [8, 7] ∧ ((o parted).host.bulk[(1 : PartId)].frames.map fun f => (f.fetching, f.dirtySince)) = [(true, some 5), (true, some 5)]
      ∧ memGet ((o parted).host.bulk[(1 : PartId)].frames.getD 1 { page := 0 }).bytes 4095 = 1
      ∧ (o (framesState (fullFrames false))).host.bulk[(1 : PartId)].drops = 2 ∧ hasBit (o (framesState (fullFrames false))).host.err 4 = true
      ∧ (pagesNow (o (framesState (fullFrames true)))).take 2 = [8, 7] ∧ 162 ∉ pagesNow (o (framesState (fullFrames true)))
      ∧ hasBit (after (exec (.bulkWrite 5 2 0 [1]) parted)).host.err 1 = true := by decide +kernel
theorem test_bulk_read : let o := fun (fs : List Frame) => after (exec (.bulkRead 5 1 (4096 * 7) 2) (framesState fs))
    (o [{ page := 7, bytes := [⟨1, 9⟩] }]).host.rdata = [0, 9] ∧ (o []).host.rdata = [0xE7, 0xE7] ∧ pagesNow (o []) = [7]
      ∧ pagesNow (o ((List.range 8).map fun i => { page := 100 + i, fetching := true })) = (List.range 8).map (100 + ·)
      ∧ (after (exec (.bulkRead 5 2 0 2) parted)).host.rdata = [0, 0] := by decide +kernel
theorem test_bulk_fetch_done : let f : Frame := { page := 7, bytes := [⟨0, 9⟩], mask := 1, fetching := true }
    let u := { framesState [f] with now := 160, fab := { parted.fab with lpFree := [(1, 0)] } }
    u.pwr.trained = true ∧ u.lpServed 1 150 = true ∧ parted.lpServed 1 150 = false ∧ u.units = []
      ∧ ((after (exec (.bulkFetchDone 5 1 7) (framesState [f]))).host.bulk[(1 : PartId)].frames.map Frame.fetching) = [true] := by decide +kernel
theorem test_reset_values : State.reset.regWord 0x10110 = some 0x41 ∧ State.reset.regWord 0x680000 = some 0x27 := by decide +kernel

/-! The pair (chapter 13). -/

/-- A module of a pair in cycle 5000, T0 open, record 7 the last one received. -/
def pairState (f : Twin → Twin) : State :=
  let s := parted
  { s with
    now := 5000
    twin := f { s.twin with role := .inStep, twinPaired := true, rxSeq := 7, claimIn := true }
    fab := { s.fab with ports := s.fab.ports.set twinLink { s.fab.ports[twinLink] with state := .openPort, lock := true, lastBlock := 4990 } } }

/-- The header of a record of cycle 4000. -/
def hdr (seq : Dword) : TwinHdr := { part := 1, recordSeq := seq, cycle := 4000 }

/-- The pair's state after a command. -/
def twinOf (i : Instr) (u : State) : Twin := (after (exec i u)).twin

theorem test_records_in_order : let u := pairState id
    let o := fun (h : TwinHdr) (u : State) => let w := twinOf (.twinRelease 5000 h 0 1 2) u
      (w.rxSeq, w.role, w.forwarded.length)
    o (hdr 8) u = (8, .inStep, 1) ∧ o { hdr 8 with tagOk := false } u = (7, .inStep, 0) ∧ o (hdr 7) u = (7, .inStep, 0)
      ∧ o (hdr 9) u = (7, .outOfStep, 0) ∧ o (hdr 8) (pairState fun w => { w with role := .gaveUp }) = (7, .gaveUp, 0)
      ∧ (twinOf (.twinRelease 5000 (hdr 9) 0 1 2) u).outbox = [(12, 1)] := by decide +kernel
theorem test_records_are_kept : let o := fun (k : TwinHdr) (u : State) => twinOf (.twinCommand 5000 k 0x0401 (ask [])) u
    ((o (hdr 8) (pairState id)).forwarded.map Prod.fst) = [5152] ∧ (o { hdr 8 with cycle := 3848 } (pairState id)).forwarded.length = 1
      ∧ (o { hdr 8 with cycle := 3847 } (pairState id)).role = .outOfStep ∧ (o (hdr 8) (pairState fun w => { w with role := .active })).forwarded = []
      ∧ ((twinOf (.twinPrepare 5000 (hdr 8) 3) (pairState id)).forwarded.map Prod.fst) = [6357]
      ∧ (twinOf (.twinAbort 5000 (hdr 8) 3) (pairState fun w => { w with forwarded := [(6000, .commit 1 3)] })).forwarded =
        [(5152, .abort 1 3)] := by decide +kernel

/-- A report of one digest. -/
def report (d : Dword) : ReportBody := { lastSeq := [(1, 9)], digests := [(1, 9, d)], ctxs := [(0x0101, 5, 6)] }

theorem test_reports : let u := pairState fun w => { w with ownDigests := [(1, 9, 44)] }
    let o := fun (d : Dword) => twinOf (.twinReport 5000 (hdr 8) (report d)) u
    (o 44).reported[(1 : PartId)] = 9 ∧ (o 44).role = .inStep ∧ (o 44).ownDigests = [] ∧ (o 44).outbox = [(10, 1)]
      ∧ (o 45).role = .outOfStep ∧ (twinOf (.twinReport 5000 (hdr 8) (report 44)) (pairState id)).expected = [(1, 9, 44)]
      ∧ (twinOf (.twinGiveupRecord 5000 (hdr 8) 0 (report 44)) u).gaveUpSeen = true
      ∧ ((report 44).digests.map fun x => (x.1, x.2.1)).Nodup := by decide +kernel
theorem test_giveup_ends_a_resync : let c : RunCmd := { opcode := 0x0A01, req := ask [0, 0, 0, 0], order := 1, waiting := false, part := none }
    let u := (pairState fun w => { w with role := .joining, phase := 1, resyncMbx := some 3 }).updHost fun h =>
      { h with mbx := h.mbx.set 3 { h.mbx[3] with cmd := some c } }
    let w := after (exec (.twinGiveupRecord 5000 (hdr 8) 0 {}) u)
    w.twin.role = .unpaired ∧ hasBit w.twin.lost 1 = true ∧ hasBit w.twin.lost 0 = false ∧ hasBit w.twin.lost 2 = false
      ∧ ((w.host.mbx[(3 : MbxId)].cmd.bind RunCmd.result).map Prod.fst) = some stTwinResyncLost := by decide +kernel
theorem test_digests : let o := fun (role : TwinRole) (own : List (Dword × Dword)) =>
      (twinOf (.twinDigest 5000 (hdr 8) 6 [1, 2]) (pairState fun w => { w with role := role, peerInStep := true, ownEpoch := some (6, own) }))
    (o .inStep [(1, 1), (2, 2)]).role = .inStep ∧ (o .inStep [(1, 1), (3, 2)]).role = .outOfStep
      ∧ (o .active [(1, 1), (3, 2)]).role = .gaveUp ∧ (o .active [(1, 1), (3, 3)]).role = .active ∧ (o .active [(1, 1), (3, 3)]).stop.active = true := by
  decide +kernel
theorem test_heartbeats : let o := fun (role : TwinRole) (run : Nat) (claim : Bool) =>
      (twinOf (.twinHeartbeat 5000 (hdr 8) claim false) (pairState fun w => { w with role := role, wiringRun := run }))
    (o .inStep 1 false).wiringRun = 2 ∧ (o .inStep 1 false).role = .inStep ∧ (o .inStep 2 false).role = .outOfStep ∧ (o .inStep 2 true).wiringRun = 0
      ∧ hasBit (o .active 2 false).event 8 = true := by decide +kernel
theorem test_step_left_and_ack : let u := pairState fun w => { w with role := .active, peerInStep := true, sentReports := [(4, [(1, 12)]), (5, [(1, 20)])] }
    (twinOf (.twinStepLeft 5000 (hdr 8) 5) u).peerInStep = false ∧ (twinOf (.twinStepLeft 5000 (hdr 8) 5) u).stop.active = true
      ∧ (twinOf (.twinStepLeft 5000 (hdr 8) 1) u).stop.active = false
      ∧ (twinOf (.twinAck 5000 (hdr 8) 4) u).acked[(1 : PartId)] = 12 ∧ (twinOf (.twinAck 5000 (hdr 8) 4) u).sentReports = [(5, [(1, 20)])] := by
  decide +kernel
theorem test_ack_frees_an_answer : let u := { pairState (fun w => { w with role := .active, abortAnswers := [(4, 2, putPkt)] }) with
      fab := { (pairState id).fab with ctxs := [ctxS] } }
    ((after (exec (.twinAck 5000 (hdr 8) 4) u)).fab.ports[(2 : LinkId)].queue.map TxPkt.op) = [0x92] ∧ u.ctx? putPkt.link = some ctxS := by decide +kernel

/-- A module in the copy of a resync. -/
def copying (phase : BitVec 2) : State := pairState fun w => { w with role := .joining, phase := phase, pending := 5 }

theorem test_copy_records : let o := fun (i : CopyItem) => after (exec (.twinCopy 5000 (hdr 8) i) (copying 2))
    (o (.passEnd 256)).twin.phase = 2 ∧ (o (.passEnd 257)).twin.phase = 1 ∧ (o (.lpddrPage 1 2 [9])).part[(1 : PartId)].region = [⟨8192, 9⟩]
      ∧ (o (.kvPage 1 0 3 7)).part[(1 : PartId)].kv.pages = [((0, 3), .owned 7)] ∧ (o (.pigeonhole 259 6)).pghAt 259 = 6
      ∧ (o (.pigeonhole 259 6)).twin.pending = 4 ∧ (o (.outcome 1 3 none true 0 2 0 9)).env.outcomes.length = 1
      ∧ (o (.kvSeq 1 4 1 0 0 70 0 [])).part[(1 : PartId)].kv.seqs.map KvSeq.length = [70]
      ∧ (after (exec (.twinCopy 5000 (hdr 8) (.pigeonhole 259 6)) (copying 0))).pghAt 259 = 0 := by decide +kernel
theorem test_copied_store_row : let d : Dword := BitVec.ofNat 64 (rowDigest 5 [1, 2])
    let o := fun (d : Dword) => (after (exec (.twinCopy 5000 (hdr 8) (.storeRow 0 5 [1, 2] d)) (copying 1))).eng[(0 : EngId)]
    memRead (o d).store (16384 * 5) 2 = [1, 2] ∧ assoc 5 (o d).digests.reference = some d ∧ (o (d + 1)).store = []
      ∧ (copying 1).eng[(0 : EngId)].mem.storeMarked = [] ∧ memWf (copying 1).eng[(0 : EngId)].store = true := by decide +kernel
theorem test_copied_page_makes_words_good : let u := (copying 1).updEng 0 fun g => { g with mem := { g.mem with actBad := [4088, 4096, 8184, 8192] } }
    let bs := List.replicate 4096 (0 : Byte)
    bs.length = 4096 ∧ memWf u.eng[(0 : EngId)].act = true
      ∧ (after (exec (.twinCopy 5000 (hdr 8) (.actPage 0 1 bs)) u)).eng[(0 : EngId)].mem.actBad = [4088, 8192] := by decide +kernel

/-! The pair in its own time. -/

/-- An envelope of partition 1 that nothing stages. -/
def pairEnv : Envelope := { part := 1, handle := 3, opener := none, expiry := 9000 }

/-- A standby in step with it. -/
def mirroring (l : List Envelope) : State := { pairState id with env := { (pairState id).env with opens := l } }

theorem test_mirrored_envelope_events : let v := mirroring [pairEnv]
    v.env? 1 3 = some pairEnv ∧ v.env.applies = [] ∧ v.env.notes = [] ∧ ((v.mirror (.commit 1 3)).env.outcomes.map EnvOutcome.committed) = [true]
      ∧ ((v.mirror (.abort 1 3)).env.outcomes.map EnvOutcome.reason) = [1] ∧ (mirroring []).env? 1 3 = none := by decide +kernel
theorem test_mirrored_release : let v := { waitState (some (.pgh 3 5 90 100)) with twin := { svc.twin with role := .inStep } }
    v.waiting 0 = some (job, .pgh 3 5 90 100) ∧ v.pghIndex 1 3 = some 259 ∧ (v.mirror (.release 0 1 2)).pghAt 259 = 0
      ∧ ({ waitState none with twin := { svc.twin with role := .inStep } } : State).waiting 0 = none
      ∧ ((mirroring []).mirror (.command 0 (ask [2]))).eng[(2 : EngId)].fenced = true := by decide +kernel
theorem test_mirrored_put : let v : State := { pairState id with fab := { (pairState id).fab with ctxs := [ctxS], wins := windows .lpddr 7 } }
    v.ctx? putPkt.link = some ctxS ∧ v.win? 5 = (windows .lpddr 7).head? ∧ v.units = [] ∧ v.opsNow = []
      ∧ (v.mirror (.admission 2 1 putPkt 0 0)).part[(1 : PartId)].region = [⟨4, 1⟩, ⟨5, 2⟩, ⟨6, 3⟩]
      ∧ (v.mirror (.admission 2 1 putPkt 0 0)).fab.ctxs.map Ctx.opsTok = [9] := by decide +kernel
theorem test_mirror_execute : let u := pairState fun w => { w with forwarded := [(5001, .command 0 (ask [2]))] }
    let o := fun (n : Nat) => after (exec (.mirrorExecute n) { u with now := n })
    (o 5001).eng[(2 : EngId)].fenced = true ∧ (o 5001).twin.forwarded = [] ∧ (o 5000).twin.forwarded.length = 1
      ∧ (∀ p : PartId, u.part[p].dissolving = none) := by decide +kernel
theorem test_heartbeat_and_claim : let u := pairState fun w => { w with role := .active, refreshed := 5000, claimOut := true }
    let o := fun (i : Instr) (n : Nat) => twinOf i { u with now := n }
    (o (.heartbeatSend 5256) 5256).outbox = [(8, 1)] ∧ (o (.heartbeatSend 5255) 5255).outbox = []
      ∧ (o (.claimWatchdogExpiry 7048) 7048).claimOut = false ∧ (o (.claimWatchdogExpiry 7047) 7047).claimOut = true
      ∧ (o (.claimInChange 5000 false) 5000).claimInSince = 5000 ∧ (o (.claimInChange 5000 true) 5000).claimInSince = 0 := by decide +kernel
theorem test_report_send : let u := fun (n last : Nat) => pairState fun w => { w with
      role := .active, peerInStep := true, lastReport := last, unreported := List.replicate n (1, 4, 5) }
    let o := fun (n last : Nat) => (twinOf (.reportSend 5000) (u n last)).sentReports.length
    o 0 4744 = 1 ∧ o 0 4745 = 0 ∧ o 8 4745 = 1 ∧ o 7 4745 = 0 := by decide +kernel
theorem test_heartbeat_loss : let o := fun (role : TwinRole) (claim : Bool) (n : Nat) =>
      (twinOf (.heartbeatLoss n) { pairState (fun w => { w with role := role, claimIn := claim, peerInStep := true }) with now := n })
    (o .active false 9086).peerInStep = false ∧ (o .active false 9085).peerInStep = true ∧ (o .inStep false 9086).silent = true
      ∧ (o .inStep false 9086).role = .inStep ∧ (o .inStep true 9086).role = .outOfStep ∧ hasBit (o .inStep true 9086).event 7 = true
      ∧ (o .joining false 9086).role = .unpaired := by decide +kernel

/-- A message held back. -/
def heldMsg (port : PortId) (seq : Dword) : PortId × TxPkt := (port, { txAsk with pkt := { putPkt with outputSeq := seq } })

/-- A standby that may take over. -/
def takes (f : Twin → Twin) : State :=
  let s := pairState fun w => f { w with
    claimIn := false, claimInSince := 4936, silent := true, reported := w.reported.set 1 9, held := [heldMsg 2 18, heldMsg 2 17]
    reportedCtx := [(0x0101, 5, 6)] }
  { s with fab := { s.fab with ctxs := [ctxS] }, jobs := [{ job with last := 9000 }] }

theorem test_takeover : let w := after (exec (.takeover 5000) (takes id))
    (w.twin.role, w.twin.claimOut, w.twin.lastTakeover, w.twin.reemit[(1 : PartId)]) = (.active, true, 5000, 17)
      ∧ (w.fab.ports[(2 : LinkId)].queue.map fun x => (x.pkt.outputSeq, x.pkt.flags)) = [(17, 4), (18, 0)] ∧ w.jobs.map Job.last = [7848]
      ∧ (w.fab.ctxs.map fun c => (c.tx, c.txEpoch)) = [(4101, 1)] := by decide +kernel
theorem test_no_takeover : let o := fun (f : Twin → Twin) => (twinOf (.takeover 5000) (takes f)).role
    o (fun w => { w with claimInSince := 4937 }) = .inStep ∧ o (fun w => { w with claimIn := true }) = .inStep ∧ o (fun w => { w with silent := false }) = .inStep
      ∧ o (fun w => { w with wiringBad := true }) = .inStep ∧ o (fun w => { w with silent := false, gaveUpSeen := true }) = .active := by decide +kernel
theorem test_takeover_aborts : let u := { takes id with env := { (takes id).env with opens := [pairEnv] } }
    ((after (exec (.takeover 5000) u)).env.outcomes.map fun o => (o.reason, o.postmark)) = [(5, 5000)] := by decide +kernel
theorem test_cutover : let c : RunCmd := { opcode := 0x0A01, req := ask [0, 0, 0, 0], order := 1, waiting := false, part := none }
    let o := fun (pending : BitVec 15) (gone : BitVec 7) => after (exec (.resyncCutover 5000) ((pairState fun w => { w with
      role := .joining, phase := 2, resyncMbx := some 3, pending := pending, abandoned := gone }).updHost fun h =>
        { h with mbx := h.mbx.set 3 { h.mbx[3] with cmd := some c } }))
    let status := fun (w : State) => (w.host.mbx[(3 : MbxId)].cmd.bind RunCmd.result).map Prod.fst
    (o 0 0).twin.role = .inStep ∧ status (o 0 0) = some stOk ∧ (o 1 62).twin.abandoned = 63 ∧ status (o 1 62) = none
      ∧ (o 1 63).twin.phase = 0 ∧ status (o 1 63) = some stBusy
      ∧ (twinOf (.resyncCutover 5000) (pairState fun w => { w with role := .active })).peerInStep = true := by decide +kernel

/-! Start-up (chapter 18). -/

/-- The module in a phase, after another change of its power. -/
def phased (ph : Phase) (f : Power → Power) : State := { svc with pwr := f { svc.pwr with phase := ph, startSrc := true } }

/-- The power after a command. -/
def pwrOf (i : Instr) (u : State) : Power := (after (exec i u)).pwr

/-- What the tray sees at power-up. -/
def trayAt (vin : Half) : PowerUpCond := { vin := vin, present := true, epo := false, heldOneSecond := true }

theorem test_power_up : let o := fun (c : PowerUpCond) (f : Power → Power) => (pwrOf (.powerUp 7 c) (phased .unpowered f)).phase
    o (trayAt 4800) id = .starting ∧ o (trayAt 6000) id = .starting ∧ o (trayAt 4799) id = .unpowered ∧ o (trayAt 6001) id = .unpowered
      ∧ o { trayAt 5000 with heldOneSecond := false } id = .unpowered ∧ o (trayAt 5000) (fun p => { p with latchedOpen := true }) = .unpowered
      ∧ (pwrOf (.powerUp 7 { trayAt 5000 with epo := true }) (phased .unpowered fun p => { p with latchedOpen := true })).latchedOpen = false
      ∧ (after (exec (.powerUp 7 (trayAt 5000)) (phased .unpowered id))).now = 0 ∧ o (trayAt 5000) (fun p => { p with phase := .rom }) = .rom := by
  decide +kernel
theorem test_clock_source : (pwrOf (.clockSourceSelect 7 false) (phased .starting id)).source = true
    ∧ (after (exec (.clockSourceSelect 7 false) (phased .starting id))).now = 0 ∧ (pwrOf (.clockSourceSelect 7 false) (phased .rom id)).source = false := by
  decide +kernel
theorem test_rom_start : let o := fun (straps : BitVec 12) (par fuse : Bool) (e : Nat) =>
      (after (exec (.romStart 7 straps par fuse) { phased .starting id with sec := { svc.sec with epoch := e } }))
    ((o 0x025 false true 3).pwr.slotId, (o 0x025 true true 3).pwr.slotId) = (0x025, 0xFFFF) ∧ (o 0x025 false true 3).pwr.phase = .rom
      ∧ ((o 0x025 false true 3).sec.epoch, (o 0x025 false true 3).sec.exhausted) = (4, false) ∧ ((o 0 true false 3).sec.epoch, (o 0 true false 3).sec.exhausted) =
        (3, true) ∧ (o 0 true true 4095).sec.exhausted = true ∧ (o 0 true true 3).part[(0 : PartId)].regionGib = 4
      ∧ (pwrOf (.romStart 7 0x025 false true) (phased .ejecting fun p => { p with rebootFrom := some 4 })).phase = .rom
      ∧ (pwrOf (.romStart 7 0x025 false true) (phased .ejecting id)).phase = .ejecting := by decide +kernel
theorem test_images_verified : let o := fun (bad : List (Fin 5)) (torn : List Nat) =>
      (after (exec (.imagesVerified 7 bad) { phased .rom id with fw := { svc.fw with torn := torn } }))
    (o [] []).pwr.phase = .imagesVerified ∧ (o [2] []).pwr.phase = .recovery ∧ (o [2] []).fw.invalid = [2] ∧ (o [] [3]).pwr.phase = .recovery
      ∧ (o [0] []).pwr.loaderBad = true ∧ (o [2] []).pwr.loaderBad = false ∧ (o [] []).pwr.settingsDefaulted = true
      ∧ settingsInUse svc.fw.nor = none ∧ (pwrOf (.imagesVerified 7 []) (phased .starting id)).phase = .starting := by decide +kernel
theorem test_store_tested : let u := { phased .imagesVerified id with
      eng := svc.eng.set 2 { store := [⟨5, 1⟩], mem := { keptRows := [4], storeBad := [3] } }
      hist := { svc.hist with ring := [{ type := 2, unit := 3 }] } }
    let o := fun (rows : List Nat) => after (exec (.storeTested 7 [(2, rows)] true) u)
    (∀ e : EngId, u.holder e = none) ∧ (o [7]).pwr.phase = .storeTested ∧ (o [7]).eng[(2 : EngId)].store = [] ∧ (o [7]).eng[(2 : EngId)].fenced = false
      ∧ (∀ row ∈ [4, 7], row ∈ (o [7]).eng[(2 : EngId)].mem.spared) ∧ (o (List.range 32)).eng[(2 : EngId)].fenced = false
      ∧ (o ((List.range 32).map (100 + ·))).eng[(2 : EngId)].fenced = true ∧ (o [7]).eng[(3 : EngId)].fenced = true := by decide +kernel
theorem test_memory_trained : let o := fun (failed : Bool) (st : Status) => pwrOf (.memoryTrained 7 failed) (phased .storeTested fun p => { p with bootStatus := st })
    (o false stOk).phase = .memoryTrained ∧ (o true stOk).bootStatus = stBistFail ∧ (o true stOk).phase = .storeTested ∧ (o false stBistFail).phase = .storeTested := by
  decide +kernel
theorem test_ports_locked : let u := { phased .memoryTrained id with fab := { svc.fab with ports := svc.fab.ports.set 1 { svc.fab.ports[1] with state := .unused } } }
    let o := (after (exec (.portsLocked 7 [1, 2]) u)).fab.ports
    o[(2 : LinkId)].lock = true ∧ o[(2 : LinkId)].state = .locked ∧ o[(1 : LinkId)].lock = false ∧ o[(3 : LinkId)].lock = false ∧ u.host.hpReady = true := by
  decide +kernel

/-- The module with its ports locked, in slot 37 under a plan, link 2 having named itself. -/
def atService (slot : Half) (bootStatus : Status) : State :=
  let s := phased .portsLocked fun p => { p with slotId := 37, bootStatus := bootStatus, level := 1 }
  { s with fab := { s.fab with
      plan := some { slot := slot, twinSlot := 0xFFFF, ports := [{}, {}, { mode := 2, farId := 88, farPort := 5 }], filters := [], bytes := [] }
      ports := s.fab.ports.set 2 { s.fab.ports[(2 : LinkId)] with state := .locked, lock := true, identSeen := true, farId := 88, farPort := 5 } } }

theorem test_service : let o := fun (c : BitVec 12) (slot : Half) => after (exec (.service 7 c) (atService slot stOk))
    (o 60 37).pwr.phase = .service ∧ (o 180 37).pwr.startSrc = false ∧ (o 60 37).fab.ports[(2 : LinkId)].state = .openPort
      ∧ (o 60 38).fab.ports[(2 : LinkId)].state = .locked ∧ (o 60 38).pwr.bootStatus = stDenied ∧ (o 60 37).pwr.bootStatus = stOk
      ∧ (o 59 37).pwr.phase = .portsLocked ∧ (o 181 37).pwr.bootStatus = stCoolantRange ∧ hasBit (o 181 37).pwr.thmEvent 3 = true
      ∧ (atService 37 stOk).pwr.level.toNat ≤ 1 := by decide +kernel
theorem test_coolant_recheck : let o := fun (c : BitVec 12) (st : Status) => pwrOf (.coolantRecheck 7 c) (atService 37 st)
    (o 60 stCoolantRange).phase = .service ∧ (o 60 stOk).phase = .portsLocked ∧ (o 59 stCoolantRange).phase = .portsLocked
      ∧ (pwrOf (.service 7 60) (atService 37 stCoolantRange)).phase = .portsLocked := by decide +kernel

/-- The module in SERVICE with every domain off, and words of engine 0 that are bad. -/
def domState : State := { phased .service id with
  pwr := { svc.pwr with domains := 0 }
  eng := svc.eng.set 0 { act := [⟨1024, 1⟩, ⟨2048, 2⟩], store := [⟨4095, 3⟩, ⟨4096, 4⟩], mem := { actBad := [1024, 2048], storeBad := [0] } } }

theorem test_domain_ramp : let o := fun (d : Fin 162) => after (exec (.domainRamp 7 d) domState)
    domState.pwr.phase ≠ .unpowered ∧ domState.pwr.ejectAt = none ∧ hasBit (o 12).pwr.domains 12 = true ∧ (o 12).eng[(0 : EngId)].act = [⟨2048, 2⟩]
      ∧ (o 12).eng[(0 : EngId)].mem.actBad = [2048] ∧ (o 91).eng[(0 : EngId)].store = [⟨4095, 3⟩] ∧ (o 91).eng[(0 : EngId)].mem.storeBad = []
      ∧ (o 11).eng[(0 : EngId)].mem.storeBad = [0] ∧ hasBit (o 161).pwr.domains 161 = true := by decide +kernel
theorem test_domain_fault : let o := fun (d : Fin 162) => after (exec (.domainFault 7 d) domState)
    (o 3).eng[(0 : EngId)].fenced = true ∧ (o 3).eng[(1 : EngId)].fenced = false ∧ (o 113).eng[(5 : EngId)].fenced = true ∧ hasBit (o 161).pwr.event 1 = true
      ∧ (after (exec (.domainFault 7 116) { domState with fab := { domState.fab with outstanding := [awaited] } })).fab.outstanding = []
      ∧ (after (exec (.domainFault 7 139) { domState with vid := { domState.vid with streams := [stream0] } })).vid.streams = []
      ∧ (after (exec (.domainFault 7 142) { domState with cvu := { domState.cvu with units := domState.cvu.units.set 0 { queue := [crcJob] } } })).cvu.units[(0 : CvuId)].queue
        = [] ∧ (after (exec (.domainFault 7 3) { domState with pwr := { domState.pwr with domains := 8 } })).eng[(0 : EngId)].fenced = false := by decide +kernel
theorem test_lockstep_mismatch : let o := fun (u : State) => after (exec (.lockstepMismatch 7) u)
    let pair := pairState fun w => { w with role := .active, peerInStep := true }
    (o svc).pwr.phase = .starting ∧ (o svc).host.hpReady = false ∧ ((o svc).hist.ring.map fun r => (r.unit, r.mechanism)) = [(160, 10)]
      ∧ (o svc).twin.outbox = [] ∧ pair.hasStandby = true ∧ (o pair).twin.outbox = [(9, 1)]
      ∧ (o (svc.updHost fun h => { h with hpReady := false })).pwr.phase = .service := by decide +kernel

/-! Power, heat and the rack manager (chapters 18 and 20). -/

/-- The module in SERVICE at a thermal level, after another change of its power, with jobs that run. -/
def heated (l : BitVec 2) (jobs : List Job) (f : Power → Power) : State :=
  { phased .service f with pwr := { (phased .service f).pwr with level := l }, jobs := jobs, eng := busy.eng }

/-- A supply voltage that warns, and one that opens the power stage. -/
theorem test_supply : let o := fun (v : Half) (ph : Phase) => pwrOf (.uvWarn 7 v) (phased ph id)
    let x := fun (v : Half) (ph : Phase) => pwrOf (.overvoltage 7 v) (phased ph id)
    hasBit (o 4699 .service).event 0 = true ∧ hasBit (o 4700 .service).event 0 = false ∧ hasBit (o 4699 .unpowered).event 0 = false
      ∧ (x 6200 .service).phase = .service ∧ (x 6201 .service).phase = .unpowered ∧ (x 6201 .unpowered).vin = 6201
      ∧ (pwrOf (.refLost 7) (phased .service id)).refLost = true ∧ (pwrOf (.refLost 7) (phased .unpowered id)).refLost = false := by
  decide +kernel
theorem test_power_cut : let o := fun (i : Instr) (ph : Phase) => pwrOf i (phased ph fun p => { p with latchedOpen := true })
    (o (.epo 7) .service).phase = .unpowered ∧ (o (.epo 7) .service).latchedOpen = false ∧ (o (.epo 7) .unpowered).epo = true
      ∧ (pwrOf (.thermalTrip 7) (phased .service id)).latchedOpen = true ∧ (pwrOf (.thermalTrip 7) (phased .unpowered id)).latchedOpen = false
      ∧ (o (.eject 7 .presence) .unpowered).latchedOpen = false ∧ (o (.eject 7 .undervoltage) .unpowered).latchedOpen = true := by decide +kernel
theorem test_eject : let u := heated 0 [job] id
    let o := after (exec (.eject 7 .presence) u)
    let again := pwrOf (.eject 9 .undervoltage) (phased .ejecting fun p => { p with ejectAt := some 7, rebootFrom := some 7 })
    (u.jobs.map Job.id).Nodup ∧ u.pwr.ejectAt = none ∧ o.pwr.phase = .ejecting ∧ o.pwr.ejectAt = some 7 ∧ o.safeStop = true
      ∧ (o.jobs.map Job.early) = [some (7, stEjected)] ∧ again.rebootFrom = none ∧ again.ejectAt = some 7 := by decide +kernel
theorem test_eject_active : let u := pairState fun w => { w with role := .active, peerInStep := true }
    let o := twinOf (.eject 7 .undervoltage)
    u.hasStandby = true ∧ u.pwr.level ≠ 3 ∧ (o u).role = .gaveUp ∧ (o { u with pwr := { u.pwr with level := 3 } }).role = .active := by
  decide +kernel

theorem test_thermal_sample : let o := fun (l : BitVec 2) (v : List (BitVec 12)) => pwrOf (.thermalSample 7 v) (heated l [] id)
    (o 0 [379, 100]).level = 0 ∧ (o 0 [100, 380]).level = 1 ∧ (o 0 [400]).level = 2 ∧ (o 0 [419]).level = 2 ∧ (o 0 [420]).level = 3
      ∧ (o 2 [380]).level = 2 ∧ (o 0 [400]).thmEvent = 3 ∧ (o 2 [420]).thmEvent = 4 ∧ (o 0 [100, 380]).tjMax = 380
      ∧ (pwrOf (.thermalSample 7 [420]) (phased .unpowered id)).level = 0 := by decide +kernel
theorem test_heat_alone : let u := heated 2 [job] id
    let o := after (exec (.thermalSample 7 [420]) u)
    u.hasStandby = false ∧ job.early = none ∧ job.allEnded 8 = false ∧ (o.jobs.map Job.early) = [some (7, stThermalShed)]
      ∧ o.pwr.thmStop = { active := true, minEnd := 900007 } ∧ o.safeStop = true := by decide +kernel
/-- Level 2 ends the jobs of sheddable classes only. -/
theorem test_heat_sheds : let o := fun (pol : Word) => (after (exec (.thermalSample 7 [400])
        ((heated 1 [job] id).updEng 0 fun g => { g with dlClass := Vector.replicate 16 pol }))).jobs.map Job.early
    o 4 = [some (7, stThermalShed)] ∧ o 3 = [none] := by decide +kernel
theorem test_heat_pair : let u := fun (r : TwinRole) => pairState fun w => { w with role := r, peerInStep := true }
    (u .active).pwr.phase = .service ∧ (u .active).hasStandby = true ∧ (twinOf (.thermalSample 7 [420]) (u .active)).role = .gaveUp
      ∧ (twinOf (.thermalSample 7 [400]) (u .active)).role = .active ∧ (twinOf (.thermalSample 7 [420]) (u .inStep)).role = .outOfStep
      ∧ (twinOf (.thermalSample 7 [400]) (u .inStep)).role = .inStep := by decide +kernel
/-- Level 2 holds above 97 degC and for 100 ms after the last reading there. -/
theorem test_thermal_level_exit :
    let o := fun (now : Nat) (sensor : BitVec 12) => pwrOf (.thermalLevelExit now) (heated 3 [] fun p =>
      { p with sensors := [sensor], coolSince := #v[1000, 1000, 0], thmStop := { active := true, minEnd := 9, remembered := true } })
    (o 90000001 388).level = 2 ∧ (o 90000001 389).level = 2 ∧ (o 90001000 389).level = 2 ∧ (o 90001000 388).level = 1 ∧ (o 90001000 368).level = 0
      ∧ (o 90001000 409).level = 3 ∧ (o 90001000 368).thmStop = {} ∧ (o 90001000 409).thmStop.active = true := by decide +kernel
theorem test_coolant_range : let o := fun (c : BitVec 12) (ph : Phase) => pwrOf (.coolantInletRange 7 c) (phased ph id)
    (o 59 .service).thmEvent = 8 ∧ (o 60 .service).thmEvent = 0 ∧ (o 180 .service).coolant = 180 ∧ (o 181 .service).thmEvent = 8
      ∧ (o 59 .portsLocked).thmEvent = 0 := by decide +kernel

theorem test_telemetry : let o := fun (ph : Phase) => pwrOf (.telemetryRefresh 7) (phased ph fun p => { p with windowMax := 300, vin := 5000, coolant := 100 })
    (o .service).telemetry.length = 12 ∧ (o .service).telemetry.take 2 = [0x88, 0x13] ∧ (o .service).telemetry.drop 4 = [44, 1, 100, 0, 6, 0, 1, 0]
      ∧ (o .service).lastWindow = 300 ∧ (o .unpowered).telemetry = [] := by decide +kernel
/-- 1,003 W reads as 1,000 W and 75.25 degC as 75 degC while a confidential partition exists (R294). -/
theorem test_smbus_read : let u := phased .service fun p => { p with telemetry := [0x88, 0x13, 0xEB, 3, 0x2D, 1, 100, 0, 6, 1, 0, 0] }
    let o := fun (i : Byte) => pwrOf (.smbusRead 7 i)
    let closed := u.updPart 1 fun _ => { pt with confidential := true }
    u.anyConfidential = false ∧ closed.anyConfidential = true ∧ (o 1 u).smbData = [0xEB, 3] ∧ (o 1 closed).smbData = [0xE8, 3]
      ∧ (o 2 u).smbData = [0x2D, 1] ∧ (o 2 closed).smbData = [0x2C, 1] ∧ (o 3 closed).smbData = [100, 0] ∧ (o 4 u).smbData = [6]
      ∧ (o 5 u).smbData = [1] ∧ (o 5 u).smbAck = true ∧ (pwrOf (.smbusRead 7 4) (phased .unpowered id)).smbData = [] := by decide +kernel
theorem test_smbus_rest : let u := phased .service fun p => { p with smbAck := true }
    (pwrOf (.smbusWrite 7) u).smbAck = false ∧ (pwrOf (.smbusTimeout 7) u).smbAck = true := by decide +kernel

/-! The ranges of operands: of each check one command inside and one outside. -/

theorem test_wf_requests : wellFormed (.echo 1 { req0 with args := List.replicate 1920 1 }) = true
    ∧ wellFormed (.echo 1 { req0 with args := List.replicate 1921 1 }) = false ∧ wellFormed (.recInfo 1 { req0 with reserved := List.replicate 106 1 }) = true
    ∧ wellFormed (.recInfo 1 { req0 with reserved := List.replicate 107 1 }) = false := by decide +kernel
theorem test_wf_packets : wellFormed (.put 1 0 putPkt) = true ∧ wellFormed (.put 1 0 { putPkt with length := 4 }) = false
    ∧ wellFormed (.get 1 0 { length := 4097, payload := List.replicate 4097 0 } {}) = false ∧ wellFormed (.notify 1 0 { opCode := some 7 }) = true
    ∧ wellFormed (.notify 1 0 { opCode := some 0x86 }) = false ∧ wellFormed (.credit 1 0 (List.replicate 5 (1, 1))) = true
    ∧ wellFormed (.credit 1 0 (List.replicate 6 (1, 1))) = false := by decide +kernel
theorem test_wf_host : wellFormed (.hostDataRowWrite 1 0 959 60 [1, 2, 3, 4] {}) = true ∧ wellFormed (.hostDataRowWrite 1 0 960 0 [] {}) = false
    ∧ wellFormed (.hostDataRowWrite 1 0 0 61 [1, 2, 3, 4] {}) = false ∧ wellFormed (.triggerRecord 1 0 (List.replicate 31 0)) = false
    ∧ wellFormed (.triggerRecord 1 0 (List.replicate 65 0)) = false ∧ wellFormed (.sealEntry 1 0 31 (List.replicate 32 0)) = true
    ∧ wellFormed (.sealEntry 1 0 32 (List.replicate 32 0)) = false ∧ wellFormed (.bulkWrite 1 0 33488895 [1]) = true
    ∧ wellFormed (.bulkWrite 1 0 33488896 [1]) = false ∧ wellFormed (.bulkRead 1 0 33488895 2) = false
    ∧ wellFormed (.bulkFetchDone 1 0 8175) = true ∧ wellFormed (.bulkFetchDone 1 0 8176) = false := by decide +kernel
theorem test_wf_slots : wellFormed (.ldv 1 0 393200 15 {}) = true ∧ wellFormed (.ldv 1 0 393201 15 {}) = false ∧ wellFormed (.ldv 1 0 0 16 {}) = false
    ∧ wellFormed (.tld 1 0 8192 false 0 {}) = false ∧ wellFormed (.kvt 1 0 0 false 64 false {}) = false
    ∧ wellFormed (.mat 1 0 { dest := 393215 } {}) = true ∧ wellFormed (.mat 1 0 { dest := 393216 } {}) = false
    ∧ wellFormed (.mat 1 0 { afmt := 13 } {}) = false ∧ wellFormed (.vadd 1 0 { dst := 393215 } {}) = true
    ∧ wellFormed (.vadd 1 0 { srcB := 393216 } {}) = false ∧ wellFormed (.vargmax 1 0 { srcA := 393216 } {}) = false := by decide +kernel
theorem test_wf_moves : wellFormed (.out 1 0 393214 1 1023 true {}) = true ∧ wellFormed (.out 1 0 393215 1 0 true {}) = false
    ∧ wellFormed (.outn 1 0 0 0 1024 true {}) = false ∧ wellFormed (.ldr 1 0 393216 0 {}) = false ∧ wellFormed (.ldw 1 0 0 1024 {}) = false
    ∧ wellFormed (.wait 1 0 1023 255 {}) = true ∧ wellFormed (.wait 1 0 0 0 {}) = false ∧ wellFormed (.note 1 0 1024 1 {}) = false
    ∧ wellFormed (.loop 1 0 256 {}) = false ∧ wellFormed (.test 1 0 254 {}) = true ∧ wellFormed (.test 1 0 255 {}) = false
    ∧ wellFormed (.storeScrub 1 0 8192 {}) = false ∧ wellFormed (.thermalSample 1 (List.replicate 37 0)) = false
    ∧ wellFormed (.twinAdmission 1 (hdr 8) 0 2 { length := 1 } 0 0) = false
    ∧ wellFormed (.twinCommand 1 (hdr 8) 1 { req0 with args := List.replicate 1921 0 }) = false := by decide +kernel

/-! The manual's worked examples. -/

/-- Chapter 03: 1 + 2^-30 in an FP8 chain is emitted as 1.0. -/
theorem test_emit_example : (emitFp32 .fp8 { val := BitVec.ofNat 96 (2 ^ 32 + 4) }).code = 0x3F800000 := by decide +kernel
/-- Chapter 03: one MXFP4 block gives the exact partial 0x44_4000_0000, and 34.125. -/
theorem test_mxfp4_example :
    let x := fun k => numOf 9 (if 28 ≤ k then 0 else [0x3, 0xC, 0x7, 0x1].getD (k % 4) 0)
    let w := fun k => numOf 9 ([0x6, 0xD, 0x9, 0x3].getD (k % 4) 0)
    let c := accumulate .block true {} 32 x w (fun _ => 0x7C) fun _ => 0x81
    (colSum 32 x w (List.range 32)).sum = 0x4440000000 ∧ c.val = 0x00000005_8880000000000000 ∧ (emitFp32 .block c).code = 0x42088000 := by
  decide +kernel
/-- Chapter 04: a full INT8 tile takes 9 rows. -/
theorem test_tile_example : tileRows ⟨0, 384, 384⟩ = 9 ∧ tileElemBytes ⟨9, 33, 8⟩ = 136 := by decide +kernel
/-- Chapter 05: bundle 52 of RCK-1. -/
theorem test_bundle_example :
    let b := slotsOf 0x0003000000020000004200000000000000000000000000000000000000000000
    b.mop = 2 ∧ b.line = 8 ∧ b.last = true ∧ b.cop = 3 ∧ b.rsvd = false ∧ b.vop = 0 ∧ b.sop = 0 ∧ b.isMat = false ∧ b.vec = 0 ∧ b.sync = 0 ∧ b.len = 0
      ∧ b.route = 0 := by decide +kernel
/-- Chapter 06: the integer Winograd transforms of the example. -/
theorem test_winograd_example :
    winInt winBt [[1, 2, 0, 1], [0, 3, 1, 2], [2, 1, 0, 0], [1, 0, 2, 1]] 4 = [[-1, 1, -1, 0], [1, 5, -3, 2], [3, -3, 1, 0], [0, 2, -4, 2]]
      ∧ winInt winAt [[-1, 0, 0, 0], [3, 15, -9, 0], [-3, 9, 1, 0], [0, 0, -8, 2]] 4 = [[12, 32], [24, 8]] := by decide +kernel
/-- Chapter 07: MXINT8 pages of d = 512. -/
theorem test_kv_page_example : pageRows 4 512 = 6 ∧ (pageTiles 4 512).map (fun t => (t.isScore, t.first)) = [(true, 0), (true, 2), (false, 3), (false, 5)] := by
  decide +kernel
/-- Chapter 10: RCK-1's trigger as header bytes. -/
theorem test_header_example :
    let p : Packet :=
      { length := 384, link := 0x0123, epoch := 2, pktSeq := 0x1F40, tag := 7, window := 37, notifyPgh := 5, notifyAdd := 1, arg := 9000 }
    headerBytes 2 p = [2, 0, 0x80, 1, 0x23, 1, 2, 0, 0x40, 0x1F, 0, 0, 7, 0, 0, 0, 0x25, 0, 0xFF, 0xFF, 5, 0, 1, 0] ++ List.replicate 8 0 ++ [0x28, 0x23, 0, 0]
      ++ List.replicate 12 0 := by decide +kernel
/-- Chapter 08: the checksum column and the raw-code sums of a 3 x 3 INT8 tile, and what one flipped bit does to them (R187). -/
theorem test_checked_example :
    let b := fun (flip : Nat) (i : Nat) => [2, 0xFF, 4, 0, 3 + flip, 0xFE, 5, 1, 1].getD i 0
    let v := fun (i : Nat) => [3, 0xFE, 1].getD i 0
    let t : TileShape := ⟨0, 3, 3⟩
    let e := fun (flip : Nat) => matEntry .int true {} t 0 (b flip) v
    columnSums t (b 0) = [7, 259, 259] ∧ (e 0).cols.map (fun c => c.val.toInt) = [11, -8, 17] ∧ (e 0).chk = 20 ∧ checkPasses .int (e 0) = true
      ∧ readbackFails t (b 4) [7, 259, 259] = some 1 ∧ checkPasses .int { e 4 with chk := 20 } = false := by decide +kernel
/-- Chapter 06: a tie between channels 17 and 530 keeps 17. -/
theorem test_argmax_example : (bestPair 13 ((List.range 88).map fun i => (512 + i, if i = 18 then 0x40880000 else 0))
    (some { val := 0x40880000, isFloat := true, idx := 17 })).map ArgPair.idx = some 17 := by decide +kernel
/-- Chapter 09: the event of a cycle outlasts a clear of that cycle, and not one of the next (R13). -/
theorem test_event_and_clear : let u := after (exec (.unmappedWrite 5 0x20000) parted)
    let seen := fun (s : State) => hasBit (s.host.errWas ||| s.host.err) 1
    seen (put u 0x10200 0xF) = true ∧ seen (after (exec (.registerWrite 6 0x10200 0xF) u)) = false := by decide +kernel
/-- Chapter 20: the straps of slot 37, all grounded, and a parity that is even. -/
theorem test_slot_example : slotIdOf 0x025 false = 37 ∧ slotIdOf 0 false = 0xFFFF ∧ slotIdOf 0x025 true = 0xFFFF ∧ slotIdOf 0x021 true = 0x021 := by decide +kernel

/-! Check values and ciphers. -/

/-- Table 16.1 and the example of chapter 16. -/
theorem test_crc_values : crc32c [0x31, 0x32, 0x33, 0x34, 0x35, 0x36, 0x37, 0x38, 0x39] = 0xE3069283
    ∧ crc64Folded (fun _ => 0) [0x31, 0x32, 0x33, 0x34, 0x35, 0x36, 0x37, 0x38, 0x39] = 0x6C40DF5F0B497347
    ∧ crc64Folded (fun _ => 0) [1] = 0x42F0E1EBA9EA3693 ∧ crc64Folded (fun _ => 0x100) [0] = 0x10000 := by decide +kernel
/-- FIPS 197, appendix C.3. -/
theorem test_aes256 : cipherBlock (roundKeys ((List.range 32).map (BitVec.ofNat 8 ·))) ((List.range 16).map fun i => BitVec.ofNat 8 (17 * i)) =
    [0x8E, 0xA2, 0xB7, 0xCA, 0x51, 0x67, 0x45, 0xBF, 0xEA, 0xFC, 0x49, 0x90, 0x4B, 0x49, 0x60, 0x89] := by decide +kernel
/-- The GCM test case of an empty message under the zero key and nonce. -/
theorem test_gcm_empty : gcmSeal (List.replicate 32 0) (List.replicate 12 0) [] [] =
    ([], [0x53, 0x0F, 0x8A, 0xFB, 0xC7, 0x45, 0x36, 0xB9, 0xA9, 0x63, 0xB4, 0xF1, 0xC4, 0xCB, 0x73, 0x8B]) := by decide +kernel
/-- FIPS 202: SHAKE256 of the empty message. -/
theorem test_shake256 : (shake256 []).take 8 = [0x46, 0xB9, 0xDD, 0x2B, 0x0B, 0xA8, 0x8D, 0x13] := by decide +kernel

end Sys2Proof.Tests
end

/-! SUPPORT. Time while nothing is due (R39, R114), and the step of the queue's front. -/

namespace Sys2Proof.Machine

/-! ### Folds whose step changes nothing -/

/-- A fold of steps that leave the state as it is ends where it began. -/
theorem foldl_fixed {α β : Type} (f : β → α → β) (b : β) (l : List α) (h : ∀ x ∈ l, f b x = b) : l.foldl f b = b := by
  induction l with
  | nil => rfl
  | cons x l ih =>
    rw [List.foldl_cons, h x (List.mem_cons_self ..)]
    exact ih fun y hy => h y (List.mem_cons_of_mem _ hy)

/-! ### Time (R39): the parts of `advance` that find nothing to do -/

section
variable {s : State} {n : Nat}

/-- Without an abort that waits for the end of its cycle none is finished. -/
theorem State.finishAborts_none (h : ∀ v ∈ s.env.opens, v.closing = none) : s.finishAborts n = s :=
  foldl_fixed _ _ _ fun v hv => by simp only [h v hv]

/-- The landings kept are all landings where none is due. -/
theorem Engine.keepsLandings {g : Engine} (h : ∀ l ∈ g.landings, n < l.due) :
    (g.landings.filter fun l => !decide (l.due ≤ n)) = g.landings :=
  List.filter_eq_self.2 fun l hl => by simpa using h l hl

/-- No landing is due by a cycle before all of them. -/
theorem Engine.dueLandings_nil {g : Engine} (h : ∀ l ∈ g.landings, n < l.due) :
    (g.landings.filter fun l => decide (l.due ≤ n)) = [] :=
  List.filter_eq_nil_iff.2 fun l hl => by simpa using h l hl

theorem State.dueBy_nil (h : Cert.NothingDue s n) : s.dueBy n = [] := by
  unfold State.dueBy
  rw [List.flatMap_eq_nil_iff.2 fun e _ => by rw [Engine.dueLandings_nil (h e), List.map_nil]]
  rfl

theorem State.dueCount_zero (h : Cert.NothingDue s n) : s.dueCount n = 0 := by
  unfold State.dueCount
  rw [List.map_congr_left fun e _ => by rw [Engine.dueLandings_nil (h e), List.length_nil]]
  rfl

/-- Where nothing is due, nothing settles. -/
theorem State.settle_nothingDue (h : Cert.NothingDue s n) : s.settle n = s := by
  unfold State.settle
  rw [State.dueBy_nil h, List.foldl_nil]
  exact foldl_fixed _ _ _ fun e _ => State.updEng_same s e _ (by rw [Engine.keepsLandings (h e)])

/-- A job that has neither ended nor been ended passes unchanged. -/
theorem State.passJob_running (h : ∀ j ∈ s.jobs, j.early = none ∧ j.ends = [] ∧ j.engines ≠ []) (id : Nat) :
    s.passJob id = s := by
  unfold State.passJob
  cases hj : s.job? id with
  | none => rfl
  | some j =>
    obtain ⟨hearly, hends, heng⟩ := h j (List.mem_of_find?_eq_some hj)
    have hleave : s.leaveEnded j = s := by simp [State.leaveEnded, hends]
    have hall : j.allEnded (s.now - 1) = false := by
      obtain ⟨e, l, hl⟩ := List.exists_cons_of_ne_nil heng
      simp [Job.allEnded, hends, hl, assoc]
    simp only [hearly, hleave, hall, Bool.false_eq_true, if_false]

/-- No schedule that waits to be freed: none is dropped. -/
theorem State.dropDisarmed_none (h : ∀ c ∈ s.scheds, c.disarming = false) : s.dropDisarmed = s := by
  unfold State.dropDisarmed
  rw [List.filter_eq_self.2 fun c hc => by simp [h c hc]]

theorem State.passSweeps_none (h : s.bist.sweeps = []) : s.passSweeps = s := by
  unfold State.passSweeps
  rw [h, List.foldl_nil]

theorem State.passEject_none (h : s.pwr.ejectAt = none) : s.passEject = s := by
  unfold State.passEject
  rw [h]

/-- What passes at the end of an advance of a quiet state changes nothing. -/
theorem State.pass_quiet (h : Cert.Quiet s) :
    ((s.jobs.map Job.id).foldl State.passJob s).dropDisarmed.passSweeps.passEject = s := by
  obtain ⟨hjobs, hscheds, -, hsweeps, heject⟩ := h
  rw [foldl_fixed _ _ _ fun id _ => State.passJob_running hjobs id, State.dropDisarmed_none hscheds,
    State.passSweeps_none hsweeps, State.passEject_none heject]

end

/-! ### What keeps a state quiet -/

theorem State.rewriteStatus_cases (s : State) : s.rewriteStatus = s ∨ ∃ row, s.rewriteStatus =
    s.updPwr fun p => { p with statusRow := row, statusRowAt := s.now } := by
  unfold State.rewriteStatus
  split
  · exact .inl rfl
  · exact .inr ⟨_, rfl⟩

@[simp] theorem State.rewriteStatus_now (s : State) : s.rewriteStatus.now = s.now := by
  rcases s.rewriteStatus_cases with h | ⟨row, h⟩
  · rw [h]
  · rw [h, State.updPwr_now]

theorem State.quiet_rewriteStatus {s : State} (h : Cert.Quiet s) : Cert.Quiet s.rewriteStatus := by
  rcases s.rewriteStatus_cases with hs | ⟨row, hs⟩ <;> rw [hs] <;> exact h

theorem State.nothingDue_rewriteStatus {s : State} {n : Nat} (h : Cert.NothingDue s n) :
    Cert.NothingDue s.rewriteStatus n := by
  rcases s.rewriteStatus_cases with hs | ⟨row, hs⟩ <;> rw [hs] <;> exact h

/-- The end of a cycle leaves a state quiet. -/
theorem State.quiet_moveTo {s : State} (h : Cert.Quiet s) (n : Nat) : Cert.Quiet (s.moveTo n) := by
  rcases Nat.lt_or_ge s.now n with hn | hn
  · rw [State.moveTo_later hn]
    exact h
  · rwa [State.moveTo_past hn]

theorem State.moveTo_max (s : State) (t : Nat) : s.moveTo (max s.now t) = s.moveTo t := by
  rcases Nat.le_total s.now t with h | h
  · rw [max_eq_right h]
  · rw [max_eq_left h, State.moveTo_past h, State.moveTo_past le_rfl]

/-- Where nothing is due, an advance writes the status row and moves the postmark (R39, R114). -/
theorem State.advance_quiet {s : State} {t : Nat} (hq : Cert.Quiet s) (hd : Cert.NothingDue s (max s.now t)) :
    s.advance t = s.rewriteStatus.moveTo t := by
  have hq' := State.quiet_rewriteStatus hq
  have hd' := State.nothingDue_rewriteStatus hd
  obtain ⟨-, -, hopens, -, -⟩ := id hq'
  unfold State.advance
  simp only [State.finishAborts_none hopens, State.dueCount_zero hd', Nat.mul_zero, State.settleUpTo,
    State.settle_nothingDue hd']
  rw [State.pass_quiet (State.quiet_moveTo hq' _)]
  simpa using State.moveTo_max s.rewriteStatus t

end Sys2Proof.Machine

namespace Sys2Proof.Proofs
open Sys2Proof Sys2Proof.Machine

/-- Settles O1: `step` is a match on the queue. -/
theorem stepRunsTheFrontCommand : Obligations.StepRunsTheFrontCommand := by
  unfold Obligations.StepRunsTheFrontCommand
  exact fun c rest s => ⟨rfl, rfl⟩

/-- Settles O5: each part of `advance` finds nothing to do in a quiet state, and both the status row and the end of a cycle keep it
quiet. -/
theorem timePassesWhileNothingIsDue : Obligations.TimePassesWhileNothingIsDue := by
  unfold Obligations.TimePassesWhileNothingIsDue
  intro s t hq hd
  rw [State.advance_quiet hq hd]
  refine ⟨rfl, fun h => ?_, fun h => ?_⟩
  · exact State.moveTo_past (by simpa using h)
  · exact State.moveTo_later (by simpa using h)

end Sys2Proof.Proofs

/-! SUPPORT. STORE_TESTED with an envelope open: the fence that it brings reaches the host port. -/

namespace Sys2Proof.Machine

/-- The host's ENV_COMMIT in mailbox 0, not yet answered. -/
def commitAsked : RunCmd :=
  { opcode := 0x0301, req := { mailbox := 0, doorbell := 1, argBytes := 8, args := [] }, order := 0, waiting := false, part := none }

/-- An open envelope that stages a PARTITION_LAYOUT of engine 0, and whose commit mailbox 0 has asked for. -/
def layoutEnvelope : Envelope :=
  { part := 0, handle := 0, opener := none, expiry := 0, asker := some (.mailbox 0)
    items := [.cmd 0x0102 { mailbox := 0, doorbell := 1, argBytes := 8, args := [0, 1] } 0 []] }

/-- The module once its images are verified, with that envelope open. -/
def layoutAtStart : State :=
  { host := { mbx := (Vector.replicate 65 {}).set 0 { cmd := some commitAsked } }
    env := { opens := [layoutEnvelope] }
    pwr := { phase := .imagesVerified } }

/-- A store test that finds 33 bad rows on engine 0, one more than can be spared (R101). -/
def tooManyBadRows : List (EngId × List Nat) := [(0, List.range 33)]

/-- The answer that the command in mailbox 0 holds ready. -/
def HostPort.firstAnswer (h : HostPort) : Option (Status × List Byte) := h.mbx[(0 : MbxId)].cmd.bind RunCmd.result

/-- That answer in the state that a step leaves. -/
def answerAfter : Host.Outcome State Fault Refusal → Option (Status × List Byte)
  | .next v => v.host.firstAnswer
  | _ => none

/-- The premises of STORE_TESTED, and no answer yet. -/
theorem layoutAtStart_premises : (layoutAtStart.advance 0).pwr.phase = .imagesVerified
    ∧ (∀ e : EngId, (layoutAtStart.advance 0).holder e = none) ∧ (layoutAtStart.advance 0).host.firstAnswer = none := by
  decide +kernel

/-- The 33rd row fences engine 0, the fence aborts the envelope that names it (Table 11.7), and the abort answers the pending ENV_COMMIT
(R276). -/
theorem storeTested_answersCommit :
    answerAfter (exec (.storeTested 0 tooManyBadRows true) layoutAtStart) = some (stEnvAborted, []) := by
  decide +kernel

end Sys2Proof.Machine

namespace Sys2Proof.Proofs
open Sys2Proof Sys2Proof.Machine

/-- Refutes O59: STORE_TESTED is said to leave the host port as it is, but where its 33rd bad row fences an engine that an open envelope
names, the abort of the envelope answers the mailbox that asked for its commit. -/
theorem not_startUpPassesItsPhases : ¬ Obligations.StartUpPassesItsPhases := by
  unfold Obligations.StartUpPassesItsPhases
  intro h
  obtain ⟨-, ⟨hstore, -⟩, -⟩ := h layoutAtStart 0
  obtain ⟨hphase, hfree, hnone⟩ := layoutAtStart_premises
  obtain ⟨v, hexec, -, -, hhost, -⟩ := (hstore tooManyBadRows true).2 hphase hfree
  have hanswer := storeTested_answersCommit
  rw [hexec] at hanswer
  have hsame : v.host.firstAnswer = none := by rw [hhost, hnone]
  exact absurd (hanswer.symm.trans hsame) (by simp)

end Sys2Proof.Proofs

/-! SUPPORT. Registers of the host port: where each lies, what its word is, and what a write or a read changes (R9, R11, R211, R214). -/

namespace Sys2Proof.Machine

/-! ### Bits of a written word -/

/-- Bit `i` of a word as the register file reads it. -/
theorem bitAt_toNat {n : Nat} (v : BitVec n) (i : Nat) : bitAt v.toNat i = v.getLsbD i := by
  simp [bitAt, bitsOf, BitVec.getLsbD, Nat.testBit_eq_decide_div_mod_eq]

/-- What a read returns is all that stood: nothing is left of the count (R214). -/
@[simp] theorem rcTake_self {n : Nat} (c : BitVec n) : rcTake c c.toNat = 0 := by
  simp [rcTake]

/-- A number put together from one bit of each place has those bits. -/
theorem hasBit_sum (b : Fin 7 → Bool) (p : Fin 7) :
    hasBit (BitVec.ofNat 7 ((List.finRange 7).map fun i => if b i then 2 ^ i.val else 0).sum) p.val = b p := by
  revert b p
  decide +kernel

/-! ### Where a register lies (Table 09.4) -/

section
variable {addr o : Nat}

theorem regAt_host (h : addr = 0x10000 + o) (ho : o < 0x10000) (h4 : o % 4 = 0) : regAt addr = some (.host, o) := by
  have hhi : addr / 65536 = 1 := by omega
  have hlo : addr % 65536 / 4 * 4 = o := by omega
  simp only [regAt, hhi, hlo, if_true]

theorem regAt_eng {e : EngId} (h : addr = 0x400000 + 0x10000 * e.val + o) (ho : o < 0x10000) (h4 : o % 4 = 0) :
    regAt addr = some (.eng e, o) := by
  have hhi : addr / 65536 = 0x40 + e.val := by omega
  have hlo : addr % 65536 / 4 * 4 = o := by omega
  unfold regAt
  simp only [hhi, hlo]
  rw [if_neg (by omega), dif_pos (by omega)]
  simp

theorem regAt_kv {p : PartId} (h : addr = 0x500000 + 0x1000 * (p.val - 1) + o) (hp : p ≠ 0) (ho : o < 0x1000) (h4 : o % 4 = 0) :
    regAt addr = some (.kv p, o) := by
  have hp0 : p.val ≠ 0 := fun h0 => hp (Fin.ext h0)
  have hhi : addr / 65536 = 0x50 := by omega
  have hmod4 : addr % 65536 = 0x1000 * (p.val - 1) + o := by omega
  have hlo : addr % 65536 / 4 * 4 = 0x1000 * (p.val - 1) + o := by rw [hmod4]; omega
  unfold regAt
  simp only [hhi, hlo]
  have hin : 0x1000 * (p.val - 1) + o < 0x6000 := by omega
  rw [if_neg (by decide), dif_neg (by decide), dif_pos ⟨trivial, hin⟩]
  have hdiv : (0x1000 * (p.val - 1) + o) / 0x1000 + 1 = p.val := by omega
  have hmod : (0x1000 * (p.val - 1) + o) % 0x1000 = o := by omega
  simp only [hdiv, hmod]

theorem regAt_block {k : Nat} (h : addr = 0x600000 + 0x10000 * k + o) (hk : k < 0xD) (ho : o < 0x10000) (h4 : o % 4 = 0) :
    regAt addr = some (.block k, o) := by
  have hhi : addr / 65536 = 0x60 + k := by omega
  have hlo : addr % 65536 / 4 * 4 = o := by omega
  unfold regAt
  simp only [hhi, hlo]
  rw [if_neg (by omega), dif_neg (by omega), dif_neg (by omega), if_pos (by omega)]
  simp

/-- The blocks of registers lie between the host port's and the recovery mailbox, clear of the mailboxes and the direct windows. -/
theorem regAt_range {x : RegBlock × Nat} (h : regAt addr = some x) :
    0x10000 ≤ addr ∧ addr < 0x6D0000 ∧ (addr < 0x20000 ∨ 0x400000 ≤ addr) := by
  simp only [regAt] at h
  split at h
  · omega
  split at h
  · omega
  split at h
  · omega
  split at h
  · omega
  · cases h

end

/-! ### What lies at an address (Tables 09.3, 09.4) -/

/-- Addresses outside every mailbox, direct window and aperture. -/
def outsideRows (addr : Nat) : Prop :=
  (addr < 0x100000 ∨ 0x140000 ≤ addr) ∧ (addr < 0x200000 ∨ 0x300000 ≤ addr) ∧ (addr < 0xFFF000 ∨ 0x1000000 ≤ addr)
    ∧ (addr < 0x10000000 ∨ 0x1E000000 ≤ addr)

theorem outsideRows_of_regAt {addr : Nat} {x : RegBlock × Nat} (h : regAt addr = some x) : outsideRows addr := by
  have := regAt_range h
  unfold outsideRows
  omega

/-- The four bytes of a word. -/
theorem padTo_natLe (w : Nat) : padTo 4 ((natLe w 4).drop 0) = natLe w 4 := by
  simp [padTo, natLe]

section
variable {u : State} {addr : Nat}

theorem State.regWord_none (h : addr < 0x10000 ∨ (0x20000 ≤ addr ∧ addr < 0x400000) ∨ 0x6D0000 ≤ addr) :
    u.regWord addr = none := by
  unfold State.regWord
  cases hx : regAt addr with
  | none => rfl
  | some x =>
    have := regAt_range hx
    omega

/-- Outside the rows a write is ignored below 0x2000, and where no register is defined. -/
theorem State.unmapped_outside (hrec : u.recovering = false) (h : outsideRows addr) :
    u.unmapped addr = (decide (addr < 0x2000) || (u.regWord addr).isNone) := by
  obtain ⟨hmbx, hwin, hrecmbx, hbulk⟩ := h
  unfold State.unmapped
  simp only [hrec, Bool.false_eq_true, if_false]
  rw [if_neg (show ¬ (0xFFF000 ≤ addr ∧ addr < 0x1000000) by omega), if_neg (show ¬ (0x100000 ≤ addr ∧ addr < 0x140000) by omega),
    if_neg (show ¬ (0x200000 ≤ addr ∧ addr < 0x300000) by omega), dif_neg (by omega)]
  split
  · rename_i hid
    simp [hid]
  · rename_i hid
    simp [hid]

/-- Outside the rows a word reads as its register, or as zero (R211). -/
theorem State.seen_outside (hrec : u.recovering = false) (h4 : addr % 4 = 0) (hlo : 0x2000 ≤ addr) (h : outsideRows addr) :
    u.seen addr 4 = natLe ((u.regWord addr).getD 0) 4 := by
  obtain ⟨hmbx, hwin, hrecmbx, hbulk⟩ := h
  have halign : addr / 4 * 4 = addr := by omega
  unfold State.seen
  simp only [hrec, Bool.false_eq_true, if_false]
  rw [if_neg (by omega), if_neg (by omega), if_neg (by omega), dif_neg (by omega), dif_neg (by omega), dif_neg (by omega), halign, h4]
  cases u.regWord addr with
  | none => rfl
  | some w => exact padTo_natLe w

/-- Without a sealed window of its own the row area of an aperture has no rows (R224). -/
theorem State.sealedWin_none {p : PartId} (h : ∀ w : WinId, u.host.win[w].bound = some p → u.host.win[w].isSealed = false) :
    u.sealedWin p = none := by
  refine List.find?_eq_none.2 fun w _ => ?_
  simp only [Bool.and_eq_true, decide_eq_true_eq, not_and]
  intro hb
  rw [h w hb]
  exact Bool.false_ne_true

/-- The addresses that the statement names as ignored are. -/
theorem State.unmapped_of_ignored (hrec : u.recovering = false) (h : Cert.ignored u addr) : u.unmapped addr = true := by
  have houtside : (addr < 0x10000 ∨ (0x20000 ≤ addr ∧ addr < 0x100000) ∨ 0x1E000000 ≤ addr) → u.unmapped addr = true := by
    intro hout
    rw [State.unmapped_outside hrec (by unfold outsideRows; omega), State.regWord_none (by omega)]
    exact Bool.or_true _
  rcases h with hid | hnone | hresp | htop | hmbx | hwin | ⟨p, hlo, hhi, hsealed⟩
  · exact houtside (.inl hid)
  · exact houtside (.inr (.inl hnone))
  · unfold State.unmapped
    rw [if_neg (by omega), if_pos (by omega), decide_eq_true_eq]
    omega
  · exact houtside (.inr (.inr htop))
  · unfold State.unmapped
    rw [if_neg (by omega), if_neg (by omega), if_neg (by simp [hrec]), if_pos (by omega), decide_eq_true_eq]
    omega
  · unfold State.unmapped
    rw [if_neg (by omega), if_neg (by omega), if_neg (by simp [hrec]), if_neg (by omega), if_pos (by omega), decide_eq_true_eq]
    omega
  · have hp : (addr - 0x10000000) / 2 ^ 25 = p.val := by omega
    unfold State.unmapped
    rw [if_neg (by omega), if_neg (by omega), if_neg (by simp [hrec]), if_neg (by omega), if_neg (by omega), dif_pos (by omega)]
    simp only [hp, State.sealedWin_none hsealed]
    rw [if_pos (by omega)]
    rfl

/-- In recovery only the recovery mailbox takes writes (R424). -/
theorem State.unmapped_recovery (hrec : u.recovering = true) (h : addr < 0xFFF000 ∨ 0xFFF800 ≤ addr) :
    u.unmapped addr = true := by
  unfold State.unmapped
  simp only [hrec, if_true]
  split
  · rfl
  · split
    · simp only [decide_eq_true_eq]
      omega
    · rfl

end

/-! ### Registers as the host writes and reads them (R9, R11, R211, R214) -/

section
variable {u : State} {addr o w : Nat} {b : RegBlock}

/-- Without a confidential partition the host sees every register (R293). -/
theorem State.hidden_eq_false (h : ∀ p : PartId, u.part[p].confidential = false) (b : RegBlock) (o : Nat) : u.hidden b o = false := by
  have hsecret : u.secret = fun _ => false := funext fun p => by
    rw [State.secret, h p, Bool.and_false]
  cases b <;> simp [State.hidden, hsecret]

/-- The word of a register that the host sees. -/
theorem State.regWord_shown (hshown : u.hidden b o = false) (hat : regAt addr = some (b, o))
    (hval : assoc o (u.regsOf b) = some w) : u.regWord addr = some w := by
  unfold State.regWord
  rw [hat]
  simp only [hval, hshown, Option.map_some, Bool.false_eq_true, if_false]

theorem State.hostWrite_register {v : Nat} (hready : u.host.hpReady = true) (hrec : u.recovering = false)
    (hat : regAt addr = some (b, o)) (hval : assoc o (u.regsOf b) = some w) : u.hostWrite addr v = u.regWrite b o v := by
  have hword : (u.regWord addr).isNone = false := by
    unfold State.regWord
    rw [hat]
    simp only [hval, Option.map_some, Option.isNone_some]
  have hmapped : u.unmapped addr = false := by
    have := regAt_range hat
    rw [State.unmapped_outside hrec (outsideRows_of_regAt hat), hword, Bool.or_false, decide_eq_false_iff_not]
    omega
  unfold State.hostWrite
  rw [hmapped, hat]
  simp only [hready, not_true, Bool.false_eq_true, if_false]

end

section
variable {s u : State} {t addr o w : Nat} {b : RegBlock}

theorem writes_register {v : Word} (hu : s.advance t = u) (hready : u.host.hpReady = true)
    (hrec : u.recovering = false) (hat : regAt addr = some (b, o))
    (hval : assoc o (u.regsOf b) = some w) :
    Cert.writes s t addr v = .next (u.regWrite b o v.toNat) := by
  have haddr : (BitVec.ofNat 32 addr).toNat = addr := by
    have := regAt_range hat
    rw [BitVec.toNat_ofNat, Nat.mod_eq_of_lt (by omega)]
  have hv : (BitVec.ofNat 64 v.toNat).toNat % 2 ^ 32 = v.toNat := by
    rw [BitVec.toNat_ofNat]
    have := v.isLt
    omega
  unfold Cert.writes
  rw [exec_registerWrite, execRegisterWrite, hu, haddr, hv, State.hostWrite_register hready hrec hat hval]

/-- A read of a register by the host, which takes what it returns from the RC fields (R214). -/
theorem rcFieldRead_register (hu : s.advance t = u) (hready : u.host.hpReady = true)
    (hrec : u.recovering = false) (hshown : u.hidden b o = false) (hat : regAt addr = some (b, o))
    (h4 : addr % 4 = 0) (hval : assoc o (u.regsOf b) = some w) :
    exec (.rcFieldRead t (BitVec.ofNat 32 addr)) s = .next ((Cert.answers u (natLe w 4)).rcRead b o w) := by
  have haddr : (BitVec.ofNat 32 addr).toNat / 4 * 4 = addr := by
    have := regAt_range hat
    rw [BitVec.toNat_ofNat, Nat.mod_eq_of_lt (by omega)]
    omega
  have hword := State.regWord_shown hshown hat hval
  have hseen : u.seen addr 4 = natLe w 4 := by
    have := regAt_range hat
    rw [State.seen_outside hrec h4 (by omega) (outsideRows_of_regAt hat), hword, Option.getD_some]
  rw [exec_rcFieldRead, execRcFieldRead, hu]
  simp only [haddr, hready, hat, hword, hrec, hseen, not_true, Bool.false_eq_true, if_false]
  rfl

end

/-! ### The tables of the registers, and what a write or a read changes in a unit -/

/-! The host port, the dead-letter rings, BST_CONFIG and UTC. -/

theorem ofNat_toNat_low (v : Word) (n : Nat) : BitVec.ofNat n v.toNat = v.extractLsb' 0 n := by
  simp [BitVec.extractLsb']

theorem State.setUtc_toNat (u : State) (v : Word) : u.setUtc v.toNat =
    { u with host := { u.host with utcHi := v, utcBase := some (u.host.utcLo.toNat + 2 ^ 32 * v.toNat, u.now) } } := by
  have := v.isLt
  simp [State.setUtc, State.updHost, Nat.mod_eq_of_lt this]

theorem hostRegs_window (u : State) (w : WinId) : (assoc (0x340 + 4 * w.val) u.hostRegs).isSome = true := by
  fin_cases w <;> rfl

theorem State.hostRegWrite_window (u : State) (w : WinId) (v : Nat) : u.hostRegWrite (0x340 + 4 * w.val) v = u := by
  fin_cases w <;> rfl

theorem crrRegs_ring (u : State) (p : PartId) : assoc (0x1000 + 0x10 * p.val) u.crrRegs =
    some (let d := u.fab.dlq[p]; pack [(0, d.head.toNat), (8, d.tail.toNat), (14, d.full.toNat), (16, d.dropsWas.toNat)]) := by
  fin_cases p <;> rfl

theorem State.blockRegWrite_ring (u : State) (p : PartId) (v : Nat) : u.blockRegWrite 0 (0x1000 + 0x10 * p.val) v = u.setHead p v := by
  fin_cases p <;> rfl

/-- A write of HEAD frees what was read (R260). -/
theorem State.setHead_toNat (u : State) (p : PartId) (v : Word) : u.setHead p v.toNat =
    (let d := u.fab.dlq[p]
     { u with fab := { u.fab with
        dlq := u.fab.dlq.set p { d with head := v.extractLsb' 0 6, full := d.full && decide (v.extractLsb' 0 6 = d.head) } } }) := by
  have hhead : BitVec.ofNat 6 v.toNat = v.extractLsb' 0 6 := by
    simp [BitVec.extractLsb']
  simp [State.setHead, State.updFab, hhead]

/-- A write of BST_CONFIG (Table 17.7). -/
theorem Bist.setConfig_toNat (b : Bist) (v : Word) : b.setConfig v.toNat = if v.extractLsb' 0 2 = 0 then b else { b with
      stagger := v.getLsbD 0, gate := v.getLsbD 1, periodic := v.getLsbD 5
      maxConcurrent := if 1 ≤ v.extractLsb' 2 3 ∧ v.extractLsb' 2 3 ≤ 6 then v.extractLsb' 2 3 else b.maxConcurrent } := by
  have h0 : v.extractLsb' 0 2 = 0 ↔ v.toNat % 4 = 0 := by
    rw [← BitVec.toNat_inj]; simp
  have hn : (v.extractLsb' 2 3).toNat = v.toNat / 4 % 8 := by simp [Nat.shiftRight_eq_div_pow]
  have hmax : (1 ≤ v.extractLsb' 2 3 ∧ v.extractLsb' 2 3 ≤ 6) ↔ 1 ≤ v.toNat / 4 % 8 ∧ v.toNat / 4 % 8 ≤ 6 := by
    simp only [BitVec.le_def, hn]; rfl
  have hb : BitVec.ofNat 3 (v.toNat / 4 % 8) = v.extractLsb' 2 3 := by
    rw [← hn, BitVec.ofNat_toNat, BitVec.setWidth_eq]
  simp only [Bist.setConfig, h0, hmax, hb]
  split
  · rfl
  · simp [BitVec.getLsbD, Nat.testBit_eq_decide_div_mod_eq]

theorem State.bstWritable_iff (u : State) :
    u.bstWritable = true ↔ u.sec.lifecycle = 1 ∨ u.sec.lifecycle = 4 ∨ (u.sec.lifecycle = 3 ∧ u.bist.granted ≠ 0) := by
  simp [State.bstWritable, or_assoc]

/-! Engines and KV pools. -/

theorem engRegs_class (u : State) (e : EngId) (c : Fin 16) : (assoc (0x400 + 4 * c.val) (u.engRegs e)).isSome = true := by
  fin_cases c <;> rfl

/-- A class takes a value that is not both STOP_RELEVANT and SHEDDABLE (R48). -/
theorem Engine.regWrite_class (g : Engine) (c : Fin 16) (v : Word) : g.regWrite (0x400 + 4 * c.val) v.toNat =
    if v.getLsbD 0 = true ∧ v.getLsbD 2 = true then g else { g with dlClass := g.dlClass.set c.val (v &&& 0xFFFF0007) } := by
  have hbits : (v.toNat % 2 = 1 ∧ v.toNat / 4 % 2 = 1) ↔ v.getLsbD 0 = true ∧ v.getLsbD 2 = true := by
    simp [BitVec.getLsbD, Nat.testBit_eq_decide_div_mod_eq]
  have hidx : (0x400 + 4 * c.val - 0x400) / 4 = c.val := by omega
  unfold Engine.regWrite
  rw [dif_pos (by omega)]
  simp only [hbits, hidx, BitVec.ofNat_toNat, BitVec.setWidth_eq]

theorem kvRegs_event (u : State) (p : PartId) :
    assoc 0x004 (u.kvRegs p) = some (u.part[p].kv.eventWas ||| u.part[p].kv.event).toNat := rfl

theorem KvPool.regWrite_event (k : KvPool) (v : Word) :
    k.regWrite 0x004 v.toNat = { k with eventWas := Cert.w1cLeft k.eventWas v } := rfl

theorem kvRegs_reserve (u : State) (p : PartId) : assoc 0x040 (u.kvRegs p) = some u.part[p].kv.reserve.toNat := rfl

/-- A RESERVE above 64 is ignored (Table 07.17). -/
theorem KvPool.regWrite_reserve (k : KvPool) (v : Word) :
    k.regWrite 0x040 v.toNat = if v.extractLsb' 0 7 ≤ 64 then { k with reserve := v.extractLsb' 0 7 } else k := by
  have hle : v.extractLsb' 0 7 ≤ 64 ↔ v.toNat % 128 ≤ 64 := by
    simp [BitVec.le_def]
  simp only [KvPool.regWrite, hle, ofNat_toNat_low]

/-! Words put together from fields. -/

theorem pack_nil : pack [] = 0 := rfl

theorem pack_cons (k v : Nat) (l : List (Nat × Nat)) : pack ((k, v) :: l) = v * 2 ^ k + pack l := by
  simp [pack]

/-- The word of a port's four drop counts (Table 10.15). -/
theorem pack_bytes (a b c d : Nat) :
    pack [(0, a), (8, b), (16, c), (24, d)] = a + 2 ^ 8 * b + 2 ^ 16 * c + 2 ^ 24 * d := by
  rw [pack_cons, pack_cons, pack_cons, pack_cons, pack_nil]
  ring

/-- The word of a dead-letter ring (Table 10.18). -/
theorem pack_ring (a b c d : Nat) :
    pack [(0, a), (8, b), (14, c), (16, d)] = a + 2 ^ 8 * b + 2 ^ 14 * c + 2 ^ 16 * d := by
  rw [pack_cons, pack_cons, pack_cons, pack_cons, pack_nil]
  ring

/-- The counts in the bytes of a word. -/
theorem bytes_apart {a b c d v : Nat} (ha : a < 2 ^ 8) (hb : b < 2 ^ 8) (hc : c < 2 ^ 8)
    (hv : v = a + 2 ^ 8 * b + 2 ^ 16 * c + 2 ^ 24 * d) :
    v % 256 = a ∧ v / 2 ^ 8 % 256 = b ∧ v / 2 ^ 16 % 256 = c ∧ v / 2 ^ 24 = d := by
  simp only [Nat.reducePow] at *
  omega

/-- The DROPS in the word of a ring. -/
theorem ring_drops {a b c d : Nat} (ha : a < 2 ^ 6) (hb : b < 2 ^ 6) (hc : c ≤ 1) :
    (a + 2 ^ 8 * b + 2 ^ 14 * c + 2 ^ 16 * d) / 2 ^ 16 = d := by
  simp only [Nat.reducePow] at *
  omega

/-! What a read of a count leaves of it (R214). -/

theorem Engine.rcRead_counts (g : Engine) :
    g.rcRead 0x444 g.dlMissCountWas.toNat = { g with dlMissCountWas := 0 }
      ∧ g.rcRead 0x504 g.satCountWas.toNat = { g with satCountWas := 0 }
      ∧ g.rcRead 0x608 g.mem.storeCeCountWas.toNat = { g with mem := { g.mem with storeCeCountWas := 0 } }
      ∧ g.rcRead 0x704 g.mem.actCeCountWas.toNat = { g with mem := { g.mem with actCeCountWas := 0 } }
      ∧ g.rcRead 0x70C g.mem.collisionsWas.toNat = { g with mem := { g.mem with collisionsWas := 0 } }
      ∧ g.rcRead 0x904 g.chkCountWas.toNat = { g with chkCountWas := 0 } := by
  simp [Engine.rcRead]

/-- The words of a port's RC registers (Tables 10.13-10.16). -/
theorem crrRegs_port (u : State) (n : LinkId) :
    let q := u.fab.ports[n]
    assoc (0x100 * n.val + 0x10) u.crrRegs = some q.fecCorrWas.toNat
      ∧ assoc (0x100 * n.val + 0x14) u.crrRegs = some q.fecUncorrWas.toNat
      ∧ assoc (0x100 * n.val + 0x18) u.crrRegs =
        some (pack [(0, q.dropCrcWas.toNat), (8, q.dropAuthWas.toNat), (16, q.dropReplayWas.toNat), (24, q.dropOverrunWas.toNat)])
      ∧ assoc (0x100 * n.val + 0x1C) u.crrRegs = some q.refusalDropsWas.toNat := by
  fin_cases n <;> exact ⟨rfl, rfl, rfl, rfl⟩

/-- The fields of a port that a read of one of its registers leaves. -/
theorem State.rcRead_port (u : State) (n : LinkId) (o w : Nat) (ho : o < 0x100) :
    u.rcRead (.block 0) (0x100 * n.val + o) w = u.updPort n fun q => q.rcRead o w := by
  have hdiv : (0x100 * n.val + o) / 0x100 = n.val := by omega
  have hmod : (0x100 * n.val + o) % 0x100 = o := by omega
  unfold State.rcRead
  simp only [if_true]
  rw [dif_pos (by omega)]
  simp only [hdiv, hmod]

theorem Port.rcRead_counts (q : Port) :
    q.rcRead 0x10 q.fecCorrWas.toNat = { q with fecCorrWas := 0 }
      ∧ q.rcRead 0x14 q.fecUncorrWas.toNat = { q with fecUncorrWas := 0 }
      ∧ q.rcRead 0x18 (q.dropCrcWas.toNat + 2 ^ 8 * q.dropAuthWas.toNat + 2 ^ 16 * q.dropReplayWas.toNat + 2 ^ 24 * q.dropOverrunWas.toNat)
        = { q with dropCrcWas := 0, dropAuthWas := 0, dropReplayWas := 0, dropOverrunWas := 0 }
      ∧ q.rcRead 0x1C q.refusalDropsWas.toNat = { q with refusalDropsWas := 0 } := by
  obtain ⟨hcrc, hauth, hreplay, hover⟩ := bytes_apart q.dropCrcWas.isLt q.dropAuthWas.isLt q.dropReplayWas.isLt (d := q.dropOverrunWas.toNat) rfl
  refine ⟨?_, ?_, ?_, ?_⟩
  · simp [Port.rcRead]
  · simp [Port.rcRead]
  · simp only [Port.rcRead, hcrc, hauth, hreplay, hover, rcTake_self]
  · simp [Port.rcRead]

theorem State.rcRead_ring (u : State) (p : PartId) (w : Nat) : u.rcRead (.block 0) (0x1000 + 0x10 * p.val) w =
    u.updFab fun b => { b with dlq := b.dlq.set p { b.dlq[p] with dropsWas := rcTake b.dlq[p].dropsWas (w / 2 ^ 16) } } := by
  fin_cases p <;> rfl

theorem State.rcRead_fullCount (u : State) (p : PartId) : u.rcRead (.kv p) 0x014 u.part[p].kv.fullCountWas.toNat =
    { u with part := u.part.set p { u.part[p] with kv := { u.part[p].kv with fullCountWas := 0 } } } := by
  simp [State.rcRead, State.updKv, State.updPart]

theorem State.rcRead_abortCount (u : State) : u.rcRead (.block 2) 0x104 u.env.abortCountWas.toNat =
    { u with env := { u.env with abortCountWas := 0 } } := by
  simp [State.rcRead, State.updEnv]

theorem State.rcRead_damagedCount (u : State) : u.rcRead (.block 5) 0x14 u.vid.damagedCountWas.toNat =
    { u with vid := { u.vid with damagedCountWas := 0 } } := by
  simp [State.rcRead, State.updVid]

theorem State.rcRead_skipped (u : State) : u.rcRead (.block 8) 0x40 u.bist.skippedWas.toNat =
    { u with bist := { u.bist with skippedWas := 0 } } := by
  simp [State.rcRead, State.updBist]

/-! ### Writes and reads of each kind of register -/

section
variable {s u : State} {t : Nat} (hu : s.advance t = u) (hready : u.host.hpReady = true) (hrec : u.recovering = false)
  (hconf : ∀ p : PartId, u.part[p].confidential = false)
include hu hready hrec

/-- A write to a register of the host port is the port's own register write. -/
theorem writes_host {addr o w : Nat} {v : Word} (hat : regAt addr = some (.host, o)) (hval : assoc o u.hostRegs = some w) :
    Cert.writes s t addr v = .next (u.hostRegWrite o v.toNat) :=
  writes_register hu hready hrec hat hval

theorem hstUtcHiWrite_sets (v : Word) : exec (.hstUtcHiWrite t v) s = .next { u with host := { u.host with
    utcHi := v, utcBase := some (u.host.utcLo.toNat + 2 ^ 32 * v.toNat, u.now) } } := by
  rw [exec_hstUtcHiWrite, execHstUtcHiWrite, hu, State.hostWrite_register (b := .host) (o := 0x124) hready hrec rfl rfl,
    ← State.setUtc_toNat]
  rfl

theorem hstPostmarkLoRead_latches : exec (.hstPostmarkLoRead t) s = .next { u with host := { u.host with
    answered := true, rdata := natLe u.now 4, postmarkHi := BitVec.ofNat 32 (u.now / 2 ^ 32) } } := by
  rw [exec_hstPostmarkLoRead, execHstPostmarkLoRead, hu, if_neg (by simp [hready]), if_neg (by simp [hrec])]
  rfl

/-- Between the status row and the register blocks every word reads zero, and the read takes nothing. -/
theorem rcFieldRead_unmapped {addr : Nat} (hlo : 0x2000 ≤ addr) (hhi : addr < 0x10000) :
    exec (.rcFieldRead t (BitVec.ofNat 32 addr)) s = .next (Cert.answers u (natLe 0 4)) := by
  have haddr : (BitVec.ofNat 32 addr).toNat = addr := by
    rw [BitVec.toNat_ofNat, Nat.mod_eq_of_lt (by omega)]
  obtain ⟨a, ha⟩ : ∃ a, a = addr / 4 * 4 := ⟨_, rfl⟩
  have hat : regAt a = none := by
    cases hx : regAt a with
    | none => rfl
    | some x =>
      have := regAt_range hx
      omega
  have hword : u.regWord a = none := State.regWord_none (by omega)
  have hseen : u.seen a 4 = natLe 0 4 := by
    rw [State.seen_outside hrec (by omega) (by omega) (by unfold outsideRows; omega), hword, Option.getD_none]
  rw [exec_rcFieldRead, execRcFieldRead, hu]
  simp only [haddr, ← ha, hready, hat, hword, hseen, not_true, if_false]
  rfl

include hconf

/-- A write to a register of an engine is the engine's own register write. -/
theorem writes_eng {addr o w : Nat} {e : EngId} {v : Word} (hat : regAt addr = some (.eng e, o))
    (hval : assoc o (u.engRegs e) = some w) :
    Cert.writes s t addr v = .next (u.updEng e fun g => g.regWrite o v.toNat) := by
  rw [writes_register hu hready hrec hat hval, State.regWrite, State.hidden_eq_false hconf, if_neg Bool.false_ne_true]

/-- A write to a register of a KV pool is the pool's own register write. -/
theorem writes_kv {addr o w : Nat} {p : PartId} {v : Word} (hat : regAt addr = some (.kv p, o))
    (hval : assoc o (u.kvRegs p) = some w) :
    Cert.writes s t addr v = .next (u.updKv p fun k => k.regWrite o v.toNat) := by
  rw [writes_register hu hready hrec hat hval, State.regWrite, State.hidden_eq_false hconf, if_neg Bool.false_ne_true]

/-- A write to a register of another block is that block's own register write. -/
theorem writes_block {addr k o w : Nat} {v : Word} (hat : regAt addr = some (.block k, o))
    (hval : assoc o (u.blockRegs k) = some w) :
    Cert.writes s t addr v = .next (u.blockRegWrite k o v.toNat) := by
  rw [writes_register hu hready hrec hat hval, State.regWrite, State.hidden_eq_false hconf, if_neg Bool.false_ne_true]

theorem writes_eng_to {o w : Nat} {e : EngId} {v : Word} {x : Engine} (ho : o < 0x10000) (h4 : o % 4 = 0)
    (hval : assoc o (u.engRegs e) = some w) (hx : u.eng[e].regWrite o v.toNat = x) :
    Cert.writes s t (0x400000 + 0x10000 * e.val + o) v = .next { u with eng := u.eng.set e x } := by
  rw [writes_eng hu hready hrec hconf (regAt_eng rfl ho h4) hval, ← hx]
  rfl

theorem writes_kv_to {o w : Nat} {p : PartId} {v : Word} {x : KvPool} (hp : p ≠ 0) (ho : o < 0x1000) (h4 : o % 4 = 0)
    (hval : assoc o (u.kvRegs p) = some w) (hx : u.part[p].kv.regWrite o v.toNat = x) :
    Cert.writes s t (0x500000 + 0x1000 * (p.val - 1) + o) v =
      .next { u with part := u.part.set p { u.part[p] with kv := x } } := by
  rw [writes_kv hu hready hrec hconf (regAt_kv rfl hp ho h4) hval, ← hx]
  rfl

theorem bstConfig_writes (v : Word) : Cert.writes s t 0x680000 v = .next { u with
    bist := if u.bstWritable then u.bist.setConfig v.toNat else u.bist } := by
  rw [writes_block (k := 8) (o := 0) hu hready hrec hconf rfl rfl]
  show Host.Outcome.next (if u.bstWritable then u.updBist fun b => b.setConfig v.toNat else u) = _
  split <;> rfl

theorem crrDlqHeadWrite_frees (p : PartId) (v : Word) :
    exec (.crrDlqHeadWrite t p v) s = .next (u.setHead p v.toNat) := by
  rw [exec_crrDlqHeadWrite, execCrrDlqHeadWrite, hu, State.hostWrite_register (b := .block 0) (o := 0x1000 + 0x10 * p.val) hready hrec
    (regAt_block (by omega) (by omega) (by omega) (by omega)) (crrRegs_ring _ p), State.regWrite, State.hidden_eq_false hconf,
    if_neg Bool.false_ne_true, State.blockRegWrite_ring]

theorem reads_eng {o w : Nat} {e : EngId} {x : Engine} (ho : o < 0x10000) (h4 : o % 4 = 0)
    (hval : assoc o (u.engRegs e) = some w) (hx : u.eng[e].rcRead o w = x) :
    exec (.rcFieldRead t (BitVec.ofNat 32 (0x400000 + 0x10000 * e.val + o))) s =
      .next (Cert.answers { u with eng := u.eng.set e x } (natLe w 4)) := by
  rw [rcFieldRead_register hu hready hrec (State.hidden_eq_false hconf _ _) (regAt_eng rfl ho h4) (by omega) hval, ← hx]
  rfl

theorem reads_block {addr k o w : Nat} (hat : regAt addr = some (.block k, o)) (h4 : addr % 4 = 0)
    (hval : assoc o (u.blockRegs k) = some w) :
    exec (.rcFieldRead t (BitVec.ofNat 32 addr)) s =
      .next ((Cert.answers u (natLe w 4)).rcRead (.block k) o w) :=
  rcFieldRead_register hu hready hrec (State.hidden_eq_false hconf _ _) hat h4 hval

theorem reads_port {o w : Nat} {n : LinkId} {x : Port} (ho : o < 0x100) (h4 : o % 4 = 0)
    (hval : assoc (0x100 * n.val + o) u.crrRegs = some w) (hx : u.fab.ports[n].rcRead o w = x) :
    exec (.rcFieldRead t (BitVec.ofNat 32 (0x600000 + 0x100 * n.val + o))) s =
      .next (Cert.answers { u with fab := { u.fab with ports := u.fab.ports.set n x } } (natLe w 4)) := by
  rw [reads_block hu hready hrec hconf (regAt_block (k := 0) (o := 0x100 * n.val + o) (by omega) (by omega) (by omega) (by omega)) (by omega) hval,
    State.rcRead_port _ n o w ho, ← hx]
  rfl

theorem reads_ring (p : PartId) :
    let d := u.fab.dlq[p]
    exec (.rcFieldRead t (BitVec.ofNat 32 (0x601000 + 0x10 * p.val))) s =
      .next (Cert.answers { u with fab := { u.fab with dlq := u.fab.dlq.set p { d with dropsWas := 0 } } }
        (natLe (d.head.toNat + 2 ^ 8 * d.tail.toNat + 2 ^ 14 * d.full.toNat + 2 ^ 16 * d.dropsWas.toNat) 4)) := by
  intro d
  have hdrops := ring_drops d.head.isLt d.tail.isLt d.full.toNat_le (d := d.dropsWas.toNat)
  have hval := crrRegs_ring u p
  simp only [pack_ring] at hval
  rw [reads_block hu hready hrec hconf (regAt_block (k := 0) (o := 0x1000 + 0x10 * p.val) (by omega) (by omega) (by omega) (by omega)) (by omega) hval,
    State.rcRead_ring, hdrops, State.updFab]
  simp only [Cert.answers, rcTake_self, d]

/-! The registers of each block. -/

/-- A write to a register of a unit sets its RW fields, clears the W1C bits written 1 and changes nothing else (R211, R214). -/
theorem unitRegisterWrites (v : Word) : Cert.UnitRegisterWrites s t v := by
  unfold Cert.UnitRegisterWrites
  rw [hu]
  have hwrite := fun {addr k o w : Nat} => @writes_block s u t hu hready hrec hconf addr k o w v
  refine ⟨writes_host (o := 0x200) hu hready hrec rfl rfl, ?utcLo, hstUtcHiWrite_sets hu hready hrec v, fun w => ?window,
    hwrite (k := 2) (o := 0x100) rfl rfl, ?pigeonholes, hwrite (k := 4) (o := 0x10) rfl rfl,
    hwrite (k := 5) (o := 0x10) rfl rfl, hwrite (k := 7) (o := 0x50) rfl rfl, hwrite (k := 9) (o := 4) rfl rfl, ?refLost,
    hwrite (k := 11) (o := 4) rfl rfl, hwrite (k := 12) (o := 4) rfl rfl,
    ⟨_, hwrite (k := 7) (o := 0x10) rfl rfl, rfl, fun p => ?openPart⟩, ⟨fun h => ?kept, fun hmay hne => ?config⟩, fun p => ?ring⟩
  case utcLo =>
    beta_reduce
    rw [writes_host (o := 0x120) hu hready hrec rfl rfl]
    simp [State.hostRegWrite, State.updHost]
  case window =>
    obtain ⟨x, hx⟩ := Option.isSome_iff_exists.1 (hostRegs_window u w)
    rw [writes_host hu hready hrec (regAt_host (o := 0x340 + 4 * w.val) (by omega) (by omega) (by omega)) hx, State.hostRegWrite_window]
  case pigeonholes =>
    rw [← bitAt_toNat]
    exact hwrite (k := 3) (o := 0) rfl rfl
  case refLost =>
    rw [← bitAt_toNat]
    exact hwrite (k := 10) (o := 0) rfl rfl
  case openPart =>
    rw [← bitAt_toNat]
    exact hasBit_sum (fun p => if u.part[p].confidential then hasBit u.sec.debug p.val else bitAt v.toNat p.val) p
  case kept =>
    beta_reduce
    rw [bstConfig_writes hu hready hrec hconf, Bist.setConfig_toNat]
    rcases h with h | h
    · rw [if_neg (mt (State.bstWritable_iff _).1 h)]
    · rw [if_pos h, ite_self]
  case config =>
    beta_reduce
    rw [bstConfig_writes hu hready hrec hconf, Bist.setConfig_toNat, if_pos ((State.bstWritable_iff _).2 hmay), if_neg hne]
  case ring =>
    rw [crrDlqHeadWrite_frees hu hready hrec hconf, State.setHead_toNat]

/-- The same for the registers of an engine and of a KV pool; a policy with both exclusive bits is not taken. -/
theorem engineRegisterWrites (v : Word) : Cert.EngineRegisterWrites s t v := by
  unfold Cert.EngineRegisterWrites
  rw [hu]
  constructor
  · intro e c
    have hwrite := fun {o w : Nat} {x : Engine} => @writes_eng_to s u t hu hready hrec hconf o w e v x
    obtain ⟨w, hclass⟩ := Option.isSome_iff_exists.1 (engRegs_class u e c)
    have hcls := hwrite (by omega) (by omega) hclass (Engine.regWrite_class _ c v)
    refine ⟨fun h0 h2 => ?both, fun h => ?cls, hwrite (by decide) rfl rfl ?miss, hwrite (o := 0x500) (by decide) rfl rfl rfl,
      hwrite (by decide) rfl rfl ?store, hwrite (by decide) rfl rfl ?digest, hwrite (by decide) rfl rfl ?act,
      hwrite (o := 0x900) (by decide) rfl rfl rfl, hwrite (by decide) rfl rfl ?rerun, hwrite (o := 0x444) (by decide) rfl rfl rfl⟩
    case both => rwa [if_pos ⟨h0, h2⟩] at hcls
    case cls =>
      have hbits : ¬ (v.getLsbD 0 = true ∧ v.getLsbD 2 = true) := by
        rintro ⟨h0, h2⟩
        rw [h0, h2] at h
        simp at h
      rwa [if_neg hbits] at hcls
    case miss => simp only [← bitAt_toNat]; rfl
    case store => simp only [← bitAt_toNat]; rfl
    case digest => simp only [← bitAt_toNat]; rfl
    case act => simp only [← bitAt_toNat]; rfl
    case rerun => rw [← ofNat_toNat_low]; rfl
  · intro p hp
    have hevent := writes_kv_to hu hready hrec hconf hp (by decide) rfl (kvRegs_event _ p) (KvPool.regWrite_event _ v)
    have hreserve := writes_kv_to hu hready hrec hconf hp (by decide) rfl (kvRegs_reserve _ p) (KvPool.regWrite_reserve _ v)
    exact ⟨hevent, hreserve⟩

/-- A read of an RC field takes the count from before the events of its cycle (R214). -/
theorem registerReads : Cert.RegisterReads s t := by
  unfold Cert.RegisterReads
  rw [hu]
  have hblock := fun {addr k o w : Nat} => @reads_block s u t hu hready hrec hconf addr k o w
  refine ⟨hstPostmarkLoRead_latches hu hready hrec, ?err, fun addr hlo hhi => rcFieldRead_unmapped hu hready hrec hlo hhi,
    fun e => ?eng, fun p hp => ?kv, fun n => ?port, fun p => reads_ring hu hready hrec hconf p, ?env, ?vid, ?bist⟩
  case err => exact rcFieldRead_register (b := .host) (o := 0x200) hu hready hrec rfl rfl rfl rfl
  case eng =>
    have hread := fun {o w : Nat} {x : Engine} => @reads_eng s u t hu hready hrec hconf o w e x
    obtain ⟨hmiss, hsat, hstore, hact, hcoll, hchk⟩ := Engine.rcRead_counts u.eng[e]
    exact ⟨hread (by decide) rfl rfl hmiss, hread (by decide) rfl rfl hsat, hread (by decide) rfl rfl hstore,
      hread (by decide) rfl rfl hact, hread (by decide) rfl rfl hcoll, hread (by decide) rfl rfl hchk,
      hread (o := 0x914) (by decide) rfl rfl rfl⟩
  case kv =>
    beta_reduce
    rw [rcFieldRead_register (b := .kv p) (o := 0x014) hu hready hrec (State.hidden_eq_false hconf _ _)
      (regAt_kv (by omega) hp (by decide) rfl) (by omega) rfl]
    exact congrArg _ (State.rcRead_fullCount (Cert.answers u _) p)
  case port =>
    have hread := fun {o w : Nat} {x : Port} => @reads_port s u t hu hready hrec hconf o w n x
    obtain ⟨hcorr, huncorr, hdrop, hrefusal⟩ := Port.rcRead_counts u.fab.ports[n]
    obtain ⟨vcorr, vuncorr, vdrop, vrefusal⟩ := crrRegs_port u n
    rw [pack_bytes] at vdrop
    exact ⟨hread (by decide) rfl vcorr hcorr, hread (by decide) rfl vuncorr huncorr, hread (by decide) rfl vdrop hdrop,
      hread (by decide) rfl vrefusal hrefusal⟩
  case env =>
    beta_reduce
    rw [hblock (k := 2) (o := 0x104) rfl rfl rfl]
    exact congrArg _ (State.rcRead_abortCount (Cert.answers u _))
  case vid =>
    beta_reduce
    rw [hblock (k := 5) (o := 0x14) rfl rfl rfl]
    exact congrArg _ (State.rcRead_damagedCount (Cert.answers u _))
  case bist =>
    beta_reduce
    rw [hblock (k := 8) (o := 0x40) rfl rfl rfl]
    exact congrArg _ (State.rcRead_skipped (Cert.answers u _))

omit hrec hconf

/-- Where no register lies a write sets UNMAPPED_WRITE alone (R211). -/
theorem ignores {addr v : Word} (hun : u.unmapped addr.toNat = true) :
    Cert.writes s t addr.toNat v = .next (Cert.hostErr u 1) ∧ exec (.unmappedWrite t addr) s = .next (Cert.hostErr u 1) := by
  have haddr : (BitVec.ofNat 32 addr.toNat).toNat = addr.toNat := by rw [BitVec.ofNat_toNat, BitVec.setWidth_eq]
  constructor
  · rw [Cert.writes, exec_registerWrite, execRegisterWrite, hu, haddr, State.hostWrite, hun]
    simp only [hready, not_true, if_true, if_false]
    rfl
  · rw [exec_unmappedWrite, execUnmappedWrite, hu, hun]
    simp only [hready, and_self, if_true]
    rfl

end

/-- While the host port is not ready nothing that the host does has an effect (R208). -/
theorem hostPort_notReady {s u : State} {t : Nat} {addr v : Word} (hu : s.advance t = u) (hready : u.host.hpReady = false) :
    Cert.writes s t addr.toNat v = .next u ∧ exec (.unmappedWrite t addr) s = .next u
      ∧ exec (.rcFieldRead t addr) s = .next u ∧ exec (.hstPostmarkLoRead t) s = .next u := by
  refine ⟨?_, ?_, ?_, ?_⟩
  · rw [Cert.writes, exec_registerWrite, execRegisterWrite, hu, State.hostWrite, if_pos (by simp [hready])]
  · rw [exec_unmappedWrite, execUnmappedWrite, hu]
    simp [hready]
  · rw [exec_rcFieldRead, execRcFieldRead, hu]
    simp [hready]
  · rw [exec_hstPostmarkLoRead, execHstPostmarkLoRead, hu]
    simp [hready]

end Sys2Proof.Machine

/-! SUPPORT. The bulk area of an aperture as the host uses it: frames, pages, fetches (R225, R226). -/

namespace Sys2Proof.Machine

/-! ### The frames of a bulk area (R225, R226) -/

theorem lruFrame_cons_none {f : Frame} {l : List Frame} (h : lruFrame l = none) :
    lruFrame (f :: l) = if f.clean = true then some f else none := by
  rw [lruFrame, h]

theorem lruFrame_cons_some {f g : Frame} {l : List Frame} (h : lruFrame l = some g) :
    lruFrame (f :: l) = if f.clean = true ∧ f.lastUse < g.lastUse then some f else some g := by
  rw [lruFrame, h]

/-- There is none exactly where no frame is clean. -/
theorem lruFrame_eq_none {l : List Frame} : lruFrame l = none ↔ ∀ f ∈ l, f.clean = false := by
  induction l with
  | nil => simp [lruFrame]
  | cons f l ih =>
    rw [List.forall_mem_cons, ← ih]
    cases hl : lruFrame l with
    | none => simp [lruFrame_cons_none hl]
    | some g =>
      rw [lruFrame_cons_some hl]
      split <;> simp

/-- It is clean, and no clean frame was used earlier. -/
theorem lruFrame_spec {l : List Frame} {f : Frame} (h : lruFrame l = some f) :
    f ∈ l ∧ f.clean = true ∧ ∀ g ∈ l, g.clean = true → f.lastUse ≤ g.lastUse := by
  induction l generalizing f with
  | nil => simp [lruFrame] at h
  | cons x l ih =>
    cases hl : lruFrame l with
    | none =>
      rw [lruFrame_cons_none hl, Option.ite_none_right_eq_some, Option.some_inj] at h
      obtain ⟨hclean, rfl⟩ := h
      refine ⟨List.mem_cons_self .., hclean, fun g hg hgc => ?_⟩
      rcases List.mem_cons.1 hg with rfl | hg
      · exact le_rfl
      · rw [lruFrame_eq_none.1 hl g hg] at hgc
        cases hgc
    | some y =>
      obtain ⟨hy, hyc, hmin⟩ := ih hl
      rw [lruFrame_cons_some hl] at h
      split at h
      · rename_i hx
        obtain rfl := Option.some_inj.1 h
        refine ⟨List.mem_cons_self .., hx.1, fun g hg hgc => ?_⟩
        rcases List.mem_cons.1 hg with rfl | hg
        · exact le_rfl
        · exact hx.2.le.trans (hmin g hg hgc)
      · rename_i hx
        obtain rfl := Option.some_inj.1 h
        refine ⟨List.mem_cons_of_mem _ hy, hyc, fun g hg hgc => ?_⟩
        rcases List.mem_cons.1 hg with rfl | hg
        · exact not_lt.1 fun hlt => hx ⟨hgc, hlt⟩
        · exact hmin g hg hgc

theorem Bulk.room_free {b : Bulk} (h : b.frames.length < 64) : b.room = some b := by
  rw [Bulk.room, if_pos h]

theorem Bulk.room_full {b : Bulk} (h : 64 ≤ b.frames.length) :
    b.room = (lruFrame b.frames).map fun f => { b with frames := b.frames.filter fun g => g.page ≠ f.page } := by
  rw [Bulk.room, if_neg (by omega)]

theorem Bulk.room_none {b : Bulk} (h : 64 ≤ b.frames.length) (hc : ∀ f ∈ b.frames, f.clean = false) : b.room = none := by
  rw [Bulk.room_full h, lruFrame_eq_none.2 hc]
  rfl

/-- The frame taken of a full area: the clean one used longest ago. -/
theorem Bulk.room_lru {b : Bulk} (h : 64 ≤ b.frames.length) (hc : ∃ f ∈ b.frames, f.clean = true) :
    ∃ f ∈ b.frames, f.clean = true ∧ (∀ g ∈ b.frames, g.clean = true → f.lastUse ≤ g.lastUse)
      ∧ b.room = some { b with frames := b.frames.filter fun g => g.page ≠ f.page } := by
  cases hl : lruFrame b.frames with
  | none =>
    obtain ⟨f, hf, hclean⟩ := hc
    rw [lruFrame_eq_none.1 hl f hf] at hclean
    cases hclean
  | some f =>
    obtain ⟨hf, hclean, hmin⟩ := lruFrame_spec hl
    refine ⟨f, hf, hclean, hmin, ?_⟩
    rw [Bulk.room_full h, hl]
    rfl

/-! ### Pages of a write or read -/

/-- The elements of a list at the places from `lo` up to `hi`, the first place being `k`. -/
theorem zipIdx_between {α : Type} (l : List α) (k lo hi : Nat) :
    ((l.zipIdx k).filter fun x => decide (lo ≤ x.2 ∧ x.2 < hi)).map Prod.fst = (l.drop (lo - k)).take (hi - max lo k) := by
  induction l generalizing k with
  | nil => simp
  | cons b l ih =>
    rw [List.zipIdx_cons, List.filter_cons]
    by_cases hlo : lo ≤ k
    · have hd : lo - k = 0 := by omega
      have hd' : lo - (k + 1) = 0 := by omega
      by_cases hhi : k < hi
      · have ht : hi - max lo k = (hi - max lo (k + 1)) + 1 := by omega
        rw [if_pos (by simp [hlo, hhi]), List.map_cons, ih, hd, hd', ht]
        rfl
      · have ht : hi - max lo k = 0 := by omega
        have ht' : hi - max lo (k + 1) = 0 := by omega
        rw [if_neg (by simp [hhi]), ih, ht, ht', List.take_zero, List.take_zero]
    · have hd : lo - k = (lo - (k + 1)) + 1 := by omega
      have hm : max lo k = max lo (k + 1) := by omega
      rw [if_neg (by simp [hlo]), ih, hd, hm, List.drop_succ_cons]

/-- The bytes of a run from `off` on that lie in page `q`. -/
theorem bytes_of_page (bs : List Byte) (off q : Nat) :
    (bs.zipIdx.filter fun x => decide ((off + x.2) / 4096 = q)).map Prod.fst
      = (bs.drop (max off (4096 * q) - off)).take (min (off + bs.length) (4096 * (q + 1)) - max off (4096 * q)) := by
  have hin : ∀ i : Nat, (off + i) / 4096 = q ↔ 4096 * q - off ≤ i ∧ i < 4096 * (q + 1) - off := by
    intro i
    omega
  have hdrop : max off (4096 * q) - off = 4096 * q - off := by omega
  simp only [hin]
  rw [zipIdx_between, Nat.sub_zero, Nat.max_zero, hdrop, List.take_eq_take_iff, List.length_drop]
  omega

/-- Bytes put into one page by the host. -/
theorem State.hostBulkPut_eq (u : State) (a : PartId) (page off : Nat) (bs : List Byte) :
    u.hostBulkPut a page off bs = Cert.pagePut u a page off bs := by
  unfold State.hostBulkPut Cert.pagePut Bulk.frame?
  split
  · rename_i f hf
    simp only [hf]
    rfl
  · rename_i hf
    simp only [hf]
    cases hc : u.host.bulk[a].room with
    | some c => simp [State.updBulk, State.updHost, Cert.bulkTo, Bulk.put, Cert.framed]
    | none => rfl

theorem State.touchPage_eq (u : State) (a : PartId) (page : Nat) : u.touchPage a page = Cert.pageTouched u a page := by
  unfold State.touchPage Cert.pageTouched Bulk.frame?
  cases hf : u.host.bulk[a].frames.find? fun f => f.page = page with
  | some f => simp only [hf]; rfl
  | none =>
    simp only [hf]
    cases hc : u.host.bulk[a].room with
    | none => simp
    | some c =>
      simp only []
      split
      · rfl
      · rfl

/-- The first byte of a run in its page `off / 4096 + i` lies at its start, or at that of the page. -/
theorem runStart_mod (off i : Nat) :
    max off (4096 * (off / 4096 + i)) % 4096 = if i = 0 then off % 4096 else 0 := by
  split
  · have : max off (4096 * (off / 4096 + i)) = off := by omega
    rw [this]
  · have : max off (4096 * (off / 4096 + i)) = 4096 * (off / 4096 + i) := by omega
    rw [this]
    omega

/-- The places of a run page by page are its places in order. -/
theorem range'_pages (off n m : Nat) :
    ((List.range m).flatMap fun i =>
      List.range' (max off (4096 * (off / 4096 + i))) (min (off + n) (4096 * (off / 4096 + i + 1)) - max off (4096 * (off / 4096 + i))))
      = List.range' off (min (off + n) (4096 * (off / 4096 + m)) - off) := by
  induction m with
  | zero =>
    have : min (off + n) (4096 * (off / 4096 + 0)) - off = 0 := by omega
    rw [this]
    rfl
  | succ m ih =>
    rw [List.range_succ, List.flatMap_append, ih, List.flatMap_singleton]
    by_cases hempty : min (off + n) (4096 * (off / 4096 + m + 1)) - max off (4096 * (off / 4096 + m)) = 0
    · have hsame : min (off + n) (4096 * (off / 4096 + (m + 1))) - off = min (off + n) (4096 * (off / 4096 + m)) - off := by omega
      rw [hempty, hsame, List.range'_zero, List.append_nil]
    · have hstart : max off (4096 * (off / 4096 + m)) = off + (min (off + n) (4096 * (off / 4096 + m)) - off) := by omega
      have hlen : min (off + n) (4096 * (off / 4096 + (m + 1))) - off = (min (off + n) (4096 * (off / 4096 + m)) - off)
          + (min (off + n) (4096 * (off / 4096 + m + 1)) - max off (4096 * (off / 4096 + m))) := by omega
      rw [hlen, ← List.range'_append_1, ← hstart]

/-- The byte of a bulk area that the host sees (R226). -/
def State.bulkByte (s : State) (a : PartId) (b : Nat) : Byte := match s.host.bulk[a].frame? (b / 4096) with
  | none => 0xE7
  | some f => if f.fetching then 0xE7 else memGet f.bytes (b % 4096)

theorem State.bulkByte_none {s : State} {a : PartId} {b page : Nat} (hpage : b / 4096 = page)
    (hf : s.host.bulk[a].frame? page = none) : s.bulkByte a b = 0xE7 := by
  rw [State.bulkByte, hpage, hf]

theorem State.bulkByte_some {s : State} {a : PartId} {b page : Nat} {f : Frame} (hpage : b / 4096 = page)
    (hf : s.host.bulk[a].frame? page = some f) :
    s.bulkByte a b = if f.fetching then 0xE7 else memGet f.bytes (b % 4096) := by
  rw [State.bulkByte, hpage, hf]

/-- Bytes that lie in one page are seen one by one. -/
theorem State.bulkSeen_eq (s : State) (a : PartId) {off n : Nat} (h : off % 4096 + n ≤ 4096) :
    s.bulkSeen a off n = (List.range' off n).map (s.bulkByte a) := by
  have hpage : ∀ i ∈ List.range n, (off + i) / 4096 = off / 4096 ∧ (off + i) % 4096 = off % 4096 + i := by
    intro i hi
    have := List.mem_range.1 hi
    omega
  have hreplicate : notReadyBytes n = (List.range n).map fun _ => 0xE7 := by simp [notReadyBytes]
  rw [List.range'_eq_map_range, List.map_map, State.bulkSeen]
  cases hf : s.host.bulk[a].frame? (off / 4096) with
  | none =>
    refine hreplicate.trans (List.map_congr_left fun i hi => ?_)
    exact (State.bulkByte_none (hpage i hi).1 hf).symm
  | some f =>
    have hbyte : ∀ i ∈ List.range n, s.bulkByte a (off + i) = if f.fetching then 0xE7 else memGet f.bytes (off % 4096 + i) := by
      intro i hi
      rw [State.bulkByte_some (hpage i hi).1 hf, (hpage i hi).2]
    refine Eq.trans ?_ (List.map_congr_left hbyte).symm
    cases hfetch : f.fetching with
    | true => simpa only [hfetch, if_true] using hreplicate
    | false => simpa only [hfetch, Bool.false_eq_true, if_false] using memRead_eq _ _ _

/-- What a read answers, page by page, are the bytes that it names. -/
theorem State.bulkSeen_pages (s : State) (a : PartId) (off n : Nat) :
    ((pageRuns off n).flatMap fun x => s.bulkSeen a x.2.1 x.2.2) = (List.range n).map fun i => s.bulkByte a (off + i) := by
  have hpiece : ∀ i ∈ List.range ((off % 4096 + n + 4095) / 4096),
      s.bulkSeen a (max off (4096 * (off / 4096 + i))) (min (off + n) (4096 * (off / 4096 + i + 1)) - max off (4096 * (off / 4096 + i)))
        = (List.range' (max off (4096 * (off / 4096 + i)))
            (min (off + n) (4096 * (off / 4096 + i + 1)) - max off (4096 * (off / 4096 + i)))).map (s.bulkByte a) := by
    intro i _
    apply State.bulkSeen_eq
    rw [runStart_mod]
    split <;> omega
  have hall : min (off + n) (4096 * (off / 4096 + (off % 4096 + n + 4095) / 4096)) - off = n := by omega
  rw [pageRuns, List.flatMap_map, List.flatMap_congr hpiece, ← List.map_flatMap, range'_pages, hall, List.range'_eq_map_range,
    List.map_map]
  rfl

/-! ### A page fetched (R226) -/

theorem regionRead_length (p : Partition) (a n : Nat) : (regionRead p a n).length = n := by
  unfold regionRead
  split <;> simp

theorem Frame.merge_getD (f : Frame) {bs : List Byte} (hlen : bs.length = 4096) {i : Nat} (hi : i < 4096) :
    (f.merge bs).getD i 0 = if hasBit f.mask i then memGet f.bytes i else bs.getD i 0 := by
  have hbs : i < bs.length := by omega
  simp [Frame.merge, memRead_eq, hbs, hi]

/-- The bytes of a frame once its page has come: those written meanwhile kept under the mask. -/
theorem Frame.memGet_fetched (f : Frame) {bs : List Byte} (hlen : bs.length = 4096) {i : Nat} (hi : i < 4096) :
    memGet (f.fetched bs).bytes i = if hasBit f.mask i then memGet f.bytes i else bs.getD i 0 := by
  have hmerge : (f.merge bs).length = 4096 := by simp [Frame.merge, hlen]
  have hget := memGet_memWrite_in [] 0 (f.merge bs) i (by omega)
  rw [Nat.zero_add] at hget
  rw [← Frame.merge_getD f hlen hi, ← hget]
  rfl

/-! ### The commands -/

section
variable {s u : State} {t : Nat} {a : PartId} (hu : s.advance t = u) (hready : u.host.hpReady = true)
include hu hready

theorem bulkWrite_unmapped {off : Nat} {bs : List Byte} (h : u.bulkMapped a = false) :
    exec (.bulkWrite t a off bs) s = .next (Cert.hostErr u 1) := by
  rw [exec_bulkWrite, execBulkWrite, hu]
  simp only [hready, h, not_true, Bool.false_eq_true, not_false_eq_true, if_true, if_false]
  rfl

theorem bulkWrite_mapped {off : Nat} {bs : List Byte} (h : u.bulkMapped a = true) : exec (.bulkWrite t a off bs) s =
    .next ((List.range ((off % 4096 + bs.length + 4095) / 4096)).foldl (fun v i =>
      Cert.pagePut v a (off / 4096 + i) (if i = 0 then off % 4096 else 0)
        ((bs.zipIdx.filter fun x => (off + x.2) / 4096 = off / 4096 + i).map Prod.fst)) u) := by
  rw [exec_bulkWrite, execBulkWrite, hu]
  simp only [hready, h, not_true, if_false, pageRuns, List.foldl_map, State.hostBulkPut_eq, runStart_mod, bytes_of_page]

theorem bulkRead_unmapped {off n : Nat} (h : u.bulkMapped a = false) :
    exec (.bulkRead t a off n) s = .next (Cert.answers u (List.replicate n 0)) := by
  rw [exec_bulkRead, execBulkRead, hu]
  simp only [hready, h, not_true, Bool.false_eq_true, not_false_eq_true, if_true, if_false]
  rfl

theorem bulkRead_mapped {off n : Nat} (h : u.bulkMapped a = true) : exec (.bulkRead t a off n) s =
    .next ((List.range ((off % 4096 + n + 4095) / 4096)).foldl (fun v i => Cert.pageTouched v a (off / 4096 + i))
      (Cert.answers u ((List.range n).map fun i => u.bulkByte a (off + i)))) := by
  rw [exec_bulkRead, execBulkRead, hu]
  simp only [hready, h, not_true, if_false, State.bulkSeen_pages]
  simp only [pageRuns, List.foldl_map, State.touchPage_eq]
  rfl

omit hready

theorem bulkFetchDone_none {page : Nat} (h : u.host.bulk[a].frame? page = none) : exec (.bulkFetchDone t a page) s = .next u := by
  rw [exec_bulkFetchDone, execBulkFetchDone, hu]
  simp only [h]

theorem bulkFetchDone_waits {page : Nat} {f : Frame} (h : u.host.bulk[a].frame? page = some f)
    (hno : f.fetching = false ∨ u.pwr.trained = false ∨ u.lpServed a 150 = false) : exec (.bulkFetchDone t a page) s = .next u := by
  rw [exec_bulkFetchDone, execBulkFetchDone, hu]
  simp only [h]
  rw [if_pos (by rcases hno with h | h | h <;> simp [h])]

theorem bulkFetchDone_fetched {page : Nat} {f : Frame} (h : u.host.bulk[a].frame? page = some f) (hfetch : f.fetching = true)
    (htrained : u.pwr.trained = true) (hserved : u.lpServed a 150 = true) (hunits : u.units = []) :
    exec (.bulkFetchDone t a page) s = .next (u.updBulk a fun b => b.put (f.fetched (u.pageBytes a page))) := by
  have hfenced : ∀ x n : Nat, u.lpFenced x n = false := fun x n => by simp [State.lpFenced, hunits]
  rw [exec_bulkFetchDone, execBulkFetchDone, hu]
  simp only [h]
  rw [if_neg (by simp [hfetch, htrained, hserved, hfenced])]

theorem bulkArea : Cert.BulkArea s t a := by
  unfold Cert.BulkArea
  rw [hu]
  intro u' b page? mapped hready
  have hmapped : mapped ↔ u.bulkMapped a = true := by
    simp [mapped, u', State.bulkMapped, State.recovering, show u.host.hpReady = true from hready]
  have hunmapped : ¬ mapped ↔ u.bulkMapped a = false := by rw [hmapped, Bool.not_eq_true]
  refine ⟨Bulk.room_free, Bulk.room_none, Bulk.room_lru, fun off bs => ⟨fun h => ?_, fun h => ?_⟩, fun off n => ⟨fun h => ?_, fun h => ?_⟩,
    fun page => ⟨bulkFetchDone_none hu, fun f hf => ⟨bulkFetchDone_waits hu hf, fun hfetch htrained hserved hunits => ?_⟩⟩⟩
  · exact bulkWrite_unmapped hu hready (hunmapped.1 h)
  · exact bulkWrite_mapped hu hready (hmapped.1 h)
  · exact bulkRead_unmapped hu hready (hunmapped.1 h)
  · exact bulkRead_mapped hu hready (hmapped.1 h)
  · refine ⟨f.fetched (u.pageBytes a page), bulkFetchDone_fetched hu hf hfetch htrained hserved hunits, rfl,
      memWf_memWrite memWf_nil _ _, fun i hi => ?_⟩
    exact Frame.memGet_fetched f (regionRead_length _ _ _) hi

end

end Sys2Proof.Machine

namespace Sys2Proof.Proofs
open Sys2Proof Sys2Proof.Machine

/-- The registers whose tables give a reset value other than zero hold it. -/
theorem registerResetValues : State.reset.regWord 0x10110 = some 0x41
    ∧ (∀ n : WinId, State.reset.regWord (0x10300 + 4 * n.val) = some 0x10000 ∧ State.reset.regWord (0x10340 + 4 * n.val) = some 0x100)
    ∧ (∀ a : PartId, State.reset.regWord (0x10380 + 4 * a.val) = some 0x40)
    ∧ (∀ e : EngId, State.reset.regWord (0x400600 + 0x10000 * e.val) = some 0x20000)
    ∧ (∀ p : PartId, p ≠ 0 → State.reset.regWord (0x500040 + 0x1000 * (p.val - 1)) = some 0x10)
    ∧ (∀ n : LinkId, State.reset.regWord (0x600000 + 0x100 * n.val) = some 0x70)
    ∧ (∀ p : PartId, State.reset.regWord (0x620000 + 0x10 * p.val) = some 0x20000
      ∧ State.reset.regWord (0x620004 + 0x10 * p.val) = some 0x4000)
    ∧ (∀ n : Fin 4, State.reset.regWord (0x640000 + 4 * n.val) = some 0xE)
    ∧ State.reset.regWord 0x640020 = some 0xF8FFFFF8 ∧ State.reset.regWord 0x640024 = some 0xFFFF
    ∧ State.reset.regWord 0x650020 = some 0xFFFFFFFF ∧ State.reset.regWord 0x650024 = some 0xFFFF
    ∧ State.reset.regWord 0x680000 = some 0x27 := by
  decide +kernel

/-- Settles O56: each block of registers by its own lemma, the bulk area page by page, the reset values by evaluation. -/
theorem registersFollowTheirAccess : Obligations.RegistersFollowTheirAccess := by
  unfold Obligations.RegistersFollowTheirAccess
  refine ⟨fun s t v addr => ⟨fun hready hphase => ?serving, fun hready hphase haddr => ?recovery, hostPort_notReady rfl,
    fun a => bulkArea rfl⟩, registerResetValues⟩
  case serving =>
    have hrec : (s.advance t).recovering = false := decide_eq_false hphase
    refine ⟨fun hconf => ⟨?_, ?_, ?_⟩, fun haddr => ?_⟩
    · exact unitRegisterWrites rfl hready hrec hconf v
    · exact engineRegisterWrites rfl hready hrec hconf v
    · exact registerReads rfl hready hrec hconf
    · exact ignores rfl hready (State.unmapped_of_ignored hrec haddr)
  case recovery =>
    have hrec : (s.advance t).recovering = true := decide_eq_true hphase
    exact ignores rfl hready (State.unmapped_recovery hrec haddr)

end Sys2Proof.Proofs

/-! SUPPORT. Deadline misses and the sources of SAFE_STOP (R42, R43, R45-R47, R316, R408). -/

namespace Sys2Proof.Machine

/-! ### A source of SAFE_STOP (R46) -/

theorem clearStop_eq (c : StopSource) (n : Nat) : clearStop c n = Cert.cleared c n := by
  obtain ⟨active, minEnd, remembered⟩ := c
  cases active
  · rfl
  · by_cases h : minEnd ≤ n <;> simp [clearStop, Cert.cleared, h]

theorem expireStop_eq (c : StopSource) (n : Nat) : expireStop c n = Cert.expired c n := by
  obtain ⟨active, minEnd, remembered⟩ := c
  cases active <;> cases remembered <;> by_cases h : minEnd ≤ n <;> simp [expireStop, Cert.expired, h]

theorem State.safeStop_iff (u : State) : u.safeStop = true ↔ u.pwr.startSrc = true ∨ u.pwr.deadlineStop.active = true
    ∨ u.twin.stop.active = true ∨ u.pwr.thmStop.active = true ∨ u.pwr.ejectAt.isSome = true := by
  simp only [State.safeStop, Bool.or_eq_true, or_assoc]

/-! What a CLEAR does to each source. -/

theorem State.takeClear_deadline (u : State) :
    u.takeClear .deadline = { u with pwr := { u.pwr with deadlineStop := Cert.cleared u.pwr.deadlineStop u.now } } := by
  rw [← clearStop_eq]
  rfl

theorem State.takeClear_twin (u : State) :
    u.takeClear .twin = { u with twin := { u.twin with stop := Cert.cleared u.twin.stop u.now } } := by
  rw [← clearStop_eq]
  rfl

/-- Below thermal level 3 the thermal source is cleared as the others are. -/
theorem State.takeClear_thermal {u : State} (h : u.pwr.level ≠ 3) :
    u.takeClear .thermal = { u with pwr := { u.pwr with thmStop := Cert.cleared u.pwr.thmStop u.now } } := by
  rw [← clearStop_eq]
  simp only [State.takeClear, State.updPwr, if_neg h]

/-- At thermal level 3 a CLEAR of the thermal source is remembered at most (R408). -/
theorem State.takeClear_hot {u : State} (h : u.pwr.level = 3) : ∃ r : Bool,
    u.takeClear .thermal = { u with pwr := { u.pwr with thmStop := { u.pwr.thmStop with remembered := r } } } := by
  simp only [State.takeClear, State.updPwr, if_pos h]
  split
  · exact ⟨true, rfl⟩
  · exact ⟨u.pwr.thmStop.remembered, rfl⟩

section
variable {s u : State} {t : Nat} (hu : s.advance t = u) (hready : u.host.hpReady = true) (hrec : u.recovering = false)
include hu hready hrec

theorem hstSafeStopClear_takes (v : Word) :
    exec (.hstSafeStopClear t v) s = .next (if v.getLsbD 2 then u.takeClear .deadline else u) := by
  rw [exec_hstSafeStopClear, execHstSafeStopClear, hu, State.hostWrite_register (b := .host) (o := 0x110) hready hrec rfl rfl,
    ← bitAt_toNat]
  rfl

theorem twnControlClearStop_takes (v : Word) :
    exec (.twnControlClearStop t v) s = .next (if v.getLsbD 0 then u.takeClear .twin else u) := by
  rw [exec_twnControlClearStop, execTwnControlClearStop, hu,
    State.hostWrite_register (b := .block 12) (o := 8) hready hrec rfl rfl, ← bitAt_toNat]
  rfl

theorem thmControlClearStop_takes (v : Word) :
    exec (.thmControlClearStop t v) s = .next (if v.getLsbD 0 then u.takeClear .thermal else u) := by
  rw [exec_thmControlClearStop, execThmControlClearStop, hu,
    State.hostWrite_register (b := .block 11) (o := 8) hready hrec rfl rfl, ← bitAt_toNat]
  rfl

end

/-! What SAFE_STOP_MIN_EXPIRY does to each source. -/

section
variable (s : State) (t : Nat)

theorem safeStopMinExpiry_deadline : exec (.safeStopMinExpiry t .deadline) s = .next { s.advance t with
    pwr := { (s.advance t).pwr with deadlineStop := Cert.expired (s.advance t).pwr.deadlineStop (s.advance t).now } } := by
  rw [← expireStop_eq]
  rfl

theorem safeStopMinExpiry_twin : exec (.safeStopMinExpiry t .twin) s = .next { s.advance t with
    twin := { (s.advance t).twin with stop := Cert.expired (s.advance t).twin.stop (s.advance t).now } } := by
  rw [← expireStop_eq]
  rfl

theorem safeStopMinExpiry_thermal : exec (.safeStopMinExpiry t .thermal) s = .next (if (s.advance t).pwr.level = 3 then s.advance t
    else { s.advance t with
      pwr := { (s.advance t).pwr with thmStop := Cert.expired (s.advance t).pwr.thmStop (s.advance t).now } }) := by
  rw [← expireStop_eq]
  rfl

end

/-! ### A deadline miss (R42, R43, R45, R47) -/

/-- What the monitor does on the home engine's policy `pol` in a module that is no standby in step: SAFE_STOP with STOP_RELEVANT. -/
def State.stopOnMiss (v : State) (home : EngId) (pol : Word) (c : Nat) : State :=
  if hasBit pol 0 then { v with pwr := { v.pwr with
    deadlineStop := { active := true, minEnd := c + 900000, remembered := false }, stopEngine := BitVec.ofNat 3 home.val } } else v

section
variable {u : State} {j : Job} {home : EngId} {cls : BitVec 4} {c : Nat} (hhome : j.engines.head? = some home) (hcls : j.cls = some cls)
include hhome hcls

/-- A standby in step notes a miss and reports it over T0 (R47). -/
theorem State.miss_standby (h : u.isStandby = true) : u.miss j c =
    ({ Cert.missNoted u j home cls c with free := u.free + 1 }.twinSend (Config.freeNat u.free)) := by
  simp only [State.miss, State.recordMiss, hhome, hcls]
  exact if_pos h

/-- A miss of a class without NOTIFY_EN is noted, and drives SAFE_STOP where its class says so. -/
theorem State.miss_quiet (h : u.isStandby = false) (hpol : hasBit u.eng[home].dlClass[cls.toFin] 1 = false) :
    u.miss j c = (Cert.missNoted u j home cls c).stopOnMiss home u.eng[home].dlClass[cls.toFin] c := by
  simp only [State.miss, State.recordMiss, hhome, hcls]
  exact (if_neg (ne_true_of_eq_false h)).trans (if_pos (ne_true_of_eq_false hpol))

/-- With NOTIFY_EN a miss of a job from inside the module notifies the system partition besides (log entry 76). -/
theorem State.miss_notifies (h : u.isStandby = false) (hpol : hasBit u.eng[home].dlClass[cls.toFin] 1 = true)
    (hsource : j.source = .internal) : u.miss j c =
      ((Cert.missNoted u j home cls c).stopOnMiss home u.eng[home].dlClass[cls.toFin] c).pghNotify 0
        (u.eng[home].dlClass[cls.toFin].toNat / 65536) 1 c := by
  simp only [State.miss, State.recordMiss, hhome, hcls]
  refine (if_neg (ne_true_of_eq_false h)).trans ((if_neg (not_not.2 hpol)).trans ?_)
  simp only [hsource]
  rfl

end

section
variable {s u : State} {t : Nat} {j : Job} (hu : s.advance t = u) (hj : u.job? j.id = some j)
include hu hj

theorem deadlineMiss_passes (h : u.now ≤ j.last ∨ (u.isComplete j = true ∧ j.completion ≤ j.last)) :
    exec (.deadlineMiss t j.id) s = .next u := by
  rw [exec_deadlineMiss, execDeadlineMiss, hu]
  simp only [hj]
  rw [if_pos (.inr (.inr h))]

theorem deadlineMiss_misses (hearly : j.early = none) (hmissed : j.missed = false) (hlast : j.last < u.now)
    (h : u.isComplete j = false ∨ j.last < j.completion) : exec (.deadlineMiss t j.id) s = .next (u.miss j (j.last + 1)) := by
  have hnot : ¬ (j.early.isSome = true ∨ j.missed = true ∨ u.now ≤ j.last ∨ (u.isComplete j = true ∧ j.completion ≤ j.last)) := by
    rcases h with h | h
    · simp [hearly, hmissed, h, hlast]
    · simp [hearly, hmissed, hlast, h]
  rw [exec_deadlineMiss, execDeadlineMiss, hu]
  simp only [hj]
  rw [if_neg hnot]

end

end Sys2Proof.Machine

namespace Sys2Proof.Proofs
open Sys2Proof Sys2Proof.Machine

/-- Settles O26: each CLEAR reaches the source through its register, and SAFE_STOP_MIN_EXPIRY reaches it directly. -/
theorem clearReleasesAfterTheMinimum : Obligations.ClearReleasesAfterTheMinimum := by
  unfold Obligations.ClearReleasesAfterTheMinimum
  refine ⟨fun s t v => ?_, fun s t => ⟨safeStopMinExpiry_deadline s t, safeStopMinExpiry_twin s t, safeStopMinExpiry_thermal s t⟩,
    State.safeStop_iff⟩
  intro u p ⟨hready, hphase⟩
  have hrec : u.recovering = false := decide_eq_false hphase
  rw [hstSafeStopClear_takes rfl hready hrec, twnControlClearStop_takes rfl hready hrec, thmControlClearStop_takes rfl hready hrec,
    State.takeClear_deadline, State.takeClear_twin]
  refine ⟨rfl, rfl, fun hlevel => ?_, fun hlevel => ?_⟩
  · rw [State.takeClear_thermal hlevel]
  · obtain ⟨r, hr⟩ := State.takeClear_hot hlevel
    cases v.getLsbD 0
    · exact ⟨p.thmStop.remembered, rfl⟩
    · exact ⟨r, congrArg _ hr⟩

/-- Settles O25: DEADLINE_MISS misses exactly the late jobs, and a miss follows the policy of its class on the home engine. -/
theorem missesAreRecordedAndStop : Obligations.MissesAreRecordedAndStop := by
  unfold Obligations.MissesAreRecordedAndStop
  intro s t j home cls u pol c noted stopped row hj hhome hcls hearly hmissed
  refine ⟨fun h => deadlineMiss_passes rfl hj (.inl h), fun h hc => deadlineMiss_passes rfl hj (.inr ⟨h, hc⟩), fun hlast hlate => ?_⟩
  have hrow : row = .next (u.miss j c) := deadlineMiss_misses rfl hj hearly hmissed hlast hlate
  rw [hrow]
  refine ⟨fun h => ?_, fun h hpol => ?_, fun h hpol hsource => ?_⟩
  · rw [State.miss_standby hhome hcls h]
  · rw [State.miss_quiet hhome hcls h hpol]
    rfl
  · rw [State.miss_notifies hhome hcls h hpol hsource]
    rfl

end Sys2Proof.Proofs

/-! SUPPORT. A mailbox command that rings, is accepted and starts: what its body answers is what the command does (R227-R230). -/

namespace Sys2Proof.Machine

/-! ### The commands accepted and not answered -/

/-- Where a list has nothing to give at a place, what is put there comes in between what the others give. -/
theorem filterMap_set_none {α β : Type} {f : α → Option β} {l : List α} {i : Nat} (hi : i < l.length) (hnone : f l[i] = none)
    (x : α) {b : β} (hx : f x = some b) :
    ∃ pre post, l.filterMap f = pre ++ post ∧ (l.set i x).filterMap f = pre ++ b :: post := by
  refine ⟨(l.take i).filterMap f, (l.drop (i + 1)).filterMap f, ?_, ?_⟩
  · conv_lhs => rw [← List.take_append_drop i l, List.drop_eq_getElem_cons hi]
    rw [List.filterMap_append, List.filterMap_cons_none hnone]
  · rw [List.set_eq_take_append_cons_drop, if_pos hi, List.filterMap_append, List.filterMap_cons_some hx]

section
variable {u : State} {op : Nat} {r : MbxReq}

theorem State.accepted_of_accepted (h : u.host.mbx[r.mailbox].cmd = none) (waiting : Bool) :
    ∃ pre post, u.accepted = pre ++ post
      ∧ (Cert.accepted u op r waiting).accepted = pre ++ Cert.newCmd u op r waiting :: post := by
  have hlen : r.mailbox.val < u.host.mbx.toList.length := by simp
  have hnone : Mailbox.cmd u.host.mbx.toList[r.mailbox.val] = none := h
  unfold State.accepted Cert.accepted
  simp only [Vector.toList_set]
  exact filterMap_set_none hlen hnone _ rfl

theorem State.heldUp_iff (u : State) (c : RunCmd) : u.heldUp c = true ↔ Cert.heldUp u c := by
  unfold State.heldUp Cert.heldUp
  cases c.part with
  | none => simp
  | some p => simp [imp_iff_not_or]

/-- The command that has just been accepted holds up none before it, nor itself. -/
theorem State.heldUp_accepted (h : u.host.mbx[r.mailbox].cmd = none) {waiting : Bool} {c : RunCmd} (hc : c.order ≤ u.host.nextOrder) :
    (Cert.accepted u op r waiting).heldUp c = u.heldUp c := by
  obtain ⟨pre, post, hold, hnew⟩ := State.accepted_of_accepted (op := op) h waiting
  have hself : ¬ (Cert.newCmd u op r waiting).order < c.order := by
    show ¬ u.host.nextOrder < c.order
    omega
  unfold State.heldUp
  rw [hold, hnew]
  simp only [List.any_append, List.any_cons, decide_eq_false hself, Bool.false_and, Bool.false_or]
  rfl

theorem State.mayStart_accepted (h : u.host.mbx[r.mailbox].cmd = none) (hstart : Cert.startsNow u op r) :
    (Cert.accepted u op r true).mayStart (Cert.newCmd u op r true) = true := by
  obtain ⟨hroom, hfree, hothers⟩ := hstart
  obtain ⟨pre, post, hold, hnew⟩ := State.accepted_of_accepted (op := op) h true
  have hsame : (Cert.accepted u op r true).accepted.filter (fun d => d.order ≠ (Cert.newCmd u op r true).order)
      = u.accepted.filter fun d => d.order ≠ (Cert.newCmd u op r true).order := by
    rw [hold, hnew]
    simp
  unfold State.mayStart
  simp only [hsame, Bool.and_eq_true, decide_eq_true_eq, Bool.not_eq_true',
    State.heldUp_accepted (c := Cert.newCmd u op r true) h (le_refl u.host.nextOrder)]
  refine ⟨⟨hroom, ?_⟩, ?_⟩
  · rwa [← Bool.not_eq_true, State.heldUp_iff]
  · refine List.any_eq_false.2 fun d hd => ?_
    simp only [Bool.and_eq_true, decide_eq_true_eq, Bool.not_eq_true']
    rintro ⟨⟨hwaits, hbefore⟩, hnot⟩
    rw [State.heldUp_accepted h (le_of_lt hbefore)] at hnot
    exact absurd ((State.heldUp_iff _ _).2 (hothers d hd hwaits hbefore)) (by simp [hnot])

end

/-! ### A command that rings and starts -/

/-- The request written, and the command accepted. -/
theorem State.accepted_eq (u : State) (op : Nat) (r : MbxReq) :
    ((u.updMbx r.mailbox fun b => { b with request := some (BitVec.ofNat 16 op, r) }).updMbx r.mailbox fun b =>
      { b with lastDoorbell := r.doorbell, cmd := some (Cert.newCmd u op r true), resp := { b.resp with valid := false } }).updHost
        (fun h => { h with
          nextOrder := h.nextOrder + 1
          mbxDone := if r.mailbox.val < 64 then h.mbxDone &&& ~~~ BitVec.ofNat 64 (2 ^ r.mailbox.val) else h.mbxDone })
      = Cert.accepted u op r true := by
  simp [State.updMbx, State.updHost, Cert.accepted]

/-- The command accepted waits no longer. -/
theorem State.updMbx_accepted (u : State) (op : Nat) (r : MbxReq) :
    ((Cert.accepted u op r true).updMbx r.mailbox fun b => { b with cmd := b.cmd.map fun c => { c with waiting := false } })
      = Cert.accepted u op r false := by
  simp [State.updMbx, State.updHost, Cert.accepted, Cert.newCmd]

/-- What a command that has passed its first checks does as it starts. -/
theorem State.startCmd_accepted {u : State} {op : Nat} {r : MbxReq} (hruns : Cert.runs u op r) (body : Body) :
    (Cert.accepted u op r true).startCmd r.mailbox op r body =
      (let x := body (Cert.accepted u op r false) r.mailbox none r
       let w := if mirrored op ∧ x.2.all (fun y => y.1 == stOk) then x.1.twinForward 3 else x.1
       x.2.elim w fun y => (w.unfence r.mailbox).mbxAnswer r.mailbox y.1 y.2) := by
  obtain ⟨-, -, -, -, -, -, hpre⟩ := hruns
  unfold State.startCmd State.runBody
  rw [State.updMbx_accepted]
  simp only [show ∀ known, (Cert.accepted u op r false).preCheck none op r known false = u.preCheck none op r known false from fun _ => rfl,
    hpre]
  rcases body (Cert.accepted u op r false) r.mailbox none r with ⟨w, _ | ⟨st, bs⟩⟩
  · simp
  · simp

section
variable {s u : State} {t op : Nat} {r : MbxReq} {body : Body} (hu : s.advance t = u) (hruns : Cert.runs u op r)
include hu hruns

/-- A command that is accepted and starts runs its body in the state that has accepted it. -/
theorem State.ring_starts : s.ring t op r body = (Cert.accepted u op r true).startCmd r.mailbox op r body := by
  obtain ⟨hready, hphase, hbell, hnew, hcmd, hstart, -⟩ := hruns
  have hserved : ¬ (u.pwr.phase = .recovery ∧ r.mailbox.val < 64) := fun hx => hphase hx.2 hx.1
  have hmbx : (u.updMbx r.mailbox fun b => { b with request := some (BitVec.ofNat 16 op, r) }).host.mbx[r.mailbox]
      = { u.host.mbx[r.mailbox] with request := some (BitVec.ofNat 16 op, r) } := by
    simp [State.updMbx, State.updHost]
  unfold State.ring
  simp only [hu, hready, not_true, if_false, if_neg hserved, hmbx, hcmd, Option.isSome_none, Bool.false_eq_true]
  rw [if_neg (not_or.2 ⟨hbell, hnew⟩)]
  exact (congrArg (fun (v : State) => if v.mayStart (Cert.newCmd u op r true) then v.startCmd r.mailbox op r body
    else v.fenceAhead r.mailbox op r) (State.accepted_eq u op r)).trans (if_pos (State.mayStart_accepted hcmd hstart))

theorem State.ring_answers {w : State} {st : Status} {bs : List Byte}
    (hbody : body (Cert.accepted u op r false) r.mailbox none r = (w, some (st, bs))) :
    s.ring t op r body = Cert.kept w op r st bs := by
  rw [State.ring_starts hu hruns, State.startCmd_accepted hruns, hbody]
  unfold Cert.kept
  cases mirrored op <;> by_cases hst : st = stOk <;> simp [hst]

theorem State.ring_goesOn {w : State} (hbody : body (Cert.accepted u op r false) r.mailbox none r = (w, none)) :
    s.ring t op r body = if mirrored op then w.twinForward 3 else w := by
  rw [State.ring_starts hu hruns, State.startCmd_accepted hruns, hbody]
  simp

end

end Sys2Proof.Machine

/-! SUPPORT. SCHEDULE_ARM, SCHEDULE_DISARM and KV_BIND outside an envelope (R133-R135, R162). -/

namespace Sys2Proof.Machine

/-! ### What the copy of a package leaves as it is (R133, R290) -/

/-- Two states agree on which partitions exist. -/
def State.sameParts (s u : State) : Prop := ∀ p : PartId, s.part[p].isThere = u.part[p].isThere

theorem State.sameParts.trans {s u v : State} (h : s.sameParts u) (h' : u.sameParts v) : s.sameParts v :=
  fun p => (h p).trans (h' p)

theorem State.sameParts_of_part {s u : State} (h : s.part = u.part) : s.sameParts u := fun p => by rw [h]

theorem State.residePage_part (s : State) (a : PartId) (page : Nat) : (s.residePage a page).part = s.part := by
  unfold State.residePage
  split
  · rfl
  · split <;> rfl

theorem State.bulkRead_part (s : State) (a : PartId) (b n : Nat) : (s.bulkRead a b n).1.part = s.part := by
  unfold State.bulkRead
  generalize List.range _ = l
  generalize ([] : List Byte) = bs
  induction l generalizing s bs with
  | nil => rfl
  | cons i l ih =>
    rw [List.foldl_cons]
    exact (ih _ _).trans (s.residePage_part a _)

theorem State.sameParts_takeSeq (s : State) (p : PartId) (lane epoch seq : Nat) : (s.takeSeq p lane epoch seq).sameParts s := by
  intro q
  by_cases h : q = p
  · subst h
    simp [State.takeSeq, State.updPart]
  · have hne : p.val ≠ q.val := fun he => h (Fin.ext he.symm)
    simp [State.takeSeq, State.updPart, Vector.getElem_set_ne, hne]

theorem State.sameParts_openRecords (k : Nat) (s : State) (p : PartId) (page : Nat) (prev : Option Nat) (n : Nat) :
    (s.openRecords p page prev k n).1.sameParts s := by
  induction k generalizing s page prev n with
  | zero => exact fun _ => rfl
  | succ k ih =>
    rcases hread : s.bulkRead p (4096 * page) 4096 with ⟨v, bytes⟩
    have hv : v.sameParts s := by
      have := s.bulkRead_part p (4096 * page) 4096
      rw [hread] at this
      exact State.sameParts_of_part this
    have htake := fun ep seq => (v.sameParts_takeSeq p 0x80 ep seq).trans hv
    unfold State.openRecords
    rw [hread]
    dsimp only
    split
    · exact hv
    split
    · exact hv
    split
    · exact htake _ _
    split
    · exact htake _ _
    · exact (ih _ _ _ _).trans (htake _ _)

theorem State.sameParts_sourceBytes (s : State) (addr n : Nat) : (s.sourceBytes addr n).1.sameParts s := by
  unfold State.sourceBytes
  split
  · exact fun _ => rfl
  · split
    · split
      · exact fun _ => rfl
      · exact State.sameParts_of_part (s.bulkRead_part _ _ _)
    · split
      · exact fun _ => rfl
      · rename_i a b _ _ _
        have hopen := State.sameParts_openRecords (ceilDiv n 4064) s a (b / 4096) none n
        rcases hx : s.openRecords a (b / 4096) none (ceilDiv n 4064) n with ⟨v, _ | bs⟩ <;> rw [hx] at hopen <;> exact hopen

theorem State.sameParts_armPackage (s : State) (r : MbxReq) : (s.armPackage r).1.sameParts s := by
  unfold State.armPackage
  split
  · exact fun _ => rfl
  split
  · split
    · exact fun _ => rfl
    split
    · exact fun _ => rfl
    · exact s.sameParts_sourceBytes _ _
  · exact fun _ => rfl

theorem State.sameParts.partOf {s u : State} (h : s.sameParts u) (n : Nat) : s.partOf n = u.partOf n := by
  unfold State.partOf
  split
  · rw [h]
  · rfl

theorem State.sameParts.compOf {s u : State} (h : s.sameParts u) (n : Nat) : s.compOf n = u.compOf n := by
  unfold State.compOf
  rw [h.partOf]

/-! ### Preloads (R130) -/

theorem Engine.preload_none {m : Image} (h : m.flags = 0) (g : Engine) : g.preload m = g := by
  simp [Engine.preload, h]

/-- Schedules without preloads put none in place. -/
theorem State.loadPreloads_none {s : State} (h : ∀ c ∈ s.scheds, hasPreload c = false) (e : EngId) : s.loadPreloads e = s := by
  unfold State.loadPreloads
  split
  · rfl
  · refine foldl_fixed _ _ _ fun c hc => ?_
    split
    · rfl
    · rename_i m hm
      have hplain : m.flags = 0 := by
        have := h c (List.mem_of_mem_filter hc)
        simp only [hasPreload, List.any_append, Bool.or_eq_false_iff, List.any_eq_false] at this
        simpa using this.1 m (List.mem_of_find?_eq_some hm)
      exact State.updEng_same s e _ (Engine.preload_none hplain _)

theorem State.preloadAll_none {s : State} (h : ∀ c ∈ s.scheds, hasPreload c = false) (p : PartId) : s.preloadAll p = s := by
  refine foldl_fixed _ _ _ fun e _ => ?_
  split
  · exact State.loadPreloads_none h e
  · rfl

/-! ### SCHEDULE_ARM (R48, R133) -/

/-- The lowest free number is the first that satisfies the test. -/
theorem firstFree_eq {p : Nat → Bool} {n h : Nat} (hn : h < n) (hp : p h = true) (hlow : ∀ k < h, p k = false) :
    firstFree p n = some h := by
  unfold firstFree
  rw [List.find?_range_eq_some]
  exact ⟨hp, by simpa using hn, by simpa using hlow⟩

theorem State.reservedNum_none {s : State} (h : s.env.opens = []) (op : Half) (n : Nat) : s.reservedNum op n = false := by
  rw [State.reservedNum, h]
  rfl

theorem State.heldArms_none {s : State} (h : s.env.opens = []) (p : PartId) (but : Half) : s.heldArms p but = [] := by
  rw [State.heldArms, h]
  rfl

/-- What a schedule is once its package has passed the checks of its partition. -/
theorem State.armed_spec {s : State} {c c' : Schedule} {pkg : List Byte} (h : s.armed c pkg = some c') :
    c'.handle = c.handle ∧ c'.part = c.part ∧ c'.trigger = c.trigger ∧ c'.engines = (s.live c.part).length
      ∧ c'.suspended = false ∧ selfOk c' = true := by
  unfold State.armed at h
  simp only at h
  split at h
  · cases h
  split at h
  · cases h
  split at h
  · cases h
  obtain ⟨hc, hself⟩ := Option.filter_eq_some_iff.1 h
  split at hc
  · cases hc
    exact ⟨rfl, rfl, rfl, rfl, rfl, hself⟩
  · split at hc
    · cases hc
      exact ⟨rfl, rfl, rfl, rfl, rfl, hself⟩
    · cases hc

/-- The schedule that SCHEDULE_ARM asks for, under handle `h`, before its package has been looked at. -/
def scheduleAsked (r : MbxReq) (p : PartId) (h : Nat) : Schedule :=
  { handle := h, part := p, cls := BitVec.ofNat 4 (r.arg 1 1), trigger := r.arg 4 2, budget := BitVec.ofNat 32 (r.arg 8 4)
    engines := 0, w := 0, images := [] }

/-- A SCHEDULE_ARM with a plain package in the form of Table 05.20, for a pigeonhole that partition `p` has. -/
structure AsksPlainArm (w : State) (r : MbxReq) (p : PartId) : Prop where
  part : w.compOf (r.arg 0 1) = some p
  form : r.form 24 [(3, 1)] = true
  flags : r.arg 2 1 = 0
  cls : r.arg 1 1 ≤ 15
  zero : r.arg 6 2 = 0
  budget : r.arg 8 4 ≠ 0
  trigger : r.arg 4 2 < w.part[p].pghCount

/-- The handle `h` is the lowest free one from 1 up, and no envelope is open that could have reserved it (log entry 10). -/
structure LowestHandle (w : State) (h : Nat) : Prop where
  opens : w.env.opens = []
  pos : 1 ≤ h
  lt : h < 65536
  free : w.sched? h = none
  lowest : ∀ k : Nat, 1 ≤ k → k < h → (w.sched? k).isSome = true

theorem LowestHandle.firstFree {w : State} {h : Nat} (hh : LowestHandle w h) :
    firstFree (fun k => k ≠ 0 && (w.sched? k).isNone && !w.reservedNum 0x0400 k) 65536 = some h := by
  refine firstFree_eq hh.lt ?_ fun k hk => ?_
  · have := hh.pos
    simp only [State.reservedNum_none hh.opens, hh.free]
    simp
    omega
  · rcases Nat.eq_zero_or_pos k with rfl | hpos
    · rfl
    · have := hh.lowest k hpos hk
      rw [Option.isSome_iff_ne_none] at this
      simp [this]

section
variable {w : State} {r : MbxReq} {p : PartId} {pkg : List Byte} (ha : AsksPlainArm w r p)
include ha

theorem changeArm_classBad (hbad : w.classBad p (BitVec.ofNat 4 (r.arg 1 1)) = true) :
    changeArm w r pkg none = .error stBadArg := by
  simp [changeArm, ha.part, ha.form, ha.flags, hbad]

variable (hgood : w.classBad p (BitVec.ofNat 4 (r.arg 1 1)) = false)
include hgood

theorem AsksPlainArm.args : ¬ (15 < r.arg 1 1 ∨ r.arg 6 2 ≠ 0 ∨ r.arg 8 4 = 0 ∨ w.part[p].pghCount ≤ r.arg 4 2
    ∨ w.classBad p (BitVec.ofNat 4 (r.arg 1 1)) = true) := by
  have := ha.cls; have := ha.zero; have := ha.budget; have := ha.trigger
  rw [hgood]
  simp only [Bool.false_eq_true, or_false]
  omega

theorem changeArm_triggerTaken (htaken : (w.trigger? p (r.arg 4 2)).isSome = true) : changeArm w r pkg none = .error stBusy := by
  unfold changeArm
  simp only [ha.part, ha.form, ha.flags, if_neg (ha.args hgood), htaken]
  rfl

variable (hfree : w.trigger? p (r.arg 4 2) = none) {h : Nat} (hh : LowestHandle w h)
include hfree hh

theorem changeArm_unarmed (hno : w.armed (scheduleAsked r p h) pkg = none) : changeArm w r pkg none = .error stBadArg := by
  unfold scheduleAsked at hno
  unfold changeArm
  simp only [ha.part, ha.form, ha.flags, if_neg (ha.args hgood), hfree, hh.firstFree, Option.getD_none, Option.getD_some, hno]
  rfl

variable (henv : r.env = 0xFFFF) {c : Schedule} (harmed : w.armed (scheduleAsked r p h) pkg = some c)
include henv harmed

/-- A package that passes its checks is armed where it fits beside the schedules of its partition. -/
theorem changeArm_armed : changeArm w r pkg none =
    if fitsWith (w.scheds.filter fun x => x.part = p) [] c then
      .ok (State.preloadAll { w with scheds := w.scheds ++ [c] } p, armResponse c, h)
    else .error stBusy := by
  have hlt := Nat.not_le.2 hh.lt
  unfold scheduleAsked at harmed
  unfold changeArm
  simp only [ha.part, ha.form, ha.flags, if_neg (ha.args hgood), hfree, hh.firstFree, Option.getD_none, Option.getD_some, harmed,
    State.heldArms_none hh.opens]
  simp only [henv, hlt]
  cases hfit : fitsWith (w.scheds.filter fun x => x.part = p) [] c <;> simp [hfit]

end

section
variable {s u w : State} {t : Nat} {r : MbxReq} {p : PartId} {pkg : List Byte} (hu : s.advance t = u) (hruns : Cert.runs u 0x0400 r)
  (henv : r.env = 0xFFFF) (hpkg : (Cert.accepted u 0x0400 r false).armPackage r = (w, .ok pkg))
include hu hruns henv hpkg

theorem scheduleArm_refused {st : Status} (h : changeArm w r pkg none = .error st) :
    exec (.scheduleArm t r) s = .next (Cert.kept w 0x0400 r st []) := by
  rw [exec_scheduleArm, execScheduleArm, State.ring_answers hu hruns (w := w) (st := st) (bs := [])]
  simp [bodyScheduleArm, henv, hpkg, State.changeOrStage, h, ends]

theorem scheduleArm_arms {w' : State} {bs : List Byte} {k : Nat} (h : changeArm w r pkg none = .ok (w', bs, k)) :
    exec (.scheduleArm t r) s = .next (Cert.kept w' 0x0400 r stOk bs) := by
  rw [exec_scheduleArm, execScheduleArm, State.ring_answers hu hruns (w := w') (st := stOk) (bs := bs)]
  simp [bodyScheduleArm, henv, hpkg, State.changeOrStage, h, gives]

end

/-! ### SCHEDULE_DISARM (R135) -/

/-- A command answered is answered once. -/
theorem State.mbxAnswer_mbxAnswer (v : State) (m : MbxId) (st st' : Status) (bs bs' : List Byte) :
    (v.mbxAnswer m st bs).mbxAnswer m st' bs' = v.mbxAnswer m st bs := by
  have hone : ∀ c : Option RunCmd,
      ((c.map fun c => if c.result.isNone then { c with result := some (st, bs) } else c).map fun c =>
        if c.result.isNone then { c with result := some (st', bs') } else c)
        = c.map fun c => if c.result.isNone then { c with result := some (st, bs) } else c := by
    rintro (_ | c)
    · rfl
    · cases hc : c.result <;> simp [hc]
  simp only [State.mbxAnswer, State.updMbx, State.updHost]
  simp only [Fin.getElem_fin, Vector.getElem_set_self, Vector.set_set, hone]

/-- An answer given before the command completes is the one that is kept. -/
theorem Cert.kept_mbxAnswer (v : State) (op : Nat) (r : MbxReq) (st : Status) (bs : List Byte) :
    Cert.kept (v.mbxAnswer r.mailbox st bs) op r st bs = Cert.kept v op r st bs := by
  unfold Cert.kept
  rw [← State.mbxAnswer_mbxAnswer (State.unfence (if mirrored op && st == stOk then v.twinForward 3 else v) r.mailbox) r.mailbox st st bs bs]
  congr 1
  unfold State.twinForward
  split
  · rw [show (v.mbxAnswer r.mailbox st bs).forwards = v.forwards from rfl]
    split <;> rfl
  · rfl

theorem State.trigger?_disarmed {v : State} {p : PartId} {k n : Nat}
    (h : ∀ x ∈ v.scheds, x.trigger = n → x.part = p → x.handle = k) :
    State.trigger? { v with scheds := v.scheds.map fun x => if x.handle = k then { x with disarming := true } else x } p n = none := by
  refine List.find?_eq_none.2 fun x hx => ?_
  obtain ⟨y, hy, rfl⟩ := List.mem_map.1 hx
  split
  · simp
  · rename_i hne
    have : ¬ (y.part = p ∧ y.trigger = n) := fun hy' => hne (h y hy hy'.2 hy'.1)
    simp only [Bool.and_eq_true, decide_eq_true_eq, not_and]
    exact fun h' => absurd h' this

theorem updWhere_eq_map {α : Type} (p : α → Prop) [DecidablePred p] (f : α → α) (l : List α) :
    updWhere (fun x => decide (p x)) f l = l.map fun x => if p x then f x else x := by
  simp [updWhere]

/-- Without a job of its schedule a SCHEDULE_DISARM completes at once. -/
theorem State.pollDisarm_idle {v : State} {m : MbxId} {r : MbxReq} (h : (v.jobs.any fun j => j.sched = r.arg 2 2) = false) :
    v.pollDisarm m r = v.mbxAnswer m stOk := by
  unfold State.pollDisarm
  split
  · rfl
  · rename_i c hc
    have hhandle : c.handle = r.arg 2 2 := by simpa using List.find?_some hc
    rw [hhandle, h]
    simp

/-- The schedule of a handle marked: it takes no trigger from then on. -/
def State.disarm (v : State) (k : Nat) : State :=
  { v with scheds := v.scheds.map fun x => if x.handle = k then { x with disarming := true } else x }

section
variable {s u : State} {t : Nat} {r : MbxReq} {p : PartId} (hu : s.advance t = u) (hruns : Cert.runs u 0x0401 r)
  (henv : r.env = 0xFFFF) (hp : u.compOf (r.arg 0 1) = some p) (hform : r.form 4 [(1, 1)] = true)
include hu hruns henv hp hform

theorem scheduleDisarm_unknown (h : (u.scheds.find? fun c => c.handle = r.arg 2 2 && c.part = p && !c.disarming) = none) :
    exec (.scheduleDisarm t r) s = Cert.refused u 0x0401 r stBadArg := by
  have hp' : (Cert.accepted u 0x0401 r false).compOf (r.arg 0 1) = some p := hp
  have h' : ((Cert.accepted u 0x0401 r false).scheds.find? fun c => c.handle = r.arg 2 2 && c.part = p && !c.disarming) = none := h
  rw [exec_scheduleDisarm, execScheduleDisarm,
    State.ring_answers hu hruns (w := Cert.accepted u 0x0401 r false) (st := stBadArg) (bs := [])]
  · rfl
  · simp only [bodyScheduleDisarm, henv, changeDisarm, hp', hform, h']
    rfl

theorem scheduleDisarm_marks {c : Schedule}
    (h : (u.scheds.find? fun c => c.handle = r.arg 2 2 && c.part = p && !c.disarming) = some c) :
    exec (.scheduleDisarm t r) s =
      if u.jobs.any fun j => j.sched = r.arg 2 2 then Cert.goesOn u 0x0401 r fun v => v.disarm (r.arg 2 2)
      else Cert.did u 0x0401 r fun v => v.disarm (r.arg 2 2) := by
  have hp' : (Cert.accepted u 0x0401 r false).compOf (r.arg 0 1) = some p := hp
  have h' : ((Cert.accepted u 0x0401 r false).scheds.find? fun c => c.handle = r.arg 2 2 && c.part = p && !c.disarming) = some c := h
  have hc : c.handle = r.arg 2 2 := by
    have := List.find?_some h
    simp only [Bool.and_eq_true, decide_eq_true_eq] at this
    exact this.1.1
  have hmark : (Cert.accepted u 0x0401 r false).updSched (r.arg 2 2) (fun c => { c with disarming := true })
      = (Cert.accepted u 0x0401 r false).disarm (r.arg 2 2) :=
    congrArg (fun l => { Cert.accepted u 0x0401 r false with scheds := l }) (updWhere_eq_map (fun x => x.handle = r.arg 2 2) _ _)
  have hchange : changeDisarm (Cert.accepted u 0x0401 r false) r [] none
      = .ok ((Cert.accepted u 0x0401 r false).disarm (r.arg 2 2), [], r.arg 2 2) := by
    unfold changeDisarm
    simp only [hp', hform, h', hc, hmark]
    rfl
  rw [exec_scheduleDisarm, execScheduleDisarm]
  cases hjobs : u.jobs.any fun j => j.sched = r.arg 2 2 with
  | true =>
    rw [State.ring_goesOn hu hruns (w := (Cert.accepted u 0x0401 r false).disarm (r.arg 2 2))]
    · rfl
    · simp only [bodyScheduleDisarm, henv, hchange]
      exact if_pos hjobs
  | false =>
    rw [State.ring_answers hu hruns (w := ((Cert.accepted u 0x0401 r false).disarm (r.arg 2 2)).mbxAnswer r.mailbox stOk)
      (st := stOk) (bs := []), Cert.kept_mbxAnswer]
    · rfl
    · simp only [bodyScheduleDisarm, henv, hchange]
      refine (if_neg (ne_true_of_eq_false hjobs)).trans ?_
      rw [State.pollDisarm_idle (v := (Cert.accepted u 0x0401 r false).disarm (r.arg 2 2)) hjobs]
      rfl

end

/-! ### KV_BIND (R162) -/

/-- The bind that a KV_BIND asks for (Table 07.5). -/
def bindAsked (r : MbxReq) : KvBind :=
  { logical := r.arg 2 1, layers := (List.range (r.arg 3 1)).map fun i => r.arg (16 + i) 1, windowPages := r.arg 4 2
    slide := r.arg 6 1 = 1, passes := r.arg 7 1, readyPgh := r.arg 8 2 }

/-- A KV_BIND in the form of Table 07.5, for layers of the pool that no other logical engine of the schedule is bound to (R162). -/
structure AsksBind (u : State) (r : MbxReq) (c : Schedule) : Prop where
  sched : u.sched? (r.arg 0 2) = some c
  form : r.form (16 + r.arg 3 1) [(10, 6)] = true
  layers_pos : 1 ≤ r.arg 3 1
  layers_le : r.arg 3 1 ≤ 128
  window_pos : 1 ≤ r.arg 4 2
  window_le : r.arg 4 2 ≤ 4096
  slide : r.arg 6 1 ≤ 1
  passes_pos : 1 ≤ r.arg 7 1
  passes_le : r.arg 7 1 ≤ 2
  pigeonhole : r.arg 8 2 < u.part[c.part].pghCount
  valid : u.part[c.part].kv.valid = true
  armed : c.disarming = false
  nodup : (bindAsked r).layers.Nodup
  inPool : ∀ l ∈ (bindAsked r).layers, l < u.part[c.part].kv.layers
  apart : ∀ x ∈ c.binds, x.logical ≠ (bindAsked r).logical → ∀ l ∈ x.layers, l ∉ (bindAsked r).layers

/-- The body of KV_BIND once its arguments have passed. -/
theorem bodyKvBind_eq {u : State} {r : MbxReq} {c : Schedule} {m : Image} (h : AsksBind u r c)
    (hm : (c.images.find? fun m => m.logical = (bindAsked r).logical) = some m) (x : MbxId) (own : Option PartId) :
    bodyKvBind u x own r = if usesKv m ∧ kvImageOk m (u.kvShape c.part (bindAsked r)) then
      gives (u.updSched c.handle fun c => { c with
        binds := bindAsked r :: c.binds.filter fun y => y.logical ≠ (bindAsked r).logical })
      else ends u stBadArg := by
  have hlayers : ¬ (bindAsked r).layers.any (fun l => decide (u.part[c.part].kv.layers ≤ l)) = true := by
    simpa using h.inPool
  have hapart : ¬ c.binds.any (fun x => x.logical ≠ (bindAsked r).logical && x.layers.any (bindAsked r).layers.contains) = true := by
    simpa using h.apart
  have hargs : ¬ (¬ r.form (16 + r.arg 3 1) [(10, 6)] = true ∨ r.arg 3 1 = 0 ∨ 128 < r.arg 3 1 ∨ r.arg 4 2 = 0 ∨ 4096 < r.arg 4 2
      ∨ 1 < r.arg 6 1 ∨ r.arg 7 1 = 0 ∨ 2 < r.arg 7 1 ∨ u.part[c.part].pghCount ≤ r.arg 8 2 ∨ ¬ u.part[c.part].kv.valid = true
      ∨ c.disarming = true ∨ ¬ (bindAsked r).layers.Nodup
      ∨ (bindAsked r).layers.any (fun l => decide (u.part[c.part].kv.layers ≤ l)) = true
      ∨ c.binds.any (fun x => x.logical ≠ (bindAsked r).logical && x.layers.any (bindAsked r).layers.contains) = true) := by
    have := h.layers_pos; have := h.layers_le; have := h.window_pos; have := h.window_le
    have := h.slide; have := h.passes_pos; have := h.passes_le; have := h.pigeonhole
    simp only [h.form, h.valid, h.armed, h.nodup, hlayers, hapart, not_true, Bool.false_eq_true, or_false, false_or]
    omega
  have hhandle : c.handle = r.arg 0 2 := by simpa using List.find?_some h.sched
  by_cases hok : usesKv m = true ∧ kvImageOk m (u.kvShape c.part (bindAsked r)) = true
  · have hnot : ¬ (¬ usesKv m = true ∨ ¬ kvImageOk m (u.kvShape c.part (bindAsked r)) = true) := by simpa using hok
    rw [if_pos hok]
    unfold bindAsked at *
    simp only [bodyKvBind, h.sched, if_neg hargs, hm, if_neg hnot]
  · have hnot : ¬ usesKv m = true ∨ ¬ kvImageOk m (u.kvShape c.part (bindAsked r)) = true := not_and_or.1 hok
    rw [if_neg hok]
    unfold bindAsked at *
    simp only [bodyKvBind, h.sched, if_neg hargs, hm, if_pos hnot]

/-- KV_BIND puts its binding in place of an earlier one of its logical engine, for an image that uses the KV cache so. -/
theorem kvBind_binds {s u : State} {t : Nat} {r : MbxReq} {c : Schedule} {m : Image} (hu : s.advance t = u)
    (hruns : Cert.runs u 0x0501 r) (h : AsksBind (Cert.accepted u 0x0501 r false) r c)
    (hm : (c.images.find? fun m => m.logical = (bindAsked r).logical) = some m) :
    exec (.kvBind t r) s =
      if usesKv m ∧ kvImageOk m (u.kvShape c.part (bindAsked r)) then Cert.did u 0x0501 r fun v => { v with
        scheds := v.scheds.map fun x => if x.handle = r.arg 0 2 then
          { x with binds := bindAsked r :: x.binds.filter fun y => y.logical ≠ (bindAsked r).logical } else x }
      else Cert.refused u 0x0501 r stBadArg := by
  have hhandle : c.handle = r.arg 0 2 := by simpa using List.find?_some h.sched
  have hbody := bodyKvBind_eq h hm r.mailbox none
  rw [show (Cert.accepted u 0x0501 r false).kvShape c.part (bindAsked r) = u.kvShape c.part (bindAsked r) from rfl] at hbody
  rw [exec_kvBind, execKvBind]
  split
  · rename_i hok
    rw [if_pos hok, hhandle] at hbody
    rw [State.ring_answers hu hruns hbody]
    exact congrArg (fun l => Host.Outcome.next (Cert.kept { Cert.accepted u 0x0501 r false with scheds := l } 0x0501 r stOk []))
      (updWhere_eq_map (fun (x : Schedule) => x.handle = r.arg 0 2) _ _)
  · rename_i hok
    rw [if_neg hok] at hbody
    rw [State.ring_answers hu hruns hbody]
    rfl

end Sys2Proof.Machine

namespace Sys2Proof.Proofs
open Sys2Proof Sys2Proof.Machine

/-- Settles O38: what the body of each command answers is what the command does, and the package's copy leaves the partitions there. -/
theorem schedulesArmAndDisarm : Obligations.SchedulesArmAndDisarm := by
  unfold Obligations.SchedulesArmAndDisarm
  refine ⟨?arm, ?disarm, ?bind⟩
  case arm =>
    intro s t r p pkg w u
    have hu : s.advance t = u := rfl
    clear_value u
    intro refused hruns henv hp hform hflags hcls hzero hbudget htrig hpkg
    have hw : w.compOf (r.arg 0 1) = some p := by
      have := (Cert.accepted u 0x0400 r false).sameParts_armPackage r
      rw [hpkg] at this
      rw [this.compOf]
      exact hp
    have ha : AsksPlainArm w r p := ⟨hw, hform, hflags, hcls, hzero, hbudget, htrig⟩
    refine ⟨fun hbad => ?_, fun hgood htaken => ?_, fun hgood hfree hopens h h1 hmax hnone hlow => ⟨fun hno => ?_, fun c' hc' => ?_⟩⟩
    · exact scheduleArm_refused hu hruns henv hpkg (changeArm_classBad ha hbad)
    · exact scheduleArm_refused hu hruns henv hpkg (changeArm_triggerTaken ha hgood htaken)
    · exact scheduleArm_refused hu hruns henv hpkg (changeArm_unarmed ha hgood hfree ⟨hopens, h1, hmax, hnone, hlow⟩ hno)
    · have harm := changeArm_armed ha hgood hfree ⟨hopens, h1, hmax, hnone, hlow⟩ henv hc'
      refine ⟨fun hfit => ?_, fun hfit hplain hothers => ?_⟩
      · rw [if_neg (ne_true_of_eq_false hfit)] at harm
        exact scheduleArm_refused hu hruns henv hpkg harm
      · obtain ⟨hhandle, hpart, htrigger, hengines, hsuspended, hself⟩ := State.armed_spec hc'
        refine ⟨hhandle, hpart, htrigger, hengines, hsuspended, hself, ?_⟩
        have hnoPreload : ∀ x ∈ w.scheds ++ [c'], hasPreload x = false := by
          simpa [or_imp, forall_and] using ⟨hothers, hplain⟩
        rw [if_pos hfit, State.preloadAll_none hnoPreload, armResponse, hhandle, hengines] at harm
        exact scheduleArm_arms hu hruns henv hpkg harm
  case disarm =>
    intro s t r p u
    have hu : s.advance t = u := rfl
    clear_value u
    intro hruns henv hp hform found
    refine ⟨scheduleDisarm_unknown hu hruns henv hp hform, fun c hc => ⟨?_, fun honly => ?_⟩⟩
    · exact scheduleDisarm_marks hu hruns henv hp hform hc
    · have hhandle : c.handle = r.arg 2 2 := by
        have := List.find?_some hc
        simp only [Bool.and_eq_true, decide_eq_true_eq] at this
        exact this.1.1
      rw [hhandle] at honly
      exact State.trigger?_disarmed honly
  case bind =>
    intro s t r c m u
    have hu : s.advance t = u := rfl
    clear_value u
    intro n k b hruns hsched hform h1 h2 h3 h4 h5 h6 h7 h8 h9 h10 h11 h12 h13 hm
    have hasks : AsksBind (Cert.accepted u 0x0501 r false) r c := ⟨hsched, hform, h1, h2, h3, h4, h5, h6, h7, h8, h9, h10, h11, h12, h13⟩
    exact kvBind_binds hu hruns hasks hm

end Sys2Proof.Proofs

/-! SUPPORT. Contexts, ports and what is heard on a port: the facts that arriving and leaving packets share (R238, R242, R245, R253). -/

namespace Sys2Proof.Machine

/-! ### Lists with some elements replaced -/

section
variable {α : Type} {p : α → Bool} {l : List α}

theorem updWhere_congr {f g : α → α} (h : ∀ x ∈ l, p x = true → f x = g x) : updWhere p f l = updWhere p g l := by
  refine List.map_congr_left fun x hx => ?_
  by_cases hp : p x = true
  · rw [if_pos hp, if_pos hp, h x hx hp]
  · rw [if_neg hp, if_neg hp]

theorem updWhere_self {f : α → α} (h : ∀ x ∈ l, p x = true → f x = x) : updWhere p f l = l := by
  rw [updWhere_congr (g := id) h]
  simp [updWhere]

theorem updWhere_none {f : α → α} (h : ∀ x ∈ l, p x = false) : updWhere p f l = l :=
  updWhere_self fun x hx hp => by simp [h x hx] at hp

/-- The later of two replacements stands. -/
theorem updWhere_updWhere {f g : α → α} (h : ∀ x ∈ l, p x = true → p (f x) = true) :
    updWhere p g (updWhere p f l) = updWhere p (fun x => g (f x)) l := by
  unfold updWhere
  rw [List.map_map]
  refine List.map_congr_left fun x hx => ?_
  by_cases hp : p x = true
  · simp [hp, h x hx hp]
  · simp [hp]

/-- The element first found is what replaces it. -/
theorem find?_updWhere {f : α → α} {a : α} (hp : ∀ x, p x = true → p (f x) = true) (h : l.find? p = some a) :
    (updWhere p f l).find? p = some (f a) := by
  induction l with
  | nil => cases h
  | cons x l ih =>
    simp only [updWhere, List.map_cons]
    by_cases hx : p x = true
    · rw [List.find?_cons_of_pos hx] at h
      cases h
      rw [if_pos hx, List.find?_cons_of_pos (hp _ hx)]
    · rw [List.find?_cons_of_neg hx] at h
      rw [if_neg hx, List.find?_cons_of_neg hx]
      exact ih h

end

/-! ### The element first found -/

/-- The first of a list that satisfies a test, with what stands before and after it. -/
theorem find?_middle {α : Type} {p : α → Bool} {pre post : List α} {a : α} (ha : p a = true) (hpre : ∀ x ∈ pre, ¬ p x = true) :
    (pre ++ a :: post).find? p = some a := by
  rw [List.find?_append, List.find?_eq_none.2 hpre, List.find?_cons_of_pos ha]
  rfl

/-- What was found is taken out where it stands. -/
theorem erase_middle {α : Type} [DecidableEq α] {pre post : List α} {a : α} (hpre : a ∉ pre) :
    (pre ++ a :: post).erase a = pre ++ post := by
  rw [List.erase_append_right _ hpre, List.erase_cons_head]

/-! ### Contexts and ports -/

section
variable {s u : State} {n : PortId} {c : Ctx}

/-- Where no operation waits none goes on. -/
theorem State.drainHeld_none (h : ∀ d ∈ s.fab.ctxs, d.held = []) : s.drainHeld = s := by
  unfold State.drainHeld
  rw [List.filter_eq_nil_iff.2 fun d hd => by simp [h d hd]]
  rfl

theorem State.heard_eq (u : State) (n : PortId) : u.heard (portLink n) = Cert.heard u n := rfl

theorem Cert.portTo_port (u : State) (n : LinkId) (f : Port → Port) : (Cert.portTo u n f).fab.ports[n] = f u.fab.ports[n] := by
  simp [Cert.portTo]

theorem Cert.heard_state (u : State) (n : PortId) :
    (Cert.heard u n).fab.ports[portLink n].state = u.fab.ports[portLink n].state := by
  rw [Cert.heard, Cert.portTo_port]

theorem State.ctx?_link {l : Half} (h : u.ctx? l = some c) : c.link = l := by simpa using List.find?_some h

theorem State.ctx?_mem {l : Half} (h : u.ctx? l = some c) : c ∈ u.fab.ctxs := List.mem_of_find?_eq_some h

/-- An open context of the port that the packet has come through. -/
theorem State.linkCtx_open {l : Half} (h : u.ctx? l = some c) (hport : c.port = n)
    (hopen : ∀ r ∈ u.host.resets, r.isClose = true → r.func ≠ .context c.part c.num) : u.linkCtx n l = some c := by
  have hno : ¬ (c.port ≠ n ∨ (u.host.resets.any fun r => r.isClose && decide (r.func = .context c.part c.num)) = true) := by
    simpa [hport] using hopen
  simp only [State.linkCtx, h, if_neg hno]

theorem State.linkCtx_none {l : Half} (h : u.ctx? l = none) : u.linkCtx n l = none := by
  simp only [State.linkCtx, h]

end

/-! ### Check 4 (R242) -/

theorem authentic_secure {c : Ctx} (h : c.clear = false) (op : Byte) (p : Packet) : authentic c op p = Cert.opened c op p := by
  unfold authentic Cert.opened packetNonce
  simp only [h, Bool.false_eq_true, if_false]
  cases c.key.installed.find? fun k => k.1 = p.epoch.toNat with
  | none => simp only [Option.bind_none, Option.map_none]
  | some k => simp only [Option.bind_some]

/-- What check 4 opens differs from the packet in its payload alone. -/
theorem Cert.opened_payload {c : Ctx} {op : Byte} {p p' : Packet} (h : Cert.opened c op p = some p') :
    ∃ bs, p' = { p with payload := bs } := by
  obtain ⟨bs, -, hbs⟩ := Option.map_eq_some_iff.1 h
  exact ⟨bs, hbs.symm⟩

section
variable {u : State} {n : PortId} {c : Ctx} {op : Byte} {p : Packet} {free : Bool} (hsecure : c.clear = false)
  (hepoch : c.key.retired = 0 ∨ c.key.retired < p.epoch.toNat)
include hsecure hepoch

theorem State.authPkt_forged (h : Cert.opened c op p = none) : u.authPkt n c op p free = .error (u.dropPkt n 4) := by
  have hlive : ¬ (¬ c.clear = true ∧ c.key.retired ≠ 0 ∧ p.epoch.toNat ≤ c.key.retired) := by omega
  simp only [State.authPkt, if_neg hlive, authentic_secure hsecure, h]

variable {p' : Packet} (hopened : Cert.opened c op p = some p')
include hopened

theorem State.authPkt_replayed (h : p.pktSeq.toNat ≤ c.lastRx p.epoch) : u.authPkt n c op p free = .error (u.dropPkt n 5) := by
  have hlive : ¬ (¬ c.clear = true ∧ c.key.retired ≠ 0 ∧ p.epoch.toNat ≤ c.key.retired) := by omega
  obtain ⟨bs, rfl⟩ := Cert.opened_payload hopened
  simp only [State.authPkt, if_neg hlive, authentic_secure hsecure, hopened]
  rw [if_pos ⟨by simp [hsecure], h⟩]

/-- A packet that passes check 4 and 5, and 6 where it takes credit: its PKT_SEQ is noted in its context (R247). -/
theorem State.authPkt_passed (h : c.lastRx p.epoch < p.pktSeq.toNat)
    (hcredit : free = true ∨ c.heldBlocks + creditBlocks p'.payload.length ≤ c.creditBlocks) :
    u.authPkt n c op p free = .ok (u.updCtx c.link fun _ => { c with rx := assocSet p.epoch.toNat p.pktSeq c.rx },
      { c with rx := assocSet p.epoch.toNat p.pktSeq c.rx }, p') := by
  have hlive : ¬ (¬ c.clear = true ∧ c.key.retired ≠ 0 ∧ p.epoch.toNat ≤ c.key.retired) := by omega
  have hroom : ¬ (¬ free = true ∧ c.creditBlocks < c.heldBlocks + creditBlocks p'.payload.length) := by
    rcases hcredit with h | h
    · simp [h]
    · omega
  have hnew : ¬ (¬ c.clear = true ∧ p'.pktSeq.toNat ≤ c.lastRx p'.epoch) := by
    obtain ⟨bs, rfl⟩ := Cert.opened_payload hopened
    exact fun hx => absurd h (Nat.not_lt.2 hx.2)
  simp only [State.authPkt, if_neg hlive, authentic_secure hsecure, hopened, if_neg hnew, if_neg hroom]
  obtain ⟨bs, rfl⟩ := Cert.opened_payload hopened
  simp [hsecure]

end

end Sys2Proof.Machine

/-! SUPPORT. What leaves a port, what a response ends, and the periods of tokens and clear responses (R243, R247, R253-R257, R314, R405). -/

namespace Sys2Proof.Machine

/-! ### Which packet leaves next (R247, R255, R256, R314) -/

section
variable {u : State}

theorem TxPkt.asks_iff (x : TxPkt) : x.asks = true ↔ x.cls = .output ∨ x.cls = .other := by
  simp [TxPkt.asks]

theorem Ctx.spent_eq_false (c : Ctx) :
    c.spent = false ↔ c.clear = true ∨ c.txEpoch ≠ sendEpoch c ∨ c.tx.toNat < 0xFFFFFF00 := by
  unfold Ctx.spent
  cases c.clear
  · by_cases h : c.txEpoch = sendEpoch c <;> simp [h]
  · simp

theorem State.maySend_iff (u : State) (x : TxPkt) : u.maySend x = true ↔ Cert.mayLeave u x := by
  unfold State.maySend Cert.mayLeave
  cases hctx : x.ctx with
  | none => simp
  | some l =>
    cases hc : u.ctx? (BitVec.ofNat 16 l) with
    | none => simp [hc, TxPkt.asks]
    | some c =>
      have hahead : u.hasStandby = false ↔ ¬ (u.twin.role = .active ∧ u.twin.peerInStep = true) := by
        simp [State.hasStandby, ← Bool.not_eq_true]
      have hasks : x.asks = false ↔ ¬ (x.cls = .output ∨ x.cls = .other) := by
        rw [← TxPkt.asks_iff, Bool.not_eq_true]
      simp only [Option.some.injEq, forall_eq', hc, reduceCtorEq, false_imp_iff, true_and]
      simp only [Bool.and_eq_true, Bool.or_eq_true, Bool.not_eq_true', decide_eq_true_eq, Ctx.spent_eq_false, hasks, hahead,
        imp_iff_not_or, not_and_or, or_assoc, and_assoc, ne_eq]

theorem TxClass.rank_inj {a b : TxClass} : a.rank = b.rank ↔ a = b := by
  cases a <;> cases b <;> decide

theorem TxClass.rank_lt (a : TxClass) : a.rank < 4 := by
  cases a <;> decide

/-- The first number below `n` that gives something gives it. -/
theorem findSome?_range {α : Type} {f : Nat → Option α} {n k : Nat} {a : α} (hk : k < n) (ha : f k = some a)
    (hlow : ∀ j < k, f j = none) : (List.range n).findSome? f = some a := by
  obtain ⟨m, rfl⟩ : ∃ m, n = k + (m + 1) := ⟨n - k - 1, by omega⟩
  rw [List.range_add, List.range_succ_eq_map, List.findSome?_append,
    List.findSome?_eq_none_iff.2 fun j hj => hlow j (List.mem_range.1 hj)]
  simp [ha]

theorem State.nextTx_none {q : Port} (h : ∀ y ∈ q.queue, ¬ Cert.mayLeave u y) : u.nextTx q = none := by
  unfold State.nextTx
  rw [List.filter_eq_nil_iff.2 fun y hy => by rw [State.maySend_iff]; exact h y hy]
  simp

/-- The oldest of the first class that has a packet that may leave (R256). -/
theorem State.nextTx_first {q : Port} {pre post : List TxPkt} {x : TxPkt} (hq : q.queue = pre ++ x :: post) (hx : Cert.mayLeave u x)
    (hpre : ∀ y ∈ pre, y.cls = x.cls → ¬ Cert.mayLeave u y)
    (hlow : ∀ y ∈ q.queue, y.cls.rank < x.cls.rank → ¬ Cert.mayLeave u y) : u.nextTx q = some x := by
  unfold State.nextTx
  refine findSome?_range (TxClass.rank_lt x.cls) ?_ fun k hk => List.find?_eq_none.2 fun y hy => ?_
  · rw [hq, List.filter_append, List.filter_cons_of_pos ((State.maySend_iff u x).2 hx)]
    refine find?_middle (by simp) fun y hy => ?_
    obtain ⟨hmem, hmay⟩ := List.mem_filter.1 hy
    rw [decide_eq_true_eq, TxClass.rank_inj]
    exact fun hcls => hpre y hmem hcls ((State.maySend_iff u y).1 hmay)
  · obtain ⟨hmem, hmay⟩ := List.mem_filter.1 hy
    rw [decide_eq_true_eq]
    exact fun hcls => hlow y hmem (hcls ▸ hk) ((State.maySend_iff u y).1 hmay)

theorem State.wireBusy_iff {q : Port} : u.wireBusy q = true ↔ ∃ y e, q.wire = some (y, e) ∧ u.now < e := by
  unfold State.wireBusy
  cases q.wire with
  | none => simp
  | some x =>
    obtain ⟨y, e⟩ := x
    simp

end

/-! ### A packet put on the wire (R36, R241, R242, R247, R255, R256) -/

/-- The PKT_SEQ under which the next packet of a context leaves: the next one, 1 under a new epoch, none in a clear context (R247). -/
def Ctx.seqOut (c : Ctx) : Word := if c.clear then 0 else if c.txEpoch = sendEpoch c then c.tx + 1 else 1

theorem sealPkt_eq (op : Byte) (c : Ctx) (p : Packet) : sealPkt op (some c) p = Cert.wired op c c.seqOut p := by
  unfold sealPkt Cert.wired Ctx.seqOut
  cases hclear : c.clear <;> cases hkeys : c.key.installed <;>
    simp only [hclear, hkeys, packetCrc, packetNonce, Ctx.nextSeq, Bool.false_eq_true, if_false]

theorem Cert.wired_tag (op : Byte) (c : Ctx) (seq : Word) (p : Packet) : (Cert.wired op c seq p).tag = p.tag := by
  unfold Cert.wired
  cases c.clear <;> cases c.key.installed <;> rfl

theorem TxPkt.asks_pkt (x : TxPkt) (p : Packet) : ({ x with pkt := p } : TxPkt).asks = x.asks := rfl

/-- A context once a packet `x` of it, sealed with so many bytes of payload, has left. -/
def Ctx.sent (c : Ctx) (x : TxPkt) (bytes : Nat) : Ctx :=
  { c with
    tx := if c.clear then c.tx else c.seqOut
    txEpoch := if c.clear then c.txEpoch else sendEpoch c
    outCredit := if x.cls = .other then c.outCredit - Machine.creditBlocks bytes else c.outCredit }

section
variable {v : State} {n : PortId} {x : TxPkt} {c : Ctx} (hctx : x.ctx = some c.link.toNat) (hc : v.ctx? c.link = some c)
  (honly : ∀ d ∈ v.fab.ctxs, d.link = c.link → d = c)
include hctx hc honly

/-- What a packet of a context does as it goes on the wire of its port. -/
theorem State.launch_eq {y : TxPkt} (hy : y = { x with pkt := Cert.wired x.op c c.seqOut x.pkt }) : v.launch n x = { v with
    fab := { v.fab with
      ports := v.fab.ports.set (portLink n) { v.fab.ports[portLink n] with
        wire := some (y, v.now + ceilDiv (packetBytes y.pkt.payload.length * 9) 250)
        lastSent := v.now, sentBlocks := v.fab.ports[portLink n].blocks, blocks := [] }
      ctxs := updWhere (fun d => d.link = c.link) (fun _ => c.sent x y.pkt.payload.length) v.fab.ctxs
      outstanding := if x.cls = .output ∨ x.cls = .other then v.fab.outstanding ++
        [{ port := n, tag := x.pkt.tag, limit := v.now + c.timeout, op := x.op, pkt := y.pkt, part := x.part }] else v.fab.outstanding }
    jobs := updWhere (fun j => x.job = some j.id) (fun j => { j with outEnd := max j.outEnd v.now }) v.jobs } := by
  have hfound : (x.ctx.bind fun l => v.ctx? (BitVec.ofNat 16 l)) = some c := by
    rw [hctx]
    simpa using hc
  have hsent : ∀ d ∈ v.fab.ctxs, decide (d.link = c.link) = true →
      (let d : Ctx := if d.clear then d else d.nextSeq.2
       if x.cls = TxClass.other then { d with outCredit := d.outCredit - creditBlocks y.pkt.payload.length } else d)
        = c.sent x y.pkt.payload.length := by
    intro d hd hlink
    rw [honly d hd (of_decide_eq_true hlink)]
    unfold Ctx.sent Ctx.seqOut Ctx.nextSeq
    by_cases hclear : c.clear = true
    · simp only [if_pos hclear]
      split <;> rfl
    · simp only [if_neg hclear]
      split <;> rfl
  have hjobs : (match x.job with
      | none => v.jobs
      | some id => updWhere (fun j => j.id = id) (fun j => { j with outEnd := max j.outEnd v.now }) v.jobs)
        = updWhere (fun j => x.job = some j.id) (fun j => { j with outEnd := max j.outEnd v.now }) v.jobs := by
    cases x.job with
    | none => exact (updWhere_none fun _ _ => rfl).symm
    | some id => simp only [Option.some.injEq, eq_comm]
  rw [← hjobs, ← updWhere_congr hsent]
  subst hy
  unfold State.launch
  simp only [hfound, sealPkt_eq, Cert.wired_tag, TxPkt.asks_pkt]
  cases hasks : x.asks with
  | true =>
    rw [if_pos ((TxPkt.asks_iff x).1 hasks)]
    cases x.job <;> rfl
  | false =>
    have hnot : ¬ (x.cls = .output ∨ x.cls = .other) := by rw [← TxPkt.asks_iff, hasks]; exact Bool.false_ne_true
    rw [if_neg hnot]
    cases x.job <;> rfl

end

/-- The later of two changes of a port stands. -/
theorem Cert.portTo_set (u : State) (n : LinkId) (f : Port → Port) (q : Port) :
    (Cert.portTo u n f).fab.ports.set n q = u.fab.ports.set n q := by
  simp [Cert.portTo]

section
variable {s u : State} {t : Nat} {n : PortId} (hu : s.advance t = u) (hheld : ∀ d ∈ u.fab.ctxs, d.held = [])
include hu hheld

theorem egressPacketStart_nothing (h : u.fab.ports[portLink n].lock = false ∨ u.twin.role = .gaveUp
      ∨ (∃ y e, u.fab.ports[portLink n].wire = some (y, e) ∧ u.now < e) ∨ ∀ y ∈ u.fab.ports[portLink n].queue, ¬ Cert.mayLeave u y) :
    exec (.egressPacketStart t n) s = .next u := by
  rw [exec_egressPacketStart, execEgressPacketStart, hu, State.drainHeld_none hheld]
  by_cases hbusy : ¬ u.fab.ports[portLink n].lock = true ∨ u.wireBusy u.fab.ports[portLink n] = true ∨ u.twin.role = .gaveUp
  · rw [if_pos hbusy]
  · obtain ⟨hlock, hwire, hrole⟩ : u.fab.ports[portLink n].lock = true ∧ ¬ u.wireBusy u.fab.ports[portLink n] = true
        ∧ u.twin.role ≠ .gaveUp := by
      rw [not_or, not_or, not_not] at hbusy
      exact hbusy
    rw [if_neg hbusy]
    rcases h with h | h | h | h
    · exact absurd (h.symm.trans hlock) Bool.false_ne_true
    · exact absurd h hrole
    · exact absurd (State.wireBusy_iff.2 h) hwire
    · rw [State.nextTx_none h]

/-- The packet that leaves is taken from the queue and put on the wire. -/
theorem egressPacketStart_sends {pre post : List TxPkt} {x : TxPkt} (hopen : u.fab.ports[portLink n].state = .openPort)
    (hlock : u.fab.ports[portLink n].lock = true) (hrole : u.twin.role ≠ .gaveUp)
    (hwire : ∀ y e, u.fab.ports[portLink n].wire = some (y, e) → e ≤ u.now)
    (hq : u.fab.ports[portLink n].queue = pre ++ x :: post) (hx : Cert.mayLeave u x)
    (hpre : ∀ y ∈ pre, y.cls = x.cls → ¬ Cert.mayLeave u y)
    (hlow : ∀ y ∈ u.fab.ports[portLink n].queue, y.cls.rank < x.cls.rank → ¬ Cert.mayLeave u y) :
    exec (.egressPacketStart t n) s =
      .next ((Cert.portTo u (portLink n) fun q => { q with queue := pre ++ post }).launch n x) := by
  have hbusy : ¬ (¬ u.fab.ports[portLink n].lock = true ∨ u.wireBusy u.fab.ports[portLink n] = true ∨ u.twin.role = .gaveUp) := by
    rw [State.wireBusy_iff]
    rintro (h | ⟨y, e, hy, he⟩ | h)
    · exact h hlock
    · exact absurd (hwire y e hy) (Nat.not_le.2 he)
    · exact hrole h
  have hfirst : x ∉ pre := fun hmem => hpre x hmem rfl hx
  have hstate : ¬ (u.fab.ports[portLink n].state ≠ .openPort ∧ x.cls ≠ .refusal) := fun h => h.1 hopen
  rw [exec_egressPacketStart, execEgressPacketStart, hu, State.drainHeld_none hheld]
  simp only [if_neg hbusy, State.nextTx_first hq hx hpre hlow, if_neg hstate]
  simp only [State.updPort, State.updFab, Cert.portTo, hq, erase_middle hfirst]

end

/-! ### Responses and time-outs (R243, R253, R256; log entry 44) -/

/-- The operation that a response on port `n` answers: sent there under link `l`, with its TAG and OP. -/
def OutOp.answeredBy (o : OutOp) (n : PortId) (op : Byte) (tag : Word) (l : Half) : Prop :=
  o.port = n ∧ o.tag = tag ∧ op = o.op + 0x80 ∧ o.pkt.link = l

section
variable {v : State} {n : PortId} {op : Byte} {p : Packet} {l : Half}

theorem OutOp.answeredBy_iff (o : OutOp) (tag : Word) :
    (decide (o.port = n) && decide (o.tag = tag) && decide (op = responseOp o.op) && decide (o.pkt.link = l)) = true
      ↔ o.answeredBy n op tag l := by
  simp only [Bool.and_eq_true, decide_eq_true_eq, and_assoc]
  rfl

theorem State.answers_none (h : ∀ o ∈ v.fab.outstanding, ¬ o.answeredBy n op p.tag l) : v.answers n op p l = none :=
  List.find?_eq_none.2 fun o ho => (OutOp.answeredBy_iff o p.tag).not.2 (h o ho)

theorem State.answers_first {pre post : List OutOp} {o : OutOp} (hout : v.fab.outstanding = pre ++ o :: post)
    (ho : o.answeredBy n op p.tag l) (hpre : ∀ y ∈ pre, ¬ y.answeredBy n op p.tag l) : v.answers n op p l = some o := by
  unfold State.answers
  rw [hout]
  exact find?_middle ((OutOp.answeredBy_iff o p.tag).2 ho) fun y hy => (OutOp.answeredBy_iff y p.tag).not.2 (hpre y hy)

theorem State.endOp_eq {pre post : List OutOp} {o : OutOp} {st : Status} (hout : v.fab.outstanding = pre ++ o :: post) (hpre : o ∉ pre) :
    v.endOp o st = Cert.ended v (pre ++ post) o st := by
  unfold State.endOp Cert.ended
  simp only [State.updFab, hout, erase_middle hpre]

end

/-- A response that is no clear one to anything. -/
theorem State.answers_notClear {u : State} {n : PortId} {op : Byte} {p : Packet}
    (h : ¬ (hasBit p.flags 1 = true ∧ p.epoch = 0) ∨ ∀ o ∈ u.fab.outstanding, ¬ o.answeredBy n op p.tag p.link) :
    (if hasBit p.flags 1 = true ∧ p.epoch = 0 then (Cert.heard u n).answers n op p p.link else none) = none := by
  split
  · rename_i hclear
    exact State.answers_none (v := Cert.heard u n) (h.resolve_left (not_not.2 hclear))
  · rfl

section
variable {u : State} {n : PortId} (hopen : u.fab.ports[portLink n].state = .openPort) (heject : u.pwr.ejectAt = none)
include hopen heject

/-- An open port of a module that is not ejected serves what it hears. -/
theorem Cert.heard_served :
    ¬ ((Cert.heard u n).fab.ports[portLink n].state ≠ .openPort ∨ (Cert.heard u n).pwr.ejectAt.isSome = true) := by
  rw [Cert.heard_state]
  rintro (h | h)
  · exact h hopen
  · rw [show (Cert.heard u n).pwr.ejectAt = none from heject] at h
    cases h

end

section
variable {s u : State} {t : Nat} {n : PortId} {op : Byte} {p : Packet} (hu : s.advance t = u)
include hu

theorem response_closed (h : u.fab.ports[portLink n].state ≠ .openPort) :
    exec (.response t n op p) s = .next (Cert.heard u n) := by
  rw [exec_response, execResponse, hu, State.heard_eq]
  simp only [Cert.heard_state]
  rw [if_pos (.inl h)]

variable (hopen : u.fab.ports[portLink n].state = .openPort) (heject : u.pwr.ejectAt = none)
include hopen heject

theorem response_badCrc (h : p.crc.toNat ≠ packetCrc op p) : exec (.response t n op p) s =
    .next (Cert.portTo (Cert.heard u n) (portLink n) fun x => { x with dropCrc := bump 8 x.dropCrc 1 }) := by
  rw [exec_response, execResponse, hu, State.heard_eq]
  simp only [if_neg (Cert.heard_served hopen heject), if_pos h]
  rfl

variable (hcrc : p.crc.toNat = packetCrc op p)
include hcrc

/-- A clear response ends the operation that it answers under the request's own link. -/
theorem response_clear (hclear : hasBit p.flags 1 = true ∧ p.epoch = 0) {pre post : List OutOp} {o : OutOp}
    (hout : u.fab.outstanding = pre ++ o :: post) (ho : o.answeredBy n op p.tag p.link) (hpre : ∀ y ∈ pre, ¬ y.answeredBy n op p.tag p.link) :
    exec (.response t n op p) s = .next (Cert.ended (Cert.heard u n) (pre ++ post) o p.kvSeq) := by
  have hfirst : o ∉ pre := fun h => hpre o h ho
  rw [exec_response, execResponse, hu, State.heard_eq]
  simp only [if_neg (Cert.heard_served hopen heject), if_neg (not_not.2 hcrc), if_pos hclear,
    State.answers_first (v := Cert.heard u n) hout ho hpre, State.endOp_eq (v := Cert.heard u n) hout hfirst]

variable (hother : ¬ (hasBit p.flags 1 = true ∧ p.epoch = 0) ∨ ∀ o ∈ u.fab.outstanding, ¬ o.answeredBy n op p.tag p.link)
include hother

theorem response_unknownLink (hc : u.ctx? p.link = none) : exec (.response t n op p) s = .next (Cert.heard u n) := by
  have hlink : (Cert.heard u n).linkCtx n p.link = none := State.linkCtx_none hc
  rw [exec_response, execResponse, hu, State.heard_eq]
  simp only [if_neg (Cert.heard_served hopen heject), if_neg (not_not.2 hcrc), State.answers_notClear hother, hlink]

variable {c : Ctx} (hlink : (Cert.heard u n).linkCtx n p.link = some c)
include hlink

/-- One that check 4 or 5 drops. -/
theorem response_dropped {v : State} (hauth : (Cert.heard u n).authPkt n c op p true = .error v) :
    exec (.response t n op p) s = .next v := by
  rw [exec_response, execResponse, hu, State.heard_eq]
  simp only [if_neg (Cert.heard_served hopen heject), if_neg (not_not.2 hcrc), State.answers_notClear hother, hlink, hauth]

variable {v : State} {c' : Ctx} {p' : Packet} (hauth : (Cert.heard u n).authPkt n c op p true = .ok (v, c', p'))
include hauth

theorem response_unanswered (hans : ∀ o ∈ v.fab.outstanding, ¬ o.answeredBy n op p'.tag c'.remoteLink) :
    exec (.response t n op p) s = .next v := by
  rw [exec_response, execResponse, hu, State.heard_eq]
  simp only [if_neg (Cert.heard_served hopen heject), if_neg (not_not.2 hcrc), State.answers_notClear hother, hlink, hauth,
    State.answers_none hans]

theorem response_answered {pre post : List OutOp} {o : OutOp} (hout : v.fab.outstanding = pre ++ o :: post)
    (ho : o.answeredBy n op p'.tag c'.remoteLink) (hpre : ∀ y ∈ pre, ¬ y.answeredBy n op p'.tag c'.remoteLink) :
    exec (.response t n op p) s = .next (Cert.ended v (pre ++ post) o p'.kvSeq) := by
  rw [exec_response, execResponse, hu, State.heard_eq]
  simp only [if_neg (Cert.heard_served hopen heject), if_neg (not_not.2 hcrc), State.answers_notClear hother, hlink, hauth,
    State.answers_first hout ho hpre, State.endOp_eq hout fun h => hpre o h ho]

end

section
variable {s u : State} {t : Nat} {n : PortId} {tag : Word} (hu : s.advance t = u)
include hu

theorem remoteTimeout_unknown (h : ∀ o ∈ u.fab.outstanding, ¬ (o.port = n ∧ o.tag = tag)) : exec (.remoteTimeout t n tag) s = .next u := by
  have hnone : (u.fab.outstanding.find? fun o => decide (o.port = n) && decide (o.tag = tag)) = none :=
    List.find?_eq_none.2 fun o ho => by simpa using h o ho
  rw [exec_remoteTimeout, execRemoteTimeout, hu]
  simp only [hnone]

theorem remoteTimeout_first {pre post : List OutOp} {o : OutOp} (hout : u.fab.outstanding = pre ++ o :: post) (hport : o.port = n)
    (htag : o.tag = tag) (hpre : ∀ y ∈ pre, ¬ (y.port = n ∧ y.tag = tag)) : exec (.remoteTimeout t n tag) s =
      .next (if o.limit ≤ u.now then Cert.ended u (pre ++ post) o stRemoteTimeout else u) := by
  have hfound : (u.fab.outstanding.find? fun o => decide (o.port = n) && decide (o.tag = tag)) = some o := by
    rw [hout]
    exact find?_middle (by simp [hport, htag]) fun y hy => by simpa using hpre y hy
  rw [exec_remoteTimeout, execRemoteTimeout, hu]
  simp only [hfound, State.endOp_eq hout fun h => hpre o h ⟨hport, htag⟩]

theorem tokenPeriod_idle (h : u.frameTime % 4096 ≠ 0 ∨ u.fab.tokenAt = some u.now) : exec (.tokenPeriod t) s = .next u := by
  rw [exec_tokenPeriod, execTokenPeriod, hu]
  exact congrArg Host.Outcome.next (if_pos h)

theorem tokenPeriod_refills (h : u.frameTime % 4096 = 0) (hnew : u.fab.tokenAt ≠ some u.now) : exec (.tokenPeriod t) s =
    .next { u with fab := { u.fab with ctxs := u.fab.ctxs.map Ctx.refill, tokenAt := some u.now } } := by
  rw [exec_tokenPeriod, execTokenPeriod, hu]
  exact congrArg Host.Outcome.next (if_neg (not_or.2 ⟨not_not.2 h, hnew⟩))

theorem refusalCapPeriod_idle (h : u.now % 4096 ≠ 0) : exec (.refusalCapPeriod t) s = .next u := by
  rw [exec_refusalCapPeriod, execRefusalCapPeriod, hu]
  exact congrArg Host.Outcome.next (if_pos h)

theorem refusalCapPeriod_renews (h : u.now % 4096 = 0) : exec (.refusalCapPeriod t) s =
    .next { u with fab := { u.fab with ports := u.fab.ports.map fun q => { q with clearLeft := 8 } } } := by
  rw [exec_refusalCapPeriod, execRefusalCapPeriod, hu]
  exact congrArg Host.Outcome.next (if_neg (not_not.2 h))

end

/-- Every element of a list stands beside what a function makes of it. -/
theorem mem_zip_map {α β : Type} {f : α → β} {l : List α} {x : α × β} (h : x ∈ l.zip (l.map f)) : x.2 = f x.1 := by
  induction l with
  | nil => simp at h
  | cons y l ih =>
    rcases List.mem_cons.1 h with h | h
    · rw [h]
    · exact ih h

end Sys2Proof.Machine

namespace Sys2Proof.Proofs

open Sys2Proof Sys2Proof.Machine

/-- Settles O53: every operation's outcome is a rule of its own, above; what remains is to put them together. -/
theorem packetsLeaveAndAnswersEndThem : Obligations.PacketsLeaveAndAnswersEndThem := by
  unfold Obligations.PacketsLeaveAndAnswersEndThem
  intro s t n op p tag u
  have hu : s.advance t = u := rfl
  clear_value u
  intro q h
  refine ⟨egressPacketStart_nothing hu, ?_, response_closed hu, fun hopen heject => ⟨response_badCrc hu hopen heject, fun hcrc => ?_⟩,
    remoteTimeout_unknown hu, ?_, tokenPeriod_idle hu, fun hperiod hnew => ⟨_, tokenPeriod_refills hu hperiod hnew, rfl, rfl, ?_, ?_⟩,
    refusalCapPeriod_idle hu, fun hperiod => ⟨_, refusalCapPeriod_renews hu hperiod, rfl, fun k => ?_⟩⟩
  · intro hheld hopen hlock hrole hwire pre post x c hq hx hpre hlow hctx hc honly ep seq y c' await
    rw [egressPacketStart_sends hu hheld hopen hlock hrole hwire hq hx hpre hlow]
    rw [State.launch_eq (v := Cert.portTo u (portLink n) fun q => { q with queue := pre ++ post }) hctx hc honly rfl,
      Cert.portTo_set, Cert.portTo_port]
    rfl
  · refine ⟨fun hclear pre post o hfirst => ?_, fun hother => ⟨response_unknownLink hu hopen heject hcrc hother, ?_⟩⟩
    · obtain ⟨hout, ho, hpre⟩ := hfirst
      exact response_clear hu hopen heject hcrc hclear hout ho hpre
    · intro c hc hport hclosing hsecure hepoch
      have hlink : h.linkCtx n p.link = some c := State.linkCtx_open (u := h) hc hport hclosing
      refine ⟨fun hforged => ?_, fun hopened => ?_⟩
      · exact response_dropped hu hopen heject hcrc hother hlink (State.authPkt_forged hsecure hepoch hforged)
      · obtain ⟨p', hopened⟩ := Option.isSome_iff_exists.1 hopened
        refine ⟨fun hold => ?_, fun hnew => ?_⟩
        · exact response_dropped hu hopen heject hcrc hother hlink (State.authPkt_replayed hsecure hepoch hopened hold)
        · have hauth := State.authPkt_passed (u := h) (n := n) (free := true) hsecure hepoch hopened hnew (.inl rfl)
          obtain ⟨bs, rfl⟩ := Cert.opened_payload hopened
          rw [State.ctx?_link hc] at hauth
          rw [State.ctx?_link hc]
          refine ⟨fun hnone => ?_, fun pre post o hfirst => ?_⟩
          · exact response_unanswered hu hopen heject hcrc hother hlink hauth hnone
          · obtain ⟨hout, ho, hpre⟩ := hfirst
            exact response_answered hu hopen heject hcrc hother hlink hauth hout ho hpre
  · intro pre post o hout hport htag hpre
    rw [remoteTimeout_first hu hout hport htag hpre]
    exact ⟨fun h => by rw [if_neg (Nat.not_le.2 h)], fun h => by rw [if_pos h]⟩
  · simp
  · intro x hx
    rw [mem_zip_map hx]
    exact ⟨rfl, rfl, rfl⟩
  · simp

end Sys2Proof.Proofs

/-! SUPPORT. A partner's operation from its packet to its answer: the checks that it passes, its place, its data, its notify (R244, R250-R257). -/

namespace Sys2Proof.Machine

/-! ### The form of a packet (Tables 10.4, 10.5) -/

section
variable {c : Ctx} {op : Byte} {p : Packet}

theorem formOk_fields (h : formOk c op p = true) : p.length.toNat = p.payload.length ∧ lengthOk op p.payload.length = true
    ∧ hasBit p.flags 1 = c.clear ∧ (op = 3 → 1 ≤ p.arg.toNat) := by
  simp only [formOk, Bool.and_eq_true, decide_eq_true_eq, Bool.or_eq_true, and_assoc] at h
  obtain ⟨-, hlen, hlengthOk, -, hflag, -, -, -, harg, -⟩ := h
  refine ⟨hlen, hlengthOk, hflag, fun hop => ?_⟩
  rcases harg with harg | harg
  · simp [hop] at harg
  · exact harg.1

theorem formOk_put (h : formOk c 1 p = true) : 1 ≤ p.payload.length := by
  obtain ⟨-, hlen, -, -⟩ := formOk_fields h
  simp [lengthOk] at hlen
  exact hlen.1

end

/-! ### Checks 1 to 7 (Table 10.8) -/

section
variable {s u v : State} {t : Nat} {n : PortId} {op : Byte} {p p' : Packet} {c c' : Ctx}

theorem State.openPkt_known (h : Cert.known u n op p c) : (Cert.heard u n).openPkt n op p = .ok c := by
  obtain ⟨hopen, heject, hcrc, hreset, hctx, hport, hclosing, -⟩ := h
  have hlink : (Cert.heard u n).linkCtx n p.link = some c := State.linkCtx_open (u := Cert.heard u n) hctx hport hclosing
  have heject' : ¬ (Cert.heard u n).pwr.ejectAt.isSome = true := by
    rw [show (Cert.heard u n).pwr.ejectAt = none from heject]
    exact Bool.false_ne_true
  have hreset' : (Cert.heard u n).resetting (.port n) = false := hreset
  simp only [State.openPkt, Cert.heard_state, hopen, if_neg heject', if_neg (not_not.2 hcrc), hlink, hreset']
  simp

/-- A packet that passes the checks of its context goes on to the check of its form. -/
theorem State.packetIn_passed (hu : s.advance t = u) (h : Cert.known u n op p c) (hop : p.opCode = none)
    (hauth : (Cert.heard u n).authPkt n c op p false = .ok (v, c', p')) : s.packetIn t n op p = v.filterPkt n c' op p' := by
  obtain ⟨-, -, -, -, -, -, -, hheld⟩ := id h
  unfold State.packetIn
  rw [hu, State.heard_eq]
  simp only [hop, Option.getD_none, State.drainHeld_none (s := Cert.heard u n) hheld, State.openPkt_known h, hauth]

/-- A context that has noted the PKT_SEQ of a packet (R247). -/
def Ctx.numbered (c : Ctx) (p : Packet) : Ctx := { c with rx := assocSet p.epoch.toNat p.pktSeq c.rx }

/-- A secure packet that passes check 7 goes on with its PKT_SEQ noted in its context (R247). -/
theorem State.packetIn_serves (hu : s.advance t = u) (h : Cert.known u n op p c) (hop : p.opCode = none) (hauth : Cert.authentic op p p' c)
    (hform : formOk c op p' = true) (hfilter : c.filter = false) :
    s.packetIn t n op p = ((Cert.heard u n).updCtx c.link fun _ => c.numbered p).servePkt n (c.numbered p) op p' := by
  obtain ⟨hsecure, hepoch, hopened, hnew, hcredit⟩ := hauth
  have hform' : ¬ ¬ formOk (c.numbered p) op p' = true := not_not.2 hform
  have hfilter' : ¬ (c.numbered p).filter = true := fun h => Bool.false_ne_true (hfilter.symm.trans h)
  rw [State.packetIn_passed hu h hop (State.authPkt_passed hsecure hepoch hopened hnew (.inr hcredit)), State.filterPkt]
  exact (if_neg hform').trans (if_pos hfilter')

/-- What an authentic packet becomes differs from it in its payload alone. -/
theorem Cert.authentic_payload (h : Cert.authentic op p p' c) : ∃ bs, p' = { p with payload := bs } := by
  obtain ⟨-, -, hopened, -, -⟩ := h
  exact Cert.opened_payload hopened

/-! ### Checks 8 to 13 -/

/-- An operation on memory whose target and tokens are there is taken. -/
theorem State.servePkt_takes {tgt : Target} (hserves : Cert.serves u c) (hmem : op.toNat ≤ 6) (htgt : u.target c op p = .ok tgt)
    (htok : c.takeTokens op p = some c') : u.servePkt n c op p = (u.updCtx c.link fun _ => c').takePkt n c' op p tgt := by
  obtain ⟨hphase, hrole, hdissolving, hreset, hlost⟩ := hserves
  have hstandby : ¬ (u.isStandby = true ∨ u.twin.role = .gaveUp) := by simp [State.isStandby, hrole]
  have hserved : ¬ (¬ u.inService = true ∨ u.part[c.part].dissolving.isSome = true ∨ u.resetting (.context c.part c.num) = true
      ∨ hasBit u.twin.lost c.part.val = true) := by
    rw [hdissolving, hreset, hlost]
    simp [State.inService, hphase]
  unfold State.servePkt
  rw [if_neg hstandby, if_neg hserved]
  simp only [hmem, decide_true, if_true, htgt, htok]

/-- The tokens of a request are there where each bucket with a rate holds enough (R257). -/
theorem Ctx.takeTokens_enough {bytes : Nat} (hops : c.opsRate = 0 ∨ c.opsTok ≠ 0) (hbytes : byteTokens op p = ceilDiv bytes 64)
    (htok : c.bytesRate = 0 ∨ ceilDiv bytes 64 ≤ c.bytesTok) : c.takeTokens op p = some { c with
      opsTok := if c.opsRate = 0 then c.opsTok else c.opsTok - 1
      bytesTok := if c.bytesRate = 0 then c.bytesTok else c.bytesTok - ceilDiv bytes 64 } := by
  have hno : ¬ ((c.opsRate ≠ 0 ∧ c.opsTok = 0) ∨ (c.bytesRate ≠ 0 ∧ c.bytesTok < ceilDiv bytes 64)) := by
    rintro (⟨hrate, hnone⟩ | ⟨hrate, hfew⟩)
    · exact hops.elim hrate (fun h => h hnone)
    · exact htok.elim hrate (Nat.not_le.2 hfew)
  simp only [Ctx.takeTokens, hbytes, if_neg hno]

theorem State.updCtx_heard {d d' : Ctx} (hd : d.link = c.link) : ((Cert.heard u n).updCtx c.link fun _ => d).updCtx c.link (fun _ => d') =
    { Cert.heard u n with fab := { (Cert.heard u n).fab with
      ctxs := updWhere (fun x => x.link = c.link) (fun _ => d') (Cert.heard u n).fab.ctxs } } := by
  simp only [State.updCtx, State.updFab]
  rw [updWhere_updWhere fun _ _ _ => by simp [hd]]

/-- A packet that passes its checks up to its tokens is taken in the state that the statement names (R247, R257). -/
theorem State.packetIn_takes {bytes : Nat} {tgt : Target} (hu : s.advance t = u) (h : Cert.known u n op p c) (hop : p.opCode = none)
    (hauth : Cert.authentic op p p' c) (hform : formOk c op p' = true) (hfilter : c.filter = false) (hserves : Cert.serves u c)
    (hmem : op.toNat ≤ 6) (htgt : u.target c op p' = .ok tgt) (hops : c.opsRate = 0 ∨ c.opsTok ≠ 0)
    (hbytes : byteTokens op p' = ceilDiv bytes 64) (htok : c.bytesRate = 0 ∨ ceilDiv bytes 64 ≤ c.bytesTok) :
    s.packetIn t n op p = (Cert.took u n p c bytes).takePkt n (Cert.spent c p bytes) op p' tgt := by
  rw [State.packetIn_serves hu h hop hauth hform hfilter,
    State.servePkt_takes (u := (Cert.heard u n).updCtx c.link fun _ => c.numbered p) (c := c.numbered p) hserves hmem htgt
      (Ctx.takeTokens_enough hops hbytes htok)]
  exact congrArg (fun v => State.takePkt v n (Cert.spent c p bytes) op p' tgt) (State.updCtx_heard (c := c) rfl)

end

/-! ### An operation carried out (R254, R255) -/

/-- An operation as it passes its checks behind no commit. -/
def State.passedOp (w : State) (n : PortId) (op : Byte) (p : Packet) (tgt : Target) : HeldPkt :=
  { port := n, op := op, pkt := p, space := tgt.space, addr := tgt.addr, mark := w.env.nextApply }

section
variable {w v : State} {n : PortId} {op : Byte} {p : Packet} {c : Ctx} {tgt : Target} {h : HeldPkt}

theorem State.twinForward_unpaired (hrole : w.twin.role = .unpaired) (kind : Nat) : w.twinForward kind = w := by
  have hno : ¬ w.forwards = true := by simp [State.forwards, hrole]
  exact if_neg hno

theorem State.stamped_plain (hopens : ∀ x ∈ w.env.opens, x.part = c.part → x.opener = some c.serial → x.asker = none) :
    w.stamped c { port := n, op := op, pkt := p, space := tgt.space, addr := tgt.addr } = w.passedOp n op p tgt := by
  have hnone : (w.env.opens.filter fun x => decide (x.part = c.part) && decide (x.opener = some c.serial) && x.asker.isSome) = [] := by
    rw [List.filter_eq_nil_iff]
    intro x hx hmine
    simp only [Bool.and_eq_true, decide_eq_true_eq] at hmine
    obtain ⟨⟨hpart, hopener⟩, hasker⟩ := hmine
    simp [hopens x hx hpart hopener] at hasker
  simp only [State.stamped, hnone]
  rfl

/-- An operation outside an envelope that triggers nothing is carried out, or held. -/
theorem State.takePkt_plain (henv : p.env = 0xFFFF) (hopens : ∀ x ∈ w.env.opens, x.part = c.part → x.opener = some c.serial → x.asker = none)
    (htrig : op = 2 ∨ op = 6 → w.trigger? c.part p.notifyPgh.toNat = none) :
    w.takePkt n c op p tgt = (w.execOp c (w.passedOp n op p tgt)).twinForward 1 := by
  have hstages : ¬ stages op p = true := by simp [stages, henv]
  have hnone : w.pktTrigger c op p = none := by
    unfold State.pktTrigger
    split
    · exact htrig ‹_›
    · rfl
  unfold State.takePkt
  rw [if_neg hstages]
  simp only [State.stamped_plain hopens, hnone]

theorem State.execOp_performs (hheld : c.held = []) (hwait : w.mustWait c h = false) : w.execOp c h = w.perform c h := by
  have hno : ¬ (¬ c.held.isEmpty = true ∨ w.mustWait c h = true) := by simp [hheld, hwait]
  exact if_neg hno

/-- The answer to a request and its credit, both of them on the port of its context. -/
theorem State.replied_eq {bs : List Byte} (hrole : v.twin.role = .unpaired) (heject : v.pwr.ejectAt = none) (hport : c.port = n) :
    (v.respond n c op p stOk 0 bs).returnCredit c (creditBlocks p.payload.length) = Cert.replied v n c op p 0 bs := by
  have hstandby : v.isStandby = false := by simp [State.isStandby, hrole]
  have heject' : ¬ v.pwr.ejectAt.isSome = true := by simp [heject]
  simp only [State.respond, answered, hstandby, State.returnCredit, hport, Cert.replied, Bool.false_eq_true, or_false, decide_true,
    Bool.and_true, Bool.not_eq_true', Bool.not_eq_false, State.queueBlock, State.queueTx, if_neg heject']
  by_cases hsilent : (hasBit p.flags 0 && (decide (op = 1) || decide (op = 2) || decide (op = 6))) = true
  · simp only [if_pos hsilent]
    rfl
  · simp only [if_neg hsilent]
    simp [State.updPort, State.updFab, Cert.portTo, responseOp]

theorem State.twinForward_replied {arg : Word} {bs : List Byte} (hrole : v.twin.role = .unpaired) (kind : Nat) :
    (Cert.replied v n c op p arg bs).twinForward kind = Cert.replied v n c op p arg bs :=
  State.twinForward_unpaired (w := Cert.replied v n c op p arg bs) hrole kind

/-- An operation whose data part is done is answered. -/
theorem State.perform_replies {pl : Place} {bs : List Byte} (hop : ¬ (op = 2 ∨ op = 6)) (hplace : w.placeOf c.part tgt = some pl)
    (hmove : w.orderedMove n op p pl = (v, stOk, bs)) (hrole : v.twin.role = .unpaired) (heject : v.pwr.ejectAt = none)
    (hport : c.port = n) : w.perform c (w.passedOp n op p tgt) = Cert.replied v n c op p 0 bs := by
  rw [← State.replied_eq hrole heject hport]
  have hplace' : w.placeOf c.part ⟨tgt.space, tgt.addr⟩ = some pl := hplace
  simp only [State.perform, State.passedOp, hplace', hmove, Bool.false_eq_true, if_false, if_true]
  rw [if_neg (by simpa using hop)]

/-- One that notifies adds to its pigeonhole before the answer. -/
theorem State.perform_notifies {pl : Place} {bs : List Byte} {g : Nat} (hop : op = 2 ∨ op = 6) (hplace : w.placeOf c.part tgt = some pl)
    (hmove : w.orderedMove n op p pl = (v, stOk, bs)) (hpgh : v.pghIndex c.part p.notifyPgh.toNat = some g)
    (hrole : v.twin.role = .unpaired) (heject : v.pwr.ejectAt = none) (hport : c.port = n) :
    w.perform c (w.passedOp n op p tgt) = Cert.replied (v.pghAdd g p.notifyAdd.toNat v.now) n c op p 0 bs := by
  rw [← State.replied_eq (v := v.pghAdd g p.notifyAdd.toNat v.now) hrole heject hport]
  have hplace' : w.placeOf c.part ⟨tgt.space, tgt.addr⟩ = some pl := hplace
  simp only [State.perform, State.passedOp, hplace', hmove, Bool.false_eq_true, if_false, if_true]
  rw [if_pos (by simpa using hop)]
  simp only [hpgh]

/-- With no operation of a higher port in its cycle an operation finds its memory as it stands, and is noted (R254). -/
theorem State.orderedMove_last {pl : Place} {bs : List Byte} (hop : op ≠ 6) (hlast : ∀ o ∈ w.opsNow, o.port ≤ n)
    (hmove : w.moveData op p pl p.flt = (v, stOk, bs)) (hops : v.opsNow = w.opsNow) :
    w.orderedMove n op p pl = (Cert.opNoted v n op p pl.engine pl.part pl.addr (w.placeBytes pl (opSpan op p)), stOk, bs) := by
  have hlater : (w.opsNow.filter fun o => o.follows n pl (opSpan op p)) = [] := by
    rw [List.filter_eq_nil_iff]
    intro o ho hfollows
    simp only [PortOp.follows, Bool.and_eq_true, decide_eq_true_eq] at hfollows
    exact absurd hfollows.1.1 (not_lt.2 (hlast o ho))
  have hlow : (w.opsNow.filter fun o => decide (o.port ≤ n)) = w.opsNow := List.filter_eq_self.2 fun o ho => decide_eq_true (hlast o ho)
  have hhigh : (w.opsNow.filter fun o => decide (n < o.port)) = [] := by
    rw [List.filter_eq_nil_iff]
    exact fun o ho => by simpa using hlast o ho
  unfold State.orderedMove
  simp only [if_neg hop, hlater, List.reverse_nil, List.foldl_nil, hmove, hops, hlow, hhigh, List.append_nil, if_true]
  simp only [State.updFab, Cert.opNoted, hops]

end

/-! ### Targets (checks 9 to 12, R244, R250) -/

/-- Where an operation on a window of memory goes. -/
def Win.target (x : Win) (p : Packet) : Target :=
  if x.kind = .act then ⟨.act x.logical, 64 * x.base + p.offset.toNat⟩ else ⟨.lpddr, x.base + p.offset.toNat⟩

section
variable {w : State} {op : Byte} {p : Packet} {c : Ctx} {x : Win} (hwin : w.win? p.window.toNat = some x) (hpart : x.part = c.part)
  (hctx : x.ctx = c.num)
include hwin hpart hctx

/-- An operation on memory goes where its window says, within its right and its length. -/
theorem State.target_memory (hop : op ≠ 6) (hpgh : op = 2 → w.pghGranted c p.notifyPgh.toNat = true)
    (hright : hasBit x.rights (rightOf op) = true) (hspan : p.offset.toNat + opSpan op p ≤ x.length)
    (hbar : w.targetBar c.part (x.target p) (opSpan op p) = none) :
    w.target c op p = .ok (x.target p) := by
  have hmine : ¬ (x.part ≠ c.part ∨ x.ctx ≠ c.num) := by simp [hpart, hctx]
  have hnotify : ¬ ((op = 2 ∨ op = 6) ∧ ¬ w.pghGranted c p.notifyPgh.toNat = true) := by
    rintro ⟨hop' | hop', hno⟩
    · exact hno (hpgh hop')
    · exact hop hop'
  unfold Win.target at hbar ⊢
  unfold State.target
  simp only [hwin, if_neg hmine, if_neg hnotify, if_neg hop, if_neg (not_not.2 hright), if_neg (Nat.not_lt.2 hspan), hbar]

/-- A NOTIFY goes to a pigeonhole of its window, which the context then holds. -/
theorem State.target_pgh (hkind : x.kind = .pgh) (hlow : x.base ≤ p.notifyPgh.toNat) (hhigh : p.notifyPgh.toNat < x.base + x.length) :
    w.target c 6 p = .ok ⟨.lpddr, 0⟩ := by
  have hmine : ¬ (x.part ≠ c.part ∨ x.ctx ≠ c.num) := by simp [hpart, hctx]
  have hgranted : w.pghGranted c p.notifyPgh.toNat = true := by
    have hrevoking : x.revoking.isNone = true := by
      have := List.find?_some hwin
      rw [Bool.and_eq_true] at this
      exact this.2
    rw [State.pghGranted, List.any_eq_true]
    exact ⟨x, List.mem_of_find?_eq_some hwin, by simp [hpart, hctx, hkind, hrevoking, hlow, hhigh]⟩
  unfold State.target
  simp only [hwin, if_neg hmine, hgranted, not_true_eq_false, and_false, if_false, if_neg (not_not.2 hkind),
    if_neg (not_not.2 (And.intro hlow hhigh)), if_true]

end

/-- No controller is fenced where no unit is listed. -/
theorem State.targetBar_region {w : State} {part : PartId} {a n : Nat} (hunits : w.units = []) : w.targetBar part ⟨.lpddr, a⟩ n = none := by
  simp [State.targetBar, State.lpFenced, hunits]

theorem State.targetBar_act {w : State} {part : PartId} {a n i : Nat} {e : EngId} (he : (w.live part)[i]? = some e)
    (hreset : w.resetting (.engine e) = false) : w.targetBar part ⟨.act i, a⟩ n = none := by
  simp [State.targetBar, State.spaceEngine, he, hreset]

/-! ### The data part at its place (R96, R97) -/

/-- An engine whose side port has stored bytes in cycle `now` without meeting the unit port. -/
def Engine.sideStored (g : Engine) (now a : Nat) (bs : List Byte) : Engine :=
  { g.sidePut now (cellsFrom a bs) with mem := { g.mem.actWritten a bs.length with collisions := bump 32 g.mem.collisions 0 } }

section
variable {w : State} {op : Byte} {p : Packet} {part : PartId} {a : Nat}

theorem State.moveData_putRegion (hop : op = 1 ∨ op = 2) (f : Flt) : w.moveData op p ⟨none, part, a⟩ f =
    (w.updPart part fun q => regionWrite q a p.payload, stOk, []) := by
  unfold State.moveData
  rw [if_pos hop]
  rfl

theorem State.moveData_getRegion : w.moveData 3 p ⟨none, part, a⟩ {} = (w, stOk, regionRead w.part[part] a p.arg.toNat) := rfl

theorem State.moveData_atomicRegion (hop : op = 4 ∨ op = 5) : w.moveData op p ⟨none, part, a⟩ {} =
    (w.updPart part fun q => regionWrite q a (natLe (atomicOp op p.payload (leNat (regionRead w.part[part] a 8))) 8), stOk,
      regionRead w.part[part] a 8) := by
  rcases hop with rfl | rfl <;> rfl

variable {e : EngId} (hbad : w.eng[e].mem.actBad = [])
include hbad

theorem State.sideWrite_clean (hunit : w.eng[e].unitAt ≠ w.now) (bs : List Byte) :
    w.sideWrite e a bs {} = (w.updEng e fun g => g.sideStored w.now a bs, true) := by
  have hread : (if (partWords a bs.length).isEmpty = true then w else w.updEng e fun g => { g with mem := g.mem.corrected true 0 }) = w := by
    split
    · rfl
    · exact State.corrected_zero w e true
  have hnone : ((partWords a bs.length).filter fun x => w.eng[e].mem.actBad.contains x) = [] := by
    rw [hbad]
    exact List.filter_eq_nil_iff.2 fun _ _ => Bool.false_ne_true
  unfold State.sideWrite
  simp only [hread, hnone, List.contains_nil, Bool.not_false, List.filter_true, if_neg hunit, List.isEmpty_nil, Engine.sideStored]

theorem State.moveData_putAct (hunit : w.eng[e].unitAt ≠ w.now) : w.moveData 1 p ⟨some e, part, a⟩ {} =
    (w.updEng e fun g => g.sideStored w.now a p.payload, stOk, []) := by
  unfold State.moveData State.writePlace
  simp only [State.sideWrite_clean hbad hunit, true_or, if_true]

theorem State.moveData_getAct (hlanded : w.eng[e].vecLanded = []) : w.moveData 3 p ⟨some e, part, a⟩ {} =
    (w, stOk, w.placeBytes ⟨some e, part, a⟩ p.arg.toNat) := by
  have hhold : ¬ w.eng[e].shadowHold w.now a p.arg.toNat = true := by
    simp only [Engine.shadowHold, hlanded, List.filter_nil, List.any_nil]
    exact Bool.false_ne_true
  have hplace : badPlace w.eng[e] {} ((List.range p.arg.toNat).map (a + ·)) = none := by
    simp only [badPlace, hbad, List.contains_nil, Option.map_eq_none_iff, List.find?_eq_none]
    exact fun _ _ => Bool.false_ne_true
  have hread : w.readPlace ⟨some e, part, a⟩ p.arg.toNat {} = (w, .inr (w.placeBytes ⟨some e, part, a⟩ p.arg.toNat)) := by
    simp only [State.readPlace, if_neg hhold, State.corrected_zero, hplace]
  unfold State.moveData
  rw [if_neg (by decide), if_neg (by decide)]
  simp only [show opSpan 3 p = p.arg.toNat from rfl, hread, if_true]

end

theorem State.placeBytes_act {w : State} {e : EngId} {part : PartId} {a n : Nat} (hunit : w.eng[e].unitAt ≠ w.now) (hn : 0 < n) :
    w.placeBytes ⟨some e, part, a⟩ n = memRead w.eng[e].act a n := by
  rw [← memGets_addrsFrom _ a n hn]
  simp only [State.placeBytes, Engine.sideGets, if_neg hunit, readOver, List.isEmpty_nil, if_true]
  rfl

/-- Cells at rising addresses are one run. -/
theorem cellRuns_cellsFrom (a : Nat) {bs : List Byte} (h : bs ≠ []) : cellRuns (cellsFrom a bs) = [(a, bs)] := by
  induction bs generalizing a with
  | nil => exact absurd rfl h
  | cons b bs ih =>
    cases bs with
    | nil => rfl
    | cons b' bs =>
      rw [cellsFrom, cellRuns, ih (a + 1) (List.cons_ne_nil _ _)]
      exact if_pos rfl

theorem memPut_cellsFrom (m : Mem) (a : Nat) {bs : List Byte} (h : bs ≠ []) : memPut m (cellsFrom a bs) = memWrite m a bs := by
  rw [memPut, cellRuns_cellsFrom a h]
  rfl

theorem memRead_memWrite (m : Mem) (a : Nat) (bs : List Byte) : memRead (memWrite m a bs) a bs.length = bs := by
  rw [memRead_eq]
  refine List.ext_getElem (by simp) fun i _ hi => ?_
  rw [List.getElem_map, List.getElem_range, memGet_memWrite_in m a bs i hi, List.getD_eq_getElem _ _ hi]

/-- To note an operation on memory leaves the pigeonholes where they are. -/
theorem Cert.opNoted_pghIndex {v : State} {n : PortId} {op : Byte} {p : Packet} {o : Option EngId} {part part' : PartId} {k a : Nat}
    {before : List Byte} : (Cert.opNoted v n op p o part a before).pghIndex part' k = v.pghIndex part' k := by
  unfold State.pghIndex
  rfl

/-- A store to the region leaves a partition's pigeonholes where they are. -/
theorem regionWrite_pgh (q : Partition) (a : Nat) (bs : List Byte) :
    (regionWrite q a bs).pghCount = q.pghCount ∧ (regionWrite q a bs).pghBase = q.pghBase := by
  unfold regionWrite
  split
  · exact ⟨rfl, rfl⟩
  · rename_i h
    clear h
    induction cellsFrom a bs generalizing q with
    | nil => exact ⟨rfl, rfl⟩
    | cons x cells ih =>
      have hset : (regionSet q x.1 x.2).pghCount = q.pghCount ∧ (regionSet q x.1 x.2).pghBase = q.pghBase := by
        unfold regionSet
        split <;> exact ⟨rfl, rfl⟩
      obtain ⟨hcount, hbase⟩ := ih (regionSet q x.1 x.2)
      exact ⟨hcount.trans hset.1, hbase.trans hset.2⟩

theorem State.updPart_regionWrite_pghIndex (v : State) (q part : PartId) (a : Nat) (bs : List Byte) (k : Nat) :
    (v.updPart q fun x => regionWrite x a bs).pghIndex part k = v.pghIndex part k := by
  obtain ⟨hcount, hbase⟩ := regionWrite_pgh v.part[q] a bs
  unfold State.pghIndex State.updPart
  by_cases hq : q = part
  · subst hq
    rw [show ({ v with part := v.part.set q (regionWrite v.part[q] a bs) } : State).part[q] = regionWrite v.part[q] a bs from
      Vector.getElem_set_self ..]
    rw [hcount, hbase]
  · rw [show ({ v with part := v.part.set q (regionWrite v.part[q] a bs) } : State).part[part] = v.part[part] from
      Vector.getElem_set_ne q.isLt part.isLt fun h => hq (Fin.ext h)]

/-! ### Waiting (R254, R273, R452) -/

section
variable {w : State} {n : PortId} {op : Byte} {p : Packet} {c : Ctx} {a : Nat}

/-- On the region a GET and an atomic alone wait, for a slot. -/
theorem State.mustWait_region : w.mustWait c (w.passedOp n op p ⟨.lpddr, a⟩) =
    ((decide (op = 3) || decide (op = 4) || decide (op = 5)) && !w.lpNow c.part) := rfl

theorem State.mustWait_act {i : Nat} {e : EngId} (he : (w.live c.part)[i]? = some e) (happlies : w.env.applies = []) :
    w.mustWait c (w.passedOp n op p ⟨.act i, a⟩) = false := by
  simp [State.mustWait, State.passedOp, State.spaceEngine, he, happlies]

end

/-! ### A granted operation, from its packet to its answer -/

/-- A granted operation finds its memory as it stands, and is noted. -/
theorem Cert.granted_orderedMove {u v : State} {n : PortId} {op : Byte} {p p' : Packet} {c : Ctx} {x : Win} {span bytes right : Nat}
    (h : Cert.granted u n op p p' c x span bytes right) (hmem : op.toNat ≤ 5) (hspan : opSpan op p' = span) {pl : Place} {bs : List Byte}
    (hmove : (Cert.took u n p c bytes).moveData op p' pl {} = (v, stOk, bs)) (hfab : v.fab = (Cert.took u n p c bytes).fab)
    (hnow : v.now = u.now) : (Cert.took u n p c bytes).orderedMove n op p' pl =
    (Cert.opNoted v n op p' pl.engine pl.part pl.addr ((Cert.took u n p c bytes).placeBytes pl span), stOk, bs) := by
  obtain ⟨-, hauth, -, ⟨-, hflt, -, hlast⟩, -⟩ := h
  obtain ⟨payload, rfl⟩ := Cert.authentic_payload hauth
  subst hspan
  have hno : op ≠ 6 := by
    rintro rfl
    exact absurd hmem (by decide)
  have hops : v.opsNow = (Cert.took u n p c bytes).opsNow := by
    simp only [State.opsNow, hfab, hnow]
    rfl
  exact State.orderedMove_last hno hlast (show State.moveData _ op _ pl p.flt = _ by rw [hflt]; exact hmove) hops

section
variable {s u v : State} {t : Nat} {n : PortId} {op : Byte} {p p' : Packet} {c : Ctx} {x : Win} {span bytes right : Nat}
  (hu : s.advance t = u) (h : Cert.granted u n op p p' c x span bytes right) (hmem : op.toNat ≤ 5)
  (hpgh : op = 2 → u.pghGranted c p.notifyPgh.toNat = true ∧ u.trigger? c.part p.notifyPgh.toNat = none) (hright : rightOf op = right)
  (hspan : opSpan op p' = span) (hbytes : byteTokens op p' = ceilDiv bytes 64) (hbar : u.targetBar c.part (x.target p) span = none)
include hu h hmem hpgh hright hspan hbytes hbar

/-- A granted operation is carried out, or held. -/
theorem Cert.granted_execOp : s.packetIn t n op p = ((Cert.took u n p c bytes).execOp (Cert.spent c p bytes)
    ((Cert.took u n p c bytes).passedOp n op p' (x.target p))).twinForward 1 := by
  obtain ⟨hknown, hauth, hform, ⟨hop, -, hopens, -⟩, hfilter, hserves, henv, hwin, hpart, hctx, hgranted, hlen, hops, htok, -, -⟩ := h
  obtain ⟨bs, rfl⟩ := Cert.authentic_payload hauth
  subst hright hspan
  have hno : op ≠ 6 := by
    rintro rfl
    exact absurd hmem (by decide)
  have htgt : u.target c op { p with payload := bs } = .ok (x.target p) :=
    State.target_memory hwin hpart hctx hno (fun h => (hpgh h).1) hgranted hlen hbar
  rw [State.packetIn_takes hu hknown hop hauth hform hfilter hserves (by omega) htgt hops hbytes htok]
  exact State.takePkt_plain henv hopens fun h => (hpgh (h.resolve_right hno)).2

variable (hwait : (Cert.took u n p c bytes).mustWait (Cert.spent c p bytes) ((Cert.took u n p c bytes).passedOp n op p' (x.target p)) = false)
  {pl : Place} (hplace : u.placeOf c.part (x.target p) = some pl) {bs : List Byte}
  (hmove : (Cert.took u n p c bytes).moveData op p' pl {} = (v, stOk, bs))
  (hkeeps : v.fab = (Cert.took u n p c bytes).fab ∧ v.now = u.now ∧ v.twin = u.twin ∧ v.pwr = u.pwr)
include hwait hplace hmove hkeeps

/-- Its data moved, its answer is queued and its credit returned. -/
theorem Cert.granted_replies (hop : op ≠ 2) : s.packetIn t n op p = Cert.replied
    (Cert.opNoted v n op p' pl.engine pl.part pl.addr ((Cert.took u n p c bytes).placeBytes pl span)) n (Cert.spent c p bytes) op p' 0 bs := by
  obtain ⟨hfab, hnow, htwin, hpwr⟩ := hkeeps
  have hmoved := Cert.granted_orderedMove h hmem hspan hmove hfab hnow
  rw [Cert.granted_execOp hu h hmem hpgh hright hspan hbytes hbar]
  obtain ⟨⟨-, heject, -, -, hctx, hport, -, hheld⟩, -, -, -, -, ⟨-, hrole, -⟩, -⟩ := h
  rw [← htwin] at hrole
  rw [← hpwr] at heject
  have hno : ¬ (op = 2 ∨ op = 6) := by
    rintro (rfl | rfl)
    · exact hop rfl
    · exact absurd hmem (by decide)
  have hfree : (Cert.spent c p bytes).held = [] := hheld c (State.ctx?_mem hctx)
  have hat : (Cert.took u n p c bytes).placeOf (Cert.spent c p bytes).part (x.target p) = some pl := hplace
  rw [State.execOp_performs hfree hwait, State.perform_replies hno hat hmoved hrole heject hport]
  exact State.twinForward_replied (v := Cert.opNoted v _ _ _ _ _ _ _) hrole 1

/-- A PUT_NOTIFY adds to its pigeonhole before that. -/
theorem Cert.granted_notifies (hop : op = 2) {g : Nat} (hg : v.pghIndex c.part p'.notifyPgh.toNat = some g) : s.packetIn t n op p =
    Cert.replied ((Cert.opNoted v n op p' pl.engine pl.part pl.addr ((Cert.took u n p c bytes).placeBytes pl span)).pghAdd g
      p'.notifyAdd.toNat u.now) n (Cert.spent c p bytes) op p' 0 bs := by
  obtain ⟨hfab, hnow, htwin, hpwr⟩ := hkeeps
  have hmoved := Cert.granted_orderedMove h hmem hspan hmove hfab hnow
  rw [Cert.granted_execOp hu h hmem hpgh hright hspan hbytes hbar]
  obtain ⟨⟨-, heject, -, -, hctx, hport, -, hheld⟩, -, -, -, -, ⟨-, hrole, -⟩, -⟩ := h
  rw [← htwin] at hrole
  rw [← hpwr] at heject
  have hfree : (Cert.spent c p bytes).held = [] := hheld c (State.ctx?_mem hctx)
  have hat : (Cert.took u n p c bytes).placeOf (Cert.spent c p bytes).part (x.target p) = some pl := hplace
  have hacts := State.perform_notifies (.inl hop) hat hmoved (Cert.opNoted_pghIndex.trans hg) hrole heject hport
  rw [State.execOp_performs hfree hwait, hacts, ← hnow]
  exact State.twinForward_replied (v := State.pghAdd (Cert.opNoted v _ _ _ _ _ _ _) _ _ _) hrole 1

end

/-! ### Operations on the region (Table 10.5) -/

section
variable {s u : State} {t : Nat} {n : PortId} {op : Byte} {p p' : Packet} {c : Ctx} {x : Win}

theorem Win.target_region (hkind : x.kind = .lpddr) (p : Packet) : x.target p = ⟨.lpddr, x.base + p.offset.toNat⟩ := by
  unfold Win.target
  rw [hkind]
  exact if_neg WinKind.noConfusion

theorem Win.target_act (hkind : x.kind = .act) (p : Packet) : x.target p = ⟨.act x.logical, 64 * x.base + p.offset.toNat⟩ := if_pos hkind

theorem State.placeOf_region {w : State} {part : PartId} {a : Nat} : w.placeOf part ⟨.lpddr, a⟩ = some ⟨none, part, a⟩ := rfl

/-- The byte tokens of an operation in the form of check 7 are those of its payload; a GET asks for bytes instead (R257). -/
theorem byteTokens_payload (hform : formOk c op p = true) (hop : op ≠ 3) : byteTokens op p = ceilDiv p.payload.length 64 := by
  obtain ⟨hlen, -⟩ := formOk_fields hform
  rw [byteTokens, if_neg hop, hlen]

theorem Cert.granted_put_tokens {span bytes right : Nat} (h : Cert.granted u n op p p' c x span bytes right) (hop : op ≠ 3) :
    byteTokens op p' = ceilDiv p'.payload.length 64 := by
  obtain ⟨-, -, hform, -⟩ := h
  exact byteTokens_payload hform hop

variable (hu : s.advance t = u)
include hu

section
variable (hkind : x.kind = .lpddr)
include hkind

/-- A granted operation on the region that waits for no slot. -/
theorem Cert.region_replies {v : State} {span bytes right : Nat} (h : Cert.granted u n op p p' c x span bytes right) (hmem : op.toNat ≤ 5)
    (hop : op ≠ 2) (hright : rightOf op = right) (hspan : opSpan op p' = span) (hbytes : byteTokens op p' = ceilDiv bytes 64)
    (hslot : ¬ (op = 1 ∨ op = 2) → u.lpNow c.part = true) {bs : List Byte}
    (hmove : (Cert.took u n p c bytes).moveData op p' ⟨none, c.part, x.base + p.offset.toNat⟩ {} = (v, stOk, bs))
    (hkeeps : v.fab = (Cert.took u n p c bytes).fab ∧ v.now = u.now ∧ v.twin = u.twin ∧ v.pwr = u.pwr) :
    s.packetIn t n op p = Cert.replied (Cert.opNoted v n op p' none c.part (x.base + p.offset.toNat)
      (regionRead u.part[c.part] (x.base + p.offset.toNat) span)) n (Cert.spent c p bytes) op p' 0 bs := by
  obtain ⟨-, -, -, -, -, -, -, -, -, -, -, -, -, -, -, hunits⟩ := id h
  have htgt := Win.target_region hkind p
  have hwait : (Cert.took u n p c bytes).mustWait (Cert.spent c p bytes)
      ((Cert.took u n p c bytes).passedOp n op p' ⟨.lpddr, x.base + p.offset.toNat⟩) = false := by
    rw [State.mustWait_region]
    by_cases hput : op = 1 ∨ op = 2
    · rcases hput with rfl | rfl <;> rfl
    · rw [show (Cert.took u n p c bytes).lpNow (Cert.spent c p bytes).part = true from hslot hput]
      exact Bool.and_false _
  exact Cert.granted_replies hu h hmem (fun h => absurd h hop) hright hspan hbytes (htgt ▸ State.targetBar_region hunits)
    (htgt ▸ hwait) (htgt ▸ State.placeOf_region) hmove hkeeps hop

theorem put_region (h : Cert.granted u n 1 p p' c x p'.payload.length p'.payload.length 1) : exec (.put t n p) s =
    .next (Cert.replied (Cert.opNoted ((Cert.took u n p c p'.payload.length).updPart c.part fun q =>
        regionWrite q (x.base + p.offset.toNat) p'.payload) n 1 p' none c.part (x.base + p.offset.toNat)
      (regionRead u.part[c.part] (x.base + p.offset.toNat) p'.payload.length)) n (Cert.spent c p p'.payload.length) 1 p' 0 []) := by
  rw [exec_put, execPut, Cert.region_replies hu hkind h (by decide) (by decide) rfl rfl (Cert.granted_put_tokens h (by decide))
    (fun h => absurd (.inl rfl) h) (State.moveData_putRegion (.inl rfl) _) ⟨rfl, rfl, rfl, rfl⟩]

theorem putNotify_region (h : Cert.granted u n 2 p p' c x p'.payload.length p'.payload.length 1)
    (hgranted : u.pghGranted c p.notifyPgh.toNat = true) (htrig : u.trigger? c.part p.notifyPgh.toNat = none) {g : Nat}
    (hg : u.pghIndex c.part p.notifyPgh.toNat = some g) : exec (.putNotify t n p) s =
    .next (Cert.replied ((Cert.opNoted ((Cert.took u n p c p'.payload.length).updPart c.part fun q =>
        regionWrite q (x.base + p.offset.toNat) p'.payload) n 2 p' none c.part (x.base + p.offset.toNat)
      (regionRead u.part[c.part] (x.base + p.offset.toNat) p'.payload.length)).pghAdd g p.notifyAdd.toNat u.now) n
      (Cert.spent c p p'.payload.length) 2 p' 0 []) := by
  obtain ⟨-, hauth, -, -, -, -, -, -, -, -, -, -, -, -, -, hunits⟩ := id h
  have htgt := Win.target_region hkind p
  have hfields : p'.notifyPgh = p.notifyPgh ∧ p'.notifyAdd = p.notifyAdd := by
    obtain ⟨bs, rfl⟩ := Cert.authentic_payload hauth
    exact ⟨rfl, rfl⟩
  obtain ⟨hpgh, hadd⟩ := hfields
  have hindex : ((Cert.took u n p c p'.payload.length).updPart c.part fun q =>
      regionWrite q (x.base + p.offset.toNat) p'.payload).pghIndex c.part p'.notifyPgh.toNat = some g := by
    rw [State.updPart_regionWrite_pghIndex, hpgh]
    exact hg
  rw [exec_putNotify, execPutNotify, Cert.granted_notifies (bs := []) (pl := ⟨none, c.part, x.base + p.offset.toNat⟩) hu h (by decide)
    (fun _ => ⟨hgranted, htrig⟩) rfl rfl (Cert.granted_put_tokens h (by decide)) (htgt ▸ State.targetBar_region hunits)
    (htgt ▸ State.mustWait_region) (htgt ▸ State.placeOf_region) (State.moveData_putRegion (.inr rfl) _) ⟨rfl, rfl, rfl, rfl⟩ rfl hindex,
    hadd]
  rfl

theorem get_region (h : Cert.granted u n 3 p p' c x p.arg.toNat p.arg.toNat 0) (hslot : u.lpNow c.part = true) :
    s.packetIn t n 3 p = Cert.replied (Cert.opNoted (Cert.took u n p c p.arg.toNat) n 3 p' none c.part (x.base + p.offset.toNat)
      (regionRead u.part[c.part] (x.base + p.offset.toNat) p.arg.toNat)) n (Cert.spent c p p.arg.toNat) 3 p' 0
      (regionRead u.part[c.part] (x.base + p.offset.toNat) p.arg.toNat) := by
  obtain ⟨-, hauth, -⟩ := id h
  obtain ⟨bs, rfl⟩ := Cert.authentic_payload hauth
  exact Cert.region_replies hu hkind h (by decide) (by decide) rfl rfl rfl (fun _ => hslot) State.moveData_getRegion ⟨rfl, rfl, rfl, rfl⟩

theorem atomic_region (hop : op = 4 ∨ op = 5) (h : Cert.granted u n op p p' c x 8 p'.payload.length 2) (hslot : u.lpNow c.part = true) :
    s.packetIn t n op p = Cert.replied (Cert.opNoted ((Cert.took u n p c p'.payload.length).updPart c.part fun q =>
        regionWrite q (x.base + p.offset.toNat) (natLe (atomicOp op p'.payload
          (leNat (regionRead u.part[c.part] (x.base + p.offset.toNat) 8))) 8)) n op p' none c.part (x.base + p.offset.toNat)
      (regionRead u.part[c.part] (x.base + p.offset.toNat) 8)) n (Cert.spent c p p'.payload.length) op p' 0
      (regionRead u.part[c.part] (x.base + p.offset.toNat) 8) := by
  rcases hop with rfl | rfl
  · exact Cert.region_replies hu hkind h (by decide) (by decide) rfl rfl (Cert.granted_put_tokens h (by decide)) (fun _ => hslot)
      (State.moveData_atomicRegion (.inl rfl)) ⟨rfl, rfl, rfl, rfl⟩
  · exact Cert.region_replies hu hkind h (by decide) (by decide) rfl rfl (Cert.granted_put_tokens h (by decide)) (fun _ => hslot)
      (State.moveData_atomicRegion (.inr rfl)) ⟨rfl, rfl, rfl, rfl⟩

/-- A GET on the region without a slot waits in its context (R452). -/
theorem get_region_waits (h : Cert.granted u n 3 p p' c x p.arg.toNat p.arg.toNat 0) (hslot : u.lpNow c.part = false) :
    s.packetIn t n 3 p = (Cert.took u n p c p.arg.toNat).updCtx c.link fun d => { d with
      held := d.held ++ [(Cert.took u n p c p.arg.toNat).passedOp n 3 p' (x.target p)]
      heldBlocks := d.heldBlocks + creditBlocks p'.payload.length } := by
  obtain ⟨-, hauth, -, -, -, ⟨-, hrole, -⟩, -, -, -, -, -, -, -, -, -, hunits⟩ := id h
  have htgt := Win.target_region hkind p
  obtain ⟨bs, rfl⟩ := Cert.authentic_payload hauth
  rw [Cert.granted_execOp hu h (by decide) (fun h => absurd h (by decide)) rfl rfl rfl (htgt ▸ State.targetBar_region hunits)]
  have hwait : (Cert.took u n p c p.arg.toNat).mustWait (Cert.spent c p p.arg.toNat)
      ((Cert.took u n p c p.arg.toNat).passedOp n 3 { p with payload := bs } (x.target p)) = true := by
    rw [htgt, State.mustWait_region, show (Cert.took u n p c p.arg.toNat).lpNow (Cert.spent c p p.arg.toNat).part = false from hslot]
    rfl
  rw [State.execOp, if_pos (.inr hwait)]
  exact State.twinForward_unpaired (by exact hrole) 1

end

/-! ### Operations on activation SRAM (R96, R250) -/

section
variable {e : EngId} (hkind : x.kind = .act) (he : (u.live c.part)[x.logical]? = some e) (hreset : u.resetting (.engine e) = false)
  (hunit : u.eng[e].unitAt ≠ u.now)
include hkind he hreset hunit

/-- A granted operation on activation SRAM. -/
theorem Cert.act_replies {v : State} {span bytes right : Nat} (h : Cert.granted u n op p p' c x span bytes right) (hmem : op.toNat ≤ 5)
    (hop : op ≠ 2) (hright : rightOf op = right) (hspan : opSpan op p' = span) (hbytes : byteTokens op p' = ceilDiv bytes 64)
    (hspanPos : 0 < span) {bs : List Byte}
    (hmove : (Cert.took u n p c bytes).moveData op p' ⟨some e, c.part, 64 * x.base + p.offset.toNat⟩ {} = (v, stOk, bs))
    (hkeeps : v.fab = (Cert.took u n p c bytes).fab ∧ v.now = u.now ∧ v.twin = u.twin ∧ v.pwr = u.pwr) :
    s.packetIn t n op p = Cert.replied (Cert.opNoted v n op p' (some e) c.part (64 * x.base + p.offset.toNat)
      (memRead u.eng[e].act (64 * x.base + p.offset.toNat) span)) n (Cert.spent c p bytes) op p' 0 bs := by
  obtain ⟨-, -, -, -, -, -, -, -, -, -, -, -, -, -, happlies, -⟩ := id h
  have htgt := Win.target_act hkind p
  have hplace : u.placeOf c.part ⟨.act x.logical, 64 * x.base + p.offset.toNat⟩ = some ⟨some e, c.part, 64 * x.base + p.offset.toNat⟩ := by
    simp only [State.placeOf, State.spaceEngine, he, Option.map_some]
  rw [Cert.granted_replies hu h hmem (fun h => absurd h hop) hright hspan hbytes (htgt ▸ State.targetBar_act he hreset)
    (htgt ▸ State.mustWait_act he happlies) (htgt ▸ hplace) hmove hkeeps hop]
  rw [show (Cert.took u n p c bytes).placeBytes ⟨some e, c.part, 64 * x.base + p.offset.toNat⟩ span
    = memRead u.eng[e].act (64 * x.base + p.offset.toNat) span from State.placeBytes_act (w := Cert.took u n p c bytes) hunit hspanPos]

variable (hbad : u.eng[e].mem.actBad = [])
include hbad

theorem put_act (h : Cert.granted u n 1 p p' c x p'.payload.length p'.payload.length 1) : exec (.put t n p) s =
    .next (Cert.replied (Cert.opNoted ((Cert.took u n p c p'.payload.length).updEng e fun g =>
        g.sideStored u.now (64 * x.base + p.offset.toNat) p'.payload) n 1 p' (some e) c.part (64 * x.base + p.offset.toNat)
      (memRead u.eng[e].act (64 * x.base + p.offset.toNat) p'.payload.length)) n (Cert.spent c p p'.payload.length) 1 p' 0 []) := by
  obtain ⟨-, -, hform, -⟩ := id h
  rw [exec_put, execPut, Cert.act_replies hu hkind he hreset hunit h (by decide) (by decide) rfl rfl
    (Cert.granted_put_tokens h (by decide)) (formOk_put hform) (State.moveData_putAct hbad hunit) ⟨rfl, rfl, rfl, rfl⟩]
  rfl

theorem get_act (h : Cert.granted u n 3 p p' c x p.arg.toNat p.arg.toNat 0) (hlanded : u.eng[e].vecLanded = []) :
    s.packetIn t n 3 p = Cert.replied (Cert.opNoted (Cert.took u n p c p.arg.toNat) n 3 p' (some e) c.part (64 * x.base + p.offset.toNat)
      (memRead u.eng[e].act (64 * x.base + p.offset.toNat) p.arg.toNat)) n (Cert.spent c p p.arg.toNat) 3 p' 0
      (memRead u.eng[e].act (64 * x.base + p.offset.toNat) p.arg.toNat) := by
  obtain ⟨-, hauth, hform, -⟩ := id h
  obtain ⟨-, -, -, harg⟩ := formOk_fields hform
  obtain ⟨bs, rfl⟩ := Cert.authentic_payload hauth
  rw [← State.placeBytes_act (part := c.part) hunit (harg rfl)]
  refine (Cert.act_replies hu hkind he hreset hunit h (by decide) (by decide) rfl rfl rfl (harg rfl)
    (State.moveData_getAct hbad hlanded) ⟨rfl, rfl, rfl, rfl⟩).trans ?_
  rw [← State.placeBytes_act (part := c.part) hunit (harg rfl)]
  rfl

end

end

/-- What a store of the side port leaves of an engine. -/
theorem Engine.sideStored_act (g : Engine) (now a : Nat) {bs : List Byte} (h : bs ≠ []) :
    (g.sideStored now a bs).act = memWrite g.act a bs := by
  rw [← memPut_cellsFrom g.act a h]
  rfl

end Sys2Proof.Machine

/-! SUPPORT. A partner's NOTIFY, the job that it triggers, and FRAMEs (R49, R133, R252, R258). -/

namespace Sys2Proof.Machine

/-! ### One unit among others -/

theorem State.updEng_self {w : State} {e : EngId} {f : Engine → Engine} : (w.updEng e f).eng[e] = f w.eng[e] := Vector.getElem_set_self ..

theorem State.updEng_ne {w : State} {d e : EngId} {f : Engine → Engine} (h : d ≠ e) : (w.updEng e f).eng[d] = w.eng[d] :=
  Vector.getElem_set_ne e.isLt d.isLt fun he => h (Fin.ext he.symm)

theorem State.ctx?_updCtx {w : State} {l : Half} {f : Ctx → Ctx} {d : Ctx} (hf : ∀ x, (f x).link = x.link) (h : w.ctx? l = some d) :
    (w.updCtx l f).ctx? l = some (f d) :=
  find?_updWhere (fun x hx => decide_eq_true ((hf x).trans (of_decide_eq_true hx))) h

/-- What is heard on a port leaves what is queued on every one. -/
theorem Cert.heard_queue (u : State) (n : PortId) (l : LinkId) : (Cert.heard u n).fab.ports[l].queue = u.fab.ports[l].queue := by
  by_cases hl : portLink n = l
  · rw [← hl, Cert.heard, Cert.portTo_port]
  · exact congrArg Port.queue (Vector.getElem_set_ne (portLink n).isLt l.isLt fun h => hl (Fin.ext h))

theorem Cert.took_ctx? {u : State} {n : PortId} {p : Packet} {c : Ctx} {bytes : Nat} (h : u.ctx? c.link = some c) :
    (Cert.took u n p c bytes).ctx? c.link = some (Cert.spent c p bytes) :=
  find?_updWhere (l := u.fab.ctxs) (fun _ _ => decide_eq_true rfl) h

/-- A GET without memory errors. -/
theorem exec_get_plain {s : State} {t : Nat} {n : PortId} {p : Packet} (hflt : p.flt = {}) :
    exec (.get t n p {}) s = .next (s.packetIn t n 3 p) := by
  have hsame : ({ p with flt := {} } : Packet) = p := by rw [← hflt]
  rw [exec_get, execGet, hsame]

/-! ### The form of a NOTIFY -/

theorem formOk_notify {c : Ctx} {p : Packet} (h : formOk c 6 p = true) : byteTokens 6 p = 0 := by
  obtain ⟨hlen, hok, -, -⟩ := formOk_fields h
  have hnone : p.payload.length = 0 := by simpa [lengthOk] using hok
  rw [byteTokens, if_neg (by decide), hlen, hnone]
  rfl

/-- The header of a packet is the same before check 4 and after it. -/
theorem Cert.authentic_header {c : Ctx} {op : Byte} {p p' : Packet} (h : Cert.authentic op p p' c) : p'.env = p.env ∧
    p'.notifyPgh = p.notifyPgh ∧ p'.notifyAdd = p.notifyAdd ∧ p'.arg = p.arg ∧ p'.kvSeq = p.kvSeq ∧ p'.link = p.link ∧ p'.tag = p.tag
    ∧ p'.flags = p.flags := by
  obtain ⟨bs, rfl⟩ := Cert.authentic_payload h
  exact ⟨rfl, rfl, rfl, rfl, rfl, rfl, rfl, rfl⟩

/-- The data part of a NOTIFY. -/
theorem State.orderedMove_notify {w : State} {n : PortId} {p : Packet} {pl : Place} : w.orderedMove n 6 p pl = (w, stOk, []) := rfl

/-! ### A job admitted (R49, R50) -/

/-- The job that an offer becomes. -/
def Offer.job (o : Offer) (id finish : Nat) (rel : Option Nat) : Job :=
  { id := id, sched := o.sched, part := o.part, cls := o.cls, engines := o.engines, w := o.w, t0 := o.t0, last := o.last
    finish := finish, source := o.source, kvSeq := o.kvSeq, counting := o.engines, released := rel, image := o.image, kept := o.kept
    keptAct := o.keptAct, isRerun := o.isRerun }

/-- The predicted start of an offer (R49). -/
def State.offerStart (s : State) (o : Offer) : Nat := o.engines.foldl (fun m e => max m s.eng[e].busyUntil) (o.t0 + o.offset)

section
variable {s : State} {o : Offer} {rel : Option Nat} {finish : Nat}

/-- Engines that are busy until a predicted finish: theirs alone change. -/
theorem foldl_busyUntil (es : List EngId) (finish : Nat) (s : State) : ∃ g : Vector Engine 6,
    es.foldl (fun s e => s.updEng e fun x => { x with busyUntil := finish }) s = { s with eng := g }
      ∧ (∀ e ∈ es, g[e].busyUntil = finish) ∧ ∀ e : EngId, e ∉ es → g[e] = s.eng[e] := by
  induction es generalizing s with
  | nil => exact ⟨s.eng, rfl, fun e he => absurd he List.not_mem_nil, fun e _ => rfl⟩
  | cons d es ih =>
    obtain ⟨g, hfold, hbusy, hother⟩ := ih (s.updEng d fun x => { x with busyUntil := finish })
    refine ⟨g, hfold, fun e he => ?_, fun e he => ?_⟩
    · by_cases hmem : e ∈ es
      · exact hbusy e hmem
      · obtain rfl : e = d := (List.mem_cons.1 he).resolve_right hmem
        rw [hother e hmem, State.updEng_eng]
        exact congrArg Engine.busyUntil (Vector.getElem_set_self ..)
    · obtain ⟨hne, hmem⟩ := not_or.1 (List.mem_cons.not.1 he)
      rw [hother e hmem, State.updEng_eng]
      exact Vector.getElem_set_ne d.isLt e.isLt fun h => hne (Fin.ext h.symm)

/-- An admitted offer is the last of the jobs, and its engines are busy until its predicted finish. -/
theorem State.placeJob_eq (o : Offer) (finish : Nat) (rel : Option Nat) (s : State) : ∃ g : Vector Engine 6,
    s.placeJob o finish rel = ({ s with eng := g, jobs := s.jobs ++ [o.job s.nextJob finish rel], nextJob := s.nextJob + 1 }, s.nextJob)
      ∧ (∀ e ∈ o.engines, g[e].busyUntil = finish) ∧ ∀ e : EngId, e ∉ o.engines → g[e] = s.eng[e] := by
  obtain ⟨g, hfold, hbusy, hother⟩ := foldl_busyUntil o.engines finish s
  refine ⟨g, ?_, hbusy, hother⟩
  unfold State.placeJob
  simp only [hfold, Offer.job]

variable (hroom : ∀ e ∈ o.engines, (s.queueOf e).length < 64)
include hroom

theorem State.takeJob_room : ¬ (o.engines.any fun e => decide (64 ≤ (s.queueOf e).length)) = true := by
  simpa using hroom

theorem State.takeJob_fits (hfits : s.offerStart o + o.w ≤ o.last) : s.takeJob o rel = .inr (s.placeJob o (s.offerStart o + o.w) rel) := by
  unfold State.takeJob
  rw [if_neg (State.takeJob_room hroom)]
  exact if_neg (Nat.not_lt.2 hfits)

theorem State.takeJob_late (hlate : o.last < s.offerStart o + o.w) :
    s.takeJob o rel = .inl (s, stRefusedDeadline, s.offerStart o + o.w - o.t0) := by
  unfold State.takeJob
  rw [if_neg (State.takeJob_room hroom)]
  exact if_pos hlate

end

/-! ### A job offered by a NOTIFY (R49, R133, R252) -/

section
variable {w v : State} {n : PortId} {p : Packet} {c : Ctx}

/-- A NOTIFY of one on a trigger pigeonhole offers its job: it is refused with the decision, or carried out with its job. -/
theorem State.takePkt_offers {sch : Schedule} {a : Nat} (hfree : c.held = [])
    (hopens : ∀ x ∈ w.env.opens, x.part = c.part → x.opener = some c.serial → x.asker = none)
    (htrig : w.trigger? c.part p.notifyPgh.toNat = some sch) (hadd : p.notifyAdd = 1) (hgate : w.triggerGate sch = none) :
    (∀ st k, w.takeJob (w.pktOffer n sch 6 p ⟨.lpddr, a⟩) (some (w.now + 9)) = .inl (v, st, k) →
      w.takePkt n c 6 p ⟨.lpddr, a⟩ = v.rejectPkt n c 6 p st false (BitVec.ofNat 32 k))
    ∧ ∀ id, w.takeJob (w.pktOffer n sch 6 p ⟨.lpddr, a⟩) (some (w.now + 9)) = .inr (v, id) →
      w.takePkt n c 6 p ⟨.lpddr, a⟩ = (v.execOp c { w.passedOp n 6 p ⟨.lpddr, a⟩ with job := some id }).twinForward 1 := by
  have hstages : ¬ stages 6 p = true := by simp [stages]
  have htrig' : w.pktTrigger c 6 p = some sch := htrig
  have hwaits : (!c.held.isEmpty || w.mustWait c (w.passedOp n 6 p ⟨.lpddr, a⟩)) = false := by rw [hfree]; rfl
  unfold State.takePkt
  rw [if_neg hstages]
  simp only [State.stamped_plain (tgt := ⟨.lpddr, a⟩) hopens, htrig', hadd, hgate, hwaits, ne_eq, not_true_eq_false, if_false,
    Bool.false_eq_true]
  refine ⟨fun st k hjob => ?_, fun id hjob => ?_⟩
  · simp only [hjob]
  · simp only [hjob]

/-- A job released when it was admitted is not released again. -/
theorem State.updJob_released {id rel : Nat} (h : ∀ j ∈ v.jobs, j.id = id → j.released.isNone = false) :
    (v.updJob id fun j => if j.released.isNone then { j with released := some rel } else j) = v := by
  unfold State.updJob
  rw [updWhere_self fun j hj hid => ?_]
  rw [h j hj (of_decide_eq_true hid)]
  exact if_neg Bool.false_ne_true

/-- The NOTIFY of a job that is released is answered. -/
theorem State.execOp_triggered {id a : Nat} (hfree : c.held = []) (hjobs : ∀ j ∈ v.jobs, j.id = id → j.released.isNone = false)
    (hrole : v.twin.role = .unpaired) (heject : v.pwr.ejectAt = none) (hport : c.port = n) :
    v.execOp c { w.passedOp n 6 p ⟨.lpddr, a⟩ with job := some id } = Cert.replied v n c 6 p 0 [] := by
  rw [← State.replied_eq hrole heject hport, State.execOp_performs hfree (by rfl)]
  simp only [State.perform, State.passedOp, State.placeOf_region, State.orderedMove_notify, State.updJob_released hjobs, Bool.false_eq_true,
    if_false, if_true]

/-- A refusal touches neither jobs nor engines. -/
theorem State.rejectPkt_jobs_eng {op : Byte} {st : Status} {k : Word} (hstages : stages op p = false) :
    (w.rejectPkt n c op p st false k).jobs = w.jobs ∧ (w.rejectPkt n c op p st false k).eng = w.eng := by
  have hdoom (v : State) : v.doomPkt c op p st = v := by simp [State.doomPkt, hstages]
  have hqueue (x : TxPkt) : (w.queueRefusal n x).jobs = w.jobs ∧ (w.queueRefusal n x).eng = w.eng := by
    unfold State.queueRefusal State.queueTx
    split_ifs <;> exact ⟨rfl, rfl⟩
  unfold State.rejectPkt State.refuseOp
  simp only [hdoom, Bool.false_eq_true, if_false]
  split
  · exact ⟨rfl, rfl⟩
  · exact hqueue _

end

/-- The predicted start of the job that a partner's NOTIFY triggers. -/
def State.notifyStart (u : State) (part : PartId) : Nat := (u.live part).foldl (fun m e => max m u.eng[e].busyUntil) (u.now + 11)

/-- Its budget: the schedule's where the packet has none. -/
def notifyBudget (sch : Schedule) (p : Packet) : Nat := if p.arg.toNat = 0 then sch.budget.toNat else p.arg.toNat

/-- The job, released 9 cycles later. -/
def State.notifyJob (u : State) (n : PortId) (p : Packet) (part : PartId) (sch : Schedule) : Job :=
  { id := u.nextJob, sched := sch.handle, part := part, cls := some sch.cls, engines := u.live part, w := sch.w, t0 := u.now
    last := u.now + notifyBudget sch p, finish := u.notifyStart part + sch.w
    source := .fabric n p.link p.tag 6 (hasBit p.flags 0), kvSeq := p.kvSeq.toNat, counting := u.live part
    released := some (u.now + 9), image := sch.images }

section
variable {w : State} {n : PortId} {p : Packet} {c : Ctx} {sch : Schedule} {a : Nat} (hfree : c.held = [])
  (hopens : ∀ x ∈ w.env.opens, x.part = c.part → x.opener = some c.serial → x.asker = none)
  (htrig : w.trigger? c.part p.notifyPgh.toNat = some sch) (hadd : p.notifyAdd = 1) (hgate : w.triggerGate sch = none)
  (hroom : ∀ e ∈ w.live sch.part, (w.queueOf e).length < 64)
include hfree hopens htrig hadd hgate hroom

theorem State.takePkt_fits (hfits : w.notifyStart sch.part + sch.w ≤ w.now + notifyBudget sch p) (hnew : ∀ k ∈ w.jobs, k.id ≠ w.nextJob)
    (hrole : w.twin.role = .unpaired) (heject : w.pwr.ejectAt = none) (hport : c.port = n) : ∃ g : Vector Engine 6,
    w.takePkt n c 6 p ⟨.lpddr, a⟩ = Cert.replied
        { w with eng := g, jobs := w.jobs ++ [w.notifyJob n p sch.part sch], nextJob := w.nextJob + 1 } n c 6 p 0 []
      ∧ (∀ e ∈ w.live sch.part, g[e].busyUntil = w.notifyStart sch.part + sch.w)
      ∧ ∀ e : EngId, e ∉ w.live sch.part → g[e] = w.eng[e] := by
  obtain ⟨g, hplaced, hbusy, hother⟩ := State.placeJob_eq (w.pktOffer n sch 6 p ⟨.lpddr, a⟩) (w.notifyStart sch.part + sch.w)
    (some (w.now + 9)) w
  refine ⟨g, ?_, hbusy, hother⟩
  have htake : w.takeJob (w.pktOffer n sch 6 p ⟨.lpddr, a⟩) (some (w.now + 9)) = .inr
      ({ w with eng := g, jobs := w.jobs ++ [w.notifyJob n p sch.part sch], nextJob := w.nextJob + 1 }, w.nextJob) :=
    (State.takeJob_fits (o := w.pktOffer n sch 6 p ⟨.lpddr, a⟩) hroom hfits).trans (congrArg Sum.inr hplaced)
  have hjobs : ∀ j ∈ w.jobs ++ [w.notifyJob n p sch.part sch], j.id = w.nextJob → j.released.isNone = false := by
    intro j hj hid
    rcases List.mem_append.1 hj with hj | hj
    · exact absurd hid (hnew j hj)
    · rw [List.mem_singleton.1 hj]
      rfl
  have hacts := State.execOp_triggered (v := { w with eng := g, jobs := w.jobs ++ [w.notifyJob n p sch.part sch], nextJob := w.nextJob + 1 })
    (w := w) (p := p) (a := a) hfree hjobs hrole heject hport
  rw [(State.takePkt_offers hfree hopens htrig hadd hgate).2 w.nextJob htake, hacts]
  exact State.twinForward_unpaired (by exact hrole) 1

theorem State.takePkt_late (hlate : w.now + notifyBudget sch p < w.notifyStart sch.part + sch.w) :
    (w.takePkt n c 6 p ⟨.lpddr, a⟩).jobs = w.jobs ∧ (w.takePkt n c 6 p ⟨.lpddr, a⟩).eng = w.eng := by
  rw [(State.takePkt_offers hfree hopens htrig hadd hgate).1 _ _ (State.takeJob_late (o := w.pktOffer n sch 6 p ⟨.lpddr, a⟩) hroom hlate)]
  exact State.rejectPkt_jobs_eng (by simp [stages])

end

/-! ### NOTIFY, from its packet to its answer -/

section
variable {s u : State} {t : Nat} {n : PortId} {p p' : Packet} {c : Ctx} {x : Win} (hu : s.advance t = u) (hknown : Cert.known u n 6 p c)
  (hauth : Cert.authentic 6 p p' c) (hform : formOk c 6 p' = true) (hplain : Cert.plain u n p c) (hfilter : c.filter = false)
  (hserves : Cert.serves u c) (hwin : u.win? p.window.toNat = some x) (hpart : x.part = c.part) (hctx : x.ctx = c.num)
  (hkind : x.kind = .pgh) (hlow : x.base ≤ p.notifyPgh.toNat) (hhigh : p.notifyPgh.toNat < x.base + x.length)
  (hops : c.opsRate = 0 ∨ c.opsTok ≠ 0)
include hu hknown hauth hform hplain hfilter hserves hwin hpart hctx hkind hlow hhigh hops

theorem notify_takes : s.packetIn t n 6 p = (Cert.took u n p c 0).takePkt n (Cert.spent c p 0) 6 p' ⟨.lpddr, 0⟩ := by
  obtain ⟨hop, -, -, -⟩ := hplain
  have hbytes := formOk_notify hform
  obtain ⟨bs, rfl⟩ := Cert.authentic_payload hauth
  exact State.packetIn_takes hu hknown hop hauth hform hfilter hserves (by decide)
    (State.target_pgh (p := { p with payload := bs }) hwin hpart hctx hkind hlow hhigh) hops hbytes (.inr (Nat.zero_le _))

theorem notify_adds (henv : p.env = 0xFFFF) (htrig : u.trigger? c.part p.notifyPgh.toNat = none) {g : Nat}
    (hg : u.pghIndex c.part p.notifyPgh.toNat = some g) :
    exec (.notify t n p) s =
      .next (Cert.replied ((Cert.took u n p c 0).pghAdd g p.notifyAdd.toNat u.now) n (Cert.spent c p 0) 6 p' 0 []) := by
  rw [exec_notify, execNotify, notify_takes hu hknown hauth hform hplain hfilter hserves hwin hpart hctx hkind hlow hhigh hops]
  obtain ⟨-, heject, -, -, hlink, hport, -, hheld⟩ := hknown
  obtain ⟨-, hrole, -⟩ := hserves
  obtain ⟨-, -, hopens, -⟩ := hplain
  obtain ⟨henv', hpgh, hadd, -⟩ := Cert.authentic_header hauth
  rw [← henv'] at henv
  rw [← hpgh] at htrig hg
  have hfree : (Cert.spent c p 0).held = [] := hheld c (State.ctx?_mem hlink)
  have hacts := State.perform_notifies (w := Cert.took u n p c 0) (c := Cert.spent c p 0) (tgt := ⟨.lpddr, 0⟩) (.inr rfl)
    State.placeOf_region State.orderedMove_notify hg hrole heject hport
  rw [State.takePkt_plain (w := Cert.took u n p c 0) (c := Cert.spent c p 0) henv hopens fun _ => htrig,
    State.execOp_performs hfree State.mustWait_region, hacts, hadd]
  exact congrArg Host.Outcome.next (State.twinForward_replied (v := State.pghAdd (Cert.took u n p c 0) _ _ _) hrole 1)

variable {sch : Schedule} (htrig : u.trigger? c.part p.notifyPgh.toNat = some sch) (hadd : p.notifyAdd = 1)
  (hgate : u.triggerGate sch = none) (hroom : ∀ e ∈ u.live c.part, (u.queueOf e).length < 64) (hmine : sch.part = c.part)
include htrig hadd hgate hroom hmine

theorem notify_triggers (hnew : ∀ k ∈ u.jobs, k.id ≠ u.nextJob)
    (hfits : u.notifyStart c.part + sch.w ≤ u.now + notifyBudget sch p) : ∃ g : Vector Engine 6,
    exec (.notify t n p) s = .next (Cert.replied { Cert.took u n p c 0 with
        eng := g, jobs := u.jobs ++ [u.notifyJob n p c.part sch], nextJob := u.nextJob + 1 } n (Cert.spent c p 0) 6 p' 0 [])
      ∧ (∀ e ∈ u.live c.part, g[e].busyUntil = u.notifyStart c.part + sch.w) ∧ ∀ e : EngId, e ∉ u.live c.part → g[e] = u.eng[e] := by
  rw [exec_notify, execNotify, notify_takes hu hknown hauth hform hplain hfilter hserves hwin hpart hctx hkind hlow hhigh hops]
  obtain ⟨-, heject, -, -, hlink, hport, -, hheld⟩ := hknown
  obtain ⟨-, hrole, -⟩ := hserves
  obtain ⟨-, -, hopens, -⟩ := hplain
  obtain ⟨bs, rfl⟩ := Cert.authentic_payload hauth
  have hfree : (Cert.spent c p 0).held = [] := hheld c (State.ctx?_mem hlink)
  rw [← hmine] at hroom hfits ⊢
  obtain ⟨g, htaken, hbusy, hother⟩ := State.takePkt_fits (w := Cert.took u n p c 0) (c := Cert.spent c p 0) (a := 0)
    (p := { p with payload := bs }) hfree hopens htrig hadd hgate hroom hfits hnew hrole heject hport
  exact ⟨g, congrArg Host.Outcome.next htaken, hbusy, hother⟩

theorem notify_late (hlate : u.now + notifyBudget sch p < u.notifyStart c.part + sch.w) :
    ∃ v : State, exec (.notify t n p) s = .next v ∧ v.jobs = u.jobs ∧ v.eng = u.eng := by
  rw [exec_notify, execNotify, notify_takes hu hknown hauth hform hplain hfilter hserves hwin hpart hctx hkind hlow hhigh hops]
  obtain ⟨-, -, -, -, hlink, -, -, hheld⟩ := hknown
  obtain ⟨-, -, hopens, -⟩ := hplain
  obtain ⟨bs, rfl⟩ := Cert.authentic_payload hauth
  have hfree : (Cert.spent c p 0).held = [] := hheld c (State.ctx?_mem hlink)
  rw [← hmine] at hroom hlate
  exact ⟨_, rfl, State.takePkt_late (w := Cert.took u n p c 0) (c := Cert.spent c p 0) (p := { p with payload := bs })
    hfree hopens htrig hadd hgate hroom hlate⟩

end

/-! ### FRAME (R243, R258) -/

section
variable {s u w : State} {t : Nat} {n : PortId} {p : Packet} {c : Ctx}

/-- A packet of the clear form passes the checks of its clear context as it is. -/
theorem State.authPkt_clear {op : Byte} (hclear : c.clear = true) (honly : ∀ d ∈ w.fab.ctxs, d.link = c.link → d = c)
    (hflag : hasBit p.flags 1 = true) (hepoch : p.epoch = 0) (htag : p.gcmTag = 0)
    (hcredit : c.heldBlocks + creditBlocks p.payload.length ≤ c.creditBlocks) : w.authPkt n c op p false = .ok (w, c, p) := by
  have hsame : (w.updCtx c.link fun _ => c) = w := by
    simp only [State.updCtx, State.updFab]
    rw [updWhere_self fun d hd hid => (honly d hd (of_decide_eq_true hid)).symm]
  have hlive : ¬ (¬ c.clear = true ∧ c.key.retired ≠ 0 ∧ p.epoch.toNat ≤ c.key.retired) := fun h => h.1 hclear
  have hauth : authentic c op p = some p := (if_pos hclear).trans (if_pos ⟨hflag, hepoch, htag⟩)
  have hnew : ¬ (¬ c.clear = true ∧ p.pktSeq.toNat ≤ c.lastRx p.epoch) := fun h => h.1 hclear
  have hroom : ¬ (¬ false = true ∧ c.creditBlocks < c.heldBlocks + creditBlocks p.payload.length) := fun h => absurd hcredit (Nat.not_le.2 h.2)
  simp only [State.authPkt, if_neg hlive, hauth, if_neg hnew, if_neg hroom, if_pos hclear, hsame]

variable (hu : s.advance t = u) (hknown : Cert.known u n 0x20 p c) (hclear : c.clear = true) (hepoch : p.epoch = 0)
  (htag : p.gcmTag = 0) (hop : p.opCode = none) (hcredit : c.heldBlocks + creditBlocks p.payload.length ≤ c.creditBlocks)
  (hform : formOk c 0x20 p = true) (honly : ∀ d ∈ u.fab.ctxs, d.link = c.link → d = c)
include hu hknown hclear hepoch htag hop hcredit hform honly

/-- A FRAME of a clear context is for its port's filter program. -/
theorem frame_filtered : s.packetIn t n 0x20 p = (Cert.heard u n).filterPkt n c 0x20 p := by
  obtain ⟨-, -, hflag, -⟩ := formOk_fields hform
  exact State.packetIn_passed hu hknown hop
    (State.authPkt_clear (w := Cert.heard u n) hclear honly (hflag.trans hclear) hepoch htag hcredit)

variable (hfilter : c.filter = true)
include hfilter

theorem frame_passed (h : (Cert.heard u n).filter n 0x20 p = .pass ∨ (Cert.heard u n).filter n 0x20 p = .drop) :
    exec (.frame t n p) s = .next ((Cert.heard u n).returnCredit c (creditBlocks p.payload.length)) := by
  rw [exec_frame, execFrame, frame_filtered hu hknown hclear hepoch htag hop hcredit hform honly, State.filterPkt,
    if_neg (not_not.2 hform), if_neg (not_not.2 hfilter)]
  rcases h with h | h
  · simp only [h, if_pos hclear]
  · simp only [h]

theorem frame_deadLetter (h : (Cert.heard u n).filter n 0x20 p = .deadLetter) : exec (.frame t n p) s =
    .next (((Cert.heard u n).deadLetter c.part (headerBytes 0x20 p) stDenied n.val false).returnCredit c (creditBlocks p.payload.length)) := by
  rw [exec_frame, execFrame, frame_filtered hu hknown hclear hepoch htag hop hcredit hform honly, State.filterPkt,
    if_neg (not_not.2 hform), if_neg (not_not.2 hfilter)]
  simp only [h]

end

/-- The credit of a packet returns on the port of its context. -/
theorem State.returnCredit_port {v : State} {c : Ctx} {n : PortId} (hport : c.port = n) (k : Nat) : v.returnCredit c k =
    Cert.portTo v (portLink n) fun q => { q with blocks := q.blocks ++ [.credit c.link (BitVec.ofNat 16 k)] } := by
  rw [← hport]
  rfl

end Sys2Proof.Machine

namespace Sys2Proof.Proofs

open Sys2Proof Sys2Proof.Machine

/-- Settles O50: each operation is followed from its packet to its answer by a rule of its own, above. -/
theorem partnerOperationsAct : Obligations.PartnerOperationsAct := by
  unfold Obligations.PartnerOperationsAct
  intro s t n p p' c x u
  have hu : s.advance t = u := rfl
  clear_value u
  intro len at' took done here wrote
  refine ⟨fun hkind => ⟨put_region hu hkind, fun h hgranted htrig g hg => putNotify_region hu hkind h hgranted htrig hg, fun h => ?_, ?_⟩,
    fun hkind e he hreset hbad hunit => ?_, ?_, ?_⟩
  · obtain ⟨-, -, -, ⟨-, hflt, -⟩, -⟩ := id h
    rw [exec_get_plain hflt]
    refine ⟨fun hslot => congrArg Host.Outcome.next (get_region hu hkind h hslot), fun hslot => ?_⟩
    obtain ⟨⟨-, -, -, -, hlink, -, -, hheld⟩, hauth, -⟩ := id h
    obtain ⟨-, -, -, -, -, -, htag, -⟩ := Cert.authentic_header hauth
    rw [get_region_waits hu hkind h hslot]
    have hfound : (Cert.took u n p c p.arg.toNat).ctx? c.link = some (Cert.spent c p p.arg.toNat) :=
      Cert.took_ctx? (State.ctx?_link hlink ▸ hlink)
    exact ⟨_, rfl, rfl, rfl, rfl, rfl, Cert.heard_queue u n, _, _, State.ctx?_updCtx (fun _ => by rfl) hfound,
      congrArg (· ++ _) (hheld c (State.ctx?_mem hlink)), rfl, htag, congrArg Target.addr (Win.target_region hkind p)⟩
  · intro old hslot
    exact ⟨fun h => congrArg Host.Outcome.next (atomic_region hu hkind (.inl rfl) h hslot),
      fun h => congrArg Host.Outcome.next (atomic_region hu hkind (.inr rfl) h hslot)⟩
  · intro a here
    refine ⟨fun h => ?_, fun h hlanded => ?_⟩
    · obtain ⟨-, -, hform, -⟩ := id h
      have hself : ((Cert.took u n p c len).updEng e fun g => g.sideStored u.now a p'.payload).eng[e] =
          u.eng[e].sideStored u.now a p'.payload := State.updEng_self
      have hother : ∀ d : EngId, d ≠ e → ((Cert.took u n p c len).updEng e fun g => g.sideStored u.now a p'.payload).eng[d] = u.eng[d] :=
        fun d hd => State.updEng_ne hd
      have hstore := congrArg Engine.store hself
      have hact := (congrArg Engine.act hself).trans
        (Engine.sideStored_act _ u.now a (List.ne_nil_of_length_pos (formOk_put hform)))
      refine ⟨_, put_act hu hkind he hreset hunit hbad h, fun _ => ?_, fun _ b hb => ?_, hother, hstore, rfl, rfl, rfl⟩
      · exact (congrArg (memRead · a len) hact).trans (memRead_memWrite _ _ _)
      · exact (congrArg (memGet · b) hact).trans (memGet_memWrite_out _ _ _ _ hb)
    · obtain ⟨-, -, -, ⟨-, hflt, -⟩, -⟩ := id h
      rw [exec_get_plain hflt]
      exact congrArg Host.Outcome.next (get_act hu hkind he hreset hunit hbad h hlanded)
  · intro hkind hknown hauth hform hplain hfilter hserves hlen henv hwin hpart hctx hlow hhigh hops happlies
    refine ⟨fun g htrig hg => notify_adds hu hknown hauth hform hplain hfilter hserves hwin hpart hctx hkind hlow hhigh hops henv htrig hg, ?_⟩
    intro sch htrig hadd hgate hroom start budget j hmine hnew
    refine ⟨fun hfits => ?_, fun hlate => notify_late hu hknown hauth hform hplain hfilter hserves hwin hpart hctx hkind hlow hhigh hops
      htrig hadd hgate hroom hmine hlate⟩
    obtain ⟨g, hexec, hbusy, hother⟩ := notify_triggers hu hknown hauth hform hplain hfilter hserves hwin hpart hctx hkind hlow hhigh hops
      htrig hadd hgate hroom hmine hnew hfits
    exact ⟨_, hexec, rfl, rfl, hbusy, hother, rfl, rfl⟩
  · intro hknown hclear hfilter hepoch htag hop hsame hcredit hform honly h credit
    subst hsame
    obtain ⟨-, -, -, -, -, hport, -⟩ := id hknown
    refine ⟨fun hends => ?_, fun hends => ?_⟩
    · rw [frame_passed hu hknown hclear hepoch htag hop hcredit hform honly hfilter hends, State.returnCredit_port hport]
    · rw [frame_deadLetter hu hknown hclear hepoch htag hop hcredit hform honly hfilter hends, State.returnCredit_port hport]

end Sys2Proof.Proofs

/-! SUPPORT. Integers in machine words: two's complement, little-endian fields, and saturation to a range (R8, R75, R76, R80). -/

namespace Sys2Proof.Machine

/-! ### Two's complement -/

@[simp] theorem sgn_toNat {w : Nat} (x : BitVec w) : sgn w x.toNat = x.toInt := by
  rw [sgn, Nat.mod_eq_of_lt x.isLt, BitVec.toInt_eq_toNat_cond]
  cases w with
  | zero => simp [BitVec.of_length_zero]
  | succ w =>
    have hhalf : x.toNat < 2 ^ w ↔ 2 * x.toNat < 2 ^ (w + 1) := by rw [Nat.pow_succ]; omega
    simp only [Nat.add_sub_cancel, hhalf]
    push_cast
    rfl

@[simp] theorem s32_toNat (x : BitVec 32) : s32 x.toNat = x.toInt := sgn_toNat x

theorem wrapInt_eq (w : Nat) (i : Int) : wrapInt w i = (BitVec.ofInt w i).toNat := by simp [wrapInt, BitVec.toNat_ofInt]

theorem ofInt_toInt_sub (x y : BitVec 32) : BitVec.ofInt 32 (x.toInt - y.toInt) = x - y := by
  rw [Int.sub_eq_add_neg, BitVec.ofInt_add, BitVec.ofInt_neg, BitVec.ofInt_toInt, BitVec.ofInt_toInt, BitVec.sub_eq_add_neg]

theorem ofInt_two_pow (k : Nat) : BitVec.ofInt 32 (2 ^ k) = BitVec.twoPow 32 k := by
  rw [show (2 ^ k : Int) = ((2 ^ k : Nat) : Int) by push_cast; rfl, BitVec.ofInt_natCast]
  exact BitVec.eq_of_toNat_eq (by rw [BitVec.toNat_ofNat, BitVec.toNat_twoPow])

theorem ofInt_toInt_sshiftRight (x : BitVec 32) (k : Nat) : BitVec.ofInt 32 (x.toInt / 2 ^ k) = x.sshiftRight k := by
  rw [BitVec.sshiftRight_eq, Int.shiftRight_eq_div_pow]
  push_cast
  rfl

/-! ### Little-endian fields (R8) -/

theorem leNat_natLe (v n : Nat) : leNat (natLe v n) = v % 256 ^ n := by
  induction n generalizing v with
  | zero => simp [natLe, leNat, Nat.mod_one]
  | succ n ih =>
    rw [natLe, leNat, ih, BitVec.toNat_ofNat, show 256 ^ (n + 1) = 256 * 256 ^ n from Nat.pow_succ', Nat.mod_mul]

/-- The field that a number of `n` bytes takes after `pre`. -/
theorem field_natLe (pre post : List Byte) (v n : Nat) : field (pre ++ (natLe v n ++ post)) pre.length n = v % 256 ^ n := by
  rw [field, List.drop_left, List.take_left' (natLe_length v n), leNat_natLe]

/-! ### Saturation -/

/-- An integer saturated to a range, as a code of `w` bits with its flag and count. -/
theorem satInt_toRange (w : Nat) (lo hi i : Int) :
    { code := wrapInt w (satInt lo hi i).1, flags := if (satInt lo hi i).2 then fSaturated else 0
      sats := if (satInt lo hi i).2 then 1 else 0 : LaneOut } = Cert.toRange w lo hi i := by
  simp only [wrapInt_eq, satInt, Cert.toRange]
  split
  · rfl
  · split <;> rfl

/-- A saturated INT32 result is its value saturated to the range of INT32 (R80). -/
theorem saturated_eq_toRange (i : Int) : Cert.saturated i = Cert.toRange 32 (-(2 ^ 31)) (2 ^ 31 - 1) i := rfl

theorem intResult_saturates (i : Int) : intResult true i = Cert.saturated i := by
  rw [saturated_eq_toRange, ← satInt_toRange]
  rfl

theorem intResult_wraps (i : Int) : intResult false i = Cert.lane (BitVec.ofInt 32 i) := by
  simp [intResult, Cert.lane, wrapInt_eq]

/-- The value of an integer, times the bits of its fraction, is exact: its conversion to an integer format only saturates (R76). -/
theorem encodeInt_numOfInt (w : Nat) (lo hi : Int) (rm : Nat) (y : Int) :
    encodeInt w lo hi 0 rm (numOfInt y) = Cert.toRange w lo hi y := by
  have habs : (if y < 0 then -(y.natAbs : Int) else (y.natAbs : Int)) = y := by split <;> omega
  rw [← satInt_toRange]
  simp only [encodeInt, numOfInt, roundAt, Int.add_zero, le_refl, if_true, sub_self, Int.toNat_zero, Nat.pow_zero, Nat.mul_one,
    decide_eq_true_eq, habs]
  cases (satInt lo hi y).2 <;> rfl

/-! ### Integer lanes (R80) -/

/-- ICMP answers its question, 1 for yes. -/
theorem intLane_icmp (x y : BitVec 32) (rm : BitVec 2) : intLane 0x33 rm.toNat false x.toNat y.toNat =
    Cert.lane (if (rm = 0 ∧ x = y) ∨ (rm = 1 ∧ x.toInt < y.toInt) ∨ (rm = 2 ∧ x.toInt ≤ y.toInt) ∨ (rm = 3 ∧ x ≠ y)
      then 1 else 0) := by
  obtain rfl | rfl | rfl | rfl : rm = 0 ∨ rm = 1 ∨ rm = 2 ∨ rm = 3 := by revert rm; decide
  all_goals simp [intLane, Cert.lane, BitVec.toInt_inj, apply_ite BitVec.toNat]

/-- The integer operations that do not wrap or saturate by choice take no SAT field (Table 05.24). -/
theorem vecFieldsOk_sat {op : Nat} {v : VecSlot} (hlo : 0x2C ≤ op) (hhi : op ≤ 0x35) (hsat : v.sat = true) :
    vecFieldsOk op v = false := by
  interval_cases op <;> simp [vecFieldsOk, hsat]

/-- What an operation's flags and count add to ENG_ARITH_EXC and ENG_SAT_COUNT as they land (R81). -/
theorem Engine.land_arith (g : Engine) (d : Nat) (vec : Bool) (flags : BitVec 8) (n : Nat) :
    (g.land d vec (.arith flags n)).arithExc = g.arithExc ||| flags
      ∧ (g.land d vec (.arith flags n)).satCount.toNat = min (g.satCount.toNat + n) 0xFFFFFFFF := by
  refine ⟨rfl, ?_⟩
  change (bump 32 g.satCount n).toNat = _
  rw [bump, BitVec.toNat_ofNat, Nat.mod_eq_of_lt (by omega)]
  rfl

/-! ### REQ (R75) -/

/-- The bytes of a parameter record (Table 05.15). -/
def reqRecord (m : BitVec 32) (sh rsv : Byte) (zp lo hi : BitVec 16) (tail : Word) : List Byte :=
  natLe m.toNat 4 ++ [sh, rsv] ++ natLe zp.toNat 2 ++ natLe lo.toNat 2 ++ natLe hi.toNat 2 ++ natLe tail.toNat 4

/-- The fields of a parameter record. -/
theorem field_reqRecord (m : BitVec 32) (sh rsv : Byte) (zp lo hi : BitVec 16) (tail : Word) :
    let r := reqRecord m sh rsv zp lo hi tail
    field r 0 4 = m.toNat ∧ field r 4 1 = sh.toNat ∧ field r 5 1 = rsv.toNat ∧ field r 6 2 = zp.toNat ∧ field r 8 2 = lo.toNat
      ∧ field r 10 2 = hi.toNat ∧ field r 12 4 = tail.toNat := by
  simp [reqRecord, field, List.drop_append, List.take_append, leNat_natLe, leNat, List.take_of_length_le, List.drop_eq_nil_of_le]
  exact ⟨m.isLt, zp.isLt, lo.isLt, hi.isLt, tail.isLt⟩

/-- REQ's formula before its last line: the product rounded half up by the shift, the zero point added, and the bounds taken. -/
def reqBounded (acc m : Int) (sh : Nat) (zp lo hi : Int) : Int :=
  min (max ((if sh = 0 then acc * m else (acc * m + 2 ^ (sh - 1)) / 2 ^ sh) + zp) lo) hi

section
variable (ot : Nat) (acc : Int) (m : BitVec 32) (sh rsv : Byte) (zp lo hi : BitVec 16) (tail : Word)

/-- One lane of REQ on the fields of its record. -/
theorem reqLane_reqRecord : reqLane ot acc (reqRecord m sh rsv zp lo hi tail) =
    if sh.toNat ≤ 95 ∧ lo.toInt ≤ hi.toInt ∧ rsv = 0 ∧ tail = 0 then
      some (codeOf ot 0 true (numOfInt (reqBounded acc m.toInt sh.toNat zp.toInt lo.toInt hi.toInt)))
    else none := by
  obtain ⟨hm, hsh, hrsv, hzp, hlo, hhi, htail⟩ := field_reqRecord m sh rsv zp lo hi tail
  have hok : sh.toNat ≤ 95 ∧ lo.toInt ≤ hi.toInt ∧ rsv = 0 ∧ tail = 0 ↔
      ¬(95 < sh.toNat ∨ hi.toInt < lo.toInt ∨ rsv.toNat ≠ 0 ∨ tail.toNat ≠ 0) := by
    simp [not_or, ← BitVec.toNat_inj]
  simp only [reqLane, hm, hsh, hrsv, hzp, hlo, hhi, htail, sgn_toNat, reqBounded, Nat.pos_iff_ne_zero, ite_not, hok]

end

end Sys2Proof.Machine

namespace Sys2Proof.Proofs

open Sys2Proof Sys2Proof.Machine

/-- Settles O9: each operation's exact value is wrapped or saturated by one rule; ICMP by its question. -/
theorem integerLanesFollowTheRule : Obligations.IntegerLanesFollowTheRule := by
  unfold Obligations.IntegerLanesFollowTheRule
  refine ⟨fun x y rm => ?_, intLane_icmp, fun _ _ => vecFieldsOk_sat, Engine.land_arith⟩
  simp only [intLane, s32_toNat, intResult_wraps, intResult_saturates, BitVec.ofInt_add, ofInt_toInt_sub, BitVec.ofInt_mul, ofInt_two_pow,
    ← BitVec.shiftLeft_eq_mul_twoPow, ofInt_toInt_sshiftRight, BitVec.ofInt_toInt, wrapInt_eq, true_and]
  simp [Cert.lane, apply_ite BitVec.toNat, Nat.shiftRight_eq_div_pow]

/-- Settles O10: a record's fields are read back, its conditions decide, and the bounded value is converted to the output type. -/
theorem requantiseChannelFollowsTheFormula : Obligations.RequantiseChannelFollowsTheFormula := by
  unfold Obligations.RequantiseChannelFollowsTheFormula
  intro acc m sh rsv zp lo hi tail r p t y
  have hlane (ot : Nat) := reqLane_reqRecord ot acc.toInt m sh rsv zp lo hi tail
  have hy : reqBounded acc.toInt m.toInt sh.toNat zp.toInt lo.toInt hi.toInt = y := by
    simp [reqBounded, y, t, p, ← BitVec.toNat_inj]
  rw [hy] at hlane
  split
  case isTrue hok =>
    have hlane (ot : Nat) : reqLane ot acc.toInt r = some (codeOf ot 0 true (numOfInt y)) := (hlane ot).trans (if_pos hok)
    simp only [hlane, Option.some.injEq]
    exact ⟨encodeInt_numOfInt 8 (-128) 127 0 y, encodeInt_numOfInt 8 0 255 0 y, encodeInt_numOfInt 16 (-32768) 32767 0 y,
      encodeInt_numOfInt 4 (-8) 7 0 y⟩
  case isFalse hbad => exact fun ot => (hlane ot).trans (if_neg hbad)

end Sys2Proof.Proofs

/-! SUPPORT. Floating-point codes as a sign and a magnitude: what each stands for, and that what a format holds converts to itself (R74, R76,
Table 03.3). -/

namespace Sys2Proof.Machine

/-! ### Codes as a sign and a magnitude -/

/-- The number that a code of magnitude `c` stands for where it is finite: a subnormal below the first code of a nonzero exponent. -/
def finiteNum (f : FFmt) (neg : Bool) (c : Nat) : Num :=
  if c / 2 ^ f.mbits = 0 then .fin neg (c % 2 ^ f.mbits) (1 - f.bias - f.mbits)
  else .fin neg (2 ^ f.mbits + c % 2 ^ f.mbits) ((c / 2 ^ f.mbits : Nat) - f.bias - f.mbits)

section
variable {f : FFmt} {neg : Bool} {c : Nat}

/-- Every code of a format is a sign and a magnitude. -/
theorem exists_signBit_add {code : Nat} (h : code < 2 ^ (1 + f.ebits + f.mbits)) :
    ∃ neg c, c < 2 ^ (f.ebits + f.mbits) ∧ code = signBit f neg + c := by
  rw [Nat.add_assoc, Nat.pow_add] at h
  rcases Nat.lt_or_ge code (2 ^ (f.ebits + f.mbits)) with hlt | hge
  · exact ⟨false, code, hlt, by simp [signBit]⟩
  · exact ⟨true, code - 2 ^ (f.ebits + f.mbits), by omega, by simp [signBit]; omega⟩

/-- The three fields of a code: fraction, exponent and sign. -/
theorem signBit_add_fields (hc : c < 2 ^ (f.ebits + f.mbits)) :
    (signBit f neg + c) % 2 ^ f.mbits = c % 2 ^ f.mbits
      ∧ (signBit f neg + c) / 2 ^ f.mbits % 2 ^ f.ebits = c / 2 ^ f.mbits
      ∧ ((signBit f neg + c) / 2 ^ (f.mbits + f.ebits) % 2 == 1) = neg := by
  have hexp : c / 2 ^ f.mbits < 2 ^ f.ebits := by rwa [Nat.div_lt_iff_lt_mul (by positivity), ← Nat.pow_add]
  have hsign : signBit f neg = 2 ^ f.mbits * (2 ^ f.ebits * neg.toNat) := by
    cases neg <;> simp [signBit, Nat.pow_add, Nat.mul_comm]
  refine ⟨?_, ?_, ?_⟩
  · rw [hsign, Nat.mul_add_mod]
  · rw [hsign, Nat.mul_add_div (by positivity), Nat.mul_add_mod, Nat.mod_eq_of_lt hexp]
  · rw [hsign, ← Nat.mul_assoc, ← Nat.pow_add, Nat.mul_add_div (by positivity),
      Nat.div_eq_of_lt (by rwa [Nat.add_comm] at hc)]
    cases neg <;> rfl

/-- Whether the exponent of a magnitude is the format's greatest. -/
theorem top_exponent_iff (hc : c < 2 ^ (f.ebits + f.mbits)) :
    c / 2 ^ f.mbits = 2 ^ f.ebits - 1 ↔ (2 ^ f.ebits - 1) * 2 ^ f.mbits ≤ c := by
  have hexp : c / 2 ^ f.mbits < 2 ^ f.ebits := by rwa [Nat.div_lt_iff_lt_mul (by positivity), ← Nat.pow_add]
  rw [← Nat.le_div_iff_mul_le (by positivity)]
  omega

/-- Whether a magnitude has every bit set. -/
theorem all_ones_iff (hc : c < 2 ^ (f.ebits + f.mbits)) :
    c / 2 ^ f.mbits = 2 ^ f.ebits - 1 ∧ c % 2 ^ f.mbits = 2 ^ f.mbits - 1 ↔ c = 2 ^ (f.ebits + f.mbits) - 1 := by
  have hdiv := Nat.div_add_mod c (2 ^ f.mbits)
  have hfrac : c % 2 ^ f.mbits < 2 ^ f.mbits := Nat.mod_lt _ (by positivity)
  have hones : 2 ^ f.mbits * (2 ^ f.ebits - 1) + (2 ^ f.mbits - 1) = 2 ^ (f.ebits + f.mbits) - 1 := by
    rw [Nat.mul_sub_one, Nat.pow_add, Nat.mul_comm (2 ^ f.ebits)]
    have : 2 ^ f.mbits ≤ 2 ^ f.mbits * 2 ^ f.ebits := Nat.le_mul_of_pos_right _ (by positivity)
    omega
  constructor
  · rintro ⟨hexp, hrest⟩
    rw [hexp, hrest] at hdiv
    omega
  · intro hall
    have hexp := (top_exponent_iff hc).2 (by rw [Nat.mul_comm]; omega)
    rw [hexp] at hdiv
    exact ⟨hexp, by omega⟩

/-- A magnitude up to the greatest finite one stands for a number. -/
theorem decodeFlt_finite (hf : 0 < f.ebits) (hc : c < 2 ^ (f.ebits + f.mbits)) (hmax : c ≤ maxFinite f) :
    decodeFlt f (signBit f neg + c) = finiteNum f neg c := by
  obtain ⟨hfrac, hexp, hsign⟩ := signBit_add_fields (neg := neg) hc
  unfold decodeFlt maxFinite at *
  simp only [hfrac, hexp, hsign]
  cases hs : f.specials <;> simp only [hs] at hmax ⊢
  case ieee => 
    have : 0 < (2 ^ f.ebits - 1) * 2 ^ f.mbits := Nat.mul_pos (by have := Nat.one_lt_two_pow hf.ne'; omega) (by positivity)
    rw [if_neg (by rw [top_exponent_iff hc]; omega)]
    rfl
  case nanOnly =>
    have : 2 ^ 1 ≤ 2 ^ (f.ebits + f.mbits) := Nat.pow_le_pow_right (by omega) (by omega)
    rw [if_neg (by rw [all_ones_iff hc]; omega)]
    rfl
  case none => rfl

/-- A magnitude above it stands for none. -/
theorem decodeFlt_special (hc : c < 2 ^ (f.ebits + f.mbits)) (hmax : maxFinite f < c) (m : Nat) (e : Int) (neg' : Bool) :
    decodeFlt f (signBit f neg + c) ≠ .fin neg' m e := by
  obtain ⟨hfrac, hexp, hsign⟩ := signBit_add_fields (neg := neg) hc
  unfold decodeFlt maxFinite at *
  simp only [hfrac, hexp, hsign]
  cases hs : f.specials <;> simp only [hs] at hmax ⊢
  case ieee => 
    rw [if_pos ((top_exponent_iff hc).2 (by omega))]
    split <;> simp
  case nanOnly =>
    rw [if_pos ((all_ones_iff hc).2 (by omega))]
    simp
  case none => omega

end

theorem finiteNum_sign {f : FFmt} {neg neg' : Bool} {c m : Nat} {e : Int} (h : finiteNum f neg c = .fin neg' m e) : neg = neg' := by
  unfold finiteNum at h
  split at h <;> exact (Num.fin.inj h).1

theorem Cert.formats_ebits : ∀ f ∈ Cert.formats, 0 < f.ebits := by decide

/-! ### Exact values (R74) -/

section
variable {f : FFmt} {rm : Nat} {neg : Bool} {m : Nat} {e : Int}

theorem bitLen_le {m k : Nat} (h : m < 2 ^ k) : bitLen m ≤ k := by
  unfold bitLen
  split
  · exact Nat.zero_le _
  next hm => exact (Nat.log2_lt hm).2 h

theorem bitLen_normal {k r : Nat} (h : r < 2 ^ k) : bitLen (2 ^ k + r) = k + 1 := by
  have hpos : 2 ^ k + r ≠ 0 := by positivity
  rw [bitLen, if_neg hpos, (Nat.log2_eq_iff hpos).2 ⟨Nat.le_add_right .., by rw [Nat.pow_succ]; omega⟩]

/-- The weight of the last place of a value in a format, as an exponent. -/
def lastPlace (f : FFmt) (m : Nat) (e : Int) : Int := max (e + bitLen m - 1 - f.mbits) (1 - f.bias - f.mbits)

/-- A value whose last place is no finer than the format's is not rounded. -/
theorem magCode_exact (hm : m ≠ 0) (hq : lastPlace f m e ≤ e) : magCode f rm neg m e =
    ((lastPlace f m e - (1 - f.bias - f.mbits)).toNat * 2 ^ f.mbits + m * 2 ^ (e - lastPlace f m e).toNat, false) := by
  unfold magCode
  have hmax : (if e + bitLen m - 1 - f.mbits < 1 - (f.bias : Int) - f.mbits then 1 - (f.bias : Int) - f.mbits
      else e + bitLen m - 1 - f.mbits) = lastPlace f m e := by unfold lastPlace; split <;> omega
  simp only [if_neg hm, hmax, roundAt, if_pos hq, Bool.and_false]

/-- A finite magnitude is the code of the number that it stands for. -/
theorem magCode_finite {c : Nat} (hval : finiteNum f neg c = .fin neg m e) : magCode f rm neg m e = (c, false) := by
  have hdiv := Nat.div_add_mod c (2 ^ f.mbits)
  have hfrac : c % 2 ^ f.mbits < 2 ^ f.mbits := Nat.mod_lt _ (by positivity)
  unfold finiteNum at hval
  split at hval
  case isTrue hsub =>
    obtain ⟨-, rfl, rfl⟩ := Num.fin.inj hval
    rw [hsub, Nat.mul_zero, Nat.zero_add] at hdiv
    rw [hdiv] at hfrac ⊢
    by_cases hm : c = 0
    · simp [hm, magCode]
    have hlast : lastPlace f c (1 - f.bias - f.mbits) = 1 - f.bias - f.mbits := by
      have := bitLen_le hfrac
      unfold lastPlace
      omega
    rw [magCode_exact hm hlast.le, hlast]
    simp
  case isFalse hexp =>
    obtain ⟨-, rfl, rfl⟩ := Num.fin.inj hval
    generalize c / 2 ^ f.mbits = k at *
    have hlast : lastPlace f (2 ^ f.mbits + c % 2 ^ f.mbits) (k - f.bias - f.mbits) = k - f.bias - f.mbits := by
      unfold lastPlace
      rw [bitLen_normal hfrac]
      omega
    have hstep : ((k : Int) - f.bias - f.mbits - (1 - f.bias - f.mbits)).toNat = k - 1 := by omega
    rw [magCode_exact (by positivity) hlast.le, hlast, hstep, sub_self, Int.toNat_zero, Nat.pow_zero, Nat.mul_one, ← Nat.add_assoc,
      ← Nat.succ_mul, Nat.succ_eq_add_one, Nat.sub_add_cancel (by omega), Nat.mul_comm, hdiv]

/-- A magnitude in range is encoded with its sign. -/
theorem encodeFlt_finite {sat : Bool} {c : Nat} (hc : magCode f rm neg m e = (c, false)) (hmax : c ≤ maxFinite f) :
    encodeFlt f rm sat (.fin neg m e) = { code := signBit f neg + c } := by
  simp [encodeFlt, hc, not_lt.2 hmax]

end

end Sys2Proof.Machine

namespace Sys2Proof.Proofs

open Sys2Proof Sys2Proof.Machine

/-- Settles O11: the code is a sign and a finite magnitude, which is what the number it stands for is encoded as. -/
theorem exactValuesConvertToThemselves : Obligations.ExactValuesConvertToThemselves := by
  unfold Obligations.ExactValuesConvertToThemselves
  intro f hf rm code sat neg m e hcode hval
  have hebits : 0 < f.ebits := Cert.formats_ebits f hf
  obtain ⟨neg', c, hc, rfl⟩ := exists_signBit_add hcode
  have hmax : c ≤ maxFinite f := not_lt.1 fun h => decodeFlt_special hc h m e neg hval
  rw [decodeFlt_finite hebits hc hmax] at hval
  obtain rfl : neg' = neg := finiteNum_sign hval
  exact encodeFlt_finite (magCode_finite hval) hmax

end Sys2Proof.Proofs

/-! SUPPORT. NaN in and out of the FP32 lanes (R74, R78, Table 03.7). -/

namespace Sys2Proof.Machine

/-! ### Which codes are NaN -/

/-- A finite FP32 magnitude is no NaN, with either sign. -/
theorem fpIsNan_finite {neg : Bool} {c : Nat} (h : c ≤ maxFinite fp32) : fpIsNan (signBit fp32 neg + c) = false := by
  have hc : c < 2 ^ (fp32.ebits + fp32.mbits) := h.trans_lt (by decide)
  rw [fpIsNan, decodeFlt_finite (by decide) hc h, finiteNum]
  split <;> rfl

theorem fpIsNan_infCode (neg : Bool) : fpIsNan (infCode fp32 neg) = false := by cases neg <;> decide +kernel

/-- What a number is encoded as in FP32: a finite magnitude or an infinity. -/
theorem encodeFlt_fp32_cases (rm : Nat) (sat neg : Bool) (m : Nat) (e : Int) :
    (∃ c ≤ maxFinite fp32, (encodeFlt fp32 rm sat (.fin neg m e)).code = signBit fp32 neg + c)
      ∨ (encodeFlt fp32 rm sat (.fin neg m e)).code = infCode fp32 neg := by
  simp only [encodeFlt]
  split
  case isTrue =>
    split
    · exact .inl ⟨_, le_rfl, rfl⟩
    · split
      · exact .inr rfl
      · exact .inl ⟨_, le_rfl, rfl⟩
  case isFalse h => exact .inl ⟨_, not_lt.1 h, rfl⟩

/-- An encoding in FP32 is NaN only of NaN. -/
theorem eq_nan_of_fpIsNan_encodeFlt {rm : Nat} {sat : Bool} {x : Num} (h : fpIsNan (encodeFlt fp32 rm sat x).code = true) : x = .nan := by
  cases x with
  | nan => rfl
  | inf neg =>
    have hcode : (encodeFlt fp32 rm sat (.inf neg)).code = infCode fp32 neg := rfl
    rw [hcode, fpIsNan_infCode] at h
    cases h
  | fin neg m e =>
    rcases encodeFlt_fp32_cases rm sat neg m e with ⟨c, hc, hcode⟩ | hcode
    · rw [hcode, fpIsNan_finite hc] at h
      cases h
    · rw [hcode, fpIsNan_infCode] at h
      cases h

/-! ### NaN through an operation -/

theorem negNum_isNan (x : Num) : (negNum x).isNan = x.isNan := by cases x <;> rfl

theorem eq_nan_of_isNan {x : Num} (h : x.isNan = true) : x = .nan := by
  cases x with
  | nan => rfl
  | inf _ => cases h
  | fin _ _ _ => cases h

theorem addNum_nan {rm : Nat} {x y : Num} (h : x.isNan || y.isNan) : addNum rm x y = .nan := by
  rcases Bool.or_eq_true_iff.1 h with h | h <;> rw [eq_nan_of_isNan h]
  · rfl
  · cases x <;> rfl

theorem mulNum_nan {x y : Num} (h : x.isNan || y.isNan) : mulNum x y = .nan := by
  rcases Bool.or_eq_true_iff.1 h with h | h <;> rw [eq_nan_of_isNan h]
  · rfl
  · cases x <;> rfl

theorem encodeFlt_fp32_nan (rm : Nat) (sat : Bool) : encodeFlt fp32 rm sat .nan = { code := 0x7FC00000 } := rfl

/-- A NaN taken in is answered with the quiet NaN and no flag. -/
theorem fpResult_of_nan {rm : Nat} {ins : List Num} (h : ins.any Num.isNan = true) : fpResult rm ins .nan = { code := 0x7FC00000 } := by
  simp [fpResult, h, encodeFlt_fp32_nan]

/-- A NaN made from numbers is the quiet NaN with V_INVALID. -/
theorem fpResult_makes_nan {rm : Nat} {ins : List Num} {r : Num} (h : ins.any Num.isNan = false)
    (hr : fpIsNan (fpResult rm ins r).code = true) : fpResult rm ins r = { code := 0x7FC00000, flags := 8 } := by
  have hcode : (fpResult rm ins r).code = (encodeFlt fp32 rm false r).code := by rw [fpResult]; split <;> rfl
  obtain rfl : r = .nan := eq_nan_of_fpIsNan_encodeFlt (hcode ▸ hr)
  simp [fpResult, h, encodeFlt_fp32_nan, Num.isNan, fInvalid]

/-- The rule of a lane whose result is NaN where a source is. -/
theorem fpResult_quiet {rm a b : Nat} {y r : Num} (hy : y.isNan = (decodeFlt fp32 b).isNan)
    (hnan : (decodeFlt fp32 a).isNan || y.isNan → r = .nan) :
    if fpIsNan a || fpIsNan b then fpResult rm [decodeFlt fp32 a, decodeFlt fp32 b] r = { code := 0x7FC00000 }
    else fpIsNan (fpResult rm [decodeFlt fp32 a, decodeFlt fp32 b] r).code = true →
      fpResult rm [decodeFlt fp32 a, decodeFlt fp32 b] r = { code := 0x7FC00000, flags := 8 } := by
  split
  case isTrue h =>
    rw [hnan (hy ▸ h)]
    exact fpResult_of_nan (by simpa [fpIsNan] using h)
  case isFalse h => exact fpResult_makes_nan (by simpa [fpIsNan] using h)

end Sys2Proof.Machine

namespace Sys2Proof.Proofs

open Sys2Proof Sys2Proof.Machine

/-- Settles O12: each operation gives NaN where a source is one, and the encoding of a number is never NaN. -/
theorem nanLanesAreQuiet : Obligations.NanLanesAreQuiet := by
  unfold Obligations.NanLanesAreQuiet
  refine ⟨fun f hf rm a b _ _ => ?_, fun a b _ _ => ?_⟩
  · obtain rfl | rfl | rfl : f = fpAdd ∨ f = fpSub ∨ f = fpMul := by simpa using hf
    · exact fpResult_quiet rfl addNum_nan
    · exact fpResult_quiet (negNum_isNan _) addNum_nan
    · exact fpResult_quiet rfl mulNum_nan
  · unfold fpMax fpMin
    split
    case isTrue h => decide
    case isFalse h => exact ⟨(ite_eq_or_eq ..).symm, (ite_eq_or_eq ..).symm, by decide +kernel⟩

end Sys2Proof.Proofs

/-! SUPPORT. A MAT whose checks pass: what it writes at once, and what it leaves to land (R54, R55, R72, R116, R182-R187, R198). -/

namespace Sys2Proof.Machine

/-- The model keeps the bytes of a tile and of a vector in arrays; a byte read from one is the byte of the list. -/
theorem toArray_getD (l : List Nat) (a : Nat) : l.toArray.getD a 0 = l.getD a 0 := by simp

section
variable {e : EngId} {m : MatSlot} {j : Job} {cls : ChainClass}

/-- The columns of a MAT agree with its checksum, block by block where the class is block-scaled. -/
def matColumnsAgree (g : Engine) (m : MatSlot) (cls : ChainClass) : Bool :=
  (checkPasses cls (Cert.matNew g m cls) || (g.acc[m.entry].seed.isSome && !m.start))
    && (cls ≠ .block || blocksPass (g.tile m.reg).shape m.afmt.toNat (Cert.matTile g m) (Cert.matVec g m))

/-- The column of a tile whose sum is not the one formed as it was loaded; none is looked for in a register that a test window left undefined. -/
def matReadback (g : Engine) (m : MatSlot) : Option Nat :=
  if (g.tile m.reg).image.seed.isSome then none else readbackFails (g.tile m.reg).shape (Cert.matTile g m) (g.tile m.reg).sums

/-- A MAT whose checks pass has no mechanism to report. -/
theorem matFailures_nil {g : Engine} (h : Cert.matPasses g m cls) :
    matFailures cls (g.tile m.reg).shape {} (matColumnsAgree g m cls) (matReadback g m) = [] := by
  obtain ⟨hcheck, hblocks, hread⟩ := h
  have hcols : matColumnsAgree g m cls = true := by
    rw [matColumnsAgree, Bool.and_eq_true]
    refine ⟨?_, ?_⟩
    · simpa using hcheck
    · simpa [or_iff_not_imp_left] using hblocks
  have hread : matReadback g m = none := by
    unfold matReadback
    split
    · rfl
    next h => exact hread (by simpa using h)
  simp [matFailures, hcols, hread]

/-- The state after a MAT has written its entry. -/
def matWritten (u : State) (e : EngId) (m : MatSlot) (cls : ChainClass) : State :=
  u.updEng e fun g => { g with acc := g.acc.set m.entry (Cert.matNew u.eng[e] m cls), pathMat := Cert.matBits u.eng[e] m }

/-- A MAT of allowed fields whose checks pass writes its entry, and with EMIT leaves its emission for the cycle at its class's depth. -/
theorem execMat_passes {s u : State} {t : Nat} (hu : s.advance t = u) (hissue : u.issuing e = some j)
    (hpair : pairClass (u.eng[e].tile m.reg).shape.fmt m.afmt.toNat = some cls)
    (hok : matOk m cls u.eng[e].acc[m.entry] (u.eng[e].tile m.reg) = true)
    (hdest : m.wr = true → lineAddr (m.dest.toNat + ceilDiv (4 * (u.eng[e].tile m.reg).shape.nt) 64) ≤ actSize)
    (hfailed : matFailed u.eng[e] j.id = false) (hpass : Cert.matPasses u.eng[e] m cls) :
    exec (.mat t e m {}) s = .next
      (if m.emit then (matWritten u e m cls).pend e j false ((Cert.matEmits u.eng[e] m cls).map fun x => (u.now + classDepth cls, x))
        else matWritten u e m cls) := by
  have hnil := matFailures_nil hpass
  have hfields : ¬(¬matOk m cls u.eng[e].acc[m.entry] (u.eng[e].tile m.reg) = true ∨
      m.wr = true ∧ actSize < lineAddr (m.dest.toNat + ceilDiv (4 * (u.eng[e].tile m.reg).shape.nt) 64)) := by
    rw [hok]
    simpa using hdest
  subst hu
  rw [exec_mat, execMat, State.engineOp_issuing hissue]
  generalize s.advance t = u at *
  simp only [hpair, if_neg hfields, hfailed, Bool.false_eq_true, if_false, toArray_getD]
  unfold matColumnsAgree matReadback Cert.matNew Cert.matTile Cert.matVec Cert.matBits at hnil
  simp only [hnil, List.isEmpty_nil, not_true_eq_false, if_false, ite_not]
  split
  · unfold Cert.matEmits
    cases m.wr <;> rfl
  · rfl

/-- What a MAT emits is due its class's depth later, which is never now: it becomes landings. -/
theorem matWritten_lands (u : State) (e : EngId) (m : MatSlot) (j : Job) (cls : ChainClass) :
    (if m.emit then (matWritten u e m cls).pend e j false ((Cert.matEmits u.eng[e] m cls).map fun x => (u.now + classDepth cls, x))
      else matWritten u e m cls) =
    { u with eng := u.eng.set e { u.eng[e] with
        acc := u.eng[e].acc.set m.entry (Cert.matNew u.eng[e] m cls)
        pathMat := Cert.matBits u.eng[e] m
        landings := u.eng[e].landings ++ (if m.emit then Cert.matEmits u.eng[e] m cls else []).map fun x =>
          { due := u.now + classDepth cls, job := j.id, eff := x } } } := by
  have hdepth : 0 < classDepth cls := by cases cls <;> decide
  have hdue : ∀ x ∈ (Cert.matEmits u.eng[e] m cls).map fun x => (u.now + classDepth cls, x), (matWritten u e m cls).now < x.1 := by
    simp only [List.mem_map]
    rintro x ⟨y, -, rfl⟩
    exact Nat.lt_add_of_pos_right hdepth
  split
  · rw [State.pend_later _ _ _ _ _ hdue]
    simp [matWritten, State.updEng, Function.comp_def]
  · simp [matWritten, State.updEng]

end

end Sys2Proof.Machine

namespace Sys2Proof.Proofs

open Sys2Proof Sys2Proof.Machine

/-- Settles O16: the entry is written at once, and what the MAT emits lands after the depth of its class. -/
theorem matAccumulatesAndEmits : Obligations.MatAccumulatesAndEmits := by
  unfold Obligations.MatAccumulatesAndEmits
  intro s t e m j cls u g hissue hpair hok hdest hfailed hpass
  rw [execMat_passes (u := u) rfl hissue hpair hok hdest hfailed hpass, matWritten_lands]
  cases cls <;> rfl

end Sys2Proof.Proofs

/-! SUPPORT. Integer chains: a column's sum of products, exact (R55, R60, R65, Table 03.4). -/

namespace Sys2Proof.Machine

/-! ### Products of integers -/

/-- The sign of a product is where the signs differ, its magnitude the product of the magnitudes. -/
theorem signed_natAbs_mul (x y : Int) :
    (if (decide (x < 0) ^^ decide (y < 0)) then -((x.natAbs * y.natAbs : Nat) : Int) else (x.natAbs * y.natAbs : Nat)) = x * y := by
  rcases lt_or_ge x 0 with hx | hx <;> rcases lt_or_ge y 0 with hy | hy <;>
    simp [hx, hy, not_lt.2, abs_of_neg, abs_of_nonneg]

/-- The exact product of two integers adds itself to a column sum and sets no flag. -/
theorem colAdd_mulNum_int (c : ColSum) (x y : Int) : colAdd 0 c (mulNum (numOfInt x) (numOfInt y)) = { c with sum := c.sum + x * y } := by
  rw [← signed_natAbs_mul x y]
  simp [numOfInt, mulNum, colAdd]

/-- The products of two runs of integers sum to their dot product. -/
theorem colSum_int {x w : Nat → Num} {a b : Nat → Int} (ks : List Nat) (hx : ∀ k ∈ ks, x k = numOfInt (a k))
    (hw : ∀ k ∈ ks, w k = numOfInt (b k)) : colSum 0 x w ks = { sum := (ks.map fun k => a k * b k).sum } := by
  have hfold : ∀ c : ColSum, ks.foldl (fun c k => colAdd 0 c (mulNum (x k) (w k))) c =
      { c with sum := c.sum + (ks.map fun k => a k * b k).sum } := by
    induction ks with
    | nil => simp
    | cons k ks ih =>
      intro c
      rw [List.foldl_cons, hx k (List.mem_cons_self ..), hw k (List.mem_cons_self ..), colAdd_mulNum_int,
        ih (fun i hi => hx i (List.mem_cons_of_mem _ hi)) (fun i hi => hw i (List.mem_cons_of_mem _ hi)), List.map_cons, List.sum_cons,
        Int.add_assoc]
  rw [colSum, hfold]
  simp

/-! ### INT8 weights and INT8 or UINT8 elements -/

/-- The value of an INT8 (format 0) or UINT8 (format 1) element. -/
def byteValue (afmt v : Nat) : Int := if afmt = 0 then sgn 8 v else (v % 256 : Nat)

theorem vecNum_int (v : Nat → Nat) {afmt : Nat} (h : afmt ≤ 1) (n k : Nat) : vecNum v afmt n k = numOfInt (byteValue afmt (v k)) := by
  obtain rfl | rfl : afmt = 0 ∨ afmt = 1 := by omega
  · rfl
  · rfl

theorem tileNum_int (b : Nat → Nat) {t : TileShape} (h : t.fmt = 0) (k j : Nat) : tileNum b t k j = numOfInt (sgn 8 (b (k * t.nt + j))) := by
  simp [tileNum, tileCode, h, isBlockFmt, numOf, widthOf, elemOf]

/-! ### The columns of an entry -/

/-- The vector of a MAT as its columns read it. -/
def matElem (v : Nat → Nat) (afmt n k : Nat) : Num := ((List.range n).map fun k => vecNum v afmt n k).toArray.getD k .nan

theorem matElem_eq (v : Nat → Nat) (afmt : Nat) {n k : Nat} (hk : k < n) : matElem v afmt n k = vecNum v afmt n k := by
  simp [matElem, hk]

section
variable (cls : ChainClass) (start : Bool) (old : AccEntry) (t : TileShape) (afmt : Nat) (b v : Nat → Nat)

/-- The columns that an entry lists after a MAT (R55): those of the tile, of the chain before it, or all 384 where that was undefined (R127). -/
def matWidth : Nat := if start then t.nt else if old.seed.isSome then 384 else max t.nt old.cols.length

theorem matEntry_cols_length : (matEntry cls start old t afmt b v).cols.length = matWidth start old t := by
  simp [matEntry, matWidth]

/-- A column of the tile accumulates its products. -/
theorem matEntry_col {j : Nat} (hj : j < t.nt) (hwidth : j < matWidth start old t) :
    (matEntry cls start old t afmt b v).cols[j]? = some (accumulate cls start (accCol old j) t.kt (matElem v afmt t.kt)
      (fun k => tileNum b t k j) (fun blk => v (packedBytes (widthOf afmt) t.kt + blk)) fun blk => tileScale b t (32 * blk) j) := by
  rw [matWidth] at hwidth
  simp only [matEntry, List.getElem?_map, List.getElem?_range hwidth, Option.map_some, if_pos hj]
  rfl

end

/-- Within the 384 columns of the array (R55, Table 03.4) a column of an integer chain holds the exact sum of its products. -/
theorem matEntry_int_col (start : Bool) (old : AccEntry) {t : TileShape} {afmt : Nat} (b v : Nat → Nat) {j : Nat} (hfmt : t.fmt = 0)
    (hafmt : afmt ≤ 1) (hj : j < t.nt) (harray : t.nt ≤ 384) :
    (matEntry .int start old t afmt b v).cols[j]? =
      some { val := (if start then 0 else (accCol old j).val)
              + BitVec.ofInt 96 ((List.range t.kt).map fun k => byteValue afmt (v k) * sgn 8 (b (k * t.nt + j))).sum
             nan := !start && (accCol old j).nan, pinf := !start && (accCol old j).pinf, ninf := !start && (accCol old j).ninf } := by
  have hwidth : j < matWidth start old t := by
    unfold matWidth
    split
    · exact hj
    · split <;> omega
  have hsum := colSum_int (x := matElem v afmt t.kt) (w := fun k => tileNum b t k j) (List.range t.kt)
    (fun k hk => (matElem_eq v afmt (List.mem_range.1 hk)).trans (vecNum_int v hafmt t.kt k)) fun k _ => tileNum_int b hfmt k j
  simp [matEntry_col .int start old t afmt b v hj hwidth, accumulate, hsum]

end Sys2Proof.Machine

namespace Sys2Proof.Proofs

open Sys2Proof Sys2Proof.Machine

/-- Refutes O17: no bound is put on the tile's columns. Where a test window left the entry undefined, a continued chain lists the array's
384 columns, so column 384 of a tile of 385 columns is none. Within the array the statement holds: `matEntry_int_col`. -/
theorem not_integerChainsAreExactDotProducts : ¬ Obligations.IntegerChainsAreExactDotProducts := by
  unfold Obligations.IntegerChainsAreExactDotProducts
  intro h
  have hcol := h false { seed := some 0 } ⟨0, 1, 385⟩ 0 (fun _ => 1) (fun _ => 1) 384 rfl (by decide) (by decide)
  have hlen : (matEntry .int false { seed := some 0 } ⟨0, 1, 385⟩ 0 (fun _ => 1) (fun _ => 1)).cols.length = 384 := matEntry_cols_length ..
  rw [List.getElem?_eq_none hlen.le] at hcol
  cases hcol

end Sys2Proof.Proofs


namespace Sys2Proof.Machine

-- one theorem at a time keeps the memory that the many short proofs take small
set_option Elab.async false

/-! The memories stay canonical: `X.Canonical` for each block `X` that holds one, a lemma for each function of the model that changes such a
block, and `Kept` for each command. -/

theorem memWf_foldl {α : Type} {f : Mem → α → Mem} {l : List α} {m : Mem} (hm : memWf m = true)
    (hf : ∀ m x, memWf m = true → memWf (f m x) = true) : memWf (l.foldl f m) = true := by
  induction l generalizing m with
  | nil => exact hm
  | cons x l ih => exact ih (hf m x hm)

theorem memWf_formatPage {m : Mem} (hm : memWf m = true) (fmt d : Nat) (sigma : List Byte) (row : Nat) :
    memWf (formatPage m fmt d sigma row) = true :=
  memWf_foldl (memWf_memZero hm _ _) fun _ _ hm => memWf_memPut hm _

/-! The canonical form of each block that holds byte memories. -/

/-- Every byte memory of an engine is canonical. -/
structure Engine.Canonical (g : Engine) : Prop where
  store : memWf g.store = true
  act : memWf g.act = true
  rowBuf : memWf g.rowBuf = true
  params : memWf g.params = true

/-- The rows of a direct window are canonical. -/
structure DWin.Canonical (w : DWin) : Prop where
  rows : memWf w.rows = true

/-- The bytes of a bulk frame are canonical. -/
structure Frame.Canonical (f : Frame) : Prop where
  bytes : memWf f.bytes = true

/-- Every frame of an aperture is canonical. -/
structure Bulk.Canonical (b : Bulk) : Prop where
  frames : ∀ f ∈ b.frames, f.Canonical

/-- Every window and every aperture of the host port is canonical. -/
structure HostPort.Canonical (h : HostPort) : Prop where
  win : ∀ w : WinId, h.win[w].Canonical
  bulk : ∀ a : PartId, h.bulk[a].Canonical

/-- The LPDDR5X region of a partition is canonical. -/
structure Partition.Canonical (q : Partition) : Prop where
  region : memWf q.region = true

/-- The boot NOR is canonical. -/
structure Firmware.Canonical (f : Firmware) : Prop where
  nor : memWf f.nor = true

/-- The metrology NOR is canonical. -/
structure Sms.Canonical (m : Sms) : Prop where
  nor : memWf m.nor = true

/-- Every byte memory of the module is canonical. -/
structure State.Canonical (s : State) : Prop where
  eng : ∀ e : EngId, s.eng[e].Canonical
  host : s.host.Canonical
  part : ∀ p : PartId, s.part[p].Canonical
  fw : s.fw.Canonical
  sms : s.sms.Canonical

/-- `State.Canonical` is the invariant of the statement, block by block. -/
theorem State.canonical_iff (s : State) : s.Canonical ↔ Cert.MemInv s := by
  constructor
  · rintro ⟨heng, hhost, hpart, hfw, hsms⟩
    exact ⟨fun e => ⟨(heng e).store, (heng e).act, (heng e).rowBuf, (heng e).params⟩, fun w => (hhost.win w).rows,
      fun a f hf => ((hhost.bulk a).frames f hf).bytes, fun p => (hpart p).region, hfw.nor, hsms.nor⟩
  · rintro ⟨heng, hwin, hbulk, hpart, hfw, hsms⟩
    exact ⟨fun e => ⟨(heng e).1, (heng e).2.1, (heng e).2.2.1, (heng e).2.2.2⟩,
      ⟨fun w => ⟨hwin w⟩, fun a => ⟨fun f hf => ⟨hbulk a f hf⟩⟩⟩, fun p => ⟨hpart p⟩, ⟨hfw⟩, ⟨hsms⟩⟩

/-! A block that holds the memories of a canonical one is canonical. -/

theorem Engine.Canonical.same {g g' : Engine} (hg : g.Canonical) (store : g'.store = g.store := by rfl) (act : g'.act = g.act := by rfl)
    (rowBuf : g'.rowBuf = g.rowBuf := by rfl) (params : g'.params = g.params := by rfl) : g'.Canonical :=
  ⟨store ▸ hg.store, act ▸ hg.act, rowBuf ▸ hg.rowBuf, params ▸ hg.params⟩

theorem DWin.Canonical.same {w w' : DWin} (hw : w.Canonical) (rows : w'.rows = w.rows := by rfl) : w'.Canonical := ⟨rows ▸ hw.rows⟩

theorem Frame.Canonical.same {f f' : Frame} (hf : f.Canonical) (bytes : f'.bytes = f.bytes := by rfl) : f'.Canonical := ⟨bytes ▸ hf.bytes⟩

theorem Bulk.Canonical.same {b b' : Bulk} (hb : b.Canonical) (frames : b'.frames = b.frames := by rfl) : b'.Canonical :=
  ⟨frames ▸ hb.frames⟩

theorem HostPort.Canonical.same {h h' : HostPort} (hh : h.Canonical) (win : h'.win = h.win := by rfl) (bulk : h'.bulk = h.bulk := by rfl) :
    h'.Canonical := ⟨win ▸ hh.win, bulk ▸ hh.bulk⟩

theorem Partition.Canonical.same {q q' : Partition} (hq : q.Canonical) (region : q'.region = q.region := by rfl) : q'.Canonical :=
  ⟨region ▸ hq.region⟩

theorem Firmware.Canonical.same {f f' : Firmware} (hf : f.Canonical) (nor : f'.nor = f.nor := by rfl) : f'.Canonical := ⟨nor ▸ hf.nor⟩

theorem Sms.Canonical.same {m m' : Sms} (hm : m.Canonical) (nor : m'.nor = m.nor := by rfl) : m'.Canonical := ⟨nor ▸ hm.nor⟩

theorem State.Canonical.same {s s' : State} (hs : s.Canonical) (eng : s'.eng = s.eng := by rfl) (host : s'.host = s.host := by rfl)
    (part : s'.part = s.part := by rfl) (fw : s'.fw = s.fw := by rfl) (sms : s'.sms = s.sms := by rfl) : s'.Canonical :=
  ⟨eng ▸ hs.eng, host ▸ hs.host, part ▸ hs.part, fw ▸ hs.fw, sms ▸ hs.sms⟩

/-- Whatever the fields beside the blocks with memories become. -/
theorem State.Canonical.withRest {s : State} {now nextJob nextXfer free : Nat} {scheds : List Schedule} {jobs : List Job} {hist : History}
    {units : List UnitState} {fab : Fabric} {env : EnvUnit} {sec : Security} {twin : Twin} {vid : Video} {cvu : CvuBlock} {bist : Bist}
    {pwr : Power} {pending : List Instr} (hs : s.Canonical) :
    ({ s with
      now := now, nextJob := nextJob, nextXfer := nextXfer, free := free, scheds := scheds, jobs := jobs, hist := hist, units := units
      fab := fab, env := env, sec := sec, twin := twin, vid := vid, cvu := cvu, bist := bist, pwr := pwr, pending := pending } :
        State).Canonical :=
  hs.same

/-! Vectors, choices, folds and pairs. -/

theorem forall_getElem_set {α : Type} {n : Nat} {P : α → Prop} {v : Vector α n} {i : Fin n} {x : α} (hv : ∀ j : Fin n, P v[j]) (hx : P x) :
    ∀ j : Fin n, P (v.set i x)[j] := by
  intro j
  by_cases hij : i.val = j.val
  · simpa [Vector.getElem_set, hij] using hx
  · simpa [Vector.getElem_set, hij] using hv j

theorem forall_getElem_replicate {α : Type} {n : Nat} {P : α → Prop} {x : α} (hx : P x) : ∀ j : Fin n, P (Vector.replicate n x)[j] :=
  fun j => by simpa using hx

theorem forall_getElem_map {α β : Type} {n : Nat} {P : β → Prop} {v : Vector α n} {f : α → β} (hv : ∀ j : Fin n, P (f v[j])) :
    ∀ j : Fin n, P (v.map f)[j] := fun j => by simpa using hv j

theorem State.Canonical.ite {a b : State} {c : Prop} {_ : Decidable c} (ha : a.Canonical) (hb : b.Canonical) :
    (if c then a else b).Canonical := by split <;> assumption

theorem Engine.Canonical.ite {a b : Engine} {c : Prop} {_ : Decidable c} (ha : a.Canonical) (hb : b.Canonical) :
    (if c then a else b).Canonical := by split <;> assumption

theorem DWin.Canonical.ite {a b : DWin} {c : Prop} {_ : Decidable c} (ha : a.Canonical) (hb : b.Canonical) :
    (if c then a else b).Canonical := by split <;> assumption

theorem Partition.Canonical.ite {a b : Partition} {c : Prop} {_ : Decidable c} (ha : a.Canonical) (hb : b.Canonical) :
    (if c then a else b).Canonical := by split <;> assumption

theorem Sms.Canonical.ite {a b : Sms} {c : Prop} {_ : Decidable c} (ha : a.Canonical) (hb : b.Canonical) :
    (if c then a else b).Canonical := by split <;> assumption

theorem State.Canonical.foldl {α : Type} {f : State → α → State} {l : List α} {s : State} (hs : s.Canonical)
    (hf : ∀ s x, s.Canonical → (f s x).Canonical) : (l.foldl f s).Canonical := by
  induction l generalizing s with
  | nil => exact hs
  | cons x l ih => exact ih (hf s x hs)

theorem Engine.Canonical.foldl {α : Type} {f : Engine → α → Engine} {l : List α} {g : Engine} (hg : g.Canonical)
    (hf : ∀ g x, g.Canonical → (f g x).Canonical) : (l.foldl f g).Canonical := by
  induction l generalizing g with
  | nil => exact hg
  | cons x l ih => exact ih (hf g x hg)

theorem Partition.Canonical.foldl {α : Type} {f : Partition → α → Partition} {l : List α} {q : Partition} (hq : q.Canonical)
    (hf : ∀ q x, q.Canonical → (f q x).Canonical) : (l.foldl f q).Canonical := by
  induction l generalizing q with
  | nil => exact hq
  | cons x l ih => exact ih (hf q x hq)

theorem Sms.Canonical.foldl {α : Type} {f : Sms → α → Sms} {l : List α} {m : Sms} (hm : m.Canonical)
    (hf : ∀ m x, m.Canonical → (f m x).Canonical) : (l.foldl f m).Canonical := by
  induction l generalizing m with
  | nil => exact hm
  | cons x l ih => exact ih (hf m x hm)

theorem State.Canonical.fst_ite {β : Type} {x y : State × β} {c : Prop} {_ : Decidable c} (hx : x.1.Canonical) (hy : y.1.Canonical) :
    (if c then x else y).1.Canonical := by split <;> assumption

theorem State.Canonical.snd_ite {β : Type} {x y : β × State} {c : Prop} {_ : Decidable c} (hx : x.2.Canonical) (hy : y.2.Canonical) :
    (if c then x else y).2.Canonical := by split <;> assumption

theorem State.Canonical.foldl_fst {α β : Type} {f : State × β → α → State × β} {l : List α} {x : State × β} (hx : x.1.Canonical)
    (hf : ∀ x a, x.1.Canonical → (f x a).1.Canonical) : (l.foldl f x).1.Canonical := by
  induction l generalizing x with
  | nil => exact hx
  | cons a l ih => exact ih (hf x a hx)

theorem State.Canonical.fst {β : Type} {s : State} {b : β} (hs : s.Canonical) : (s, b).1.Canonical := hs

theorem State.Canonical.snd {β : Type} {s : State} {b : β} (hs : s.Canonical) : (b, s).2.Canonical := hs

/-- The state of a pair, where the pair is given by its parts. -/
theorem State.Canonical.fst_of_eq {β : Type} {x : State × β} {s : State} {b : β} (hx : x.1.Canonical) (h : x = (s, b)) : s.Canonical := by
  rwa [h] at hx

theorem State.Canonical.snd_of_eq {β : Type} {x : β × State} {s : State} {b : β} (hx : x.2.Canonical) (h : x = (b, s)) : s.Canonical := by
  rwa [h] at hx

/-! The named updates: each keeps the canonical form where what it does to its own block does. -/

theorem State.Canonical.updEng {s : State} {e : EngId} {f : Engine → Engine}
    (hs : s.Canonical) (hf : ∀ g, g.Canonical → (f g).Canonical := by exact fun _ hg => hg.same) :
    (s.updEng e f).Canonical :=
  { hs with eng := forall_getElem_set hs.eng (hf _ (hs.eng e)) }

theorem State.Canonical.updPart {s : State} {p : PartId} {f : Partition → Partition} (hs : s.Canonical)
    (hf : ∀ q, q.Canonical → (f q).Canonical := by exact fun _ hq => hq.same) : (s.updPart p f).Canonical :=
  { hs with part := forall_getElem_set hs.part (hf _ (hs.part p)) }

theorem State.Canonical.updHost {s : State} {f : HostPort → HostPort}
    (hs : s.Canonical) (hf : ∀ h, h.Canonical → (f h).Canonical := by exact fun _ hh => hh.same) :
    (s.updHost f).Canonical := { hs with host := hf _ hs.host }

theorem State.Canonical.updFw {s : State} {f : Firmware → Firmware}
    (hs : s.Canonical) (hf : ∀ x, x.Canonical → (f x).Canonical := by exact fun _ hx => hx.same) :
    (s.updFw f).Canonical := { hs with fw := hf _ hs.fw }

theorem State.Canonical.updSms {s : State} {f : Sms → Sms}
    (hs : s.Canonical) (hf : ∀ m, m.Canonical → (f m).Canonical := by exact fun _ hm => hm.same) :
    (s.updSms f).Canonical := { hs with sms := hf _ hs.sms }

theorem State.Canonical.updWin {s : State} {w : WinId} {f : DWin → DWin}
    (hs : s.Canonical) (hf : ∀ x, x.Canonical → (f x).Canonical := by exact fun _ hx => hx.same) :
    (s.updWin w f).Canonical :=
  hs.updHost fun _ hh => { hh with win := forall_getElem_set hh.win (hf _ (hh.win w)) }

theorem State.Canonical.updBulk {s : State} {a : PartId} {f : Bulk → Bulk}
    (hs : s.Canonical) (hf : ∀ b, b.Canonical → (f b).Canonical := by exact fun _ hb => hb.same) :
    (s.updBulk a f).Canonical :=
  hs.updHost fun _ hh => { hh with bulk := forall_getElem_set hh.bulk (hf _ (hh.bulk a)) }

theorem State.Canonical.updKv {s : State} {p : PartId} {f : KvPool → KvPool} (hs : s.Canonical) : (s.updKv p f).Canonical := hs.updPart
theorem State.Canonical.updMbx {s : State} {m : MbxId} {f : Mailbox → Mailbox} (hs : s.Canonical) : (s.updMbx m f).Canonical := hs.updHost
theorem State.Canonical.updFab {s : State} {f : Fabric → Fabric} (hs : s.Canonical) : (s.updFab f).Canonical := hs.same
theorem State.Canonical.updEnv {s : State} {f : EnvUnit → EnvUnit} (hs : s.Canonical) : (s.updEnv f).Canonical := hs.same
theorem State.Canonical.updSec {s : State} {f : Security → Security} (hs : s.Canonical) : (s.updSec f).Canonical := hs.same
theorem State.Canonical.updTwin {s : State} {f : Twin → Twin} (hs : s.Canonical) : (s.updTwin f).Canonical := hs.same
theorem State.Canonical.updPwr {s : State} {f : Power → Power} (hs : s.Canonical) : (s.updPwr f).Canonical := hs.same
theorem State.Canonical.updVid {s : State} {f : Video → Video} (hs : s.Canonical) : (s.updVid f).Canonical := hs.same
theorem State.Canonical.updBist {s : State} {f : Bist → Bist} (hs : s.Canonical) : (s.updBist f).Canonical := hs.same
theorem State.Canonical.updPort {s : State} {n : LinkId} {f : Port → Port} (hs : s.Canonical) : (s.updPort n f).Canonical := hs.same
theorem State.Canonical.updJob {s : State} {id : Nat} {f : Job → Job} (hs : s.Canonical) : (s.updJob id f).Canonical := hs.same
theorem State.Canonical.updSched {s : State} {n : Nat} {f : Schedule → Schedule} (hs : s.Canonical) : (s.updSched n f).Canonical := hs.same
theorem State.Canonical.updCtx {s : State} {l : Half} {f : Ctx → Ctx} (hs : s.Canonical) : (s.updCtx l f).Canonical := hs.same
theorem State.Canonical.updStream {s : State} {n : Nat} {f : Stream → Stream} (hs : s.Canonical) : (s.updStream n f).Canonical := hs.same
theorem State.Canonical.updCvu {s : State} {u : CvuId} {f : Cvu → Cvu} (hs : s.Canonical) : (s.updCvu u f).Canonical := hs.same
theorem State.Canonical.updEnvelope {s : State} {p : PartId} {n : Half} {f : Envelope → Envelope}
    (hs : s.Canonical) : (s.updEnvelope p n f).Canonical := hs.same

/-- Nothing is listed in any memory after reset. -/
theorem State.canonical_reset : State.reset.Canonical where
  eng := forall_getElem_replicate ⟨rfl, rfl, rfl, rfl⟩
  host := ⟨forall_getElem_replicate ⟨rfl⟩, forall_getElem_replicate ⟨fun _ hf => by cases hf⟩⟩
  part := forall_getElem_set (i := (0 : PartId)) (forall_getElem_replicate ⟨rfl⟩) ⟨rfl⟩
  fw := ⟨rfl⟩
  sms := ⟨rfl⟩

/-- A command that completes, and keeps the memories canonical. -/
inductive Kept : Host.Outcome State Fault Refusal → Prop where
  | next {s : State} (hs : s.Canonical) : Kept (.next s)

theorem Kept.ite {a b : Host.Outcome State Fault Refusal} {c : Prop} {_ : Decidable c} (ha : Kept a) (hb : Kept b) :
    Kept (if c then a else b) := by split <;> assumption

/-- A command's effect that keeps the memories canonical. -/
def Body.Keeps (b : Body) : Prop := ∀ (s : State) (m : MbxId) (own : Option PartId) (r : MbxReq), s.Canonical → (b s m own r).1.Canonical

theorem Partition.Canonical.regionSet {p : Partition} {a : Nat} {v : Byte} (hq : p.Canonical) : (regionSet p a v).Canonical := by
  unfold Machine.regionSet
  split
  · exact ⟨memWf_memSet hq.region _ _⟩
  · exact hq.same

theorem Partition.Canonical.regionWrite {p : Partition} {a : Nat} {bs : List Byte} (hq : p.Canonical) : (regionWrite p a bs).Canonical :=
  .ite ⟨memWf_memWrite hq.region _ _⟩ (hq.foldl fun _ _ hq₁ => hq₁.regionSet)

/-! What `Machine/Ops` defines keeps the memories canonical. -/

theorem State.Canonical.pghSet {s : State} {g v : Nat} (hs : s.Canonical) : (s.pghSet g v).Canonical := hs.updFab

theorem State.Canonical.pghAdd {s : State} {g n at' : Nat} (hs : s.Canonical) : (s.pghAdd g n at').Canonical := by
  unfold State.pghAdd
  exact hs.pghSet.updFab

theorem State.Canonical.twinSend {s : State} {kind : Nat} (hs : s.Canonical) : (s.twinSend kind).Canonical := hs.updTwin

theorem State.Canonical.twinForward {s : State} {kind : Nat} (hs : s.Canonical) : (s.twinForward kind).Canonical := .ite hs.twinSend hs

theorem State.Canonical.forwardAbort {s : State} {p : PartId} {h : Half} (hs : s.Canonical) : (s.forwardAbort p h).Canonical :=
  .ite hs.updTwin.twinSend hs

theorem State.Canonical.leaveStep {s : State} (hs : s.Canonical) : s.leaveStep.Canonical := .ite hs.twinSend.updTwin hs

theorem State.Canonical.fresh {s : State} (hs : s.Canonical) : s.fresh.2.Canonical := .snd hs.same

theorem State.Canonical.draw {s : State} {n : Nat} (hs : s.Canonical) : (s.draw n).2.Canonical := .snd hs.updSec

/-! What `Machine/Cycle` defines keeps the memories canonical. -/

theorem Engine.Canonical.hold {g : Engine} (hg : g.Canonical) : g.hold.Canonical := hg.same

theorem HostPort.Canonical.hold {h : HostPort} (hh : h.Canonical) : h.hold.Canonical :=
  { hh with bulk := forall_getElem_map fun a => (hh.bulk a).same }

theorem State.Canonical.hold {s : State} (hs : s.Canonical) : s.hold.Canonical :=
  ⟨forall_getElem_map fun e => (hs.eng e).hold, hs.host.hold, forall_getElem_map fun p => (hs.part p).same, hs.fw, hs.sms⟩

theorem State.Canonical.moveTo {s : State} {n : Nat} (hs : s.Canonical) : (s.moveTo n).Canonical := .ite hs.hold.withRest hs

/-! What `Machine/Wire` defines keeps the memories canonical. -/

theorem State.Canonical.queueTx {s : State} {port : PortId} {x : TxPkt} (hs : s.Canonical) : (s.queueTx port x).Canonical :=
  .ite hs hs.updPort

theorem State.Canonical.queueBlock {s : State} {port : LinkId} {b : TxBlock} (hs : s.Canonical) : (s.queueBlock port b).Canonical :=
  hs.updPort

theorem State.Canonical.queueRefusal {s : State} {port : PortId} {x : TxPkt} (hs : s.Canonical) : (s.queueRefusal port x).Canonical :=
  .ite hs.updPort hs.queueTx

theorem State.Canonical.respond {s : State} {port : PortId} {c : Ctx} {op : Byte} {p : Packet} {status : Status} {arg : Word}
    {payload : List Byte}
    (hs : s.Canonical) : (s.respond port c op p status arg payload).Canonical := .ite hs hs.queueTx

theorem State.Canonical.refuseOp {s : State} {port : PortId} {c : Ctx} {op : Byte} {p : Packet} {status : Status} {arg : Word}
    (hs : s.Canonical) : (s.refuseOp port c op p status arg).Canonical := hs.queueRefusal

theorem State.Canonical.clearResponse {s : State} {port : PortId} {op : Byte} {p : Packet} {status : Status}
    (hs : s.Canonical) : (s.clearResponse port op p status).Canonical := .ite hs.updPort hs.updPort.queueRefusal

theorem State.Canonical.deadLetter {s : State} {part : PartId} {header : List Byte} {status : Status} {port : Nat} {sent : Bool}
    (hs : s.Canonical) : (s.deadLetter part header status port sent).Canonical := hs.updFab

theorem State.Canonical.returnCredit {s : State} {c : Ctx} {blocks : Nat} (hs : s.Canonical) : (s.returnCredit c blocks).Canonical :=
  hs.queueBlock

theorem State.Canonical.endOutstanding {s : State} {port : PortId} {status : Status}
    (hs : s.Canonical) : (s.endOutstanding port status).Canonical := hs.updFab.foldl fun _ _ hs₁ => hs₁.deadLetter

theorem State.Canonical.portDown {s : State} {port : LinkId} (hs : s.Canonical) : (s.portDown port).Canonical := by
  unfold State.portDown
  split
  · exact hs.updPort.endOutstanding.updFab
  · exact hs.updPort

/-! What `Machine/Admit` defines keeps the memories canonical. -/

theorem State.Canonical.mbxAnswer {s : State} {m : MbxId} {st : Status} {bs : List Byte}
    (hs : s.Canonical) : (s.mbxAnswer m st bs).Canonical := hs.updMbx

theorem State.Canonical.placeJob {s : State} {o : Offer} {finish : Nat} {rel : Option Nat}
    (hs : s.Canonical) : (s.placeJob o finish rel).1.Canonical := .fst (.withRest (hs.foldl fun _ _ hs₁ => hs₁.updEng))

/-- A refusal of admission leaves the state as it is. -/
theorem State.takeJob_inl {s s' : State} {o : Offer} {rel : Option Nat} {x : Status × Nat} (he : s.takeJob o rel = .inl (s', x)) : s' = s := by
  unfold State.takeJob at he
  split at he
  · cases he; rfl
  · dsimp only at he
    split at he
    · cases he; rfl
    · cases he

theorem State.Canonical.takeJob {s s' : State} {o : Offer} {rel : Option Nat} {id : Nat} (hs : s.Canonical)
    (he : s.takeJob o rel = .inr (s', id)) : s'.Canonical := by
  unfold State.takeJob at he
  split at he
  · cases he
  · dsimp only at he
    split at he
    · cases he
    · cases he; exact hs.placeJob

theorem State.Canonical.pghNotify {s : State} {p : PartId} {n add at' : Nat} (hs : s.Canonical) : (s.pghNotify p n add at').Canonical := by
  unfold State.pghNotify
  split
  · exact hs
  · split
    · exact hs.pghAdd
    · split
      · exact hs
      · split
        · rename_i he; rw [State.takeJob_inl he]; exact hs
        · rename_i he; exact hs.takeJob he

/-! What `Machine/CvuUnits` defines keeps the memories canonical. -/

theorem State.Canonical.cvuNote {s : State} {st : Status} (hs : s.Canonical) : (s.cvuNote st).Canonical := hs.same

theorem State.Canonical.cvuDone {s : State} {u : CvuId} {j : CvuJob} {st : Status} {bytes raw : Nat}
    (hs : s.Canonical) : (s.cvuDone u j st bytes raw).Canonical := by
  unfold State.cvuDone
  refine .ite (.ite hs.cvuNote.cvuNote (hs.cvuNote.updPart fun _ hq => hq.regionWrite)) ?_
  exact .pghNotify (.ite hs.cvuNote.cvuNote (hs.cvuNote.updPart fun _ hq => hq.regionWrite))

theorem State.Canonical.cvuFlush {s : State} {u : CvuId} {st : Status} (hs : s.Canonical) : (s.cvuFlush u st).1.Canonical :=
  .fst (hs.same.foldl fun _ _ hs₁ => hs₁.cvuDone)

/-! What `Machine/Flags` defines keeps the memories canonical. -/

theorem Engine.Canonical.landArith {g : Engine} {flags : BitVec 8} {sats : Nat} (hg : g.Canonical) : (g.landArith flags sats).Canonical :=
  hg.same

theorem Engine.Canonical.noteCheck {g : Engine} {mechs : List Nat} {at' : Nat} (hg : g.Canonical) : (g.noteCheck mechs at').Canonical :=
  hg.same

theorem Engine.Canonical.takePort {g : Engine} {c : Nat} (hg : g.Canonical) : (g.takePort c).Canonical := hg.same

/-! What `Machine/KvPages` defines keeps the memories canonical. -/

theorem State.Canonical.freePage {s : State} {p : PartId} {e : EngId} {f : Nat} (hs : s.Canonical) : (s.freePage p e f).Canonical := by
  unfold State.freePage
  exact .updKv (hs.updEng fun _ hg => { hg with store := memWf_formatPage hg.store _ _ _ _ })

theorem State.Canonical.dropAlloc {s : State} {j : Job} (hs : s.Canonical) : (s.dropAlloc j).Canonical :=
  hs.foldl fun _ _ hs₁ => hs₁.freePage

theorem State.Canonical.freezeSeqs {s : State} {p : PartId} {reason : Nat} {sel : KvSeq → Bool}
    (hs : s.Canonical) : (s.freezeSeqs p reason sel).Canonical := hs.updKv

/-! What `Machine/VidCore` defines keeps the memories canonical. -/

theorem State.Canonical.vidEvent {s : State} {i : Nat} (hs : s.Canonical) : (s.vidEvent i).Canonical := hs.updVid

theorem State.Canonical.vidPut {s : State} {v : Stream} {off : Nat} {bs : List Byte} (hs : s.Canonical) : (s.vidPut v off bs).Canonical :=
  .ite hs (hs.updPart fun _ hq => hq.regionWrite)

theorem State.Canonical.vidHeader {s : State} {n : Nat} (hs : s.Canonical) : (s.vidHeader n).Canonical := by
  unfold State.vidHeader
  split
  · exact hs
  · exact hs.vidPut

theorem State.Canonical.pghTake {s : State} {p : PartId} {n k : Nat} (hs : s.Canonical) : (s.pghTake p n k).Canonical := by
  unfold State.pghTake
  split
  · exact hs
  · exact hs.pghSet

theorem State.Canonical.vidMark {s : State} {n k : Nat} {m : Byte} (hs : s.Canonical) : (s.vidMark n k m).Canonical := by
  unfold State.vidMark
  split
  · exact hs
  · exact hs.updStream.vidPut

theorem State.Canonical.vidEntry {s : State} {v : Stream} {q : Picture} {st : Status} {at' : Nat}
    (hs : s.Canonical) : (s.vidEntry v q st at').Canonical := hs.vidPut

theorem State.Canonical.dropPicture {s : State} {n : Nat} {st : Status} (hs : s.Canonical) : (s.dropPicture n st).Canonical := by
  unfold State.dropPicture
  split
  · exact hs
  · split
    · exact hs
    · exact hs.updStream.vidEntry

theorem State.Canonical.encodeEnd {s : State} {n : Nat} {st : Status} {off len : Nat} {idr : Bool}
    (hs : s.Canonical) : (s.encodeEnd n st off len idr).Canonical := by
  unfold State.encodeEnd
  split
  · exact hs
  · exact hs.vidPut.vidPut.updStream.vidHeader.pghNotify

theorem State.Canonical.endPicture {s : State} {n : Nat} {st : Status} (hs : s.Canonical) : (s.endPicture n st).Canonical := by
  unfold State.endPicture
  split
  · exact hs
  · exact .ite (.ite hs.encodeEnd hs) hs.dropPicture

theorem State.Canonical.endPictures {s : State} {u : VidId} {st : Status} (hs : s.Canonical) : (s.endPictures u st).1.Canonical :=
  .fst (.updVid (hs.foldl fun _ _ hs₁ => hs₁.endPicture))

theorem State.Canonical.resetStreams {s : State} {u : VidId} (hs : s.Canonical) : (s.resetStreams u).Canonical :=
  hs.foldl fun _ _ hs₁ => .vidHeader (.updStream (hs₁.foldl fun _ _ hs₂ => hs₂.vidMark))

/-! What `Machine/Hist` defines keeps the memories canonical. -/

theorem State.Canonical.idleEng {s : State} {e : EngId} {at' : Nat} (hs : s.Canonical) : (s.idleEng e at').Canonical := .ite hs.updEng hs

theorem State.Canonical.endEarly {s : State} {id : Nat} {st : Status} {failed : Option EngId}
    (hs : s.Canonical) : (s.endEarly id st failed).Canonical := by
  unfold State.endEarly
  split
  · exact hs
  · split
    · exact .ite hs.updJob hs
    · exact hs.updJob.foldl fun _ _ hs₁ => hs₁.idleEng

theorem State.Canonical.endAll {s : State} {ids : List Nat} {st : Status} (hs : s.Canonical) : (s.endAll ids st).Canonical :=
  hs.foldl fun _ _ hs₁ => hs₁.endEarly

theorem State.Canonical.recordMiss {s : State} {j : Job} {at' : Nat} (hs : s.Canonical) : (s.recordMiss j at').Canonical := by
  unfold State.recordMiss
  split
  · refine .ite hs.updEng.fresh.twinSend (.ite (.ite hs.updEng.updPwr hs.updEng) ?_)
    split
    · split
      · exact .ite hs.updEng.updPwr hs.updEng
      · exact .queueTx (.updFab (.fresh (.ite hs.updEng.updPwr hs.updEng)))
    · exact .pghNotify (.ite hs.updEng.updPwr hs.updEng)
  · exact hs

theorem State.Canonical.doom {s : State} {p : PartId} {h : Half} {st : Status} (hs : s.Canonical) : (s.doom p h st).Canonical := by
  unfold State.doom
  exact hs.updEnvelope.updEnv

theorem State.Canonical.doomNamed {s : State} {p : Option PartId} {h : Half} {st : Status}
    (hs : s.Canonical) : (s.doomNamed p h st).Canonical := by
  unfold State.doomNamed
  split
  · exact hs
  · exact .ite hs.doom hs

theorem State.Canonical.answerAsker {s : State} {a : Option EnvAsker} {st : Status} {bs : List Byte}
    (hs : s.Canonical) : (s.answerAsker a st bs).Canonical := by
  unfold State.answerAsker
  split
  · exact hs
  · exact hs.mbxAnswer
  · split
    · exact hs
    · exact hs.respond

theorem State.Canonical.answerAbort {s : State} {p : PartId} {h : Half} {a : EnvAsker} {st : Status}
    (hs : s.Canonical) : (s.answerAbort p h a st).Canonical := by
  unfold State.answerAbort
  split
  · exact hs.mbxAnswer
  · refine .ite hs.updTwin ?_
    split
    · exact hs
    · exact .ite hs.respond hs.refuseOp

theorem State.Canonical.answerAborters {s : State} {p : PartId} {h : Half} {reason : Nat} {askers : List EnvAsker}
    (hs : s.Canonical) : (s.answerAborters p h reason askers).Canonical := by
  unfold State.answerAborters
  split
  · exact hs
  · exact hs.answerAbort.foldl fun _ _ hs₁ => hs₁.answerAbort

theorem State.Canonical.abortNow {s : State} {p : PartId} {h : Half} {reason : Nat} {askers : List EnvAsker}
    (hs : s.Canonical) : (s.abortNow p h reason askers).Canonical := by
  unfold State.abortNow
  split
  · exact hs
  · exact .answerAborters (.answerAsker (.ite hs.updEnv.forwardAbort hs.updEnv))

theorem State.Canonical.abortEnv {s : State} {p : PartId} {h : Half} {reason : Nat} {asker : Option EnvAsker}
    (hs : s.Canonical) : (s.abortEnv p h reason asker).Canonical := by
  unfold State.abortEnv
  split
  · exact hs
  · exact .ite hs.updEnvelope hs.abortNow

theorem State.Canonical.finishAborts {s : State} {t : Nat} (hs : s.Canonical) : (s.finishAborts t).Canonical := by
  unfold State.finishAborts
  refine hs.foldl fun s v hs₁ => ?_
  split
  · exact hs₁
  · exact .ite hs₁.abortNow hs₁

theorem State.Canonical.abortEnvs {s : State} {sel : Envelope → Bool} {reason : Nat}
    (hs : s.Canonical) : (s.abortEnvs sel reason).Canonical := hs.foldl fun _ _ hs₁ => hs₁.abortEnv

theorem State.Canonical.recordF {s : State} {r : HistRec} (hs : s.Canonical) : (s.recordF r).Canonical := hs.same

theorem State.Canonical.recordEvent {s : State} {r : HistRec} (hs : s.Canonical) : (s.recordEvent r).1.Canonical := by
  unfold State.recordEvent
  refine .fst_ite (.fst hs.same) ?_
  split
  · exact .fst hs.same
  · exact .fst hs.same

theorem State.Canonical.fenceEngine {s : State} {e : EngId} {unit : Nat} {base : HistRec}
    (hs : s.Canonical) : (s.fenceEngine e unit base).Canonical := by
  unfold State.fenceEngine
  dsimp only
  refine .ite hs ?_
  split
  · exact hs.updEng.recordF.twinForward.abortEnvs
  · exact .updEnv (.abortEnvs (.updKv (.freezeSeqs (.withRest (hs.updEng.recordF.twinForward.abortEnvs.endAll.endAll.foldl
    fun _ _ hs₁ => .ite hs₁.updEng hs₁)))))

theorem State.Canonical.fenceUnit {s : State} {unit : Nat} (hs : s.Canonical) : (s.fenceUnit unit).Canonical := by
  unfold State.fenceUnit
  refine .ite ?_ (.ite ?_ (.ite ?_ hs.same))
  · split
    · exact hs.same.endPictures
    · exact hs.same
  · split
    · exact hs.same.cvuFlush
    · exact hs.same
  · split
    · exact hs.same.endOutstanding.updPort
    · exact hs.same.updPort.leaveStep

theorem State.Canonical.classify {s : State} {r : HistRec} (hs : s.Canonical) : (s.classify r).Canonical := by
  unfold State.classify
  dsimp only
  split
  · exact .ite hs.same.updEng (.ite hs.same.updEng.fenceEngine.leaveStep hs.same.updEng.updEng.recordF)
  · exact .ite hs.same (.ite hs.same.withRest.recordF.recordF.fenceUnit hs.same.withRest.recordF)

theorem State.Canonical.event {s : State} {unit opClass mech : Nat} {st : Status} {j : Option Job} {bundle : Nat} {detail : Word} {dc : Byte}
    (hs : s.Canonical) : (s.event unit opClass mech st j bundle detail dc).Canonical := hs.recordEvent.classify

theorem State.Canonical.storeUe {s : State} {e : EngId} {row : Nat} {j : Option Job} {bundle : Nat}
    (hs : s.Canonical) : (s.storeUe e row j bundle).Canonical := .ite hs.updEng.event hs.updEng

theorem State.Canonical.actUe {s : State} {e : EngId} {addr : Nat} {j : Option Job} {bundle : Nat}
    (hs : s.Canonical) : (s.actUe e addr j bundle).Canonical := .ite hs.updEng.event hs.updEng

/-! What `Machine/Reset` defines keeps the memories canonical. -/

theorem State.Canonical.rewriteStatus {s : State} (hs : s.Canonical) : s.rewriteStatus.Canonical := .ite hs hs.updPwr

theorem Engine.Canonical.zeroDomain {g : Engine} {d : Nat} (hg : g.Canonical) : (g.zeroDomain d).Canonical :=
  .ite (.ite hg ({ hg with act := memWf_filter hg.act _ })) ({ hg with store := memWf_filter hg.store _ })

theorem Sms.Canonical.unpowered {m : Sms} (hm : m.Canonical) : m.unpowered.Canonical := hm.same

theorem Sms.Canonical.restarted {m : Sms} (hm : m.Canonical) : m.restarted.Canonical := hm.same

theorem Firmware.Canonical.unpowered {f : Firmware} (hx : f.Canonical) : f.unpowered.Canonical := hx.same

theorem Engine.Canonical.unpowered {g : Engine} (_hg : g.Canonical) : g.unpowered.Canonical := ⟨rfl, rfl, rfl, rfl⟩

theorem State.Canonical.wiped {s : State} {pwr : Power} {sms : Sms} (hs : s.Canonical) (hm : sms.Canonical) : (s.wiped pwr sms).Canonical where
  eng := forall_getElem_map fun e => (hs.eng e).unpowered
  host := State.canonical_reset.host
  part := State.canonical_reset.part
  fw := hs.fw.unpowered
  sms := hm

theorem State.Canonical.cutPower {s : State} {latched : Bool} (hs : s.Canonical) : (s.cutPower latched).Canonical :=
  .ite hs.updPwr (hs.wiped hs.sms.unpowered)

theorem State.Canonical.restart {s : State} (hs : s.Canonical) : s.restart.Canonical := (hs.wiped hs.sms.restarted).withRest

theorem State.Canonical.passEject {s : State} (hs : s.Canonical) : s.passEject.Canonical := by
  unfold State.passEject
  split
  · exact hs
  · exact .ite hs.cutPower (.ite hs.updPwr hs)

/-! What `Machine/SelfTest` defines keeps the memories canonical. -/

theorem State.Canonical.countByte {s : State} {n : Nat} (hs : s.Canonical) : (s.countByte n).2.Canonical := .snd_ite hs (.snd hs.fresh)

theorem State.Canonical.katFinish {s : State} {k : KatRun} (hs : s.Canonical) : (s.katFinish k).Canonical :=
  hs.updBist.countByte.countByte.mbxAnswer

theorem State.Canonical.katNext {s : State} {m : MbxId} {t0 : Nat} (hs : s.Canonical) : (s.katNext m t0).Canonical := by
  unfold State.katNext
  split
  · exact hs
  · split
    · exact hs.katFinish
    · dsimp only
      split
      · exact hs.updBist.mbxAnswer
      · split
        · rename_i he; rw [State.takeJob_inl he]; exact hs.updBist.mbxAnswer
        · rename_i he; exact (hs.takeJob he).updBist

theorem State.Canonical.katEnded {s : State} {m : MbxId} {i : Nat} {st : Status} {at' : Nat}
    (hs : s.Canonical) : (s.katEnded m i st at').Canonical := by
  unfold State.katEnded
  split
  · exact hs
  · exact .katNext (.updEng (.updBist (.ite hs.event hs)))

theorem State.Canonical.sweepPoint {s : State} {w : Sweep} {p : SweepPoint} (hs : s.Canonical) : (s.sweepPoint w p).Canonical :=
  .ite hs (hs.foldl fun _ _ hs₁ => hs₁.event)

theorem State.Canonical.setSupply {s : State} {e : EngId} {vdd : Nat} {fast : Bool}
    (hs : s.Canonical) : (s.setSupply e vdd fast).Canonical := hs.updEng

theorem State.Canonical.sweepOn {s : State} {m : MbxId} {n : Nat} (hs : s.Canonical) : (s.sweepOn m n).Canonical := by
  induction n generalizing s with
  | zero => exact hs
  | succ n ih =>
    unfold State.sweepOn
    split
    · exact hs
    · dsimp only
      split
      · exact hs.updBist.setSupply.mbxAnswer
      · split
        · exact hs
        · exact ih hs.updBist.setSupply
      · split
        · exact hs
        · refine ih ?_
          split
          · exact hs.sweepPoint.updBist
          · exact hs.sweepPoint.updBist.setSupply

theorem State.Canonical.passSweeps {s : State} (hs : s.Canonical) : s.passSweeps.Canonical := hs.foldl fun _ _ hs₁ => hs₁.sweepOn

theorem State.Canonical.endTests {s : State} {sel : PartId → Bool} {st : Status} (hs : s.Canonical) : (s.endTests sel st).Canonical :=
  .foldl (hs.updBist.foldl fun _ _ hs₁ => hs₁.mbxAnswer) fun _ _ hs₁ => hs₁.setSupply.mbxAnswer

theorem Engine.Canonical.dropSlice {g : Engine} (hg : g.Canonical) : g.dropSlice.Canonical := hg.same

/-! What `Machine/Landing` defines keeps the memories canonical. -/

theorem Engine.Canonical.sidePut {g : Engine} {now : Nat} {cs : List Host.Cell} (hg : g.Canonical) : (g.sidePut now cs).Canonical :=
  { hg with act := memWf_memPut hg.act _ }

theorem State.Canonical.sideWrite {s : State} {e : EngId} {a : Nat} {bs : List Byte} {f : Flt} (hs : s.Canonical) :
    (s.sideWrite e a bs f).1.Canonical := by
  unfold State.sideWrite
  dsimp only
  refine .updEng ?_ fun _ hg => { hg with act := memWf_memPut hg.act _ }
  split
  · exact .ite hs hs.updEng
  · exact hs.actUe

theorem State.Canonical.msgSeq {s : State} {p : PartId} {lane epoch : Nat} (hs : s.Canonical) : (s.msgSeq p lane epoch).2.Canonical :=
  .snd hs.updPart

theorem DWin.Canonical.store {w : DWin} {a : Nat} {bs : List Byte} (hw : w.Canonical) : (w.store a bs).Canonical :=
  ⟨memWf_memWrite hw.rows _ _⟩

theorem DWin.Canonical.unready {w : DWin} {rs : List Nat} {until' : Option Nat} (hw : w.Canonical) : (w.unready rs until').Canonical :=
  hw.same

theorem DWin.Canonical.ready {w : DWin} {rs : List Nat} (hw : w.Canonical) : (w.ready rs).Canonical := hw.same

theorem State.Canonical.jobRow {s : State} {w : WinId} {row : Nat} {st : Status} {tag : Word} {postmark predicted entry seen : Nat}
    (hs : s.Canonical) : (s.jobRow w row st tag postmark predicted entry seen).Canonical := by
  unfold State.jobRow
  dsimp only
  split
  · exact hs.msgSeq.updWin fun _ hw => hw.store.unready
  · exact hs.updWin fun _ hw => hw.store.unready

theorem State.Canonical.emitMessage {s : State} {j : Job} {r : RouteEntry} {w : Win} {c : Ctx} {note : Bool} {seq : Nat} {bs : List Byte}
    (hs : s.Canonical) : (s.emitMessage j r w c note seq bs).Canonical := hs.foldl fun _ _ hs₁ => .ite hs₁.updFab.updTwin hs₁.updFab.queueTx

theorem State.Canonical.noteDigest {s : State} {p : PartId} {seq : Nat} {bs : List Byte}
    (hs : s.Canonical) : (s.noteDigest p seq bs).Canonical := by
  unfold State.noteDigest
  refine .ite hs.updTwin (.ite hs ?_)
  split
  · exact hs.updTwin
  · exact .ite hs.updTwin hs.updTwin.leaveStep

theorem State.Canonical.grant {s : State} {dest : Nat} {mask : Dword} {d n : Nat} (hs : s.Canonical) : (s.grant dest mask d n).2.Canonical :=
  .snd hs.updFab

theorem State.Canonical.landBeat {s : State} {e : EngId} {j : Job} {d route : Nat} {last note : Bool} {bs : List Byte}
    (hs : s.Canonical) : (s.landBeat e j d route last note bs).Canonical := by
  unfold State.landBeat
  extract_lets +onlyGivenNames r old sent payload note' keep done doneRow
  have hkeep : ∀ (s : State) (n : Nat), s.Canonical → (keep s n).Canonical := fun _ _ hs => hs.updEng
  have hdone : ∀ (s : State) (c : Nat), s.Canonical → (done s c).Canonical := fun _ _ hs => hs.updJob
  have hrow : ∀ (s : State) (c : Nat), s.Canonical → (doneRow s c).Canonical := fun _ _ hs => hs.updJob.updJob
  split
  · split
    · exact hs.endEarly
    · split
      · exact hs.endEarly
      · extract_lets +onlyGivenNames seq s₁ s₂ held s₃
        have h₂ : s₂.Canonical := hkeep _ _ (.ite hs.updPart hs)
        have h₃ : s₃.Canonical := h₂.noteDigest
        split
        · exact h₂
        · split
          · exact h₃.endEarly
          · exact .ite (hdone _ _ h₃.emitMessage) h₃.emitMessage.updJob
  · split
    · extract_lets +onlyGivenNames w
      split
      · exact hkeep _ _ hs
      · extract_lets +onlyGivenNames s₁
        have h₁ : s₁.Canonical := hkeep _ _ hs
        split
        rename_i c s₂ he
        have h₂ : s₂.Canonical := h₁.grant.snd_of_eq he
        extract_lets +onlyGivenNames seen a rows
        split
        · exact .ite (hrow _ _ (.updWin (h₂.updWin fun _ hw => hw.store) fun _ hw => hw.unready))
            (.updWin (h₂.updWin fun _ hw => hw.store) fun _ hw => hw.unready)
        · split
          · exact h₂.updWin fun _ hw => hw.unready
          · exact .updJob (hrow _ _ (h₂.msgSeq.updWin fun _ hw => ⟨memWf_memWrite (memWf_memWrite hw.rows _ _) _ _⟩))
    · exact hkeep _ _ hs
  · split
    · exact hkeep _ _ hs
    · exact .updEng (.ite (hkeep _ _ hs).grant.updJob (hkeep _ _ hs).grant)
  · exact hkeep _ _ hs

theorem Engine.Canonical.unitWrite {g : Engine} {d : Nat} {vec : Bool} {cs : List Host.Cell}
    (hg : g.Canonical) : (g.unitWrite d vec cs).Canonical := { hg with act := memWf_memPut hg.act _ }

theorem Engine.Canonical.setTile {g : Engine} {b : Bool} {t : TileReg} (hg : g.Canonical) : (g.setTile b t).Canonical :=
  .ite hg.same hg.same

theorem Engine.Canonical.land {g : Engine} {d : Nat} {vec : Bool} {eff : LandEff} (hg : g.Canonical) : (g.land d vec eff).Canonical := by
  unfold Engine.land
  split
  · exact hg.same
  · exact hg.unitWrite
  · exact hg.setTile
  · exact hg.setTile
  · exact hg.same
  · exact { hg with params := memWf_memPut hg.params _ }
  · exact hg.same
  · exact hg.same
  · exact hg.landArith
  · exact hg

theorem Engine.Canonical.zeroLines {g : Engine} {z : Nat} (hg : g.Canonical) : (g.zeroLines z).Canonical :=
  { hg with act := memWf_foldl hg.act fun _ _ hm => memWf_memZero hm _ _ }

theorem State.Canonical.kvLost {s : State} {e : EngId} {j : Job} {row : Nat} (hs : s.Canonical) : (s.kvLost e j row).Canonical := by
  unfold State.kvLost
  refine .ite hs (.ite ?_ hs.freezeSeqs)
  split
  · exact hs
  · exact hs.freezeSeqs

theorem State.Canonical.landFail {s : State} {e : EngId} {id : Nat} {ev : FailEvent} (hs : s.Canonical) : (s.landFail e id ev).Canonical := by
  unfold State.landFail
  refine .ite (.ite hs.leaveStep.endEarly.actUe ?_) (.event (.endEarly ?_))
  · split
    · exact hs.leaveStep.endEarly.storeUe.kvLost
    · exact hs.leaveStep.endEarly.storeUe
  · split
    · exact .updEng (hs.leaveStep.updEng fun _ hg => hg.noteCheck) fun _ hg => hg.zeroLines
    · exact hs.leaveStep.updEng fun _ hg => hg.noteCheck

theorem State.Canonical.arrived {s : State} {id : Nat} {t : EngId} {a : Nat} {bs : List Byte} {last : Bool} {p : PartId}
    {notify : Option Nat} {d : Nat}
    (hs : s.Canonical) : (s.arrived id t a bs last p notify d).Canonical := by
  unfold State.arrived
  refine .ite (.updJob ?_) ?_
  · split
    · exact hs.sideWrite
    · exact hs.sideWrite.pghNotify
  · split
    · exact hs.sideWrite
    · exact hs.sideWrite.pghNotify

/-! What `Machine/VecCore` defines keeps the memories canonical. -/

theorem State.Canonical.badOp {s : State} {j : Job} (hs : s.Canonical) : (s.badOp j).Canonical := hs.endEarly

theorem State.Canonical.failAt {s : State} {e : EngId} {j : Job} {due : Nat} {ev : FailEvent}
    (hs : s.Canonical) : (s.failAt e j due ev).Canonical := .ite hs.landFail hs.updEng

theorem State.Canonical.pend {s : State} {e : EngId} {j : Job} {vec : Bool} {l : List (Nat × LandEff)}
    (hs : s.Canonical) : (s.pend e j vec l).Canonical := hs.foldl fun _ _ hs₁ => .ite (hs₁.updEng fun _ hg => hg.land) hs₁.updEng

theorem State.Canonical.corrected {s : State} {e : EngId} {act : Bool} {n : Nat} (hs : s.Canonical) : (s.corrected e act n).Canonical :=
  hs.updEng

theorem State.Canonical.vecFinish {s : State} {e : EngId} {j : Job} {o : VecOpen} (hs : s.Canonical) : (s.vecFinish e j o).Canonical := by
  unfold State.vecFinish
  refine .ite hs.badOp ?_
  split
  · exact hs.corrected.updEng.failAt
  · exact .ite hs.corrected.updEng.failAt (.ite hs.corrected.updEng.pend.failAt hs.corrected.updEng.pend)

theorem State.Canonical.vecStep {s : State} {e : EngId} {j : Job} {o : VecOpen} (hs : s.Canonical) : (s.vecStep e j o).Canonical := by
  unfold State.vecStep
  dsimp only
  split
  · exact hs.failAt
  · exact .ite hs.vecFinish hs.pend

/-! What `Machine/Land` defines keeps the memories canonical. -/

theorem State.Canonical.land {s : State} {e : EngId} {l : Landing} (hs : s.Canonical) : (s.land e l).Canonical := by
  unfold State.land
  extract_lets s₁ dropped
  have h₁ : s₁.Canonical := hs.moveTo
  refine .ite h₁ ?_
  split
  · split
    · exact h₁.landBeat
    · exact h₁
  · exact h₁.arrived
  · split
    · exact h₁.pghNotify
    · exact h₁
  · split
    · exact h₁.vecStep
    · exact h₁
  · exact h₁.landFail
  · exact h₁.updEng fun _ hg => hg.land

theorem State.Canonical.settle {s : State} {t : Nat} (hs : s.Canonical) : (s.settle t).Canonical :=
  .foldl (hs.foldl fun _ _ hs₁ => hs₁.updEng) fun _ _ hs₁ => hs₁.land

theorem State.Canonical.settleUpTo {n t : Nat} {s : State} (hs : s.Canonical) : (State.settleUpTo n t s).Canonical := by
  induction n generalizing s with
  | zero => exact hs.settle
  | succ n ih =>
    unfold State.settleUpTo
    split
    · exact hs
    · exact ih hs.settle

theorem State.Canonical.report {s : State} {j : Job} {at' : Nat} (hs : s.Canonical) : (s.report j at').Canonical := by
  unfold State.report
  split
  · exact hs.jobRow
  · exact hs.katEnded
  · exact hs

theorem Engine.Canonical.forget {g : Engine} {id : Nat} {early : Option Nat} (hg : g.Canonical) : (g.forget id early).Canonical := by
  unfold Engine.forget
  split
  · exact .ite hg.same hg.same
  · exact .ite hg.same (.ite hg.same hg.same)

theorem State.Canonical.putKept {s s' : State} {j : Job} {es : List EngId} {logical : Option Nat} {addr : Nat} (hs : s.Canonical)
    (he : s.putKept j es logical addr = some s') : s'.Canonical := by
  unfold State.putKept at he
  split at he
  · cases he; exact hs.updPart fun _ hq => hq.regionWrite
  · obtain ⟨t, -, rfl⟩ := Option.map_eq_some_iff.1 he
    exact hs.sideWrite

theorem State.Canonical.rerun {s s' : State} {j : Job} {c : Nat} (hs : s.Canonical) (he : s.rerun j c = some s') : s'.Canonical := by
  unfold State.rerun at he
  split at he
  · split at he
    · cases he
    · dsimp only at he
      split at he
      · cases he
      · rename_i hput
        split at he
        · cases he
        · rename_i htake
          have h := (hs.putKept hput).takeJob htake
          split at he
          · cases he; exact h
          · cases he; exact h.updEng
  · cases he

theorem State.Canonical.returnUnsent {s : State} {j : Job} (hs : s.Canonical) : (s.returnUnsent j).Canonical := by
  unfold State.returnUnsent
  refine .ite hs (hs.foldl fun s e hs₁ => hs₁.foldl fun s x hs₂ => .ite hs₂ ?_)
  split
  · exact hs₂
  · exact hs₂.updCtx

theorem State.Canonical.closeEarly {s : State} {j : Job} {c : Nat} (hs : s.Canonical) : (s.closeEarly j c).Canonical := by
  unfold State.closeEarly
  dsimp only
  split
  · rename_i w he
    exact (.rerun (.withRest (.dropAlloc (hs.returnUnsent.foldl fun _ _ hs₁ => hs₁.updEng fun _ hg => hg.forget))) he)
  · refine .report (.ite ?_ ?_)
    · exact .recordMiss (.withRest (.dropAlloc (hs.returnUnsent.foldl fun _ _ hs₁ => hs₁.updEng fun _ hg => hg.forget)))
    · exact .withRest (.dropAlloc (hs.returnUnsent.foldl fun _ _ hs₁ => hs₁.updEng fun _ hg => hg.forget))

theorem State.Canonical.kvAppend {s : State} {j : Job} (hs : s.Canonical) : (s.kvAppend j).Canonical := by
  unfold State.kvAppend
  split
  · exact hs
  · refine .ite (.updJob (.updKv (.dropAlloc (hs.updJob.foldl fun _ _ hs₁ => hs₁.updEng)))) ?_
    refine .ite (.dropAlloc (hs.updJob.foldl fun _ _ hs₁ => hs₁.updEng)) ?_
    exact .updKv (hs.updJob.foldl fun _ _ hs₁ => hs₁.updEng)

theorem State.Canonical.leaveEnded {s : State} {j : Job} (hs : s.Canonical) : (s.leaveEnded j).Canonical :=
  hs.foldl fun _ _ hs₁ => hs₁.updJob.idleEng.updEng fun _ hg => .ite hg.same hg

theorem State.Canonical.passJob {s : State} {id : Nat} (hs : s.Canonical) : (s.passJob id).Canonical := by
  unfold State.passJob
  split
  · exact hs
  · split
    · exact .ite hs.closeEarly hs
    · exact .ite hs.leaveEnded.kvAppend hs.leaveEnded

theorem State.Canonical.dropDisarmed {s : State} (hs : s.Canonical) : s.dropDisarmed.Canonical := hs.same

theorem State.Canonical.advance {s : State} {t : Nat} (hs : s.Canonical) : (s.advance t).Canonical :=
  .passEject (.passSweeps (.dropDisarmed (hs.rewriteStatus.finishAborts.settleUpTo.moveTo.foldl fun _ _ hs₁ => hs₁.passJob)))

/-! What `Machine/Operands` defines keeps the memories canonical. -/

theorem State.Canonical.engineOp {s : State} {t : Nat} {e : EngId} {f : Flt} {k : State → Job → State}
    (hs : s.Canonical) (hk : ∀ s j, s.Canonical → (k s j).Canonical) : (s.engineOp t e f k).Canonical := by
  unfold State.engineOp
  dsimp only
  split
  · exact hs.advance
  · exact hk _ _ (.ite (.landFail (.ite hs.advance.landFail hs.advance)) (.ite hs.advance.landFail hs.advance))

theorem State.Canonical.vecOp {s : State} {t : Nat} {e : EngId} {op : Nat} {v : VecSlot} {f : Flt}
    (hs : s.Canonical) : (s.vecOp t e op v f).Canonical := by
  unfold State.vecOp
  dsimp only
  refine hs.engineOp fun s j hs₁ => ?_
  split
  · exact hs₁.badOp
  · exact .ite hs₁.badOp (.vecStep (.updEng (.snd_ite hs₁.fresh hs₁)))

/-! What `Machine/BulkArea` defines keeps the memories canonical. -/

theorem Bulk.Canonical.frame? {b : Bulk} {page : Nat} {f : Frame} (hb : b.Canonical) (he : b.frame? page = some f) : f.Canonical :=
  hb.frames f (List.mem_of_find?_eq_some he)

theorem Bulk.Canonical.put {b : Bulk} {f : Frame} (hb : b.Canonical) (hf : f.Canonical) : (b.put f).Canonical where
  frames g hg := by
    rcases List.mem_cons.1 hg with rfl | hg
    · exact hf
    · exact hb.frames g (List.mem_of_mem_filter hg)

theorem Bulk.Canonical.room {b b' : Bulk} (hb : b.Canonical) (he : b.room = some b') : b'.Canonical := by
  unfold Bulk.room at he
  split at he
  · cases he; exact hb
  · obtain ⟨f, -, rfl⟩ := Option.map_eq_some_iff.1 he
    exact ⟨fun g hg => hb.frames g (List.mem_of_mem_filter hg)⟩

theorem Frame.Canonical.fetched {f : Frame} {bs : List Byte} (_hf : f.Canonical) : (f.fetched bs).Canonical := ⟨memWf_memWrite rfl _ _⟩

theorem State.Canonical.writeBack {s : State} {a : PartId} {f : Frame} (hs : s.Canonical) (hf : f.Canonical) : (s.writeBack a f).Canonical :=
  (hs.updPart fun _ hq => hq.regionWrite).updBulk fun _ hb => hb.put hf.same

theorem oldestDirty_mem {l : List Frame} {f : Frame} (he : oldestDirty l = some f) : f ∈ l := by
  induction l with
  | nil => cases he
  | cons g l ih =>
    unfold oldestDirty at he
    split at he
    · split at he
      · cases he; exact List.mem_cons_self
      · cases he
    · rename_i hl
      split at he
      · cases he; exact List.mem_cons_self
      · cases he; exact List.mem_cons_of_mem _ (ih hl)

theorem State.Canonical.residePage {s : State} {a : PartId} {page : Nat} (hs : s.Canonical) : (s.residePage a page).Canonical := by
  unfold State.residePage
  split
  · rename_i w he
    exact hs.updBulk fun _ hb => hb.put ((hs.host.bulk _).frame? he).same
  · split
    · exact hs
    · rename_i w he
      exact hs.updBulk fun _ _ => ((hs.host.bulk _).room he).put ⟨memWf_memWrite rfl _ _⟩

theorem State.Canonical.bulkRead {s : State} {a : PartId} {b n : Nat} (hs : s.Canonical) : (s.bulkRead a b n).1.Canonical :=
  .foldl_fst hs fun _ _ hx => hx.residePage

theorem Frame.Canonical.written {f : Frame} {off now : Nat} {bs : List Byte} (hf : f.Canonical) : (f.written off now bs).Canonical :=
  ⟨memWf_memWrite hf.bytes _ _⟩

theorem State.Canonical.bulkPut {s : State} {a : PartId} {page off : Nat} {bs : List Byte}
    (hs : s.Canonical) : (s.bulkPut a page off bs).Canonical := by
  unfold State.bulkPut
  dsimp only
  split
  · exact hs.residePage.updPart fun _ hq => hq.regionWrite
  · rename_i w he
    exact hs.residePage.updBulk fun _ hb => hb.put ((hs.residePage.host.bulk _).frame? he).written

theorem State.Canonical.bulkWrite {s : State} {a : PartId} {b : Nat} {bs : List Byte} (hs : s.Canonical) : (s.bulkWrite a b bs).Canonical :=
  hs.foldl fun _ _ hs₁ => hs₁.bulkPut

theorem State.Canonical.takeSeq {s : State} {p : PartId} {lane epoch seq : Nat}
    (hs : s.Canonical) : (s.takeSeq p lane epoch seq).Canonical := hs.updPart

theorem State.Canonical.openRecords {s : State} {p : PartId} {page : Nat} {prev : Option Nat} {k n : Nat} (hs : s.Canonical) :
    (s.openRecords p page prev k n).1.Canonical := by
  induction k generalizing s page prev n with
  | zero => exact hs
  | succ k ih =>
    unfold State.openRecords
    split
    rename_i s₁ bs he
    have h₁ : s₁.Canonical := hs.bulkRead.fst_of_eq he
    refine .fst_ite h₁ ?_
    split
    · exact h₁
    · refine .fst_ite h₁.takeSeq (.fst_ite h₁.takeSeq ?_)
      split
      rename_i he
      exact (ih h₁.takeSeq).fst_of_eq he

theorem State.Canonical.sourceBytes {s : State} {addr n : Nat} (hs : s.Canonical) : (s.sourceBytes addr n).1.Canonical := by
  unfold State.sourceBytes
  split
  · exact hs
  · refine .fst_ite ?_ (.fst_ite hs ?_)
    · split
      · exact hs
      · exact .fst hs.bulkRead
    · split
      · rename_i w he
        exact (hs.openRecords.fst_of_eq he)
      · rename_i w _ he
        exact (hs.openRecords.fst_of_eq he)

theorem State.Canonical.sealRecords {s : State} {p : PartId} {b k : Nat} {bs : List Byte} (hs : s.Canonical) :
    (s.sealRecords p b k bs).Canonical := by
  induction k generalizing s b bs with
  | zero => exact hs
  | succ k ih =>
    unfold State.sealRecords
    exact .ite hs (ih hs.msgSeq.bulkWrite)

/-! What `Machine/EngineMove` defines keeps the memories canonical. -/

theorem State.Canonical.takeBlocks {s : State} {c : Ctx} {n : Nat} (hs : s.Canonical) : (s.takeBlocks c n).Canonical := .ite hs hs.updCtx

theorem State.Canonical.sendBeat {s : State} {e : EngId} {j : Job} {line len route : Nat} {last note : Bool} {f : Flt}
    (hs : s.Canonical) : (s.sendBeat e j line len route last note f).Canonical := by
  unfold State.sendBeat
  dsimp only
  split
  · exact hs.badOp
  · refine .ite hs.badOp (.ite ?_ ?_)
    · split
      · exact hs.failAt
      · exact .ite hs.corrected.updEng.failAt hs.corrected.updEng.updEng
    · split
      · exact hs.endEarly
      · refine .ite ?_ (.ite ?_ (.ite hs.endEarly hs.updEng))
        · split
          · exact hs.updEng.failAt
          · exact .ite hs.updEng.corrected.updEng.failAt hs.updEng.corrected.updEng.updEng
        · split
          · exact hs.takeBlocks.failAt
          · exact .ite hs.takeBlocks.corrected.updEng.failAt hs.takeBlocks.corrected.updEng.updEng

theorem execOut_kept {t : Nat} {e : EngId} {line len route : Nat} {last : Bool} {f : Flt} {s : State}
    (hs : s.Canonical) : Kept (execOut t e line len route last f s) := .next (hs.engineOp fun _ _ hs₁ => hs₁.sendBeat)

theorem execOutn_kept {t : Nat} {e : EngId} {line len route : Nat} {last : Bool} {f : Flt} {s : State}
    (hs : s.Canonical) : Kept (execOutn t e line len route last f s) := .next (hs.engineOp fun _ _ hs₁ => hs₁.sendBeat)

theorem State.Canonical.startXfer {s : State} {e : EngId} {j : Job} {line route : Nat} {isRead : Bool}
    (hs : s.Canonical) : (s.startXfer e j line route isRead).Canonical := by
  unfold State.startXfer
  split
  · exact hs.badOp
  · refine .ite hs.badOp ?_
    split
    · exact hs.endEarly
    · exact .ite hs.badOp (.ite hs.endEarly hs.same.updEng)

theorem execLdr_kept {t : Nat} {e : EngId} {line route : Nat} {f : Flt} {s : State} (hs : s.Canonical) : Kept (execLdr t e line route f s) :=
  .next (hs.engineOp fun _ _ hs₁ => hs₁.startXfer)

theorem execLdw_kept {t : Nat} {e : EngId} {line route : Nat} {f : Flt} {s : State} (hs : s.Canonical) : Kept (execLdw t e line route f s) :=
  .next (hs.engineOp fun _ _ hs₁ => hs₁.startXfer)

/-! What `Machine/KvWalk` defines keeps the memories canonical. -/

theorem State.Canonical.purgeSlots {s : State} {p : PartId} (hs : s.Canonical) : (s.purgeSlots p).Canonical := hs.updKv

theorem State.Canonical.refill {s : State} {p : PartId} {e : EngId} (hs : s.Canonical) : (s.refill p e).Canonical := by
  unfold State.refill
  refine .ite hs.purgeSlots ?_
  split
  · exact hs.purgeSlots.updKv
  · exact hs.purgeSlots

theorem State.Canonical.captureWalk {s : State} {c : Schedule} {j : Job} (hs : s.Canonical) : (s.captureWalk c j).Canonical := by
  unfold State.captureWalk
  refine .ite hs (.ite hs.updJob.updJob (.ite hs.updJob.updJob (.ite hs.updJob.updJob (.ite hs.updJob ?_))))
  split
  · exact hs.updJob.updKv.updJob.updKv
  · exact hs.updJob.updKv.updJob

theorem State.Canonical.walkStart {s : State} {e : EngId} (hs : s.Canonical) : (s.walkStart e).Canonical := by
  unfold State.walkStart
  dsimp only
  refine .ite hs ?_
  split
  · exact hs
  · refine .ite hs ?_
    split
    · exact hs.captureWalk
    · exact .ite hs.captureWalk.updEng (hs.captureWalk.updEng.foldl fun _ _ hs₁ => hs₁.refill)

theorem execKvWalkStart_kept {t : Nat} {e : EngId} {s : State} (hs : s.Canonical) : Kept (execKvWalkStart t e s) :=
  .next hs.advance.walkStart

theorem execKvDescriptorEmit_kept {t : Nat} {e : EngId} {s : State} (hs : s.Canonical) : Kept (execKvDescriptorEmit t e s) := by
  unfold Machine.execKvDescriptorEmit
  dsimp only
  refine .next ?_
  split
  · exact hs.advance
  · split
    · refine .ite hs.advance ?_
      split
      · exact hs.advance.updEng
      · exact hs.advance.updEng.pghNotify
    · exact hs.advance

theorem execKvPrefetch_kept {t : Nat} {e : EngId} {s : State} (hs : s.Canonical) : Kept (execKvPrefetch t e s) := by
  unfold Machine.execKvPrefetch
  refine .next ?_
  split
  · exact hs.advance
  · split
    · refine .ite hs.advance ?_
      exact .ite hs.advance.endEarly (hs.advance.updEng fun _ hg => { hg with store := memWf_memWrite hg.store _ _ })
    · exact hs.advance

theorem State.Canonical.dropSpill {s : State} {p : PartId} {e : EngId} {f slot at' : Nat}
    (hs : s.Canonical) : (s.dropSpill p e f slot at').Canonical := hs.updKv

theorem execKvSpillDone_kept {t : Nat} {e : EngId} {f' : Flt} {s : State} (hs : s.Canonical) : Kept (execKvSpillDone t e f' s) := by
  unfold Machine.execKvSpillDone
  dsimp only
  refine .next ?_
  split
  · exact hs.advance
  · split
    · exact hs.advance
    · refine .ite hs.advance (.ite hs.advance.dropSpill (.ite hs.advance.dropSpill.refill ?_))
      split
      · exact hs.advance.storeUe.dropSpill
      · exact .refill (.freePage (.withRest (.updKv (.updPart (hs.advance.corrected.updEng fun _ hg => hg.takePort)
        fun _ hq => hq.regionWrite))))

theorem execKvPageReturn_kept {t : Nat} {e : EngId} {page : Nat} {s : State} (hs : s.Canonical) : Kept (execKvPageReturn t e page s) := by
  unfold Machine.execKvPageReturn
  refine .next ?_
  split
  · exact hs.advance
  · split
    · exact .ite hs.advance.purgeSlots hs.advance.purgeSlots.freePage
    · exact hs.advance

/-! What `Machine/EngineCtl` defines keeps the memories canonical. -/

theorem State.Canonical.freeWait {s : State} {e : EngId} {g count issued : Nat}
    (hs : s.Canonical) : (s.freeWait e g count issued).Canonical := by
  unfold State.freeWait
  exact hs.pghSet.twinForward.updEng

theorem State.Canonical.tryWait {s : State} {e : EngId} {j : Job} {n count issued limit : Nat}
    (hs : s.Canonical) : (s.tryWait e j n count issued limit).Canonical := by
  unfold State.tryWait
  split
  · exact .ite hs.endEarly hs
  · exact .ite hs.freeWait (.ite hs.endEarly hs.updEng)

theorem execWait_kept {t : Nat} {e : EngId} {handle count : Nat} {f : Flt} {s : State}
    (hs : s.Canonical) : Kept (execWait t e handle count f s) := by
  unfold Machine.execWait
  refine .next (hs.engineOp fun s j hs₁ => ?_)
  split
  · exact hs₁.badOp
  · exact .ite hs₁.badOp hs₁.tryWait

theorem execNote_kept {t : Nat} {e : EngId} {handle count : Nat} {f : Flt} {s : State}
    (hs : s.Canonical) : Kept (execNote t e handle count f s) := by
  unfold Machine.execNote
  refine .next (hs.engineOp fun s j hs₁ => ?_)
  split
  · exact hs₁.badOp
  · exact .ite hs₁.badOp hs₁.updEng

theorem execWaitl_kept {t : Nat} {e : EngId} {f : Flt} {s : State} (hs : s.Canonical) : Kept (execWaitl t e f s) :=
  .next (hs.engineOp fun _ _ hs₁ => .ite hs₁.updEng.updEng (.ite hs₁.updEng.endEarly hs₁.updEng.updEng))

theorem execWaitRelease_kept {t : Nat} {e : EngId} {s : State} (hs : s.Canonical) : Kept (execWaitRelease t e s) := by
  unfold Machine.execWaitRelease
  refine .next ?_
  split
  · exact hs.advance.tryWait
  · exact hs.advance

theorem State.Canonical.mirrorRelease {s : State} {e : EngId} (hs : s.Canonical) : (s.mirrorRelease e).Canonical := by
  unfold State.mirrorRelease
  split
  · split
    · exact hs
    · exact hs.freeWait
  · exact hs.updEng
  · exact hs

theorem execWaitlRelease_kept {t : Nat} {e : EngId} {s : State} (hs : s.Canonical) : Kept (execWaitlRelease t e s) := by
  unfold Machine.execWaitlRelease
  refine .next ?_
  split
  · exact .ite hs.advance.endEarly (.ite hs.advance.updEng hs.advance)
  · exact hs.advance

theorem State.Canonical.freeEgress {s : State} {e : EngId} {link route bytes : Nat}
    (hs : s.Canonical) : (s.freeEgress e link route bytes).Canonical := by
  unfold State.freeEgress
  refine .updEng (.twinForward ?_)
  split
  · exact hs
  · exact hs.takeBlocks

theorem execEgressCreditRelease_kept {t : Nat} {e : EngId} {s : State} (hs : s.Canonical) : Kept (execEgressCreditRelease t e s) := by
  unfold Machine.execEgressCreditRelease
  refine .next ?_
  split
  · exact .ite hs.advance.endEarly (.ite hs.advance.freeEgress hs.advance)
  · exact hs.advance

theorem execWaitTimeout_kept {t : Nat} {e : EngId} {s : State} (hs : s.Canonical) : Kept (execWaitTimeout t e s) := by
  unfold Machine.execWaitTimeout
  refine .next ?_
  split
  · exact .ite hs.advance hs.advance.tryWait
  · exact .ite hs.advance (.ite hs.advance.updEng hs.advance.endEarly)
  · exact .ite hs.advance (.ite hs.advance.freeEgress hs.advance.endEarly)
  · exact hs.advance

theorem execLoop_kept {t : Nat} {e : EngId} {arg : Nat} {f : Flt} {s : State} (hs : s.Canonical) : Kept (execLoop t e arg f s) := by
  unfold Machine.execLoop
  refine .next (hs.engineOp fun s j hs₁ => ?_)
  split
  · exact hs₁.badOp
  · exact hs₁.updEng

theorem Engine.Canonical.undefine {g : Engine} {n : Nat} (hg : g.Canonical) : (g.undefine n).Canonical := hg.same

theorem execTest_kept {t : Nat} {e : EngId} {arg : Nat} {f : Flt} {s : State} (hs : s.Canonical) : Kept (execTest t e arg f s) := by
  unfold Machine.execTest
  refine .next (hs.engineOp fun s j hs₁ => ?_)
  split
  · exact hs₁.badOp
  · exact hs₁.same.updEng

theorem execEndJob_kept {t : Nat} {e : EngId} {f : Flt} {s : State} (hs : s.Canonical) : Kept (execEndJob t e f s) :=
  .next (hs.engineOp fun _ _ hs₁ => .ite hs₁ hs₁.updJob)

theorem State.Canonical.failPreload {s : State} {e : EngId} {j : Job} (hs : s.Canonical) : (s.failPreload e j).Canonical := by
  unfold State.failPreload
  split
  · exact hs
  · exact hs.failAt

theorem execJobStart_kept {t : Nat} {e : EngId} {s : State} (hs : s.Canonical) : Kept (execJobStart t e s) := by
  unfold Machine.execJobStart
  refine .next ?_
  split
  · exact hs.advance
  · split
    · exact hs.advance
    · refine .ite hs.advance (.ite (.updKv (.endEarly (hs.advance.foldl fun _ _ hs₁ => hs₁.walkStart))) ?_)
      refine .ite (.updKv (.endEarly (hs.advance.foldl fun _ _ hs₁ => hs₁.walkStart))) ?_
      exact .foldl (.foldl (.updJob (hs.advance.foldl fun _ _ hs₁ => hs₁.walkStart)) fun _ _ hs₁ => hs₁.fresh.updEng)
        fun _ _ hs₁ => hs₁.failPreload

theorem State.Canonical.markOutputs {s : State} {j : Job} (hs : s.Canonical) : (s.markOutputs j).Canonical := by
  unfold State.markOutputs
  exact hs.updFab

theorem State.Canonical.miss {s : State} {j : Job} {at' : Nat} (hs : s.Canonical) : (s.miss j at').Canonical :=
  hs.updJob.markOutputs.recordMiss

theorem State.Canonical.noteSeal {s : State} {j : Job} (hs : s.Canonical) : (s.noteSeal j).Canonical := by
  unfold State.noteSeal
  refine hs.updPart fun p hq => ?_
  split
  · exact hq
  · exact .ite hq.same hq

theorem State.Canonical.complete {s : State} {j : Job} (hs : s.Canonical) : (s.complete j).Canonical :=
  .report (.noteSeal (.withRest (.foldl (.ite (.updKv (.ite hs.miss hs)) (.ite hs.miss hs)) fun _ _ hs₁ => hs₁.updEng fun _ hg => hg.forget)))

theorem execJobCompletion_kept {t job : Nat} {s : State} (hs : s.Canonical) : Kept (execJobCompletion t job s) := by
  unfold Machine.execJobCompletion
  refine .next ?_
  split
  · exact hs.advance
  · exact .ite hs.advance.complete hs.advance

theorem execDeadlineMiss_kept {t job : Nat} {s : State} (hs : s.Canonical) : Kept (execDeadlineMiss t job s) := by
  unfold Machine.execDeadlineMiss
  refine .next ?_
  split
  · exact hs.advance
  · exact .ite hs.advance hs.advance.miss

theorem execSafeStopMinExpiry_kept {t : Nat} {src : StopSrc} {s : State} (hs : s.Canonical) : Kept (execSafeStopMinExpiry t src s) := by
  unfold Machine.execSafeStopMinExpiry
  refine .next ?_
  split
  · exact hs.advance.updPwr
  · exact hs.advance.updTwin
  · exact .ite hs.advance hs.advance.updPwr

theorem State.Canonical.ends {s : State} {st : Status} (hs : s.Canonical) : (ends s st).1.Canonical := hs

theorem State.Canonical.gives {s : State} {bs : List Byte} (hs : s.Canonical) : (gives s bs).1.Canonical := hs

/-! What `Machine/MbxCore` defines keeps the memories canonical. -/

theorem State.Canonical.runBody {s : State} {m : MbxId} {own : Option PartId} {op : Nat} {r : MbxReq} {known mirror : Bool} {body : Body}
    (hs : s.Canonical) (hbody : body.Keeps) : (s.runBody m own op r known mirror body).1.Canonical := by
  unfold State.runBody
  split
  · exact hs.doomNamed.ends
  · exact .fst (.ite ((hbody _ _ _ _ hs).twinForward) (hbody _ _ _ _ hs))

theorem State.Canonical.fenceAhead {s : State} {m : MbxId} {op : Nat} {r : MbxReq} (hs : s.Canonical) : (s.fenceAhead m op r).Canonical := by
  unfold State.fenceAhead
  refine .ite ?_ (.ite hs.updFab ?_)
  · split
    · exact hs.updWin
    · exact hs
  · split
    · exact hs
    · exact hs.updHost

theorem State.Canonical.unfence {s : State} {m : MbxId} (hs : s.Canonical) : (s.unfence m).Canonical := by
  unfold State.unfence
  exact hs.updFab.updHost fun _ hh => { hh with win := forall_getElem_map fun w => .ite (hh.win w).same (hh.win w) }

theorem State.Canonical.startCmd {s : State} {m : MbxId} {op : Nat} {r : MbxReq} {body : Body}
    (hs : s.Canonical) (hbody : body.Keeps) : (s.startCmd m op r body).Canonical := by
  unfold State.startCmd
  dsimp only
  split
  · exact hs.updMbx.runBody hbody
  · exact ((hs.updMbx.runBody hbody).unfence).mbxAnswer

theorem State.Canonical.ring {s : State} {t op : Nat} {r : MbxReq} {body : Body} (hs : s.Canonical) (hbody : body.Keeps) :
    (s.ring t op r body).Canonical := by
  unfold State.ring
  extract_lets +onlyGivenNames s₁ m
  have h₁ : s₁.Canonical := hs.advance
  refine .ite h₁ (.ite h₁.updHost ?_)
  extract_lets +onlyGivenNames s₂ b
  have h₂ : s₂.Canonical := h₁.updMbx
  refine .ite h₂ (.ite h₂.updHost ?_)
  extract_lets c s₃ s₄
  have h₄ : s₄.Canonical := h₂.updMbx.updHost
  exact .ite (h₄.startCmd hbody) h₄.fenceAhead

theorem State.Canonical.deliver {s : State} {m : MbxId} (hs : s.Canonical) : (s.deliver m).Canonical := by
  unfold State.deliver
  split
  · exact hs
  · split
    · exact hs
    · refine .updHost (.updMbx (.ite hs ?_))
      split
      · exact hs.bulkWrite
      · exact hs.sealRecords
      · exact hs

theorem bodyEcho_keeps : bodyEcho.Keeps := fun _ _ _ _ hs => .fst_ite hs.ends hs.gives

theorem execEcho_kept {t : Nat} {r : MbxReq} {s : State} (hs : s.Canonical) : Kept (execEcho t r s) := .next (hs.ring bodyEcho_keeps)

/-! What `Machine/EnvCore` defines keeps the memories canonical. -/

theorem State.Canonical.addItem {s s' : State} {p : PartId} {h : Half} {i : EnvItem} {bytes : Nat} (hs : s.Canonical)
    (he : s.addItem p h i bytes = .ok s') : s'.Canonical := by
  unfold State.addItem at he
  split at he
  · cases he
  · dsimp only at he
    obtain ⟨_, he⟩ | ⟨_, he⟩ := ite_eq_iff.mp he
    · cases he
    · obtain ⟨_, he⟩ | ⟨_, he⟩ := ite_eq_iff.mp he
      · cases he
      · cases he
        exact hs.updEnvelope

theorem State.Canonical.openEnv {s s' : State} {p : PartId} {opener : Option Nat} {lifetime : Nat} {h : Half} (hs : s.Canonical)
    (he : s.openEnv p opener lifetime = .ok (s', h)) : s'.Canonical := by
  unfold State.openEnv at he
  obtain ⟨_, he⟩ | ⟨_, he⟩ := ite_eq_iff.mp he
  · cases he
  · cases he
    exact hs.updEnv

theorem State.Canonical.limitEvent {s : State} (hs : s.Canonical) : s.limitEvent.Canonical := hs.updEnv

theorem State.Canonical.askCommit {s s' : State} {p : PartId} {h : Half} {opener : Option Nat} {a : EnvAsker} (hs : s.Canonical)
    (he : s.askCommit p h opener a = .ok s') : s'.Canonical := by
  unfold State.askCommit at he
  split at he
  · split at he
    · cases he
    · split at he
      · cases he
      · split at he
        · cases he
          exact hs.updEnvelope
        · cases he
          exact .updEnvelope (.ite hs.twinSend hs)
  · split at he <;> cases he

theorem State.Canonical.askAbort {s s' : State} {p : PartId} {h : Half} {opener : Option Nat} {a : EnvAsker} (hs : s.Canonical)
    (he : s.askAbort p h opener a = .ok s') : s'.Canonical := by
  unfold State.askAbort at he
  split at he
  · split at he
    · cases he
    · cases he
      exact hs.abortEnv
  · split at he <;> cases he

theorem bodyEnvOpen_keeps : bodyEnvOpen.Keeps := by
  intro s m own r hs
  unfold bodyEnvOpen
  split
  · exact hs.ends
  · refine .fst_ite hs.ends ?_
    split
    · exact hs.limitEvent.ends
    · rename_i he
      exact (hs.openEnv he).gives

theorem execEnvOpen_kept {t : Nat} {r : MbxReq} {s : State} (hs : s.Canonical) : Kept (execEnvOpen t r s) :=
  .next (hs.ring bodyEnvOpen_keeps)

theorem bodyEnvCommit_keeps : bodyEnvCommit.Keeps := by
  intro s m own r hs
  unfold bodyEnvCommit
  split
  · exact hs.ends
  · refine .fst_ite hs.ends ?_
    split
    · exact hs.ends
    · rename_i he
      exact hs.askCommit he

theorem execEnvCommit_kept {t : Nat} {r : MbxReq} {s : State} (hs : s.Canonical) : Kept (execEnvCommit t r s) :=
  .next (hs.ring bodyEnvCommit_keeps)

theorem bodyEnvAbort_keeps : bodyEnvAbort.Keeps := by
  intro s m own r hs
  unfold bodyEnvAbort
  split
  · exact hs.ends
  · refine .fst_ite hs.ends ?_
    split
    · exact hs.ends
    · rename_i he
      exact hs.askAbort he

theorem execEnvAbort_kept {t : Nat} {r : MbxReq} {s : State} (hs : s.Canonical) : Kept (execEnvAbort t r s) :=
  .next (hs.ring bodyEnvAbort_keeps)

theorem bodyEnvStatus_keeps : bodyEnvStatus.Keeps := by
  intro s m own r hs
  unfold Machine.bodyEnvStatus
  split
  · exact hs.ends
  · exact .fst_ite hs.ends hs.gives

theorem execEnvStatus_kept {t : Nat} {r : MbxReq} {s : State} (hs : s.Canonical) : Kept (execEnvStatus t r s) :=
  .next (hs.ring bodyEnvStatus_keeps)

theorem execEnvLifetimeExpiry_kept {t : Nat} {p : PartId} {h : Half} {s : State} (hs : s.Canonical) : Kept (execEnvLifetimeExpiry t p h s) := by
  unfold Machine.execEnvLifetimeExpiry
  refine .next ?_
  split
  · exact .ite hs.advance.abortEnv hs.advance
  · exact hs.advance

/-! What `Machine/HostCmds` defines keeps the memories canonical. -/

theorem bodyDwinBind_keeps : bodyDwinBind.Keeps := by
  intro s m own r hs
  unfold Machine.bodyDwinBind
  split
  · split
    · exact hs.ends
    · exact .fst_ite hs.ends (.fst_ite hs.ends (.fst_ite hs.ends (.fst_ite hs.ends (.gives (hs.updWin fun _ _ => ⟨rfl⟩)))))
  · exact hs.ends

theorem execDwinBind_kept {t : Nat} {r : MbxReq} {s : State} (hs : s.Canonical) : Kept (execDwinBind t r s) :=
  .next (hs.ring bodyDwinBind_keeps)

theorem DWin.Canonical.unbind {x : DWin} (_hw : x.Canonical) : x.unbind.Canonical := ⟨rfl⟩

theorem bodyDwinRelease_keeps : bodyDwinRelease.Keeps := by
  intro s m own r hs
  unfold Machine.bodyDwinRelease
  split
  · exact .fst_ite hs.ends (.fst_ite (.fst hs.updWin) (.gives (hs.updWin fun _ hw => hw.unbind)))
  · exact hs.ends

theorem execDwinRelease_kept {t : Nat} {r : MbxReq} {s : State} (hs : s.Canonical) : Kept (execDwinRelease t r s) :=
  .next (hs.ring bodyDwinRelease_keeps)

theorem State.Canonical.pollRelease {s : State} {m : MbxId} (hs : s.Canonical) : (s.pollRelease m).Canonical :=
  hs.foldl fun _ _ hs₁ => .ite (.mbxAnswer (hs₁.updWin fun _ hw => hw.unbind)) hs₁

theorem State.Canonical.spareRow {s : State} {e : EngId} {row : Nat} (hs : s.Canonical) : (s.spareRow e row).Canonical :=
  .ite hs (.ite hs.fenceEngine hs.updEng)

theorem State.Canonical.writeRow {s : State} {e : EngId} {row : Nat} {bs : List Byte} (hs : s.Canonical) : (s.writeRow e row bs).Canonical := by
  unfold State.writeRow
  refine .ite hs.same.spareRow ?_
  exact hs.same.spareRow.updEng fun _ hg => { hg with store := memWf_memWrite hg.store _ _, rowBuf := memWf_memWrite rfl _ _ }

theorem State.Canonical.writeRows {s : State} {e : EngId} {row n : Nat} {bs : List Byte} (hs : s.Canonical) :
    (s.writeRows e row n bs).Canonical := by
  induction n generalizing s row bs with
  | zero => exact hs
  | succ n ih => exact .ite hs.writeRow (ih hs.writeRow)

theorem State.Canonical.sealBad {s : State} {st : Status} (hs : s.Canonical) : (s.sealBad st).Canonical := .ite hs.updSec hs

theorem State.Canonical.modelLoad {s : State} {r : MbxReq} (hs : s.Canonical) : (s.modelLoad r).1.Canonical := by
  unfold State.modelLoad
  dsimp only
  split
  · exact hs.ends
  · split
    · rename_i w _ he
      exact (hs.sourceBytes.fst_of_eq he).sealBad.ends
    · rename_i w _ he
      have hs₁ := hs.sourceBytes.fst_of_eq he
      exact .fst_ite hs₁.sideWrite.gives (.fst_ite hs₁.writeRows.ends hs₁.writeRows.gives)

theorem Engine.Canonical.scrub {g : Engine} (hg : g.Canonical) : g.scrub.Canonical := { hg with params := rfl }

theorem Engine.Canonical.preload {g : Engine} {m : Image} (hg : g.Canonical) : (g.preload m).Canonical :=
  .ite (.ite hg hg.setTile) (.setTile (.ite hg hg.setTile))

theorem State.Canonical.loadPreloads {s : State} {e : EngId} (hs : s.Canonical) : (s.loadPreloads e).Canonical := by
  unfold State.loadPreloads
  split
  · exact hs
  · refine hs.foldl fun s c hs₁ => ?_
    split
    · exact hs₁
    · exact hs₁.updEng fun _ hg => hg.preload

theorem State.Canonical.dropHeld {s : State} {c : Ctx} {sel : HeldPkt → Bool} (hs : s.Canonical) : (s.dropHeld c sel).Canonical :=
  hs.updCtx.foldl fun _ _ hs₁ => .ite hs₁ hs₁.respond

theorem State.Canonical.discard {s : State} {f : FuncId} (hs : s.Canonical) : (s.discard f).1.Canonical := by
  unfold State.discard
  split
  · exact .fst (.loadPreloads (.updEng (hs.endAll.foldl fun _ _ hs₁ => hs₁.updEng) fun _ hg => hg.scrub))
  · exact .fst hs.endPictures.resetStreams
  · exact .fst (.withRest (hs.cvuFlush.foldl fun _ _ hs₁ => hs₁.updEng))
  · exact .fst (hs.endOutstanding.portDown.updPort.foldl fun _ _ hs₁ => hs₁.dropHeld)
  · split
    · exact hs
    · exact .fst (.updCtx (.updCtx (.ite hs.endAll.abortEnvs.dropHeld hs.endAll.abortEnvs.dropHeld.returnCredit)))
  · exact .fst (.updKv (hs.endAll.foldl fun _ _ hs₁ => .ite hs₁.updEng hs₁))

theorem State.Canonical.fence {s : State} {f : FuncId} {m : MbxId} {isClose : Bool} (hs : s.Canonical) : (s.fence f m isClose).Canonical := by
  unfold State.fence
  exact hs.unfence.updHost

theorem bodyFuncReset_keeps : bodyFuncReset.Keeps := by
  intro s m own r hs
  unfold Machine.bodyFuncReset
  refine .fst_ite hs.ends ?_
  split
  · exact hs.ends
  · exact .fst_ite hs.ends (.fst hs.fence)

theorem execFuncReset_kept {t : Nat} {r : MbxReq} {s : State} (hs : s.Canonical) : Kept (execFuncReset t r s) :=
  .next (hs.ring bodyFuncReset_keeps)

theorem State.Canonical.closeCtx {s : State} {p : PartId} {n : Nat} (hs : s.Canonical) : (s.closeCtx p n).Canonical := by
  unfold State.closeCtx
  split
  · exact hs
  · exact .ite hs.updFab hs.updFab.updPort

theorem execFuncResetQuiesce_kept {t : Nat} {fn : FuncId} {s : State} (hs : s.Canonical) : Kept (execFuncResetQuiesce t fn s) := by
  unfold Machine.execFuncResetQuiesce
  dsimp only
  refine .next ?_
  split
  · exact hs.advance
  · refine .ite hs.advance (.ite ?_ hs.advance.discard.updHost.mbxAnswer)
    split
    · exact hs.advance.discard.updHost.closeCtx.mbxAnswer
    · exact hs.advance.discard.updHost.mbxAnswer

/-! What `Machine/ArmCmds` defines keeps the memories canonical. -/

theorem State.Canonical.preloadAll {s : State} {p : PartId} (hs : s.Canonical) : (s.preloadAll p).Canonical :=
  hs.foldl fun _ _ hs₁ => .ite hs₁.loadPreloads hs₁

theorem State.Canonical.armPackage {s : State} {r : MbxReq} (hs : s.Canonical) : (s.armPackage r).1.Canonical := by
  unfold State.armPackage
  refine .fst_ite hs ?_
  split
  · exact .fst_ite hs (.fst_ite hs hs.sourceBytes)
  · exact hs

theorem State.Canonical.pollDisarm {s : State} {m : MbxId} {r : MbxReq} (hs : s.Canonical) : (s.pollDisarm m r).Canonical := by
  unfold State.pollDisarm
  split
  · exact hs.mbxAnswer
  · exact .ite hs hs.mbxAnswer

theorem bodyKvBind_keeps : bodyKvBind.Keeps := by
  intro s m own r hs
  unfold Machine.bodyKvBind
  split
  · exact hs.ends
  · refine .fst_ite hs.ends ?_
    split
    · exact hs.ends
    · exact .fst_ite hs.ends hs.updSched.gives

theorem execKvBind_kept {t : Nat} {r : MbxReq} {s : State} (hs : s.Canonical) : Kept (execKvBind t r s) := .next (hs.ring bodyKvBind_keeps)

/-! What `Machine/CkptCmds` defines keeps the memories canonical. -/

theorem bodyHistoryRead_keeps : bodyHistoryRead.Keeps := fun _ _ _ _ hs => .fst_ite hs.ends hs.gives

theorem execHistoryRead_kept {t : Nat} {r : MbxReq} {s : State} (hs : s.Canonical) : Kept (execHistoryRead t r s) :=
  .next (hs.ring bodyHistoryRead_keeps)

theorem execHistoryProgram_kept {t : Nat} {s : State} (hs : s.Canonical) : Kept (execHistoryProgram t s) := .next hs.advance.withRest

theorem bodyCkptConfig_keeps : bodyCkptConfig.Keeps := by
  intro s m own r hs
  unfold Machine.bodyCkptConfig
  split
  · exact hs.ends
  · exact .fst_ite hs.ends hs.updPart.gives

theorem execCkptConfig_kept {t : Nat} {r : MbxReq} {s : State} (hs : s.Canonical) : Kept (execCkptConfig t r s) :=
  .next (hs.ring bodyCkptConfig_keeps)

theorem State.Canonical.regain {s : State} {p : PartId} {header : List Byte} (hs : s.Canonical) : (s.regain p header).Canonical :=
  .ite hs hs.updTwin.updPart

theorem bodyCkptRestore_keeps : bodyCkptRestore.Keeps := by
  intro s m own r hs
  unfold Machine.bodyCkptRestore
  split
  · exact hs.ends
  · split
    · exact hs.ends
    · refine .fst_ite hs.ends (.fst_ite hs.ends ?_)
      split
      · exact hs.ends
      · exact .fst_ite hs.ends (.gives (.updPart (.ite hs (.regain (hs.updPart fun _ hq => hq.regionWrite)))))

theorem execCkptRestore_kept {t : Nat} {r : MbxReq} {s : State} (hs : s.Canonical) : Kept (execCkptRestore t r s) :=
  .next (hs.ring bodyCkptRestore_keeps)

theorem execCheckpointSeal_kept {t : Nat} {p : PartId} {s : State} (hs : s.Canonical) : Kept (execCheckpointSeal t p s) := by
  unfold Machine.execCheckpointSeal
  refine .next ?_
  split
  · exact hs.advance
  · split
    · exact hs.advance
    · exact .ite hs.advance (.ite hs.advance.updPart (.updPart (hs.advance.updPart fun _ hq => hq.regionWrite)))

theorem State.Canonical.queuePuts {s : State} {c : Ctx} {w : Win} {l : List (Nat × List Byte)}
    (hs : s.Canonical) : (s.queuePuts c w l).Canonical := hs.foldl fun _ _ hs₁ => hs₁.updFab.queueTx

theorem execCheckpointMirror_kept {t : Nat} {p : PartId} {s : State} (hs : s.Canonical) : Kept (execCheckpointMirror t p s) := by
  unfold Machine.execCheckpointMirror
  refine .next ?_
  split
  · exact hs.advance
  · split
    · split
      · exact hs.advance
      · exact .ite hs.advance (.ite hs.advance.updPart (.ite hs.advance hs.advance.queuePuts.updPart))
    · exact hs.advance

/-! What `Machine/CvuCmds` defines keeps the memories canonical. -/

theorem bodyCvuSubmit_keeps : bodyCvuSubmit.Keeps := by
  intro s m own r hs
  unfold Machine.bodyCvuSubmit
  dsimp only
  split
  · exact hs.ends
  · refine .fst_ite hs.ends (.fst_ite hs.ends (.fst_ite hs.ends (.fst_ite hs.ends ?_)))
    split
    · exact hs.ends
    · exact hs.same.gives

theorem execCvuSubmit_kept {t : Nat} {r : MbxReq} {s : State} (hs : s.Canonical) : Kept (execCvuSubmit t r s) :=
  .next (hs.ring bodyCvuSubmit_keeps)

theorem State.Canonical.noteReading {s : State} {x : EngId × Nat × Dword} (hs : s.Canonical) : (s.noteReading x).Canonical :=
  hs.updEng fun _ hg => .ite hg hg.same

theorem execCvuSlot_kept {t : Nat} {u : CvuId} {s : State} (hs : s.Canonical) : Kept (execCvuSlot t u s) := by
  unfold Machine.execCvuSlot
  refine .next (.ite hs.advance ?_)
  exact .ite hs.advance.updCvu (.withRest (hs.advance.updCvu.foldl fun _ _ hs₁ => hs₁.noteReading))

theorem execCvuJobStart_kept {t : Nat} {u : CvuId} {s : State} (hs : s.Canonical) : Kept (execCvuJobStart t u s) := by
  unfold Machine.execCvuJobStart
  refine .next ?_
  split
  · exact .ite hs.advance hs.advance.updCvu
  · exact hs.advance

theorem State.Canonical.cvuUe {s : State} {j : CvuJob} {a : Nat} (hs : s.Canonical) : (s.cvuUe j a).Canonical := by
  unfold State.cvuUe
  split
  · split
    · exact hs.actUe
    · exact hs
  · exact hs.event
  · exact hs

theorem execCvuJobEnd_kept {t : Nat} {u : CvuId} {f : Flt} {s : State} (hs : s.Canonical) : Kept (execCvuJobEnd t u f s) := by
  unfold Machine.execCvuJobEnd
  refine .next ?_
  split
  · exact hs.advance
  · refine .ite hs.advance ?_
    split
    · exact hs.advance.updCvu.cvuUe.cvuDone
    · refine .ite hs.advance.updCvu.event.cvuDone ?_
      exact .ite hs.advance.updCvu.cvuDone (.ite hs.advance hs.advance.updCvu.cvuDone)

theorem execCvuOverrun_kept {t : Nat} {u : CvuId} {blocks : Nat} {s : State} (hs : s.Canonical) : Kept (execCvuOverrun t u blocks s) := by
  unfold Machine.execCvuOverrun
  refine .next ?_
  split
  · exact hs.advance
  · exact .ite hs.advance hs.advance.updCvu.cvuDone

/-! What `Machine/FabricCmds` defines keeps the memories canonical. -/

theorem bodyPlanLoad_keeps : bodyPlanLoad.Keeps := by
  intro s m own r hs
  unfold Machine.bodyPlanLoad
  refine .fst_ite hs.ends ?_
  split
  · exact hs.ends
  · refine .fst_ite hs.ends ?_
    exact .fst_ite hs.bulkRead.ends (.gives ({ hs.bulkRead with fw := ⟨memWf_memWrite hs.bulkRead.fw.nor _ _⟩ }))

theorem execPlanLoad_kept {t : Nat} {r : MbxReq} {s : State} (hs : s.Canonical) : Kept (execPlanLoad t r s) :=
  .next (hs.ring bodyPlanLoad_keeps)

theorem bodyPartnerOpen_keeps : bodyPartnerOpen.Keeps := by
  intro s m own r hs
  unfold Machine.bodyPartnerOpen
  split
  · exact hs.ends
  · split
    · refine .fst_ite hs.ends ?_
      split
      · exact .fst_ite hs.ends hs.updFab.updPort.gives
      · exact hs.ends
    · exact hs.ends

theorem execPartnerOpen_kept {t : Nat} {r : MbxReq} {s : State} (hs : s.Canonical) : Kept (execPartnerOpen t r s) :=
  .next (hs.ring bodyPartnerOpen_keeps)

theorem bodyPartnerClose_keeps : bodyPartnerClose.Keeps := by
  intro s m own r hs
  unfold Machine.bodyPartnerClose
  split
  · exact hs.ends
  · exact .fst_ite hs.ends (.fst_ite hs.ends (.fst hs.fence))

theorem execPartnerClose_kept {t : Nat} {r : MbxReq} {s : State} (hs : s.Canonical) : Kept (execPartnerClose t r s) :=
  .next (hs.ring bodyPartnerClose_keeps)

theorem State.Canonical.pollRevoke {s : State} {m : MbxId} {r : MbxReq} (hs : s.Canonical) : (s.pollRevoke m r).Canonical := by
  unfold State.pollRevoke
  split
  · exact hs
  · exact .ite hs hs.mbxAnswer

/-! What `Machine/SmsCore` defines keeps the memories canonical. -/

theorem Sms.Canonical.updInst {m : Sms} {i : Fin 4} {f : SmsInst → SmsInst} (hm : m.Canonical) : (m.updInst i f).Canonical := hm.same

theorem Sms.Canonical.updChan {m : Sms} {c : ChanId} {f : SmsChan → SmsChan} (hm : m.Canonical) : (m.updChan c f).Canonical := hm.same

theorem Sms.Canonical.pace {m : Sms} {i : Fin 4} {now : Nat} (hm : m.Canonical) : (m.pace i now).Canonical := by
  unfold Sms.pace
  split
  · exact hm.updInst
  · exact hm.updInst

theorem Sms.Canonical.keep {m : Sms} {rec' : List Byte} {now : Nat} (hm : m.Canonical) : (m.keep rec' now).Canonical := hm.same

theorem Sms.Canonical.note {m : Sms} {type : Nat} {i : Option (Fin 4)} {now utc : Nat}
    (hm : m.Canonical) : (m.note type i now utc).Canonical := hm.keep

theorem Sms.fresh_nor {m : Sms} {now : Nat} : (m.fresh now).nor = m.nor := by simp only [Sms.fresh]

theorem Sms.Canonical.fresh {m : Sms} {now : Nat} (hm : m.Canonical) : (m.fresh now).Canonical := hm.same Sms.fresh_nor

theorem Sms.Canonical.start {m : Sms} {ok : Bool} {now utc : Nat} (hm : m.Canonical) : (m.start ok now utc).Canonical := by
  have hf : (m.fresh now).Canonical := hm.fresh
  unfold Sms.start
  generalize m.fresh now = m' at hf ⊢
  exact .ite hf.same.note hf.same

/-! What `Machine/SmsCmds` defines keeps the memories canonical. -/

theorem State.Canonical.smsRecord {s : State} {type : Nat} {i : Option (Fin 4)} {subject : List Byte} {f : Sms → Sms}
    (hs : s.Canonical) (hf : ∀ m, m.Canonical → (f m).Canonical) : (s.smsRecord type i subject f).1.Canonical :=
  .fst_ite hs.ends (.gives (hs.updSms fun _ _ => ⟨(hf _ hs.sms).nor⟩))

theorem bodySmsStatus_keeps : bodySmsStatus.Keeps := fun _ _ _ _ hs => .fst_ite hs.ends hs.gives

theorem bodySmsFrank_keeps : bodySmsFrank.Keeps := by
  intro s m own r hs
  unfold Machine.bodySmsFrank
  split
  · exact hs.ends
  · exact hs.ends
  · refine .fst_ite hs.ends ?_
    exact .fst_ite hs.ends (.fst_ite hs.ends (.fst_ite hs.ends (.fst_ite hs.ends (hs.smsRecord fun _ hm => hm))))

theorem bodySmsZero_keeps : bodySmsZero.Keeps := by
  intro s m own r hs
  unfold Machine.bodySmsZero
  dsimp only
  split
  · exact hs.ends
  · exact hs.ends
  · split
    · exact hs.ends
    · exact .fst_ite hs.ends (.fst_ite hs.ends (.fst_ite hs.ends (.fst_ite hs.ends (hs.smsRecord fun _ hm => hm.updInst))))

theorem bodySmsTare_keeps : bodySmsTare.Keeps := by
  intro s m own r hs
  unfold Machine.bodySmsTare
  split
  · exact hs.ends
  · exact hs.ends
  · exact .fst_ite hs.ends (.fst_ite hs.ends (.fst_ite hs.ends (hs.smsRecord fun _ hm => hm.updInst)))

theorem bodySmsPresetTare_keeps : bodySmsPresetTare.Keeps := by
  intro s m own r hs
  unfold Machine.bodySmsPresetTare
  split
  · exact hs.ends
  · exact hs.ends
  · exact .fst_ite hs.ends (hs.smsRecord fun _ hm => hm.updInst)

theorem bodySmsTareClear_keeps : bodySmsTareClear.Keeps := by
  intro s m own r hs
  unfold Machine.bodySmsTareClear
  split
  · exact hs.ends
  · exact hs.ends
  · exact hs.smsRecord fun _ hm => hm.updInst

theorem bodySmsRecords_keeps : bodySmsRecords.Keeps := by
  intro s m own r hs
  unfold Machine.bodySmsRecords
  split
  · exact hs.ends
  · exact hs.gives

theorem bodySmsCheckpoint_keeps : bodySmsCheckpoint.Keeps := by
  intro s m own r hs
  unfold Machine.bodySmsCheckpoint
  split
  · exact hs.ends
  · exact .fst_ite hs.ends hs.gives

theorem bodySmsSwid_keeps : bodySmsSwid.Keeps := fun _ _ _ _ hs => .fst_ite hs.ends hs.gives

theorem bodySmsParamLoad_keeps : bodySmsParamLoad.Keeps := by
  intro s m own r hs
  unfold Machine.bodySmsParamLoad
  dsimp only
  split
  · exact hs.ends
  · refine .fst_ite hs.ends ?_
    split
    · exact hs.ends
    · refine .fst_ite hs.ends (.fst_ite hs.bulkRead.ends ?_)
      split
      · exact .fst (.updSms (hs.bulkRead.smsRecord fun _ hm => hm.same) fun _ hm => hm.same.fresh)
      · exact .fst (hs.bulkRead.smsRecord fun _ hm => hm.same)

theorem bodySmStage_keeps : bodySmStage.Keeps := by
  intro s m own r hs
  unfold Machine.bodySmStage
  split
  · exact hs.ends
  · refine .fst_ite hs.ends (.fst_ite hs.ends ?_)
    split
    · exact hs.ends
    · refine .fst_ite hs.ends ?_
      exact .fst_ite hs.bulkRead.updSms.ends (.gives (hs.bulkRead.updSms fun _ hm => ⟨memWf_memWrite hm.nor _ _⟩))

theorem bodySmVerify_keeps : bodySmVerify.Keeps := by
  intro s m own r hs
  unfold Machine.bodySmVerify
  split
  · exact hs.ends
  · exact .fst_ite hs.ends (.fst_ite hs.ends (.fst_ite hs.ends (.fst_ite hs.ends (.fst_ite hs.ends hs.updSms.gives))))

theorem bodySmActivate_keeps : bodySmActivate.Keeps := by
  intro s m own r hs
  unfold Machine.bodySmActivate
  dsimp only
  split
  · exact hs.ends
  · refine .fst_ite hs.ends (.fst_ite hs.ends ?_)
    split
    · exact .gives (.updSms (hs.smsRecord fun _ hm => hm.same) fun _ hm => hm.same.start)
    · exact .fst (hs.smsRecord fun _ hm => hm.same)

theorem execSmsStatus_kept {t : Nat} {r : MbxReq} {s : State} (hs : s.Canonical) : Kept (execSmsStatus t r s) :=
  .next (hs.ring bodySmsStatus_keeps)

theorem execSmsFrank_kept {t : Nat} {r : MbxReq} {s : State} (hs : s.Canonical) : Kept (execSmsFrank t r s) :=
  .next (hs.ring bodySmsFrank_keeps)

theorem execSmsZero_kept {t : Nat} {r : MbxReq} {s : State} (hs : s.Canonical) : Kept (execSmsZero t r s) :=
  .next (hs.ring bodySmsZero_keeps)

theorem execSmsTare_kept {t : Nat} {r : MbxReq} {s : State} (hs : s.Canonical) : Kept (execSmsTare t r s) :=
  .next (hs.ring bodySmsTare_keeps)

theorem execSmsPresetTare_kept {t : Nat} {r : MbxReq} {s : State} (hs : s.Canonical) : Kept (execSmsPresetTare t r s) :=
  .next (hs.ring bodySmsPresetTare_keeps)

theorem execSmsTareClear_kept {t : Nat} {r : MbxReq} {s : State} (hs : s.Canonical) : Kept (execSmsTareClear t r s) :=
  .next (hs.ring bodySmsTareClear_keeps)

theorem execSmsRecords_kept {t : Nat} {r : MbxReq} {s : State} (hs : s.Canonical) : Kept (execSmsRecords t r s) :=
  .next (hs.ring bodySmsRecords_keeps)

theorem execSmsCheckpoint_kept {t : Nat} {r : MbxReq} {s : State} (hs : s.Canonical) : Kept (execSmsCheckpoint t r s) :=
  .next (hs.ring bodySmsCheckpoint_keeps)

theorem execSmsSwid_kept {t : Nat} {r : MbxReq} {s : State} (hs : s.Canonical) : Kept (execSmsSwid t r s) :=
  .next (hs.ring bodySmsSwid_keeps)

theorem execSmsParamLoad_kept {t : Nat} {r : MbxReq} {s : State} (hs : s.Canonical) : Kept (execSmsParamLoad t r s) :=
  .next (hs.ring bodySmsParamLoad_keeps)

theorem execSmStage_kept {t : Nat} {r : MbxReq} {s : State} (hs : s.Canonical) : Kept (execSmStage t r s) :=
  .next (hs.ring bodySmStage_keeps)

theorem execSmVerify_kept {t : Nat} {r : MbxReq} {s : State} (hs : s.Canonical) : Kept (execSmVerify t r s) :=
  .next (hs.ring bodySmVerify_keeps)

theorem execSmActivate_kept {t : Nat} {r : MbxReq} {s : State} (hs : s.Canonical) : Kept (execSmActivate t r s) :=
  .next (hs.ring bodySmActivate_keeps)

theorem bodySmsQuery_keeps : bodySmsQuery.Keeps := by
  intro s m own r hs
  unfold Machine.bodySmsQuery
  split
  · exact bodySmsStatus_keeps _ _ _ _ hs
  · exact bodySmsFrank_keeps _ _ _ _ hs
  · exact bodySmsZero_keeps _ _ _ _ hs
  · exact bodySmsTare_keeps _ _ _ _ hs
  · exact bodySmsPresetTare_keeps _ _ _ _ hs
  · exact bodySmsTareClear_keeps _ _ _ _ hs
  · exact bodySmsRecords_keeps _ _ _ _ hs
  · exact bodySmsCheckpoint_keeps _ _ _ _ hs
  · exact bodySmsSwid_keeps _ _ _ _ hs
  · exact bodySmsParamLoad_keeps _ _ _ _ hs
  · exact bodySmStage_keeps _ _ _ _ hs
  · exact bodySmVerify_keeps _ _ _ _ hs
  · exact bodySmActivate_keeps _ _ _ _ hs
  · exact hs.ends

theorem Sms.Canonical.enterFault {m : Sms} {c : ChanId} {now utc : Nat} (hm : m.Canonical) : (m.enterFault c now utc).Canonical :=
  .ite hm hm.updChan.updInst.note

theorem Sms.Canonical.sample {m : Sms} {c : ChanId} {now : Nat} {v : ℤ} (hm : m.Canonical) : (m.sample c now v).Canonical :=
  .ite hm.updChan.pace hm.updChan

theorem Sms.Canonical.frame {m : Sms} {c : ChanId} {now utc : Nat} {b : List Byte} (hm : m.Canonical) : (m.frame c now utc b).Canonical :=
  .foldl (.ite (.enterFault (.updChan (.ite hm hm.updInst))) (.updChan (.updChan (.ite hm hm.updInst)))) fun _ _ hm₁ => hm₁.sample

theorem execSampleFrame_kept {t : Nat} {c : ChanId} {s : State} (hs : s.Canonical) : Kept (execSampleFrame t c s) := by
  unfold Machine.execSampleFrame
  refine .next ?_
  split
  · exact hs.advance
  · exact hs.advance.updSms fun _ hm => .ite hm.updChan (.ite hm.updChan.updChan hm.updChan.frame)

theorem execChannelFaultTimeout_kept {t : Nat} {c : ChanId} {s : State} (hs : s.Canonical) : Kept (execChannelFaultTimeout t c s) :=
  .next (hs.advance.updSms fun _ hm => .ite hm.enterFault hm)

theorem execZeroTracking_kept {t : Nat} {i : Fin 4} {s : State} (hs : s.Canonical) : Kept (execZeroTracking t i s) :=
  .next (hs.advance.updSms fun _ hm => .ite hm hm.updInst)

theorem execRecordToken_kept {t : Nat} {s : State} (hs : s.Canonical) : Kept (execRecordToken t s) :=
  .next (.ite hs.advance hs.advance.updSms)

theorem execSmsCheckpointSign_kept {t : Nat} {s : State} (hs : s.Canonical) : Kept (execSmsCheckpointSign t s) :=
  .next (hs.advance.updSms fun _ hm => .ite hm hm.same)

theorem execAdjEn_kept {t : Nat} {active : Bool} {s : State} (hs : s.Canonical) : Kept (execAdjEn t active s) := .next hs.advance.updSms

theorem execSmsClockFault_kept {t : Nat} {s : State} (hs : s.Canonical) : Kept (execSmsClockFault t s) := .next hs.advance.updSms

theorem execSmsStart_kept {t : Nat} {ok : Bool} {s : State} (hs : s.Canonical) : Kept (execSmsStart t ok s) :=
  .next (hs.advance.updSms fun _ hm => .ite hm hm.same.start)

/-! What `Machine/KvCmds` defines keeps the memories canonical. -/

theorem Engine.Canonical.formatRows {g : Engine} {k : KvPool} {rows : List Nat} (hg : g.Canonical) : (g.formatRows k rows).Canonical :=
  hg.foldl fun _ _ hg₁ => { hg₁ with store := memWf_formatPage hg₁.store _ _ _ _ }

theorem State.Canonical.formatPages {s : State} {p : PartId} {e : EngId} {pages : List Nat}
    (hs : s.Canonical) : (s.formatPages p e pages).Canonical := hs.updEng fun _ hg => hg.formatRows

theorem State.Canonical.formatPool {s : State} {p : PartId} {e : EngId} (hs : s.Canonical) : (s.formatPool p e).Canonical :=
  .formatPages (hs.updEng fun _ hg => hg.formatRows)

theorem State.Canonical.formatPools {s : State} {p : PartId} (hs : s.Canonical) : (s.formatPools p).Canonical :=
  hs.foldl fun _ _ hs₁ => .ite hs₁.formatPool hs₁

theorem bodyKvPoolConfig_keeps : bodyKvPoolConfig.Keeps := by
  intro s m own r hs
  unfold Machine.bodyKvPoolConfig
  split
  · exact hs.ends
  · exact .fst_ite hs.ends (.fst_ite hs.ends hs.updKv.formatPools.gives)

theorem execKvPoolConfig_kept {t : Nat} {r : MbxReq} {s : State} (hs : s.Canonical) : Kept (execKvPoolConfig t r s) :=
  .next (hs.ring bodyKvPoolConfig_keeps)

theorem bodyKvSeqQuery_keeps : bodyKvSeqQuery.Keeps := by
  intro s m own r hs
  unfold Machine.bodyKvSeqQuery
  split
  · exact hs.ends
  · exact hs.gives

theorem execKvSeqQuery_kept {t : Nat} {r : MbxReq} {s : State} (hs : s.Canonical) : Kept (execKvSeqQuery t r s) :=
  .next (hs.ring bodyKvSeqQuery_keeps)

/-! What `Machine/EnvCmds` defines keeps the memories canonical. -/

theorem Engine.Canonical.moveKv {g : Engine} {old new : Nat} (hg : g.Canonical) : (g.moveKv old new).Canonical :=
  .ite hg ({ hg with store := memWf_memPut (memWf_memZero hg.store _ _) _ })

theorem State.Canonical.relayout {s : State} {p : PartId} {mask : BitVec 6} {steps : Nat} (hs : s.Canonical) :
    (s.relayout p mask steps).Canonical := by
  unfold State.relayout
  refine .foldl (.updKv (.foldl (.ite hs.updPart hs.updPart.withRest) fun _ _ hs₁ => hs₁.freezeSeqs.updKv.updEng)) fun _ _ hs₁ => ?_
  exact .ite hs₁ (.ite (.ite hs₁.updEng.formatPool hs₁.updEng)
    (.ite (hs₁.updEng fun _ hg => hg.moveKv.same).formatPages (hs₁.updEng fun _ hg => hg.moveKv.same)))

theorem execEngineZeroingDone_kept {t : Nat} {e : EngId} {s : State} (hs : s.Canonical) : Kept (execEngineZeroingDone t e s) := by
  unfold Machine.execEngineZeroingDone
  refine .next ?_
  split
  · exact hs.advance
  · exact .ite (hs.advance.updEng fun _ hg => { hg with store := rfl, act := rfl }) hs.advance

/-- The checks and effect of a stageable command, where what they end in holds canonical memories. -/
inductive Changed : Except Status (State × List Byte × Nat) → Prop where
  | error {st : Status} : Changed (.error st)
  | ok {s : State} {bs : List Byte} {n : Nat} (hs : s.Canonical) : Changed (.ok (s, bs, n))

theorem Changed.ite {x y : Except Status (State × List Byte × Nat)} {c : Prop} {_ : Decidable c} (hx : Changed x) (hy : Changed y) :
    Changed (if c then x else y) := by split <;> assumption

theorem Changed.canonical {x : Except Status (State × List Byte × Nat)} {s : State} {bs : List Byte} {n : Nat} (hx : Changed x)
    (he : x = .ok (s, bs, n)) : s.Canonical := by
  cases hx with
  | error => cases he
  | ok hs => cases he; exact hs

/-- A stageable command that keeps the memories canonical. -/
def Change.Keeps (f : Change) : Prop := ∀ (s : State) (r : MbxReq) (pkg : List Byte) (num : Option Nat), s.Canonical → Changed (f s r pkg num)

/-! What `Machine/HostCmds` defines keeps the memories canonical. -/

theorem changeModelLoad_keeps : changeModelLoad.Keeps := by
  intro s r pkg num hs
  unfold changeModelLoad
  split
  · exact .error
  · exact .ok hs

/-! What `Machine/ArmCmds` defines keeps the memories canonical. -/

theorem changeArm_keeps : changeArm.Keeps := by
  intro s r pkg num hs
  unfold changeArm
  split
  · exact .error
  · refine .ite .error (.ite ?_ (.ite .error (.ite .error ?_)))
    · split
      · exact .error
      · refine .ite .error ?_
        split
        · exact .error
        · exact .ite .error (.ok hs.updSched.preloadAll)
    · dsimp only
      split
      · exact .error
      · exact .ite .error (.ok (.ite hs.same (State.Canonical.preloadAll hs.same)))

theorem changeDisarm_keeps : changeDisarm.Keeps := by
  intro s r pkg num hs
  unfold changeDisarm
  split
  · exact .error
  · refine .ite .error ?_
    split
    · exact .error
    · exact .ok hs.updSched

/-! What `Machine/FabricCmds` defines keeps the memories canonical. -/

theorem changeWindow_keeps : changeWindow.Keeps := by
  intro s r pkg num hs
  unfold changeWindow
  split
  · exact .error
  · split
    · refine .ite .error (.ite ?_ (.ite .error ?_))
      · split
        · exact .error
        · exact .ite .error (.ok hs.updFab)
      · dsimp only
        split
        · exact .error
        · exact .ite .error (.ok hs.updFab)
    · exact .error

/-! What `Machine/KvCmds` defines keeps the memories canonical. -/

theorem changeKvOpen_keeps : changeKvOpen.Keeps := by
  intro s r pkg num hs
  unfold changeKvOpen
  split
  · exact .error
  · split
    · exact .error
    · exact .ite .error (.ite .error (.ok hs.updKv))

theorem changeKvTruncate_keeps : changeKvTruncate.Keeps := by
  intro s r pkg num hs
  unfold changeKvTruncate
  split
  · exact .error
  · exact .ite .error (.ok hs.updKv)

theorem changeKvFree_keeps : changeKvFree.Keeps := by
  intro s r pkg num hs
  unfold changeKvFree
  split
  · exact .error
  · exact .ite .error (.ok hs.updKv)

/-! What `Machine/EnvCmds` defines keeps the memories canonical. -/

theorem changeLayout_keeps : changeLayout.Keeps := by
  intro s r pkg num hs
  unfold changeLayout
  split
  · exact .error
  · exact .ite .error (.ite .error (.ok hs.relayout))

theorem effectOf_keeps {op : Nat} {f : Change} (hf : effectOf op = some f) : f.Keeps := by
  have ite_some {c : Prop} [Decidable c] {g : Change} {x : Option Change} (hg : g.Keeps) (hx : x = some f → f.Keeps)
      (he : (if c then some g else x) = some f) : f.Keeps := by
    split at he
    · cases he; exact hg
    · exact hx he
  exact ite_some changeModelLoad_keeps (ite_some changeLayout_keeps (ite_some changeWindow_keeps (ite_some changeArm_keeps
    (ite_some changeDisarm_keeps (ite_some changeKvOpen_keeps (ite_some changeKvTruncate_keeps (ite_some changeKvFree_keeps
      fun he => by cases he))))))) hf

theorem State.Canonical.take {s s' : State} {op : Half} {r : MbxReq} {num : Nat} {pkg : List Byte} (hs : s.Canonical)
    (he : s.take op r num pkg = .ok s') : s'.Canonical := by
  unfold State.take at he
  split at he
  · cases he
  · rename_i f hf
    split at he
    · rename_i hc
      cases he
      exact (effectOf_keeps hf _ _ _ _ hs).canonical hc
    · cases he

theorem State.Canonical.takeAll {s s' : State} {l : List EnvItem} (hs : s.Canonical) (he : s.takeAll l = .ok s') : s'.Canonical := by
  induction l generalizing s with
  | nil =>
    cases he
    exact hs
  | cons i l ih =>
    cases i with
    | op o => exact ih hs he
    | cmd op r num pkg =>
      unfold State.takeAll at he
      split at he
      · rename_i ht
        exact ih (hs.take ht) he
      · cases he

theorem State.Canonical.staged {s : State} {v : Envelope} (hs : s.Canonical) : (s.staged v).Canonical := by
  unfold State.staged
  dsimp only
  split
  · rename_i he
    exact hs.updEnvelope.takeAll he
  · exact hs.updEnvelope

theorem State.Canonical.stageCmd {s s' : State} {op : Half} {r : MbxReq} {pkg bs : List Byte} (hs : s.Canonical)
    (he : s.stageCmd op r pkg = .ok (s', bs)) : s'.Canonical := by
  unfold State.stageCmd at he
  split at he
  · split at he
    · cases he
    · cases he
    · split at he
      · cases he
      · split at he
        · cases he
        · rename_i ha
          cases he
          exact hs.addItem ha
  · cases he

theorem State.Canonical.refuseStaging {s : State} {r : MbxReq} {st : Status} (hs : s.Canonical) : (s.refuseStaging r st).1.Canonical :=
  hs.doomNamed.ends

theorem State.Canonical.changeOrStage {s : State} {op : Half} {r : MbxReq} {pkg : List Byte} {f : Change} (hs : s.Canonical)
    (hf : f.Keeps) : (s.changeOrStage op r pkg f).1.Canonical := by
  unfold State.changeOrStage
  refine .fst_ite ?_ ?_
  · split
    · exact hs.refuseStaging
    · rename_i he
      exact (hs.stageCmd he).gives
  · split
    · exact hs.ends
    · rename_i he
      exact ((hf _ _ _ _ hs).canonical he).gives

theorem bodyModelLoad_keeps : bodyModelLoad.Keeps := by
  intro s m own r hs
  unfold bodyModelLoad
  refine .fst_ite hs.modelLoad ?_
  split
  · exact hs.ends
  · split
    · exact hs.ends
    · exact hs.ends
    · split
      · exact hs.refuseStaging
      · dsimp only
        split
        · rename_i he
          exact (hs.sourceBytes.fst_of_eq he).sealBad.refuseStaging
        · rename_i he
          have h₁ := hs.sourceBytes.fst_of_eq he
          split
          · exact h₁.refuseStaging
          · rename_i ha
            have h₂ := h₁.addItem ha
            exact .fst_ite h₂.gives (.fst_ite h₂.writeRows.refuseStaging h₂.writeRows.gives)

theorem execModelLoad_kept {t : Nat} {r : MbxReq} {s : State} (hs : s.Canonical) : Kept (execModelLoad t r s) :=
  .next (hs.ring bodyModelLoad_keeps)

theorem bodyPartitionLayout_keeps : bodyPartitionLayout.Keeps := fun _ _ _ _ hs => .fst_ite hs.ends (hs.changeOrStage changeLayout_keeps)

theorem execPartitionLayout_kept {t : Nat} {r : MbxReq} {s : State} (hs : s.Canonical) : Kept (execPartitionLayout t r s) :=
  .next (hs.ring bodyPartitionLayout_keeps)

theorem bodyWindowGrant_keeps : bodyWindowGrant.Keeps := fun _ _ _ _ hs =>
  .fst_ite (.fst (hs.changeOrStage changeWindow_keeps)) (.fst (hs.changeOrStage changeWindow_keeps))

theorem execWindowGrant_kept {t : Nat} {r : MbxReq} {s : State} (hs : s.Canonical) : Kept (execWindowGrant t r s) :=
  .next (hs.ring bodyWindowGrant_keeps)

theorem bodyScheduleArm_keeps : bodyScheduleArm.Keeps := by
  intro s m own r hs
  unfold bodyScheduleArm
  dsimp only
  split
  · exact hs.ends
  · split
    · rename_i he
      have h₁ := hs.armPackage.fst_of_eq he
      exact .fst_ite h₁.sealBad.ends h₁.sealBad.refuseStaging
    · rename_i he
      exact (hs.armPackage.fst_of_eq he).changeOrStage changeArm_keeps

theorem execScheduleArm_kept {t : Nat} {r : MbxReq} {s : State} (hs : s.Canonical) : Kept (execScheduleArm t r s) :=
  .next (hs.ring bodyScheduleArm_keeps)

theorem bodyScheduleDisarm_keeps : bodyScheduleDisarm.Keeps := by
  intro s m own r hs
  unfold bodyScheduleDisarm
  refine .fst_ite (hs.changeOrStage changeDisarm_keeps) ?_
  split
  · exact hs.ends
  · rename_i he
    have h₁ := (changeDisarm_keeps _ _ _ _ hs).canonical he
    exact .fst_ite h₁ h₁.pollDisarm.gives

theorem execScheduleDisarm_kept {t : Nat} {r : MbxReq} {s : State} (hs : s.Canonical) : Kept (execScheduleDisarm t r s) :=
  .next (hs.ring bodyScheduleDisarm_keeps)

theorem State.Canonical.kvGenUp {s : State} {p : PartId} (hs : s.Canonical) : (s.kvGenUp p).Canonical := hs.updKv

theorem State.Canonical.conflictEvent {s : State} (hs : s.Canonical) : s.conflictEvent.Canonical := hs.updEnv

theorem State.Canonical.kvEdit {s : State} {op : Half} {r : MbxReq} {f : Change} (hs : s.Canonical) (hf : f.Keeps) :
    (s.kvEdit op r f).1.Canonical := by
  unfold State.kvEdit
  dsimp only
  refine .fst_ite ?_ ?_
  · split
    · exact hs.ends
    · exact hs.conflictEvent.ends
  · split
    · exact .fst_ite (.fst (hs.changeOrStage hf).kvGenUp) (.fst (hs.changeOrStage hf))
    · exact hs.changeOrStage hf

theorem bodyKvSeqOpen_keeps : bodyKvSeqOpen.Keeps := fun _ _ _ _ hs => hs.kvEdit changeKvOpen_keeps

theorem execKvSeqOpen_kept {t : Nat} {r : MbxReq} {s : State} (hs : s.Canonical) : Kept (execKvSeqOpen t r s) :=
  .next (hs.ring bodyKvSeqOpen_keeps)

theorem bodyKvSeqTruncate_keeps : bodyKvSeqTruncate.Keeps := fun _ _ _ _ hs => hs.kvEdit changeKvTruncate_keeps

theorem execKvSeqTruncate_kept {t : Nat} {r : MbxReq} {s : State} (hs : s.Canonical) : Kept (execKvSeqTruncate t r s) :=
  .next (hs.ring bodyKvSeqTruncate_keeps)

theorem bodyKvSeqFree_keeps : bodyKvSeqFree.Keeps := fun _ _ _ _ hs => hs.kvEdit changeKvFree_keeps

theorem execKvSeqFree_kept {t : Nat} {r : MbxReq} {s : State} (hs : s.Canonical) : Kept (execKvSeqFree t r s) :=
  .next (hs.ring bodyKvSeqFree_keeps)

theorem State.Canonical.casMiss {s : State} {p : PartId} {h : Half} (hs : s.Canonical) : (s.casMiss p h).Canonical := hs.updEnv

theorem State.Canonical.regionAtomic {s : State} {p : PartId} {h : Half} {o : EnvOp} (hs : s.Canonical) : (s.regionAtomic p h o).Canonical :=
  .ite (.casMiss (hs.updPart fun _ hq => hq.regionWrite)) (hs.updPart fun _ hq => hq.regionWrite)

theorem State.Canonical.actAtomic {s : State} {p : PartId} {h : Half} {e : EngId} {o : EnvOp} {f : Flt}
    (hs : s.Canonical) : (s.actAtomic p h e o f).Canonical := by
  unfold State.actAtomic
  split
  · exact .ite hs hs.actUe
  · exact .ite hs.sideWrite.casMiss hs.sideWrite

theorem State.Canonical.addApply {s : State} {v : Envelope} {group : Nat} {e : EngId}
    (hs : s.Canonical) : (s.addApply v group e).Canonical := .ite hs hs.updEnv.updEng

theorem Partition.Canonical.addShadow {q : Partition} {cs : List Host.Cell} (hq : q.Canonical) : (addShadow q cs).Canonical := hq.same

theorem State.Canonical.envNotify {s : State} {p : PartId} {o : EnvOp} (hs : s.Canonical) : (s.envNotify p o).Canonical := by
  unfold State.envNotify
  split
  · exact hs
  · split
    · exact hs
    · split
      · exact hs.pghAdd
      · extract_lets +onlyGivenNames refuse
        have hr : ∀ st k, (refuse s st k).Canonical := by
          intro st k
          simp only [refuse]
          split
          · exact hs
          · exact hs.refuseOp
        refine .ite (hr _ _) ?_
        split
        · exact hr _ _
        · extract_lets +onlyGivenNames src
          split
          · rename_i he
            obtain rfl := State.takeJob_inl he
            exact hr _ _
          · rename_i he
            exact hs.takeJob he

theorem State.Canonical.flushNotes {s : State} {group : Nat} (hs : s.Canonical) : (s.flushNotes group).Canonical :=
  .ite hs (hs.updEnv.foldl fun _ _ hs₁ => hs₁.foldl fun _ _ hs₂ => hs₂.envNotify)

theorem State.Canonical.commitEnv {s : State} {v : Envelope} (hs : s.Canonical) : (s.commitEnv v).Canonical := by
  unfold State.commitEnv
  refine .flushNotes ?_
  split
  · exact .answerAsker (.foldl (.foldl (.updPart (.updEnv (.updFab (.ite hs.kvGenUp hs))) fun _ hq => hq.addShadow)
    fun _ _ hs₁ => hs₁.regionAtomic) fun _ _ hs₁ => hs₁.addApply)
  · exact .foldl (.answerAsker (.foldl (.foldl (.updPart (.updEnv (.updFab (.ite hs.kvGenUp hs))) fun _ hq => hq.addShadow)
    fun _ _ hs₁ => hs₁.regionAtomic) fun _ _ hs₁ => hs₁.addApply)) fun _ _ hs₁ => hs₁.answerAbort

theorem State.Canonical.settleEnv {s : State} {v : Envelope} (hs : s.Canonical) : (s.settleEnv v).Canonical := by
  unfold State.settleEnv
  extract_lets +onlyGivenNames fails
  have hf : fails.Canonical := by
    simp only [fails]
    split
    · exact hs.abortNow
    · exact hs.abortNow
  refine .ite hs.abortNow ?_
  split
  · exact hf
  · rename_i he
    exact .ite (hs.takeAll he).commitEnv hf

/-! What `Machine/PartCmds` defines keeps the memories canonical. -/

theorem State.Canonical.endGrant {s : State} {mask : Nat} (hs : s.Canonical) : (s.endGrant mask).Canonical := .ite hs hs.same

theorem bodyPartitionCreate_keeps : bodyPartitionCreate.Keeps := by
  intro s m own r hs
  unfold Machine.bodyPartitionCreate
  dsimp only
  split
  · refine .fst_ite hs.ends (.fst_ite hs.ends (.fst_ite hs.ends ?_))
    split
    · refine .fst_ite hs.ends ?_
      exact .gives (.foldl (hs.updSec.endGrant.updPart fun _ _ => ⟨rfl⟩) fun _ _ hs₁ => .ite hs₁.updEng hs₁)
    · exact hs.ends
  · exact hs.ends

theorem execPartitionCreate_kept {t : Nat} {r : MbxReq} {s : State} (hs : s.Canonical) : Kept (execPartitionCreate t r s) :=
  .next (hs.ring bodyPartitionCreate_keeps)

theorem bodyKeyInstall_keeps : bodyKeyInstall.Keeps := by
  intro s m own r hs
  unfold Machine.bodyKeyInstall
  dsimp only
  split
  · exact hs.ends
  · split
    · exact hs.ends
    · refine .fst_ite hs.ends ?_
      split
      · exact hs.updSec.ends
      · split
        · exact hs.updPart.gives
        · split
          · exact hs.ends
          · exact hs.updCtx.gives
        · exact hs.updPart.gives

theorem execKeyInstall_kept {t : Nat} {r : MbxReq} {s : State} (hs : s.Canonical) : Kept (execKeyInstall t r s) :=
  .next (hs.ring bodyKeyInstall_keeps)

theorem State.Canonical.startDissolve {s : State} {p : PartId} {m : MbxId} (hs : s.Canonical) : (s.startDissolve p m).Canonical := by
  unfold State.startDissolve
  extract_lets +onlyGivenNames s₁ s₂ s₃ s₄ s₅ s₆ s₇ s₈ drop
  have h₅ : s₅.Canonical := hs.updPart.updFab.abortEnvs.endTests.endAll
  have h₆ : s₆.Canonical := h₅.foldl fun _ _ hs => .ite hs.updEng hs
  have h₈ : s₈.Canonical := h₆.updEnv.updBulk fun _ _ => ⟨fun _ hf => absurd hf List.not_mem_nil⟩
  exact h₈.same

theorem bodyPartitionDissolve_keeps : bodyPartitionDissolve.Keeps := by
  intro s m own r hs
  unfold Machine.bodyPartitionDissolve
  split
  · exact hs.ends
  · exact .fst_ite hs.ends (.fst_ite hs.ends (.fst hs.startDissolve))

theorem execPartitionDissolve_kept {t : Nat} {r : MbxReq} {s : State} (hs : s.Canonical) : Kept (execPartitionDissolve t r s) :=
  .next (hs.ring bodyPartitionDissolve_keeps)

theorem execKeyDestroy_kept {t : Nat} {p : PartId} {s : State} (hs : s.Canonical) : Kept (execKeyDestroy t p s) := by
  unfold Machine.execKeyDestroy
  refine .next ?_
  split
  · exact hs.advance
  · exact hs.advance.updPart fun _ _ => ⟨rfl⟩

theorem State.Canonical.finishDissolve {s : State} {p : PartId} (hs : s.Canonical) : (s.finishDissolve p).Canonical := by
  unfold State.finishDissolve
  extract_lets +onlyGivenNames q s₁ s₂ s₃ s₄ s₅
  have h₁ : s₁.Canonical := hs.foldl fun _ _ hs => .ite hs (hs.updEng fun _ hg => { hg with store := rfl, act := rfl })
  have h₃ : s₃.Canonical := h₁.updFab.updHost fun _ hh =>
    ⟨forall_getElem_map fun j => .ite (hh.win j).unbind (hh.win j), forall_getElem_set hh.bulk ⟨fun _ hf => absurd hf List.not_mem_nil⟩⟩
  have h₄ : s₄.Canonical := h₃.updEnv
  have h₅ : s₅.Canonical := h₄.same
  exact h₅.updTwin.updPart fun _ _ => ⟨rfl⟩

theorem State.Canonical.pollDissolve {s : State} {m : MbxId} {r : MbxReq} (hs : s.Canonical) : (s.pollDissolve m r).Canonical := by
  unfold State.pollDissolve
  split
  · exact hs.mbxAnswer
  · split
    · exact hs
    · exact .ite hs.finishDissolve.mbxAnswer hs

theorem bodyLifecycleAdvance_keeps : bodyLifecycleAdvance.Keeps := by
  intro s m own r hs
  unfold Machine.bodyLifecycleAdvance
  refine .fst_ite hs.ends (.fst_ite ?_ (.fst_ite hs.ends (.fst_ite hs.draw.updSec.gives hs.ends)))
  split
  · exact hs.ends
  · exact .fst_ite hs.ends (.fst_ite hs.ends (.fst_ite hs.bulkRead.ends hs.bulkRead.draw.updSec.gives))

theorem execLifecycleAdvance_kept {t : Nat} {r : MbxReq} {s : State} (hs : s.Canonical) : Kept (execLifecycleAdvance t r s) :=
  .next (hs.ring bodyLifecycleAdvance_keeps)

/-! What `Machine/TestCmds` defines keeps the memories canonical. -/

theorem bodyMaintGrant_keeps : bodyMaintGrant.Keeps :=
  fun _ _ _ _ hs => .fst_ite hs.ends (.fst_ite hs.ends (.gives (hs.updBist.foldl fun _ _ hs₁ => .ite hs₁.updEng hs₁)))

theorem execMaintGrant_kept {t : Nat} {r : MbxReq} {s : State} (hs : s.Canonical) : Kept (execMaintGrant t r s) :=
  .next (hs.ring bodyMaintGrant_keeps)

theorem execMaintGrantExpiry_kept {t : Nat} {s : State} (hs : s.Canonical) : Kept (execMaintGrantExpiry t s) :=
  .next (.ite hs.advance.updBist hs.advance)

theorem State.Canonical.skipSlice {s : State} (hs : s.Canonical) : s.skipSlice.Canonical := hs.updBist

theorem State.Canonical.startSlice {s : State} {e : EngId} {x : SliceRun} (hs : s.Canonical) : (s.startSlice e x).Canonical := by
  unfold State.startSlice
  exact .updEng (.ite (hs.same.updEng fun _ hg => hg.undefine) hs)

theorem execSlice_kept {t : Nat} {e : EngId} {s : State} (hs : s.Canonical) : Kept (execSlice t e s) := by
  unfold Machine.execSlice
  refine .next (.ite hs.advance ?_)
  split
  · exact .ite hs.advance.startSlice (.ite hs.advance.skipSlice hs.advance)
  · exact .ite hs.advance.skipSlice hs.advance

theorem State.Canonical.demandDone {s : State} {e : EngId} (hs : s.Canonical) : (s.demandDone e).Canonical := by
  unfold State.demandDone
  dsimp only
  split
  · exact hs.updEng.mbxAnswer
  · exact hs

theorem State.Canonical.sliceEvent {s : State} {e : EngId} {x : SliceRun} (hs : s.Canonical) : (s.sliceEvent e x).Canonical :=
  hs.fresh.event

theorem State.Canonical.sliceFailed {s : State} {e : EngId} {x : SliceRun} {rows : List Nat}
    (hs : s.Canonical) : (s.sliceFailed e x rows).Canonical := by
  unfold State.sliceFailed
  dsimp only
  split
  · exact .mbxAnswer (.updEng (.ite hs.updBist.updEng.updEng hs.updBist.updEng.fenceEngine))
  · exact .ite hs.updBist.updEng.updEng hs.updBist.updEng.fenceEngine

theorem execSliceEnd_kept {t : Nat} {e : EngId} {res : SliceResult} {s : State} (hs : s.Canonical) : Kept (execSliceEnd t e res s) := by
  unfold Machine.execSliceEnd
  refine .next ?_
  split
  · exact hs.advance
  · refine .ite hs.advance ?_
    split
    · exact .ite (.skipSlice (hs.advance.updEng fun _ hg => hg.dropSlice)) (hs.advance.updEng fun _ hg => hg.dropSlice)
    · exact hs.advance.updEng.demandDone
    · exact .ite hs.advance.updEng.sliceEvent.sliceFailed hs.advance.updEng.sliceEvent

theorem bodyBistSlice_keeps : bodyBistSlice.Keeps := by
  intro s m own r hs
  unfold Machine.bodyBistSlice
  split
  · exact .fst_ite hs.ends (.fst_ite hs.ends (.fst_ite hs.ends (.fst hs.updEng)))
  · exact hs.ends

theorem execBistSlice_kept {t : Nat} {r : MbxReq} {s : State} (hs : s.Canonical) : Kept (execBistSlice t r s) :=
  .next (hs.ring bodyBistSlice_keeps)

theorem bodyScanRun_keeps : bodyScanRun.Keeps := by
  intro s m own r hs
  unfold Machine.bodyScanRun
  split
  · refine .fst_ite hs.ends (.fst_ite hs.ends (.fst_ite hs.ends (.fst_ite hs.ends ?_)))
    exact .fst (.updBist (.foldl (.updEng (hs.same.updEng fun _ hg => hg.undefine)) fun _ _ hs₁ => hs₁.fresh.event))
  · exact hs.ends

theorem execScanRun_kept {t : Nat} {r : MbxReq} {s : State} (hs : s.Canonical) : Kept (execScanRun t r s) :=
  .next (hs.ring bodyScanRun_keeps)

theorem State.Canonical.pollScan {s : State} {m : MbxId} (hs : s.Canonical) : (s.pollScan m).Canonical := by
  unfold State.pollScan
  split
  · exact hs
  · exact .ite hs (.mbxAnswer (.ite hs.updBist.updEng hs.updBist))

theorem bodyFenceLift_keeps : bodyFenceLift.Keeps := by
  intro s m own r hs
  unfold Machine.bodyFenceLift
  split
  · exact .fst_ite hs.ends (.fst_ite hs.ends (.fst_ite hs.ends (.fst_ite hs.ends hs.recordF.updEng.gives)))
  · exact hs.ends

theorem execFenceLift_kept {t : Nat} {r : MbxReq} {s : State} (hs : s.Canonical) : Kept (execFenceLift t r s) :=
  .next (hs.ring bodyFenceLift_keeps)

theorem bodyTestKat_keeps : bodyTestKat.Keeps := by
  intro s m own r hs
  unfold Machine.bodyTestKat
  refine .fst_ite hs.ends ?_
  split
  · exact hs.ends
  · exact .fst_ite hs.ends (.fst hs.updBist.katNext)

theorem execTestKat_kept {t : Nat} {r : MbxReq} {res : KatResult} {s : State} (hs : s.Canonical) : Kept (execTestKat t r res s) :=
  .next (hs.ring bodyTestKat_keeps)

theorem bodyMarginSweep_keeps : bodyMarginSweep.Keeps := by
  intro s m own r hs
  unfold Machine.bodyMarginSweep
  refine .fst_ite hs.ends ?_
  split
  · exact hs.ends
  · exact .fst_ite hs.ends (.fst_ite hs.ends (.fst hs.updBist))

theorem execMarginSweep_kept {t : Nat} {r : MbxReq} {s : State} (hs : s.Canonical) : Kept (execMarginSweep t r s) :=
  .next (hs.ring bodyMarginSweep_keeps)

/-! What `Machine/Filter` defines keeps the memories canonical. -/

theorem State.Canonical.steer {s : State} {c : ChanId} {port : PortId} {bs : List Byte} (hs : s.Canonical) : (s.steer c port bs).Canonical :=
  hs.updSms

/-! What `Machine/Packets` defines keeps the memories canonical. -/

theorem State.Canonical.dropPkt {s : State} {port : PortId} {check : Nat} (hs : s.Canonical) : (s.dropPkt port check).Canonical :=
  hs.updPort

theorem State.Canonical.putPlace {s : State} {w : Place} {bs : List Byte} (hs : s.Canonical) : (s.putPlace w bs).Canonical := by
  unfold State.putPlace
  split
  · exact hs.updEng fun _ hg => { hg with act := memWf_memWrite hg.act _ _ }
  · exact hs.updPart fun _ hq => hq.regionWrite

theorem State.Canonical.readPlace {s : State} {w : Place} {n : Nat} {f : Flt} (hs : s.Canonical) : (s.readPlace w n f).1.Canonical := by
  unfold State.readPlace
  split
  · refine .fst_ite hs ?_
    split
    · exact .fst hs.corrected.actUe
    · exact .fst hs.corrected
  · split
    · exact .fst hs.event
    · exact hs

theorem State.Canonical.writePlace {s : State} {w : Place} {bs : List Byte} {f : Flt}
    (hs : s.Canonical) : (s.writePlace w bs f).1.Canonical := by
  unfold State.writePlace
  split
  · exact hs.sideWrite
  · exact .fst (hs.updPart fun _ hq => hq.regionWrite)

theorem State.Canonical.moveData {s : State} {op : Byte} {p : Packet} {w : Place} {f : Flt}
    (hs : s.Canonical) : (s.moveData op p w f).1.Canonical := by
  unfold State.moveData
  refine .fst_ite (.fst hs.writePlace) (.fst_ite hs ?_)
  split
  · rename_i w _ he
    exact (hs.readPlace.fst_of_eq he)
  · rename_i w _ he
    have hs₁ := hs.readPlace.fst_of_eq he
    exact .fst_ite hs₁ (.fst hs₁.writePlace)

theorem State.Canonical.redo {s : State} {o : PortOp} (hs : s.Canonical) : (s.redo o).Canonical := by
  unfold State.redo
  exact hs.putPlace.updPort.updFab

theorem State.Canonical.orderedMove {s : State} {port : PortId} {op : Byte} {p : Packet} {w : Place}
    (hs : s.Canonical) : (s.orderedMove port op p w).1.Canonical := by
  unfold State.orderedMove
  refine .fst_ite hs.moveData ?_
  refine .fst (.foldl (.ite (.updFab (.moveData (hs.foldl fun _ _ hs₁ => hs₁.putPlace))) ?_) fun _ _ hs₁ => hs₁.redo)
  exact .moveData (hs.foldl fun _ _ hs₁ => hs₁.putPlace)

theorem State.Canonical.perform {s : State} {c : Ctx} {h : HeldPkt} (hs : s.Canonical) : (s.perform c h).Canonical := by
  unfold State.perform
  refine .ite (.returnCredit (.respond ?_)) (.respond ?_)
  · split
    · refine .updJob (.fst_ite hs ?_)
      split
      · exact hs
      · exact hs.orderedMove
    · refine .ite ?_ (.fst_ite hs ?_)
      · split
        · refine .fst_ite hs ?_
          split
          · exact hs
          · exact hs.orderedMove
        · refine .pghAdd (.fst_ite hs ?_)
          split
          · exact hs
          · exact hs.orderedMove
      · split
        · exact hs
        · exact hs.orderedMove
  · split
    · refine .updJob (.fst_ite hs ?_)
      split
      · exact hs
      · exact hs.orderedMove
    · refine .ite ?_ (.fst_ite hs ?_)
      · split
        · refine .fst_ite hs ?_
          split
          · exact hs
          · exact hs.orderedMove
        · refine .pghAdd (.fst_ite hs ?_)
          split
          · exact hs
          · exact hs.orderedMove
      · split
        · exact hs
        · exact hs.orderedMove

theorem State.Canonical.execOp {s : State} {c : Ctx} {h : HeldPkt} (hs : s.Canonical) : (s.execOp c h).Canonical :=
  .ite hs.updCtx hs.perform

theorem State.Canonical.drainCtx {s : State} {link : Half} {n : Nat} (hs : s.Canonical) : (s.drainCtx link n).Canonical := by
  induction n generalizing s with
  | zero => exact hs
  | succ n ih =>
    unfold State.drainCtx
    split
    · exact hs
    · split
      · exact hs
      · exact .ite hs (ih hs.updCtx.perform)

theorem State.Canonical.drainHeld {s : State} (hs : s.Canonical) : s.drainHeld.Canonical := hs.foldl fun _ _ hs₁ => hs₁.drainCtx

theorem State.Canonical.doomPkt {s : State} {c : Ctx} {op : Byte} {p : Packet} {st : Status}
    (hs : s.Canonical) : (s.doomPkt c op p st).Canonical := .ite hs.doom hs

theorem State.Canonical.rejectPkt {s : State} {port : PortId} {c : Ctx} {op : Byte} {p : Packet} {st : Status} {dead : Bool} {arg : Word}
    (hs : s.Canonical) : (s.rejectPkt port c op p st dead arg).Canonical :=
  .returnCredit (.doomPkt (.ite (.deadLetter (.ite hs hs.refuseOp)) (.ite hs hs.refuseOp)))

theorem State.Canonical.stagePkt {s : State} {port : PortId} {c : Ctx} {op : Byte} {p : Packet} {t : Target} (hs : s.Canonical) :
    (s.stagePkt port c op p t).Canonical := by
  unfold State.stagePkt
  split
  · exact hs.rejectPkt
  · split
    · exact hs.rejectPkt
    · rename_i he
      have h₁ := hs.addItem he
      exact State.Canonical.twinForward (.ite h₁.execOp h₁.perform)

theorem State.Canonical.takePkt {s : State} {port : PortId} {c : Ctx} {op : Byte} {p : Packet} {t : Target} (hs : s.Canonical) :
    (s.takePkt port c op p t).Canonical := by
  unfold State.takePkt
  refine .ite hs.stagePkt ?_
  extract_lets +onlyGivenNames h
  split
  · exact hs.execOp.twinForward
  · refine .ite hs.rejectPkt ?_
    split
    · exact hs.rejectPkt
    · extract_lets +onlyGivenNames waits
      split
      · rename_i he
        obtain rfl := State.takeJob_inl he
        exact hs.rejectPkt
      · rename_i he
        exact (hs.takeJob he).execOp.twinForward

theorem State.Canonical.envPkt {s : State} {port : PortId} {c : Ctx} {op : Byte} {p : Packet} (hs : s.Canonical) :
    (s.envPkt port c op p).Canonical := by
  unfold State.envPkt
  extract_lets +onlyGivenNames me back
  have hb : ∀ s : State, s.Canonical → (back s).Canonical := fun _ hs => hs.returnCredit
  refine .ite ?_ (.ite ?_ (.ite ?_ (hb _ hs.respond)))
  · split
    · exact hs.limitEvent.rejectPkt
    · rename_i he
      exact (hb _ (hs.openEnv he).respond).twinForward
  · split
    · exact hs.rejectPkt
    · rename_i he
      exact (hb _ (hs.askCommit he)).twinForward
  · split
    · exact hs.rejectPkt
    · rename_i he
      exact (hb _ (hs.askAbort he)).twinForward

theorem State.Canonical.servePkt {s : State} {port : PortId} {c : Ctx} {op : Byte} {p : Packet}
    (hs : s.Canonical) : (s.servePkt port c op p).Canonical := by
  unfold State.servePkt
  dsimp only
  refine .ite hs.rejectPkt (.ite hs.rejectPkt ?_)
  split
  · exact hs.rejectPkt
  · split
    · exact hs.rejectPkt
    · exact .ite hs.updCtx.takePkt hs.updCtx.envPkt

theorem State.Canonical.filterPkt {s : State} {port : PortId} {c : Ctx} {op : Byte} {p : Packet}
    (hs : s.Canonical) : (s.filterPkt port c op p).Canonical := by
  unfold State.filterPkt
  refine .ite hs.rejectPkt (.ite hs.servePkt ?_)
  split
  · exact .ite hs.returnCredit hs.servePkt
  · exact hs.returnCredit
  · exact hs.deadLetter.returnCredit
  · exact .ite hs.steer.returnCredit hs.returnCredit

/-- What the checks of a packet leave holds canonical memories, whether they stop it or pass it. -/
inductive Checked : Except State (State × Ctx × Packet) → Prop where
  | error {s : State} (hs : s.Canonical) : Checked (.error s)
  | ok {s : State} {c : Ctx} {p : Packet} (hs : s.Canonical) : Checked (.ok (s, c, p))

theorem Checked.ite {x y : Except State (State × Ctx × Packet)} {c : Prop} {_ : Decidable c} (hx : Checked x) (hy : Checked y) :
    Checked (if c then x else y) := by split <;> assumption

theorem Checked.of_error {x : Except State (State × Ctx × Packet)} {s : State} (hx : Checked x) (he : x = .error s) : s.Canonical := by
  subst he
  cases hx
  assumption

theorem Checked.of_ok {x : Except State (State × Ctx × Packet)} {s : State} {c : Ctx} {p : Packet} (hx : Checked x)
    (he : x = .ok (s, c, p)) : s.Canonical := by
  subst he
  cases hx
  assumption

theorem State.Canonical.authPkt {s : State} {port : PortId} {c : Ctx} {op : Byte} {p : Packet} {free : Bool} (hs : s.Canonical) :
    Checked (s.authPkt port c op p free) := by
  unfold State.authPkt
  refine .ite (.error hs.updSec.deadLetter) ?_
  split
  · exact .error hs.dropPkt
  · exact .ite (.error hs.dropPkt) (.ite (.error hs.dropPkt) (.ok hs.updCtx))

theorem State.Canonical.clearAnswer {s : State} {port : PortId} {op : Byte} {p : Packet} {st : Status} (hs : s.Canonical) :
    (s.clearAnswer port op p st).Canonical := .ite hs hs.clearResponse

/-- A check that stops a packet leaves canonical memories. -/
inductive Opened : Except State Ctx → Prop where
  | error {s : State} (hs : s.Canonical) : Opened (.error s)
  | ok {c : Ctx} : Opened (.ok c)

theorem Opened.ite {x y : Except State Ctx} {c : Prop} {_ : Decidable c} (hx : Opened x) (hy : Opened y) :
    Opened (if c then x else y) := by split <;> assumption

theorem Opened.of_error {x : Except State Ctx} {s : State} (hx : Opened x) (he : x = .error s) : s.Canonical := by
  subst he
  cases hx
  assumption

theorem State.Canonical.openPkt {s : State} {port : PortId} {op : Byte} {p : Packet} (hs : s.Canonical) : Opened (s.openPkt port op p) := by
  unfold State.openPkt
  refine .ite (.error hs) (.ite (.error hs) (.ite (.error hs.dropPkt) (.ite (.error hs.clearAnswer) (.ite (.error hs.clearAnswer) ?_))))
  split
  · exact .error hs.clearAnswer
  · exact .ok

theorem State.Canonical.heard {s : State} {port : LinkId} (hs : s.Canonical) : (s.heard port).Canonical := hs.updPort

theorem State.Canonical.packetIn {s : State} {t : Nat} {port : PortId} {op : Byte} {p : Packet} (hs : s.Canonical) :
    (s.packetIn t port op p).Canonical := by
  unfold State.packetIn
  extract_lets +onlyGivenNames op' s₁
  have h₁ : s₁.Canonical := hs.advance.heard.drainHeld
  split
  · rename_i he
    exact h₁.openPkt.of_error he
  · split
    · rename_i he
      exact h₁.authPkt.of_error he
    · rename_i he
      exact (h₁.authPkt.of_ok he).filterPkt

theorem execPut_kept {t : Nat} {port : PortId} {p : Packet} {s : State} (hs : s.Canonical) : Kept (execPut t port p s) := .next hs.packetIn

theorem execPutNotify_kept {t : Nat} {port : PortId} {p : Packet} {s : State} (hs : s.Canonical) : Kept (execPutNotify t port p s) :=
  .next hs.packetIn

theorem execGet_kept {t : Nat} {port : PortId} {p : Packet} {f : Flt} {s : State} (hs : s.Canonical) : Kept (execGet t port p f s) :=
  .next hs.packetIn

theorem execFetchAdd_kept {t : Nat} {port : PortId} {p : Packet} {s : State} (hs : s.Canonical) : Kept (execFetchAdd t port p s) :=
  .next hs.packetIn

theorem execCas_kept {t : Nat} {port : PortId} {p : Packet} {s : State} (hs : s.Canonical) : Kept (execCas t port p s) := .next hs.packetIn

theorem execNotify_kept {t : Nat} {port : PortId} {p : Packet} {s : State} (hs : s.Canonical) : Kept (execNotify t port p s) :=
  .next hs.packetIn

theorem execEnvOpenOp_kept {t : Nat} {port : PortId} {p : Packet} {s : State} (hs : s.Canonical) : Kept (execEnvOpenOp t port p s) :=
  .next hs.packetIn

theorem execEnvCommitOp_kept {t : Nat} {port : PortId} {p : Packet} {s : State} (hs : s.Canonical) : Kept (execEnvCommitOp t port p s) :=
  .next hs.packetIn

theorem execEnvAbortOp_kept {t : Nat} {port : PortId} {p : Packet} {s : State} (hs : s.Canonical) : Kept (execEnvAbortOp t port p s) :=
  .next hs.packetIn

theorem execEnvStatusOp_kept {t : Nat} {port : PortId} {p : Packet} {s : State} (hs : s.Canonical) : Kept (execEnvStatusOp t port p s) :=
  .next hs.packetIn

theorem execFrame_kept {t : Nat} {port : PortId} {p : Packet} {s : State} (hs : s.Canonical) : Kept (execFrame t port p s) :=
  .next hs.packetIn

theorem State.Canonical.applyWord {s : State} {e : EngId} {cs : List Host.Cell} {w : Nat} {f : Flt}
    (hs : s.Canonical) : (s.applyWord e cs w f).Canonical := .ite hs.sideWrite (hs.foldl fun _ _ hs₁ => hs₁.sideWrite)

theorem State.Canonical.applyEnv {s : State} {a : EnvApply} {f : Flt} (hs : s.Canonical) : (s.applyEnv a f).Canonical :=
  .flushNotes (.updEnv (.loadPreloads (.foldl (.ite (hs.foldl fun _ _ hs₁ => hs₁.applyWord) (.corrected (hs.foldl
    fun _ _ hs₁ => hs₁.applyWord))) fun _ _ hs₁ => hs₁.actAtomic)))

theorem execEnvApply_kept {t : Nat} {e : EngId} {f : Flt} {s : State} (hs : s.Canonical) : Kept (execEnvApply t e f s) := by
  unfold Machine.execEnvApply
  refine .next ?_
  split
  · exact hs.advance
  · exact .ite hs.advance hs.advance.applyEnv.drainHeld

theorem execEnvCopyBack_kept {t : Nat} {p : PartId} {s : State} (hs : s.Canonical) : Kept (execEnvCopyBack t p s) :=
  .next (.ite hs.advance (.drainHeld (hs.advance.updPart fun _ hq => ⟨memWf_memPut hq.region _⟩)))

theorem State.Canonical.landFirst {s : State} {p : PartId} (hs : s.Canonical) : (s.landFirst p).Canonical := by
  unfold State.landFirst
  exact .updFab (hs.updFab.foldl fun _ _ hs₁ => hs₁.drainCtx)

theorem execEnvCommitCycle_kept {t : Nat} {p : PartId} {h : Half} {s : State} (hs : s.Canonical) : Kept (execEnvCommitCycle t p h s) := by
  unfold Machine.execEnvCommitCycle
  refine .next ?_
  split
  · exact hs.advance
  · exact .ite hs.advance (.drainHeld (.settleEnv (.ite hs.advance hs.advance.landFirst)))

/-! What `Machine/Links` defines keeps the memories canonical. -/

theorem State.Canonical.checkFarEnd {s : State} {port : LinkId} (hs : s.Canonical) : (s.checkFarEnd port).Canonical := .ite hs hs.updPort

theorem State.Canonical.linkLost {s : State} {port : LinkId} (hs : s.Canonical) : (s.linkLost port).Canonical :=
  .ite hs.portDown.updPort.leaveStep hs.portDown.updPort

theorem execIdent_kept {t : Nat} {port : LinkId} {identity : Dword} {farPort : Byte} {s : State}
    (hs : s.Canonical) : Kept (execIdent t port identity farPort s) := .next (.ite hs.advance hs.advance.heard.updPort.checkFarEnd)

theorem execIdle_kept {t : Nat} {port : LinkId} {s : State} (hs : s.Canonical) : Kept (execIdle t port s) :=
  .next (.ite hs.advance.heard hs.advance)

theorem State.Canonical.takeCredit {s : State} {port : LinkId} {link blocks : Half}
    (hs : s.Canonical) : (s.takeCredit port link blocks).Canonical := by
  unfold State.takeCredit
  split
  · exact hs
  · exact hs.updCtx

theorem execCredit_kept {t : Nat} {port : LinkId} {pairs : List (Half × Half)} {s : State}
    (hs : s.Canonical) : Kept (execCredit t port pairs s) := .next (.ite hs.advance (hs.advance.heard.foldl fun _ _ hs₁ => hs₁.takeCredit))

theorem execDepart_kept {t : Nat} {port : LinkId} {s : State} (hs : s.Canonical) : Kept (execDepart t port s) :=
  .next (.ite hs.advance.heard.updPort hs.advance)

theorem execBlockLockLoss_kept {t : Nat} {port : LinkId} {s : State} (hs : s.Canonical) : Kept (execBlockLockLoss t port s) :=
  .next (.ite hs.advance.linkLost hs.advance)

theorem execUncorrectableCodeword_kept {t : Nat} {port : LinkId} {s : State}
    (hs : s.Canonical) : Kept (execUncorrectableCodeword t port s) :=
  .next (.ite hs.advance (.ite hs.advance.updPort.linkLost hs.advance.updPort))

theorem execNoBlockTimeout_kept {t : Nat} {port : LinkId} {s : State} (hs : s.Canonical) : Kept (execNoBlockTimeout t port s) :=
  .next (.ite hs.advance.linkLost hs.advance)

theorem State.Canonical.lockPort {s : State} {port : LinkId} (hs : s.Canonical) : (s.lockPort port).Canonical := .ite hs hs.updPort

theorem execRetrainComplete_kept {t : Nat} {port : LinkId} {s : State} (hs : s.Canonical) : Kept (execRetrainComplete t port s) :=
  .next hs.advance.lockPort

theorem State.Canonical.sendBlocks {s : State} {port : LinkId} {more : List TxBlock}
    (hs : s.Canonical) : (s.sendBlocks port more).Canonical := hs.updPort

theorem execIdentSend_kept {t : Nat} {port : LinkId} {s : State} (hs : s.Canonical) : Kept (execIdentSend t port s) :=
  .next (.ite hs.advance (.ite hs.advance.sendBlocks (.ite hs.advance.sendBlocks.updPort hs.advance)))

theorem execIdleSend_kept {t : Nat} {port : LinkId} {s : State} (hs : s.Canonical) : Kept (execIdleSend t port s) :=
  .next (.ite hs.advance (.ite hs.advance.sendBlocks (.ite hs.advance hs.advance.sendBlocks)))

theorem State.Canonical.launch {s : State} {port : PortId} {x : TxPkt} (hs : s.Canonical) : (s.launch port x).Canonical := by
  unfold State.launch
  refine .updPort ?_
  split
  · refine .ite (.updFab ?_) ?_
    · split
      · exact hs
      · exact hs.updCtx
    · split
      · exact hs
      · exact hs.updCtx
  · refine .updJob (.ite (.updFab ?_) ?_)
    · split
      · exact hs
      · exact hs.updCtx
    · split
      · exact hs
      · exact hs.updCtx

theorem execEgressPacketStart_kept {t : Nat} {port : PortId} {s : State} (hs : s.Canonical) : Kept (execEgressPacketStart t port s) := by
  unfold Machine.execEgressPacketStart
  refine .next (.ite hs.advance.drainHeld ?_)
  split
  · exact hs.advance.drainHeld
  · exact .ite hs.advance.drainHeld hs.advance.drainHeld.updPort.launch

theorem State.Canonical.endOp {s : State} {o : OutOp} {st : Status} (hs : s.Canonical) : (s.endOp o st).Canonical :=
  .ite hs.updFab hs.updFab.deadLetter

theorem execResponse_kept {t : Nat} {port : PortId} {op : Byte} {p : Packet} {s : State} (hs : s.Canonical) :
    Kept (execResponse t port op p s) := by
  unfold execResponse
  extract_lets +onlyGivenNames s₁
  have h₁ : s₁.Canonical := hs.advance.heard
  refine .next (.ite h₁ (.ite h₁.dropPkt ?_))
  split
  · exact h₁.endOp
  · split
    · exact h₁
    · split
      · rename_i he
        exact h₁.authPkt.of_error he
      · rename_i he
        have h₂ := h₁.authPkt.of_ok he
        split
        · exact h₂
        · exact h₂.endOp

theorem execRemoteTimeout_kept {t : Nat} {port : PortId} {tag : Word} {s : State}
    (hs : s.Canonical) : Kept (execRemoteTimeout t port tag s) := by
  unfold Machine.execRemoteTimeout
  refine .next ?_
  split
  · exact hs.advance
  · exact .ite hs.advance.endOp hs.advance

theorem execTokenPeriod_kept {t : Nat} {s : State} (hs : s.Canonical) : Kept (execTokenPeriod t s) :=
  .next (.ite hs.advance hs.advance.updFab)

theorem execRefusalCapPeriod_kept {t : Nat} {s : State} (hs : s.Canonical) : Kept (execRefusalCapPeriod t s) :=
  .next (.ite hs.advance hs.advance.updFab)

/-! What `Machine/TwinCore` defines keeps the memories canonical. -/

theorem State.Canonical.driveTwin {s : State} (hs : s.Canonical) : s.driveTwin.Canonical := hs.updTwin

theorem State.Canonical.giveUp {s : State} (hs : s.Canonical) : s.giveUp.Canonical := .ite hs hs.twinSend.driveTwin.updTwin

/-! What `Machine/VidCmds` defines keeps the memories canonical. -/

theorem State.Canonical.openStream {s : State} {v : Stream} (hs : s.Canonical) : (s.openStream v).1.Canonical := by
  unfold State.openStream
  split
  · exact hs.ends
  · exact .gives (.vidHeader (.updVid (.ite hs hs.updPwr)))

theorem bodyVideoDecOpen_keeps : bodyVideoDecOpen.Keeps := by
  intro s m own r hs
  unfold Machine.bodyVideoDecOpen
  split
  · exact hs.ends
  · split
    · exact .fst_ite hs.ends (.fst_ite hs.ends (.fst_ite hs.ends (.fst_ite hs.ends hs.openStream)))
    · exact hs.ends

theorem execVideoDecOpen_kept {t : Nat} {r : MbxReq} {s : State} (hs : s.Canonical) : Kept (execVideoDecOpen t r s) :=
  .next (hs.ring bodyVideoDecOpen_keeps)

theorem bodyVideoEncOpen_keeps : bodyVideoEncOpen.Keeps := by
  intro s m own r hs
  unfold Machine.bodyVideoEncOpen
  split
  · exact hs.ends
  · exact .fst_ite hs.ends (.fst_ite hs.ends (.fst_ite hs.ends (.fst_ite hs.ends hs.openStream)))

theorem execVideoEncOpen_kept {t : Nat} {r : MbxReq} {s : State} (hs : s.Canonical) : Kept (execVideoEncOpen t r s) :=
  .next (hs.ring bodyVideoEncOpen_keeps)

theorem bodyVideoClose_keeps : bodyVideoClose.Keeps := by
  intro s m own r hs
  unfold Machine.bodyVideoClose
  split
  · exact hs.ends
  · exact .fst_ite hs.ends (.fst_ite hs.updStream.vidHeader.updVid.gives hs.updStream.vidHeader.updVid.updPwr.gives)

theorem execVideoClose_kept {t : Nat} {r : MbxReq} {s : State} (hs : s.Canonical) : Kept (execVideoClose t r s) :=
  .next (hs.ring bodyVideoClose_keeps)

theorem bodyVideoQuery_keeps : bodyVideoQuery.Keeps := by
  intro s m own r hs
  unfold Machine.bodyVideoQuery
  split
  · exact hs.ends
  · exact .fst_ite hs.ends (.fst_ite hs.ends hs.gives)

theorem execVideoQuery_kept {t : Nat} {r : MbxReq} {s : State} (hs : s.Canonical) : Kept (execVideoQuery t r s) :=
  .next (hs.ring bodyVideoQuery_keeps)

/-! What `Machine/Power` defines keeps the memories canonical. -/

theorem execPowerUp_kept {t : Nat} {c : PowerUpCond} {s : State} (hs : s.Canonical) : Kept (execPowerUp t c s) := by
  unfold Machine.execPowerUp
  refine .next (.ite hs.advance ?_)
  exact .ite hs.advance.updPwr (.ite hs.advance.updPwr ((hs.advance.wiped hs.advance.sms.unpowered).withRest))

theorem execClockSourceSelect_kept {t : Nat} {inRange : Bool} {s : State} (hs : s.Canonical) : Kept (execClockSourceSelect t inRange s) :=
  .next (.ite hs.advance hs.advance.updPwr.withRest)

theorem execRefLost_kept {t : Nat} {s : State} (hs : s.Canonical) : Kept (execRefLost t s) := .next (.ite hs.advance.updPwr hs.advance)

theorem execUvWarn_kept {t : Nat} {vin : Half} {s : State} (hs : s.Canonical) : Kept (execUvWarn t vin s) :=
  .next (.ite hs.advance hs.advance.updPwr)

theorem execOvervoltage_kept {t : Nat} {vin : Half} {s : State} (hs : s.Canonical) : Kept (execOvervoltage t vin s) :=
  .next (.ite hs.advance hs.advance.updPwr.cutPower)

theorem execEpo_kept {t : Nat} {s : State} (hs : s.Canonical) : Kept (execEpo t s) := .next hs.advance.cutPower.updPwr

theorem execThermalTrip_kept {t : Nat} {s : State} (hs : s.Canonical) : Kept (execThermalTrip t s) :=
  .next (.ite hs.advance.cutPower hs.advance)

theorem execRomStart_kept {t : Nat} {straps : BitVec 12} {par fuseOk : Bool} {s : State} (hs : s.Canonical) :
    Kept (execRomStart t straps par fuseOk s) := by
  unfold execRomStart
  extract_lets +onlyGivenNames s₁ s₂
  have h₂ : s₂.Canonical := .ite hs.advance.restart hs.advance
  exact .next (.ite h₂ (.updPwr (.updHost ((h₂.draw (n := 8)).updSec.updPart fun _ _ => ⟨rfl⟩))))

theorem State.Canonical.saveSettings {s : State} {format : Nat} (hs : s.Canonical) : (s.saveSettings format).Canonical :=
  { hs with fw := ⟨memWf_memWrite hs.fw.nor _ _⟩ }

theorem State.Canonical.applySettings {s : State} {b : List Byte} (hs : s.Canonical) : (s.applySettings b).Canonical :=
  hs.updBist.foldl fun _ _ hs₁ => hs₁.updEng

theorem State.Canonical.readSettings {s : State} (hs : s.Canonical) : s.readSettings.Canonical := by
  unfold State.readSettings
  extract_lets +onlyGivenNames format
  split
  · extract_lets +onlyGivenNames fw s₁
    have h₁ : s₁.Canonical := ⟨hs.eng, hs.host, hs.part, ⟨hs.fw.nor⟩, hs.sms⟩
    exact .ite h₁.applySettings h₁.saveSettings.updPwr
  · exact hs.saveSettings.updPwr

theorem State.Canonical.recover {s : State} {bad : List Nat} (hs : s.Canonical) : (s.recover bad).Canonical :=
  { hs with fw := hs.fw.same }

theorem State.Canonical.loadImages {s : State} {heads : List ImageHead} {plan : Option (Nat × Nat × Plan)} (hs : s.Canonical) :
    (s.loadImages heads plan).Canonical :=
  { hs with fw := hs.fw.same }

theorem State.Canonical.trainPorts {s : State} (hs : s.Canonical) : s.trainPorts.Canonical := by
  unfold State.trainPorts
  exact hs.updFab.updPwr

theorem execImagesVerified_kept {t : Nat} {bad : List (Fin 5)} {s : State} (hs : s.Canonical) : Kept (execImagesVerified t bad s) :=
  .next (.ite hs.advance (.ite hs.advance.recover hs.advance.loadImages.readSettings.trainPorts.updPwr))

theorem State.Canonical.loadUnit {s : State} {grp : Nat} (hs : s.Canonical) : (s.loadUnit grp).Canonical := by
  unfold State.loadUnit
  dsimp only
  split
  · exact hs.same
  · exact .ite hs.same (.ite hs.same.recordF.recordF hs.same.recordF)

theorem State.Canonical.loadFences {s : State} (hs : s.Canonical) : s.loadFences.Canonical := by
  unfold State.loadFences
  refine .foldl (.foldl (.withRest (hs.foldl fun s e hs₁ => .ite ?_ hs₁.updEng)) fun _ _ hs₁ => hs₁.loadUnit) fun _ _ hs₁ => .ite hs₁.updPort hs₁
  split
  · exact hs₁.updEng
  · exact hs₁.updEng.fenceEngine

theorem State.Canonical.sparePowerUp {s : State} {e : EngId} {found : List Nat} (hs : s.Canonical) : (s.sparePowerUp e found).Canonical := by
  unfold State.sparePowerUp
  dsimp only
  split
  · exact hs.updEng
  · exact hs.updEng.fenceEngine

theorem execStoreTested_kept {t : Nat} {res : List (EngId × List Nat)} {goldenOk : Bool} {s : State}
    (hs : s.Canonical) : Kept (execStoreTested t res goldenOk s) := by
  unfold Machine.execStoreTested
  refine .next (.ite hs.advance ?_)
  exact .updPwr (.updBist (.foldl (.loadFences (hs.advance.foldl fun _ _ hs₁ => hs₁.updEng fun _ hg =>
    { hg with store := rfl, act := rfl })) fun _ _ hs₁ => hs₁.sparePowerUp))

theorem execMemoryTrained_kept {t : Nat} {failed : Bool} {s : State} (hs : s.Canonical) : Kept (execMemoryTrained t failed s) :=
  .next (.ite hs.advance (.ite hs.advance.updPwr (.updPwr (hs.advance.updPart fun _ _ => ⟨rfl⟩))))

theorem execPortsLocked_kept {t : Nat} {locked : List LinkId} {s : State} (hs : s.Canonical) : Kept (execPortsLocked t locked s) :=
  .next (.ite hs.advance (.updPwr (hs.advance.foldl fun _ _ hs₁ => hs₁.lockPort)))

theorem execDomainRamp_kept {t : Nat} {d : Fin 162} {s : State} (hs : s.Canonical) : Kept (execDomainRamp t d s) := by
  unfold Machine.execDomainRamp
  refine .next (.ite hs.advance ?_)
  split
  · exact hs.advance.updPwr
  · exact hs.advance.updPwr.updEng fun _ hg => hg.zeroDomain

theorem State.Canonical.unopen {s : State} {u : VidId} (hs : s.Canonical) : (s.unopen u).Canonical := by
  unfold State.unopen
  dsimp only
  refine hs.updVid.foldl fun s i hs₁ => ?_
  split
  · exact hs₁
  · exact .ite hs₁.updMbx hs₁

theorem execDomainFault_kept {t : Nat} {d : Fin 162} {s : State} (hs : s.Canonical) : Kept (execDomainFault t d s) := by
  unfold Machine.execDomainFault
  refine .next (.ite hs.advance ?_)
  split
  · exact hs.advance.updPwr.fenceEngine
  · split
    · exact hs.advance.updPwr.endOutstanding
    · split
      · exact hs.advance.updPwr.unopen
      · split
        · exact hs.advance.updPwr.cvuFlush
        · exact hs.advance.updPwr

theorem State.Canonical.departAll {s : State} (hs : s.Canonical) : s.departAll.Canonical := hs.updFab

theorem State.Canonical.beginEject {s : State} {reboot : Bool} (hs : s.Canonical) : (s.beginEject reboot).Canonical :=
  .withRest (.updFab (.updHost (.foldl (.updBist (.endAll (.departAll (.abortEnvs (.ite hs.updPwr hs.updPwr.giveUp)))))
    fun _ _ hs₁ => hs₁.updEng fun _ hg => hg.dropSlice)))

theorem execEject_kept {t : Nat} {c : EjectCause} {s : State} (hs : s.Canonical) : Kept (execEject t c s) := by
  unfold Machine.execEject
  refine .next (.ite (.ite hs.advance.updPwr hs.advance) ?_)
  split
  · exact hs.advance.updPwr
  · exact hs.advance.beginEject

/-! What `Machine/Heat` defines keeps the memories canonical. -/

theorem State.Canonical.shedJobs {s : State} {sel : Job → Bool} (hs : s.Canonical) : (s.shedJobs sel).Canonical := hs.endAll

theorem State.Canonical.stopEncoder {s : State} (hs : s.Canonical) : s.stopEncoder.Canonical :=
  hs.foldl fun _ _ hs₁ => hs₁.endPicture.vidEvent

theorem State.Canonical.heatEffects {s : State} {level : Nat} (hs : s.Canonical) : (s.heatEffects level).Canonical := by
  unfold State.heatEffects
  refine .ite hs (.ite (.ite hs hs.shedJobs.stopEncoder) ?_)
  exact .ite hs.shedJobs.stopEncoder.giveUp hs.leaveStep.shedJobs.stopEncoder.updPwr

theorem execThermalSample_kept {t : Nat} {sensors : List (BitVec 12)} {s : State}
    (hs : s.Canonical) : Kept (execThermalSample t sensors s) :=
  .next (.ite hs.advance (.ite hs.advance.updPwr hs.advance.updPwr.heatEffects))

theorem execThermalLevelExit_kept {t : Nat} {s : State} (hs : s.Canonical) : Kept (execThermalLevelExit t s) :=
  .next (.ite hs.advance hs.advance.updPwr)

theorem State.Canonical.enterService {s : State} (hs : s.Canonical) : s.enterService.Canonical :=
  .heatEffects (hs.updPwr.foldl fun _ _ hs₁ => hs₁.checkFarEnd)

theorem execService_kept {t : Nat} {c : BitVec 12} {s : State} (hs : s.Canonical) : Kept (execService t c s) :=
  .next (.ite hs.advance (.ite hs.advance.updPwr.enterService hs.advance.updPwr.updPwr))

theorem execCoolantRecheck_kept {t : Nat} {c : BitVec 12} {s : State} (hs : s.Canonical) : Kept (execCoolantRecheck t c s) :=
  .next (.ite hs.advance (.ite hs.advance.updPwr.enterService hs.advance.updPwr.updPwr))

theorem execCoolantInletRange_kept {t : Nat} {c : BitVec 12} {s : State} (hs : s.Canonical) : Kept (execCoolantInletRange t c s) :=
  .next (.ite hs.advance hs.advance.updPwr)

theorem execTelemetryRefresh_kept {t : Nat} {s : State} (hs : s.Canonical) : Kept (execTelemetryRefresh t s) :=
  .next (.ite hs.advance hs.advance.fresh.updPwr)

theorem execSmbusRead_kept {t : Nat} {item : Byte} {s : State} (hs : s.Canonical) : Kept (execSmbusRead t item s) :=
  .next (.ite hs.advance hs.advance.updPwr)

theorem execSmbusWrite_kept {t : Nat} {s : State} (hs : s.Canonical) : Kept (execSmbusWrite t s) := .next hs.advance.updPwr

theorem execSmbusTimeout_kept {t : Nat} {s : State} (hs : s.Canonical) : Kept (execSmbusTimeout t s) := .next hs.advance

/-! What `Machine/FwCmds` defines keeps the memories canonical. -/

theorem bodyFwStage_keeps : bodyFwStage.Keeps := by
  intro s m own r hs
  unfold Machine.bodyFwStage
  refine .fst_ite hs.ends ?_
  split
  · exact hs.ends
  · refine .fst_ite hs.ends (.fst_ite hs.ends (.fst_ite hs.ends (.fst_ite hs.bulkRead.updFw.ends ?_)))
    refine .fst_ite (.ends (hs.bulkRead.updFw.updFw fun _ hx => ⟨memWf_memWrite hx.nor _ _⟩)) ?_
    exact .gives (hs.bulkRead.updFw.updFw fun _ hx => ⟨memWf_memWrite hx.nor _ _⟩)

theorem execFwStage_kept {t : Nat} {r : MbxReq} {s : State} (hs : s.Canonical) : Kept (execFwStage t r s) :=
  .next (hs.ring bodyFwStage_keeps)

theorem bodyFwVerify_keeps : bodyFwVerify.Keeps :=
  fun _ _ _ _ hs => .fst_ite hs.ends (.fst_ite hs.ends (.fst_ite hs.updFw.ends hs.updFw.gives))

theorem execFwVerify_kept {t : Nat} {r : MbxReq} {s : State} (hs : s.Canonical) : Kept (execFwVerify t r s) :=
  .next (hs.ring bodyFwVerify_keeps)

theorem State.Canonical.beginActivate {s : State} {type : Nat} {m : MbxId} (hs : s.Canonical) : (s.beginActivate type m).Canonical :=
  hs.updFw

theorem bodyFwActivate_keeps : bodyFwActivate.Keeps :=
  fun _ _ _ _ hs => .fst_ite hs.ends (.fst_ite hs.ends (.fst_ite hs.ends (.fst_ite hs.ends (.fst hs.beginActivate))))

theorem execFwActivate_kept {t : Nat} {r : MbxReq} {s : State} (hs : s.Canonical) : Kept (execFwActivate t r s) :=
  .next (hs.ring bodyFwActivate_keeps)

theorem State.Canonical.pollActivate {s : State} {m : MbxId} {r : MbxReq} (hs : s.Canonical) : (s.pollActivate m r).Canonical :=
  .ite hs (.mbxAnswer (hs.updFw fun _ hx => ⟨memWf_memWrite hx.nor _ _⟩))

theorem bodyFwStatus_keeps : bodyFwStatus.Keeps := fun _ _ _ _ hs => .fst_ite hs.ends hs.gives

theorem execFwStatus_kept {t : Nat} {r : MbxReq} {s : State} (hs : s.Canonical) : Kept (execFwStatus t r s) :=
  .next (hs.ring bodyFwStatus_keeps)

theorem bodyFwRestart_keeps : bodyFwRestart.Keeps := fun _ _ _ _ hs => .fst_ite hs.ends (.fst_ite hs.ends (.fst hs.beginEject))

theorem execFwRestart_kept {t : Nat} {r : MbxReq} {s : State} (hs : s.Canonical) : Kept (execFwRestart t r s) :=
  .next (hs.ring bodyFwRestart_keeps)

theorem bodySettingsSave_keeps : bodySettingsSave.Keeps := fun _ _ _ _ hs => .fst_ite hs.ends hs.saveSettings.gives

theorem execSettingsSave_kept {t : Nat} {r : MbxReq} {s : State} (hs : s.Canonical) : Kept (execSettingsSave t r s) :=
  .next (hs.ring bodySettingsSave_keeps)

theorem bodyRecInfo_keeps : bodyRecInfo.Keeps := fun _ _ _ _ hs => .fst_ite hs.ends hs.gives

theorem execRecInfo_kept {t : Nat} {r : MbxReq} {s : State} (hs : s.Canonical) : Kept (execRecInfo t r s) :=
  .next (hs.ring bodyRecInfo_keeps)

theorem bodyRecStage_keeps : bodyRecStage.Keeps := by
  intro s m own r hs
  unfold Machine.bodyRecStage
  dsimp only
  refine .fst_ite hs.ends (.fst_ite hs.ends (.fst_ite hs.ends ?_))
  exact .fst_ite hs.ends (.fst_ite hs.updFw.ends (.gives (hs.updFw.updFw fun _ hx => ⟨memWf_memWrite hx.nor _ _⟩)))

theorem execRecStage_kept {t : Nat} {r : MbxReq} {s : State} (hs : s.Canonical) : Kept (execRecStage t r s) :=
  .next (hs.ring bodyRecStage_keeps)

theorem bodyRecInstall_keeps : bodyRecInstall.Keeps :=
  fun _ _ _ _ hs => .fst_ite hs.ends (.fst_ite hs.ends (.fst_ite hs.ends (.fst_ite hs.ends (.fst hs.beginActivate))))

theorem execRecInstall_kept {t : Nat} {r : MbxReq} {s : State} (hs : s.Canonical) : Kept (execRecInstall t r s) :=
  .next (hs.ring bodyRecInstall_keeps)

theorem bodyRecRestart_keeps : bodyRecRestart.Keeps := fun _ _ _ _ hs => .fst_ite hs.ends (.fst hs.restart)

theorem execRecRestart_kept {t : Nat} {r : MbxReq} {s : State} (hs : s.Canonical) : Kept (execRecRestart t r s) :=
  .next (hs.ring bodyRecRestart_keeps)

/-! What `Machine/RegFile` defines keeps the memories canonical. -/

theorem Engine.Canonical.rcRead {g : Engine} {o v : Nat} (hg : g.Canonical) : (g.rcRead o v).Canonical := by
  unfold Engine.rcRead
  split
  · exact hg.same
  · exact hg.same
  · exact hg.same
  · exact hg.same
  · exact hg.same
  · exact hg.same
  · exact hg

theorem State.Canonical.rcRead {s : State} {b : RegBlock} {o v : Nat} (hs : s.Canonical) : (s.rcRead b o v).Canonical := by
  unfold State.rcRead
  split
  · exact hs.updEng fun _ hg => hg.rcRead
  · exact .ite hs.updKv hs
  · refine .ite hs.updHost ?_
    split
    · exact hs.updBulk
    · exact hs
  · refine .ite ?_ (.ite hs.updEnv (.ite hs.updVid (.ite hs.updBist hs)))
    split
    · exact hs.updPort
    · split
      · exact hs.updFab
      · exact hs

theorem Engine.Canonical.regWrite {g : Engine} {o v : Nat} (hg : g.Canonical) : (g.regWrite o v).Canonical := by
  unfold Engine.regWrite
  split
  · exact .ite hg hg.same
  · split
    · exact hg.same
    · exact hg.same
    · exact hg.same
    · exact hg.same
    · exact hg.same
    · exact hg.same
    · exact hg.same
    · exact hg

theorem State.Canonical.takeClear {s : State} {src : StopSrc} (hs : s.Canonical) : (s.takeClear src).Canonical := by
  unfold State.takeClear
  split
  · exact hs.updPwr
  · exact hs.updTwin
  · exact hs.updPwr

theorem State.Canonical.setUtc {s : State} {v : Nat} (hs : s.Canonical) : (s.setUtc v).Canonical := hs.updHost

theorem State.Canonical.setQuota {s : State} {w : WinId} {v : Nat} (hs : s.Canonical) : (s.setQuota w v).Canonical := hs.updWin

theorem State.Canonical.setHead {s : State} {p : PartId} {v : Nat} (hs : s.Canonical) : (s.setHead p v).Canonical := hs.updFab

theorem State.Canonical.hostRegWrite {s : State} {o v : Nat} (hs : s.Canonical) : (s.hostRegWrite o v).Canonical := by
  unfold State.hostRegWrite
  split
  · exact hs.setQuota
  · split
    · exact .ite hs.takeClear hs
    · exact hs.updHost
    · exact hs.setUtc
    · exact hs.updHost
    · exact hs

theorem State.Canonical.blockRegWrite {s : State} {k o v : Nat} (hs : s.Canonical) : (s.blockRegWrite k o v).Canonical := by
  unfold State.blockRegWrite
  split
  · split
    · exact hs.setHead
    · exact hs
  · exact hs.updEnv
  · exact hs.updFab
  · exact hs.same
  · exact hs.updVid
  · exact hs.updSec
  · exact hs.updSec
  · exact .ite hs.updBist hs
  · exact .ite hs.updBist hs
  · exact hs.updPwr
  · exact hs.updPwr
  · exact hs.updPwr
  · exact .ite hs.takeClear hs
  · exact hs.updTwin
  · exact .ite hs.takeClear hs
  · exact hs

theorem State.Canonical.regWrite {s : State} {b : RegBlock} {o v : Nat} (hs : s.Canonical) : (s.regWrite b o v).Canonical := by
  unfold State.regWrite
  refine .ite hs ?_
  split
  · exact hs.hostRegWrite
  · exact hs.updEng fun _ hg => hg.regWrite
  · exact hs.updKv
  · exact hs.blockRegWrite

/-! What `Machine/HostRows` defines keeps the memories canonical. -/

theorem State.Canonical.answer {s : State} {bs : List Byte} (hs : s.Canonical) : (s.answer bs).Canonical := hs.updHost

theorem State.Canonical.hostErr {s : State} {i : Nat} (hs : s.Canonical) : (s.hostErr i).Canonical := hs.updHost

theorem execModeRegisterWrite_kept {t : Nat} {ch : Fin 2} {mr v : Byte} {supported : Bool} {s : State}
    (hs : s.Canonical) : Kept (execModeRegisterWrite t ch mr v supported s) :=
  .next (.ite hs.advance (.ite hs.advance.updHost hs.advance.hostErr))

theorem execModeRegisterRead_kept {t : Nat} {ch : Fin 2} {mr : Byte} {s : State}
    (hs : s.Canonical) : Kept (execModeRegisterRead t ch mr s) := .next (.ite hs.advance.answer hs.advance)

theorem execUnsupportedCommand_kept {t : Nat} {_ch : Fin 2} {s : State} (hs : s.Canonical) : Kept (execUnsupportedCommand t _ch s) :=
  .next (.ite hs.advance.hostErr hs.advance)

theorem execRefresh_kept {t : Nat} {_ch : Fin 2} {s : State} (hs : s.Canonical) : Kept (execRefresh t _ch s) := .next hs.advance

theorem execHostPortTraining_kept {t : Nat} {ch : Fin 2} {s : State} (hs : s.Canonical) : Kept (execHostPortTraining t ch s) :=
  .next (.ite hs.advance.updHost hs.advance)

theorem execResetN_kept {t : Nat} {ch : Fin 2} {s : State} (hs : s.Canonical) : Kept (execResetN t ch s) := .next hs.advance.updHost

theorem execHstPostmarkLoRead_kept {t : Nat} {s : State} (hs : s.Canonical) : Kept (execHstPostmarkLoRead t s) :=
  .next (.ite hs.advance (.ite hs.advance.answer hs.advance.answer.rcRead))

theorem execRcFieldRead_kept {t : Nat} {addr : Word} {s : State} (hs : s.Canonical) : Kept (execRcFieldRead t addr s) := by
  unfold Machine.execRcFieldRead
  refine .next (.ite hs.advance ?_)
  split
  · exact .ite hs.advance.answer hs.advance.answer.rcRead
  · exact hs.advance.answer

theorem State.Canonical.hostWrite {s : State} {addr v : Nat} (hs : s.Canonical) : (s.hostWrite addr v).Canonical := by
  unfold State.hostWrite
  refine .ite hs (.ite hs.hostErr ?_)
  split
  · exact hs
  · exact hs.regWrite

theorem execRegisterWrite_kept {t : Nat} {addr : Word} {v : Dword} {s : State} (hs : s.Canonical) : Kept (execRegisterWrite t addr v s) :=
  .next hs.advance.hostWrite

theorem execUnmappedWrite_kept {t : Nat} {addr : Word} {s : State} (hs : s.Canonical) : Kept (execUnmappedWrite t addr s) :=
  .next (.ite hs.advance.hostErr hs.advance)

theorem execHstSafeStopClear_kept {t : Nat} {v : Word} {s : State} (hs : s.Canonical) : Kept (execHstSafeStopClear t v s) :=
  .next hs.advance.hostWrite

theorem execTwnControlClearStop_kept {t : Nat} {v : Word} {s : State} (hs : s.Canonical) : Kept (execTwnControlClearStop t v s) :=
  .next hs.advance.hostWrite

theorem execThmControlClearStop_kept {t : Nat} {v : Word} {s : State} (hs : s.Canonical) : Kept (execThmControlClearStop t v s) :=
  .next hs.advance.hostWrite

theorem execHstUtcHiWrite_kept {t : Nat} {v : Word} {s : State} (hs : s.Canonical) : Kept (execHstUtcHiWrite t v s) :=
  .next hs.advance.hostWrite

theorem execHstDwinQuotaWrite_kept {t : Nat} {w : WinId} {v : Word} {s : State} (hs : s.Canonical) : Kept (execHstDwinQuotaWrite t w v s) :=
  .next hs.advance.hostWrite

theorem execCrrDlqHeadWrite_kept {t : Nat} {p : PartId} {v : Word} {s : State} (hs : s.Canonical) : Kept (execCrrDlqHeadWrite t p v s) :=
  .next hs.advance.hostWrite

theorem DWin.Canonical.refill {w : DWin} (hw : w.Canonical) : w.refill.Canonical := .ite hw hw.same

theorem execDwinQuotaPeriod_kept {t : Nat} {s : State} (hs : s.Canonical) : Kept (execDwinQuotaPeriod t s) :=
  .next (.ite hs.advance (hs.advance.updHost fun _ hh => { hh with win := forall_getElem_map fun j => (hh.win j).refill }))

theorem State.Canonical.forwardRow {s : State} {d : DWin} {row off : Nat} {bs : List Byte} {f : Flt}
    (hs : s.Canonical) : (s.forwardRow d row off bs f).Canonical := .ite hs hs.sideWrite

theorem execHostDataRowWrite_kept {t : Nat} {w : WinId} {row off : Nat} {bs : List Byte} {f : Flt} {s : State}
    (hs : s.Canonical) : Kept (execHostDataRowWrite t w row off bs f s) := by
  unfold Machine.execHostDataRowWrite
  refine .next (.ite hs.advance.hostErr (.ite hs.advance (.ite (hs.advance.updWin fun _ hw => hw.store.ready) ?_)))
  exact .forwardRow (hs.advance.updWin fun _ hw => hw.store.ready)

theorem State.Canonical.refuseRow {s : State} {w : WinId} {row : Nat} {tag : Word} {st : Status} {predicted : Nat}
    (hs : s.Canonical) : (s.refuseRow w row tag st predicted).Canonical := hs.jobRow

theorem State.Canonical.windowTrigger {s : State} {w : WinId} {row : Nat} {tag : Word} {c : Schedule} {seq budget : Nat}
    (hs : s.Canonical) : (s.windowTrigger w row tag c seq budget).Canonical := by
  unfold State.windowTrigger
  extract_lets +onlyGivenNames d s₁ late
  have h₁ : s₁.Canonical := .ite hs hs.updWin
  refine .ite hs.refuseRow ?_
  split
  · exact h₁.refuseRow
  · split
    · rename_i he
      obtain rfl := State.takeJob_inl he
      exact h₁.refuseRow
    · rename_i he
      exact h₁.takeJob he

theorem execTriggerRecord_kept {t : Nat} {w : WinId} {bs : List Byte} {s : State} (hs : s.Canonical) : Kept (execTriggerRecord t w bs s) := by
  unfold Machine.execTriggerRecord
  dsimp only
  refine .next (.ite hs.advance (.ite hs.advance.hostErr ?_))
  split
  · exact hs.advance.hostErr
  · refine .ite hs.advance.hostErr ?_
    split
    · exact hs.advance.updWin.refuseRow
    · exact .ite hs.advance.updWin.refuseRow (.ite hs.advance.updWin.refuseRow hs.advance.updWin.windowTrigger)

theorem State.Canonical.forwardRows {s : State} {d : DWin} {row n : Nat} {bs : List Byte} (hs : s.Canonical) :
    (s.forwardRows d row n bs).Canonical := by
  induction n generalizing s row bs with
  | zero => exact hs
  | succ n ih => exact ih hs.forwardRow

theorem State.Canonical.openEntry {s s' : State} {w : WinId} {p : PartId} {bs plain : List Byte} (hs : s.Canonical)
    (he : s.openEntry w p bs = some (s', plain)) : s'.Canonical := by
  unfold State.openEntry at he
  obtain ⟨_, he⟩ | ⟨_, he⟩ := ite_eq_iff.mp he
  · cases he
  · split at he
    · cases he
    · obtain ⟨_, _, he⟩ := Option.map_eq_some_iff.mp he
      cases he
      exact hs.updPart

theorem execSealEntry_kept {t : Nat} {w : WinId} {entry : Nat} {bs : List Byte} {s : State} (hs : s.Canonical) :
    Kept (execSealEntry t w entry bs s) := by
  unfold execSealEntry
  extract_lets +onlyGivenNames s₁ d
  have h₁ : s₁.Canonical := hs.advance
  refine .next (.ite h₁.hostErr ?_)
  split
  · exact h₁
  · refine .ite h₁ ?_
    extract_lets +onlyGivenNames bs' s₂
    have h₂ : s₂.Canonical := h₁.updWin fun _ hw => hw.store.ready
    split
    · exact h₂.updSec.updWin
    · rename_i he
      exact (h₂.openEntry he).forwardRows

theorem State.Canonical.hostBulkPut {s : State} {a : PartId} {page off : Nat} {bs : List Byte} (hs : s.Canonical) :
    (s.hostBulkPut a page off bs).Canonical := by
  unfold State.hostBulkPut
  extract_lets +onlyGivenNames put
  have hput {s : State} {f : Frame} (hs : s.Canonical) (hf : f.Canonical) : (put s f).Canonical :=
    hs.updBulk fun _ hb => hb.put ⟨memWf_memWrite hf.bytes _ _⟩
  split
  · rename_i he
    exact hput hs ((hs.host.bulk _).frame? he)
  · split
    · rename_i he
      exact hput (hs.updBulk fun _ _ => (hs.host.bulk _).room he) ⟨rfl⟩
    · exact hs.updBulk.hostErr

theorem execBulkWrite_kept {t : Nat} {a : PartId} {off : Nat} {bs : List Byte} {s : State}
    (hs : s.Canonical) : Kept (execBulkWrite t a off bs s) :=
  .next (.ite hs.advance (.ite hs.advance.hostErr (hs.advance.foldl fun _ _ hs₁ => hs₁.hostBulkPut)))

theorem State.Canonical.touchPage {s : State} {a : PartId} {page : Nat} (hs : s.Canonical) : (s.touchPage a page).Canonical := by
  unfold State.touchPage
  dsimp only
  split
  · rename_i w he
    exact hs.updBulk fun _ hb => hb.put ((hs.host.bulk _).frame? he).same
  · split
    · exact hs
    · rename_i w he
      exact .ite hs (hs.updBulk fun _ _ => ((hs.host.bulk _).room he).put ⟨rfl⟩)

theorem execBulkRead_kept {t : Nat} {a : PartId} {off n : Nat} {s : State} (hs : s.Canonical) : Kept (execBulkRead t a off n s) :=
  .next (.ite hs.advance (.ite hs.advance.answer (hs.advance.answer.foldl fun _ _ hs₁ => hs₁.touchPage)))

theorem execBulkFetchDone_kept {t : Nat} {a : PartId} {page : Nat} {s : State} (hs : s.Canonical) : Kept (execBulkFetchDone t a page s) := by
  unfold Machine.execBulkFetchDone
  refine .next ?_
  split
  · exact hs.advance
  · rename_i w he
    exact .ite hs.advance (hs.advance.updBulk fun _ hb => hb.put ((hs.advance.host.bulk _).frame? he).fetched)

/-! What `Machine/Scrub` defines keeps the memories canonical. -/

theorem State.Canonical.openSlot {s : State} {p : PartId} (hs : s.Canonical) : (s.openSlot p).Canonical := by
  unfold State.openSlot
  extract_lets +onlyGivenNames s₁ s₂
  have h₁ : s₁.Canonical := hs.updFab
  have h₂ : s₂.Canonical := by
    simp only [s₂]
    split
    · exact h₁
    · rename_i he
      exact .ite h₁ (h₁.writeBack ((h₁.host.bulk p).frames _ (oldestDirty_mem he)))
  exact h₂.drainHeld

theorem execLpddrSlot_kept {t : Nat} {slot : Fin 32} {s : State} (hs : s.Canonical) : Kept (execLpddrSlot t slot s) := by
  unfold Machine.execLpddrSlot
  dsimp only
  refine .next (.ite hs.advance ?_)
  split
  · exact hs.advance.updFab
  · split
    · exact hs.advance.updFab.updPart.updEng
    · exact hs.advance.updFab.openSlot

theorem State.Canonical.moveXfer {s : State} {e : EngId} {j : Job} {x : Xfer} {f : Flt}
    (hs : s.Canonical) : (s.moveXfer e j x f).Canonical := by
  unfold State.moveXfer
  dsimp only
  refine .ite (.ite hs.updEng.failAt hs.updEng.sideWrite) ?_
  split
  · exact hs.updEng.corrected.failAt
  · exact .ite hs.updEng.corrected.failAt (hs.updEng.corrected.updPart fun _ hq => hq.regionWrite)

theorem execLpddrTransferDone_kept {t : Nat} {e : EngId} {f : Flt} {s : State} (hs : s.Canonical) : Kept (execLpddrTransferDone t e f s) := by
  unfold Machine.execLpddrTransferDone
  refine .next (hs.advance.foldl fun s x hs₁ => ?_)
  split
  · exact hs₁
  · exact .ite hs₁.moveXfer hs₁

theorem State.Canonical.passRow {s : State} {e : EngId} {row : Nat} (hs : s.Canonical) : (s.passRow e row).Canonical :=
  .ite hs (.ite hs.same hs.same)

theorem State.Canonical.corruptRow {s : State} {e : EngId} {row : Nat} {f : Flt} (hs : s.Canonical) : (s.corruptRow e row f).Canonical :=
  .ite hs (hs.updEng fun _ hg => { hg with store := memWf_memSet hg.store _ _ })

theorem execStoreScrub_kept {t : Nat} {e : EngId} {row : Nat} {f : Flt} {s : State} (hs : s.Canonical) : Kept (execStoreScrub t e row f s) :=
  .next (.ite hs.advance (.ite hs.advance.storeUe.updEng hs.advance.corrected.updEng.corruptRow.passRow))

theorem execActScrub_kept {t : Nat} {e : EngId} {f : Flt} {s : State} (hs : s.Canonical) : Kept (execActScrub t e f s) := by
  unfold Machine.execActScrub
  refine .next (.ite hs.advance ?_)
  split
  · exact hs.advance.updEng.actUe
  · exact hs.advance.updEng.corrected

theorem State.Canonical.endEpoch {s : State} {e : EngId} (hs : s.Canonical) : (s.endEpoch e).Canonical := by
  unfold State.endEpoch
  dsimp only
  refine .ite hs.updEng ?_
  split
  · exact hs.updEng
  · exact hs.updEng.event

theorem State.Canonical.compareEpochs {s : State} (hs : s.Canonical) : s.compareEpochs.Canonical := by
  unfold State.compareEpochs
  split
  · refine .ite hs ?_
    exact .ite hs.updTwin.leaveStep (.ite hs.updTwin (.ite hs.updTwin.updTwin.giveUp hs.updTwin.updTwin.driveTwin))
  · exact hs

theorem execDigestEpoch_kept {t : Nat} {s : State} (hs : s.Canonical) : Kept (execDigestEpoch t s) := by
  unfold Machine.execDigestEpoch
  refine .next (.ite hs.advance ?_)
  refine .ite (.compareEpochs (.updTwin (.twinSend (hs.advance.foldl fun _ _ hs₁ => hs₁.endEpoch)))) ?_
  exact hs.advance.foldl fun _ _ hs₁ => hs₁.endEpoch

theorem execLockstepMismatch_kept {t : Nat} {s : State} (hs : s.Canonical) : Kept (execLockstepMismatch t s) :=
  .next (.ite hs.advance hs.advance.event.giveUp.withRest.restart.updTwin)

/-! What `Machine/TwinCmds` defines keeps the memories canonical. -/

theorem State.Canonical.startPair {s : State} {role : TwinRole} (hs : s.Canonical) : (s.startPair role).Canonical := hs.updTwin

theorem bodyTwinPair_keeps : bodyTwinPair.Keeps := by
  intro s m own r hs
  unfold Machine.bodyTwinPair
  refine .fst_ite hs.ends ?_
  split
  · exact hs.ends
  · refine .fst_ite ?_ ?_
    · exact .fst_ite hs.ends (.fst_ite hs.ends (.fst_ite hs.ends (.fst_ite hs.ends hs.startPair.updTwin.gives)))
    · exact .fst_ite hs.ends (.fst_ite hs.ends (.fst_ite hs.ends hs.startPair.updTwin.gives))

theorem execTwinPair_kept {t : Nat} {r : MbxReq} {s : State} (hs : s.Canonical) : Kept (execTwinPair t r s) :=
  .next (hs.ring bodyTwinPair_keeps)

theorem bodyTwinResync_keeps : bodyTwinResync.Keeps := by
  intro s m own r hs
  unfold Machine.bodyTwinResync
  refine .fst_ite hs.ends ?_
  split
  · exact hs.gives
  · exact .fst_ite hs.ends (.fst_ite hs.ends (.fst hs.updTwin))
  · exact .fst_ite hs.ends (.fst_ite hs.ends (.fst hs.updTwin))
  · exact hs.ends

theorem execTwinResync_kept {t : Nat} {r : MbxReq} {s : State} (hs : s.Canonical) : Kept (execTwinResync t r s) :=
  .next (hs.ring bodyTwinResync_keeps)

theorem bodyTwinPermit_keeps : bodyTwinPermit.Keeps := by
  intro s m own r hs
  unfold Machine.bodyTwinPermit
  refine .fst_ite hs.ends ?_
  split
  · exact hs.ends
  · exact hs.updPart.gives

theorem execTwinPermit_kept {t : Nat} {r : MbxReq} {s : State} (hs : s.Canonical) : Kept (execTwinPermit t r s) :=
  .next (hs.ring bodyTwinPermit_keeps)

theorem bodyTwinGiveup_keeps : bodyTwinGiveup.Keeps := fun _ _ _ _ hs => .fst_ite hs.ends (.fst_ite hs.ends hs.giveUp.gives)

theorem execTwinGiveup_kept {t : Nat} {r : MbxReq} {s : State} (hs : s.Canonical) : Kept (execTwinGiveup t r s) :=
  .next (hs.ring bodyTwinGiveup_keeps)

/-! What `Machine/Commands` defines keeps the memories canonical. -/

theorem bodyCountersRead_keeps : bodyCountersRead.Keeps := by
  intro s m own r hs
  unfold Machine.bodyCountersRead
  split
  · exact hs.ends
  · exact .fst_ite hs.ends hs.gives

theorem execCountersRead_kept {t : Nat} {r : MbxReq} {s : State} (hs : s.Canonical) : Kept (execCountersRead t r s) :=
  .next (hs.ring bodyCountersRead_keeps)

theorem State.Canonical.takeIndex {s s' : State} {verified : Bool} {idx : Nat} (hs : s.Canonical)
    (he : s.takeIndex verified = some (idx, s')) : s'.Canonical := by
  unfold State.takeIndex at he
  obtain ⟨_, he⟩ | ⟨_, he⟩ := ite_eq_iff.mp he
  · cases he
  · cases he
    exact hs.updSec

theorem bodyAttest_keeps : bodyAttest.Keeps := by
  intro s m own r hs
  unfold bodyAttest
  split
  · exact hs.ends
  · refine .fst_ite hs.ends ?_
    split
    · exact hs.ends
    · rename_i he
      exact (hs.takeIndex he).gives

theorem execAttest_kept {t : Nat} {r : MbxReq} {s : State} (hs : s.Canonical) : Kept (execAttest t r s) := .next (hs.ring bodyAttest_keeps)

theorem bodyUnknown_keeps : bodyUnknown.Keeps := fun _ _ _ _ hs => hs.ends

theorem bodyInner_keeps {op : Nat} : (bodyInner op).Keeps := by
  unfold bodyInner
  split
  · exact bodyEcho_keeps
  · exact bodyFuncReset_keeps
  · exact bodyModelLoad_keeps
  · exact bodyDwinBind_keeps
  · exact bodyDwinRelease_keeps
  · exact bodyHistoryRead_keeps
  · exact bodyCkptConfig_keeps
  · exact bodyCkptRestore_keeps
  · exact bodyPartitionCreate_keeps
  · exact bodyPartitionDissolve_keeps
  · exact bodyPartitionLayout_keeps
  · exact bodyKeyInstall_keeps
  · exact bodyAttest_keeps
  · exact bodyLifecycleAdvance_keeps
  · exact bodyCountersRead_keeps
  · exact bodyPartnerOpen_keeps
  · exact bodyPartnerClose_keeps
  · exact bodyWindowGrant_keeps
  · exact bodyPlanLoad_keeps
  · exact bodyEnvOpen_keeps
  · exact bodyEnvCommit_keeps
  · exact bodyEnvAbort_keeps
  · exact bodyEnvStatus_keeps
  · exact bodyScheduleArm_keeps
  · exact bodyScheduleDisarm_keeps
  · exact bodyKvPoolConfig_keeps
  · exact bodyKvBind_keeps
  · exact bodyKvSeqOpen_keeps
  · exact bodyKvSeqTruncate_keeps
  · exact bodyKvSeqFree_keeps
  · exact bodyKvSeqQuery_keeps
  · exact bodyVideoDecOpen_keeps
  · exact bodyVideoEncOpen_keeps
  · exact bodyVideoClose_keeps
  · exact bodyVideoQuery_keeps
  · exact bodySmsQuery_keeps
  · exact bodyCvuSubmit_keeps
  · exact bodyTestKat_keeps
  · exact bodyBistSlice_keeps
  · exact bodyMarginSweep_keeps
  · exact bodyScanRun_keeps
  · exact bodyFenceLift_keeps
  · exact bodyMaintGrant_keeps
  · exact bodyTwinPair_keeps
  · exact bodyTwinResync_keeps
  · exact bodyTwinPermit_keeps
  · exact bodyTwinGiveup_keeps
  · exact bodyFwStage_keeps
  · exact bodyFwVerify_keeps
  · exact bodyFwActivate_keeps
  · exact bodyFwStatus_keeps
  · exact bodyFwRestart_keeps
  · exact bodySettingsSave_keeps
  · exact bodyRecInfo_keeps
  · exact bodyRecStage_keeps
  · exact bodyRecInstall_keeps
  · exact bodyRecRestart_keeps
  · exact bodyUnknown_keeps

theorem State.Canonical.ownerEnds {s : State} {p : PartId} {r : MbxReq} {st : Status}
    (hs : s.Canonical) : (s.ownerEnds p r st).1.Canonical := hs.doomNamed.ends

theorem bodyOwnerCmd_keeps : bodyOwnerCmd.Keeps := by
  intro s m own r hs
  unfold Machine.bodyOwnerCmd
  split
  · exact hs.ends
  · refine .fst_ite hs.ownerEnds ?_
    split
    · exact hs.ownerEnds
    · exact .fst_ite hs.updSec.ownerEnds (hs.updPart.updMbx.runBody bodyInner_keeps)

theorem execOwnerCmd_kept {t : Nat} {r : MbxReq} {s : State} (hs : s.Canonical) : Kept (execOwnerCmd t r s) :=
  .next (hs.ring bodyOwnerCmd_keeps)

theorem bodyOf_keeps {op : Nat} : (bodyOf op).Keeps := by
  unfold bodyOf
  split
  · exact bodyOwnerCmd_keeps
  · exact bodyInner_keeps

theorem execCommandWaitStart_kept {t : Nat} {m : MbxId} {s : State} (hs : s.Canonical) : Kept (execCommandWaitStart t m s) := by
  unfold Machine.execCommandWaitStart
  refine .next ?_
  split
  · exact hs.advance
  · exact .ite hs.advance (hs.advance.startCmd bodyOf_keeps)

theorem State.Canonical.poll {s : State} {m : MbxId} {c : RunCmd} (hs : s.Canonical) : (s.poll m c).Canonical := by
  unfold State.poll
  refine .ite hs (.ite hs.pollRelease ?_)
  exact .ite hs.pollDissolve (.ite hs.pollDisarm (.ite hs.pollRevoke (.ite hs.pollScan (.ite hs.pollActivate hs))))

theorem execMailboxResponse_kept {t : Nat} {m : MbxId} {s : State} (hs : s.Canonical) : Kept (execMailboxResponse t m s) := by
  unfold Machine.execMailboxResponse
  refine .next ?_
  split
  · exact hs.advance
  · exact .ite hs.advance hs.advance.poll.deliver

/-! What `Machine/EngineLoad` defines keeps the memories canonical. -/

theorem execLdv_kept {t : Nat} {e : EngId} {vline vlen : Nat} {f : Flt} {s : State} (hs : s.Canonical) : Kept (execLdv t e vline vlen f s) := by
  unfold Machine.execLdv
  refine .next (hs.engineOp fun s j hs₁ => .ite hs₁.badOp ?_)
  split
  · exact hs₁.failAt
  · exact hs₁.corrected.pend

theorem State.Canonical.loadTile {s : State} {e : EngId} {j : Job} {row : Nat} {reg : Bool} {sh : TileShape} {kv : Option KvDesc}
    {kvRow : Nat} {f : Flt} (hs : s.Canonical) : (s.loadTile e j row reg sh kv kvRow f).Canonical := by
  unfold State.loadTile
  dsimp only
  split
  · exact (hs.updEng fun _ hg => hg.setTile.same).corrected.pend
  · exact (hs.updEng fun _ hg => hg.setTile.same).corrected.pend.failAt

theorem execTld_kept {t : Nat} {e : EngId} {row : Nat} {reg : Bool} {shape : Nat} {f : Flt} {s : State}
    (hs : s.Canonical) : Kept (execTld t e row reg shape f s) := by
  unfold Machine.execTld
  refine .next (hs.engineOp fun s j hs₁ => ?_)
  split
  · exact hs₁.badOp
  · exact .ite hs₁.badOp hs₁.loadTile

theorem State.Canonical.kvUnderrun {s : State} {j : Job} (hs : s.Canonical) : (s.kvUnderrun j).Canonical := hs.endEarly.updKv

theorem Engine.Canonical.popPage {g : Engine} (hg : g.Canonical) : g.popPage.Canonical := by
  unfold Engine.popPage
  split
  · exact hg
  · exact hg.same

theorem execKvt_kept {t : Nat} {e : EngId} {row : Nat} {reg : Bool} {shape : Nat} {pop : Bool} {f : Flt} {s : State}
    (hs : s.Canonical) : Kept (execKvt t e row reg shape pop f s) := by
  unfold Machine.execKvt
  refine .next (hs.engineOp fun s j hs₁ => ?_)
  split
  · exact hs₁.kvUnderrun
  · split
    · exact hs₁.badOp
    · exact .ite hs₁.badOp (.ite (hs₁.loadTile.updEng fun _ hg => hg.popPage) hs₁.loadTile)

theorem execKva_kept {t : Nat} {e : EngId} {reg : Bool} {f : Flt} {s : State} (hs : s.Canonical) : Kept (execKva t e reg f s) := by
  unfold execKva
  dsimp only
  refine .next (hs.engineOp fun s j hs => .ite hs.badOp ?_)
  split
  · exact hs.kvUnderrun
  · split
    · exact hs.badOp
    · refine .ite hs.badOp (.pend (.ite (hs.updEng fun _ hg => hg.setTile.same) ((hs.updEng fun _ hg => hg.setTile.same).updEng ?_)))
      exact fun _ hg => { hg with store := memWf_memWrite hg.store _ _ }

theorem execMat_kept {t : Nat} {e : EngId} {m : MatSlot} {f : Flt} {s : State} (hs : s.Canonical) : Kept (execMat t e m f s) := by
  unfold Machine.execMat
  dsimp only
  refine .next (hs.engineOp fun s j hs₁ => ?_)
  split
  · exact hs₁.badOp
  · exact .ite hs₁.badOp (.ite hs₁ (.ite hs₁.updEng.failAt (.ite hs₁.updEng hs₁.updEng.pend)))

/-! What `Machine/TwinRecords` defines keeps the memories canonical. -/

theorem State.Canonical.recordIn {s : State} {t : Nat} {h : TwinHdr} {k : State → State}
    (hs : s.Canonical) (hk : ∀ s, s.Canonical → (k s).Canonical) : (s.recordIn t h k).Canonical := by
  unfold State.recordIn
  refine .ite hs.advance (.ite hs.advance.heard ?_)
  exact .ite (hk _ hs.advance.heard.updTwin) (.ite hs.advance.heard.leaveStep hs.advance.heard)

theorem State.Canonical.keepEvent {s : State} {due : Nat} {ev : FwdEvent} (hs : s.Canonical) : (s.keepEvent due ev).Canonical :=
  .ite hs (.ite hs.leaveStep.updTwin hs.updTwin)

theorem State.Canonical.sendAck {s : State} (hs : s.Canonical) : s.sendAck.Canonical := hs.twinSend

theorem execTwinAdmission_kept {t : Nat} {h : TwinHdr} {port : PortId} {op : Byte} {p : Packet} {last predicted : Dword} {s : State}
    (hs : s.Canonical) : Kept (execTwinAdmission t h port op p last predicted s) := .next (hs.recordIn fun _ hs₁ => hs₁.keepEvent)

theorem execTwinRelease_kept {t : Nat} {h : TwinHdr} {e : EngId} {job bundle : Nat} {s : State}
    (hs : s.Canonical) : Kept (execTwinRelease t h e job bundle s) := .next (hs.recordIn fun _ hs₁ => hs₁.keepEvent)

theorem execTwinCommand_kept {t : Nat} {h : TwinHdr} {opcode : Half} {r : MbxReq} {s : State}
    (hs : s.Canonical) : Kept (execTwinCommand t h opcode r s) := .next (hs.recordIn fun _ hs₁ => hs₁.keepEvent)

theorem execTwinPrepare_kept {t : Nat} {h : TwinHdr} {handle : Half} {s : State} (hs : s.Canonical) : Kept (execTwinPrepare t h handle s) :=
  .next (hs.recordIn fun _ hs₁ => .ite hs₁ hs₁.sendAck.updEnvelope.keepEvent)

theorem execTwinAbort_kept {t : Nat} {h : TwinHdr} {handle : Half} {s : State} (hs : s.Canonical) : Kept (execTwinAbort t h handle s) :=
  .next (hs.recordIn fun _ hs₁ => .ite hs₁ hs₁.sendAck.updTwin.keepEvent)

theorem State.Canonical.checkDigest {s : State} {x : PartId × Nat × Dword} (hs : s.Canonical) : (s.checkDigest x).Canonical := by
  unfold State.checkDigest
  split
  · exact hs.updTwin
  · exact .ite hs.updTwin hs.updTwin.leaveStep

theorem State.Canonical.takeReport {s : State} {b : ReportBody} (hs : s.Canonical) : (s.takeReport b).Canonical :=
  hs.updTwin.foldl fun _ _ hs₁ => hs₁.checkDigest

theorem execTwinReport_kept {t : Nat} {h : TwinHdr} {b : ReportBody} {s : State} (hs : s.Canonical) : Kept (execTwinReport t h b s) :=
  .next (hs.recordIn fun _ hs₁ => .ite hs₁.sendAck.takeReport hs₁)

theorem execTwinDigest_kept {t : Nat} {h : TwinHdr} {epoch : Nat} {digests : List Dword} {s : State}
    (hs : s.Canonical) : Kept (execTwinDigest t h epoch digests s) := .next (hs.recordIn fun _ hs₁ => hs₁.updTwin.compareEpochs)

theorem execTwinHeartbeat_kept {t : Nat} {h : TwinHdr} {claimOut _claimIn : Bool} {s : State}
    (hs : s.Canonical) : Kept (execTwinHeartbeat t h claimOut _claimIn s) :=
  .next (hs.recordIn fun _ hs₁ => .ite hs₁.updTwin (.ite hs₁.updTwin.updTwin hs₁.updTwin.updTwin.leaveStep))

theorem State.Canonical.resyncLost {s : State} (hs : s.Canonical) : s.resyncLost.Canonical := by
  unfold State.resyncLost
  refine .updTwin (.driveTwin ?_)
  split
  · exact hs
  · exact hs.mbxAnswer

theorem execTwinGiveupRecord_kept {t : Nat} {h : TwinHdr} {_cause : Byte} {b : ReportBody} {s : State}
    (hs : s.Canonical) : Kept (execTwinGiveupRecord t h _cause b s) :=
  .next (hs.recordIn fun _ hs₁ => .ite hs₁.updTwin.takeReport (.ite hs₁.resyncLost hs₁))

theorem State.Canonical.answerAborts {s : State} {l : List (Dword × PortId × Packet)} (hs : s.Canonical) : (s.answerAborts l).Canonical := by
  unfold State.answerAborts
  refine hs.foldl fun s x hs₁ => ?_
  split
  · exact hs₁
  · exact hs₁.respond

theorem execTwinAck_kept {t : Nat} {h : TwinHdr} {seq : Dword} {s : State} (hs : s.Canonical) : Kept (execTwinAck t h seq s) :=
  .next (hs.recordIn fun _ hs₁ => .ite hs₁ hs₁.updEnv.updTwin.answerAborts)

theorem State.Canonical.dropStandby {s : State} (hs : s.Canonical) : s.dropStandby.Canonical := hs.updTwin.answerAborts

theorem execTwinStepLeft_kept {t : Nat} {h : TwinHdr} {cause : Byte} {s : State} (hs : s.Canonical) : Kept (execTwinStepLeft t h cause s) :=
  .next (hs.recordIn fun _ hs₁ => .ite hs₁ (.ite hs₁.dropStandby.updTwin.driveTwin.updTwin hs₁.dropStandby.updTwin))

theorem State.Canonical.mirrorCmd {s : State} {opcode : Half} {r : MbxReq} (hs : s.Canonical) : (s.mirrorCmd opcode r).Canonical := by
  unfold State.mirrorCmd
  refine .ite ?_ (.ite ?_ ?_)
  · split
    · exact hs.fenceEngine
    · exact hs
  · split
    · exact .ite hs.writeRows hs.sideWrite
    · exact hs
  · refine hs.runBody ?_
    split
    · exact fun _ _ _ _ hs => hs.changeOrStage changeArm_keeps
    · exact bodyInner_keeps

theorem State.Canonical.copyItem {s s' : State} {i : CopyItem} (hs : s.Canonical) (he : s.copyItem i = some s') : s'.Canonical := by
  cases i with
  | setting _ _ => cases he; exact hs.mirrorCmd
  | kvSeq _ _ _ _ _ _ _ _ => cases he; exact hs.updKv
  | kvPage _ _ _ _ => cases he; exact hs.updKv
  | outcome _ _ _ _ _ _ _ _ => cases he; exact hs.updEnv
  | storeRow _ _ _ _ =>
    obtain ⟨_, he⟩ | ⟨_, he⟩ := ite_eq_iff.mp he
    · cases he; exact hs.writeRow
    · cases he
  | actPage _ _ _ => cases he; exact hs.sideWrite
  | lpddrPage _ _ _ => cases he; exact hs.updPart fun _ hq => hq.regionWrite
  | pigeonhole _ _ => cases he; exact hs.pghSet
  | passEnd _ => cases he; exact hs.updTwin

theorem execTwinCopy_kept {t : Nat} {h : TwinHdr} {item : CopyItem} {s : State} (hs : s.Canonical) : Kept (execTwinCopy t h item s) := by
  unfold execTwinCopy
  refine .next (hs.recordIn fun s hs => .ite hs ?_)
  extract_lets +onlyGivenNames ends'
  split
  · exact hs
  · rename_i he
    exact .ite (hs.copyItem he) (hs.copyItem he).updTwin

/-! What `Machine/Mirror` defines keeps the memories canonical. -/

theorem State.Canonical.mirrorJob {s : State} {port : PortId} {sch : Schedule} {op : Byte} {p : Packet} {t : Target}
    {last predicted : Nat} {rel : Option Nat}
    (hs : s.Canonical) : (s.mirrorJob port sch op p t last predicted rel).1.Canonical := hs.placeJob

theorem State.Canonical.mirrorOp {s : State} {port : PortId} {op : Byte} {p : Packet} {last predicted : Nat}
    (hs : s.Canonical) : (s.mirrorOp port op p last predicted).Canonical := by
  unfold State.mirrorOp
  dsimp only
  split
  · exact hs
  · refine .ite hs.updCtx.envPkt ?_
    split
    · exact hs.updCtx
    · refine .ite hs.updCtx.stagePkt ?_
      split
      · exact hs.updCtx.execOp
      · exact hs.updCtx.mirrorJob.execOp

theorem State.Canonical.silently {s : State} {k : State → State}
    (hs : s.Canonical) (hk : ∀ s, s.Canonical → (k s).Canonical) : (s.silently k).Canonical := .ite ((hk _ hs).updFab) (hk _ hs)

theorem State.Canonical.mirror {s : State} {x1 : FwdEvent} (hs : s.Canonical) : (s.mirror x1).Canonical := by
  unfold State.mirror
  split
  · exact hs.silently fun _ hs₁ => hs₁.mirrorOp
  · exact hs.mirrorRelease
  · exact hs.mirrorCmd
  · refine hs.silently fun s hs₁ => ?_
    split
    · exact hs₁
    · exact hs₁.settleEnv
  · exact hs.silently fun _ hs₁ => hs₁.abortNow

theorem State.Canonical.mirrorDissolve {s : State} {p : PartId} (hs : s.Canonical) : (s.mirrorDissolve p).Canonical := by
  unfold State.mirrorDissolve
  split
  · exact hs
  · exact .ite hs.finishDissolve hs

theorem execMirrorExecute_kept {t : Nat} {s : State} (hs : s.Canonical) : Kept (execMirrorExecute t s) := by
  unfold Machine.execMirrorExecute
  refine .next (.ite hs.advance ?_)
  refine .ite (.foldl (hs.advance.updTwin.foldl fun _ _ hs₁ => hs₁.mirror) fun _ _ hs₁ => hs₁.mirrorDissolve) ?_
  exact hs.advance.updTwin.foldl fun _ _ hs₁ => hs₁.mirror

theorem execHeartbeatSend_kept {t : Nat} {s : State} (hs : s.Canonical) : Kept (execHeartbeatSend t s) :=
  .next (.ite hs.advance hs.advance.twinSend.updTwin)

theorem execReportSend_kept {t : Nat} {s : State} (hs : s.Canonical) : Kept (execReportSend t s) :=
  .next (.ite hs.advance hs.advance.updTwin.twinSend)

theorem execClaimWatchdogExpiry_kept {t : Nat} {s : State} (hs : s.Canonical) : Kept (execClaimWatchdogExpiry t s) :=
  .next (.ite hs.advance.updTwin hs.advance)

theorem execClaimInChange_kept {t : Nat} {level : Bool} {s : State} (hs : s.Canonical) : Kept (execClaimInChange t level s) :=
  .next (.ite hs.advance hs.advance.updTwin)

theorem execHeartbeatLoss_kept {t : Nat} {s : State} (hs : s.Canonical) : Kept (execHeartbeatLoss t s) := by
  unfold Machine.execHeartbeatLoss
  refine .next (.ite hs.advance ?_)
  split
  · exact hs.advance.dropStandby.updTwin
  · exact .ite hs.advance.updTwin.leaveStep.updTwin hs.advance.updTwin
  · exact hs.advance.resyncLost
  · exact hs.advance

theorem State.Canonical.emitHeld {s : State} (hs : s.Canonical) : s.emitHeld.Canonical := hs.updTwin.foldl fun _ _ hs₁ => hs₁.queueTx

theorem State.Canonical.envAtTakeover {s : State} {aborted : List (PartId × Half)} {v : Envelope}
    (hs : s.Canonical) : (s.envAtTakeover aborted v).Canonical := .ite hs.abortNow (.ite hs.abortNow hs.settleEnv)

theorem execTakeover_kept {t : Nat} {s : State} (hs : s.Canonical) : Kept (execTakeover t s) := by
  unfold Machine.execTakeover
  refine .next (.ite hs.advance ?_)
  exact .emitHeld (.foldl (.withRest (hs.advance.updTwin.foldl fun _ _ hs₁ => hs₁.updCtx)) fun _ _ hs₁ => hs₁.envAtTakeover)

theorem State.Canonical.cutover {s : State} (hs : s.Canonical) : s.cutover.Canonical := by
  unfold State.cutover
  dsimp only
  refine .ite ?_ (.ite hs.updTwin ?_)
  · split
    · exact hs.updTwin
    · exact hs.updTwin.mbxAnswer.updTwin
  · split
    · exact hs.updTwin.updTwin
    · exact hs.updTwin.updTwin.mbxAnswer.updTwin

theorem execResyncCutover_kept {t : Nat} {s : State} (hs : s.Canonical) : Kept (execResyncCutover t s) := by
  unfold Machine.execResyncCutover
  refine .next ?_
  split
  · exact .ite hs.advance.cutover hs.advance
  · exact .ite hs.advance hs.advance.updTwin
  · exact hs.advance

/-! What `Machine/VecFloat` defines keeps the memories canonical. -/

theorem execVadd_kept {t : Nat} {e : EngId} {v : VecSlot} {f : Flt} {s : State} (hs : s.Canonical) : Kept (execVadd t e v f s) :=
  .next hs.vecOp

theorem execVsub_kept {t : Nat} {e : EngId} {v : VecSlot} {f : Flt} {s : State} (hs : s.Canonical) : Kept (execVsub t e v f s) :=
  .next hs.vecOp

theorem execVmul_kept {t : Nat} {e : EngId} {v : VecSlot} {f : Flt} {s : State} (hs : s.Canonical) : Kept (execVmul t e v f s) :=
  .next hs.vecOp

theorem execVfma_kept {t : Nat} {e : EngId} {v : VecSlot} {f : Flt} {s : State} (hs : s.Canonical) : Kept (execVfma t e v f s) :=
  .next hs.vecOp

theorem execVmax_kept {t : Nat} {e : EngId} {v : VecSlot} {f : Flt} {s : State} (hs : s.Canonical) : Kept (execVmax t e v f s) :=
  .next hs.vecOp

theorem execVmin_kept {t : Nat} {e : EngId} {v : VecSlot} {f : Flt} {s : State} (hs : s.Canonical) : Kept (execVmin t e v f s) :=
  .next hs.vecOp

theorem execVexp2_kept {t : Nat} {e : EngId} {v : VecSlot} {f : Flt} {s : State} (hs : s.Canonical) : Kept (execVexp2 t e v f s) :=
  .next hs.vecOp

theorem execVlog2_kept {t : Nat} {e : EngId} {v : VecSlot} {f : Flt} {s : State} (hs : s.Canonical) : Kept (execVlog2 t e v f s) :=
  .next hs.vecOp

theorem execVrcp_kept {t : Nat} {e : EngId} {v : VecSlot} {f : Flt} {s : State} (hs : s.Canonical) : Kept (execVrcp t e v f s) :=
  .next hs.vecOp

theorem execVrsqrt_kept {t : Nat} {e : EngId} {v : VecSlot} {f : Flt} {s : State} (hs : s.Canonical) : Kept (execVrsqrt t e v f s) :=
  .next hs.vecOp

theorem execVrsum_kept {t : Nat} {e : EngId} {v : VecSlot} {f : Flt} {s : State} (hs : s.Canonical) : Kept (execVrsum t e v f s) :=
  .next hs.vecOp

theorem execVrmax_kept {t : Nat} {e : EngId} {v : VecSlot} {f : Flt} {s : State} (hs : s.Canonical) : Kept (execVrmax t e v f s) :=
  .next hs.vecOp

theorem execVrmin_kept {t : Nat} {e : EngId} {v : VecSlot} {f : Flt} {s : State} (hs : s.Canonical) : Kept (execVrmin t e v f s) :=
  .next hs.vecOp

theorem execVcvt_kept {t : Nat} {e : EngId} {v : VecSlot} {f : Flt} {s : State} (hs : s.Canonical) : Kept (execVcvt t e v f s) :=
  .next hs.vecOp

theorem execVcvtmx_kept {t : Nat} {e : EngId} {v : VecSlot} {f : Flt} {s : State} (hs : s.Canonical) : Kept (execVcvtmx t e v f s) :=
  .next hs.vecOp

theorem execVext_kept {t : Nat} {e : EngId} {v : VecSlot} {f : Flt} {s : State} (hs : s.Canonical) : Kept (execVext t e v f s) :=
  .next hs.vecOp

/-! What `Machine/VecInt` defines keeps the memories canonical. -/

theorem execVpld_kept {t : Nat} {e : EngId} {v : VecSlot} {f : Flt} {s : State} (hs : s.Canonical) : Kept (execVpld t e v f s) :=
  .next hs.vecOp

theorem execReq_kept {t : Nat} {e : EngId} {v : VecSlot} {f : Flt} {s : State} (hs : s.Canonical) : Kept (execReq t e v f s) :=
  .next hs.vecOp

theorem execIadd_kept {t : Nat} {e : EngId} {v : VecSlot} {f : Flt} {s : State} (hs : s.Canonical) : Kept (execIadd t e v f s) :=
  .next hs.vecOp

theorem execIsub_kept {t : Nat} {e : EngId} {v : VecSlot} {f : Flt} {s : State} (hs : s.Canonical) : Kept (execIsub t e v f s) :=
  .next hs.vecOp

theorem execImul_kept {t : Nat} {e : EngId} {v : VecSlot} {f : Flt} {s : State} (hs : s.Canonical) : Kept (execImul t e v f s) :=
  .next hs.vecOp

theorem execIshl_kept {t : Nat} {e : EngId} {v : VecSlot} {f : Flt} {s : State} (hs : s.Canonical) : Kept (execIshl t e v f s) :=
  .next hs.vecOp

theorem execIshr_kept {t : Nat} {e : EngId} {v : VecSlot} {f : Flt} {s : State} (hs : s.Canonical) : Kept (execIshr t e v f s) :=
  .next hs.vecOp

theorem execIsra_kept {t : Nat} {e : EngId} {v : VecSlot} {f : Flt} {s : State} (hs : s.Canonical) : Kept (execIsra t e v f s) :=
  .next hs.vecOp

theorem execIand_kept {t : Nat} {e : EngId} {v : VecSlot} {f : Flt} {s : State} (hs : s.Canonical) : Kept (execIand t e v f s) :=
  .next hs.vecOp

theorem execIor_kept {t : Nat} {e : EngId} {v : VecSlot} {f : Flt} {s : State} (hs : s.Canonical) : Kept (execIor t e v f s) :=
  .next hs.vecOp

theorem execIxor_kept {t : Nat} {e : EngId} {v : VecSlot} {f : Flt} {s : State} (hs : s.Canonical) : Kept (execIxor t e v f s) :=
  .next hs.vecOp

theorem execImin_kept {t : Nat} {e : EngId} {v : VecSlot} {f : Flt} {s : State} (hs : s.Canonical) : Kept (execImin t e v f s) :=
  .next hs.vecOp

theorem execImax_kept {t : Nat} {e : EngId} {v : VecSlot} {f : Flt} {s : State} (hs : s.Canonical) : Kept (execImax t e v f s) :=
  .next hs.vecOp

theorem execIcmp_kept {t : Nat} {e : EngId} {v : VecSlot} {f : Flt} {s : State} (hs : s.Canonical) : Kept (execIcmp t e v f s) :=
  .next hs.vecOp

theorem execIadds_kept {t : Nat} {e : EngId} {v : VecSlot} {f : Flt} {s : State} (hs : s.Canonical) : Kept (execIadds t e v f s) :=
  .next hs.vecOp

theorem execIsubs_kept {t : Nat} {e : EngId} {v : VecSlot} {f : Flt} {s : State} (hs : s.Canonical) : Kept (execIsubs t e v f s) :=
  .next hs.vecOp

theorem execVsel_kept {t : Nat} {e : EngId} {v : VecSlot} {f : Flt} {s : State} (hs : s.Canonical) : Kept (execVsel t e v f s) :=
  .next hs.vecOp

theorem execVbcast_kept {t : Nat} {e : EngId} {v : VecSlot} {f : Flt} {s : State} (hs : s.Canonical) : Kept (execVbcast t e v f s) :=
  .next hs.vecOp

theorem execVargmax_kept {t : Nat} {e : EngId} {v : VecSlot} {f : Flt} {s : State} (hs : s.Canonical) : Kept (execVargmax t e v f s) :=
  .next hs.vecOp

theorem execVwin_kept {t : Nat} {e : EngId} {v : VecSlot} {f : Flt} {s : State} (hs : s.Canonical) : Kept (execVwin t e v f s) :=
  .next hs.vecOp

theorem execVs2d_kept {t : Nat} {e : EngId} {v : VecSlot} {f : Flt} {s : State} (hs : s.Canonical) : Kept (execVs2d t e v f s) :=
  .next hs.vecOp

theorem execVd2s_kept {t : Nat} {e : EngId} {v : VecSlot} {f : Flt} {s : State} (hs : s.Canonical) : Kept (execVd2s t e v f s) :=
  .next hs.vecOp

theorem execVkvp_kept {t : Nat} {e : EngId} {v : VecSlot} {f : Flt} {s : State} (hs : s.Canonical) : Kept (execVkvp t e v f s) :=
  .next hs.vecOp

/-! What `Machine/VidRun` defines keeps the memories canonical. -/

theorem State.Canonical.slotWrite {s : State} {v : Stream} {e : EngId} {line off : Nat} {bs : List Byte} {f : Flt}
    (hs : s.Canonical) : (s.slotWrite v e line off bs f).Canonical := .ite hs.vidEvent hs.sideWrite

theorem State.Canonical.bandOut {s : State} {v : Stream} {q : Picture} {e : EngId} {b : BandSrc} {f : Flt} (hs : s.Canonical) :
    (s.bandOut v q e b f).Canonical := by
  unfold State.bandOut
  extract_lets +onlyGivenNames src b line pitch first rows s₁ stat s₂ s₃
  have h₁ : s₁.Canonical := hs.foldl fun _ _ hs => hs.slotWrite
  have h₃ : s₃.Canonical := h₁.slotWrite.slotWrite
  exact h₃.pghNotify

theorem execBandWrite_kept {t : Nat} {stream : Fin 36} {b : BandSrc} {f : Flt} {s : State}
    (hs : s.Canonical) : Kept (execBandWrite t stream b f s) := by
  unfold Machine.execBandWrite
  refine .next ?_
  split
  · exact hs.advance
  · split
    · exact hs.advance
    · refine .ite hs.advance ?_
      split
      · exact hs.advance.updStream.vidEvent
      · refine .ite hs.advance.updStream.vidEvent ?_
        exact .ite (.ite hs.advance hs.advance.updStream.vidHeader) hs.advance.bandOut.updStream.updStream

theorem State.Canonical.seekAccess {s : State} {n : Nat} {reason : Byte} (hs : s.Canonical) : (s.seekAccess n reason).Canonical :=
  hs.dropPicture.updStream.vidHeader.vidEvent

theorem State.Canonical.takeChunk {s : State} {v : Stream} (hs : s.Canonical) : (s.takeChunk v).Canonical := by
  unfold State.takeChunk
  refine .ite hs ?_
  exact .ite hs.endPicture (.ite hs.pghTake.updStream.vidHeader.seekAccess hs.pghTake.updStream.vidHeader)

theorem State.Canonical.startPicture {s : State} {v : Stream} {poc : Word} {w h : Nat} {longTerm shortTerm inherited : Bool}
    (hs : s.Canonical) : (s.startPicture v poc w h longTerm shortTerm inherited).Canonical := by
  unfold State.startPicture
  refine .ite hs (.ite hs.seekAccess ?_)
  split
  · exact hs.updStream.vidHeader
  · exact hs.updStream.vidEntry

theorem State.Canonical.concealCtus {s : State} {v : Stream} {reason : Byte} {k : Nat}
    (hs : s.Canonical) : (s.concealCtus v reason k).Canonical := by
  unfold State.concealCtus
  split
  · exact hs
  · exact hs.updStream.updVid.vidHeader

theorem State.Canonical.putSamples {s : State} {v : Stream} {off : Nat} {bs : List Byte}
    (hs : s.Canonical) : (s.putSamples v off bs).Canonical := by
  unfold State.putSamples
  split
  · exact hs
  · exact .ite (.vidEvent (.ite hs.endPicture hs.vidPut)) (.ite hs.endPicture hs.vidPut)

theorem State.Canonical.finishPicture {s : State} {v : Stream} (hs : s.Canonical) : (s.finishPicture v).Canonical := by
  unfold State.finishPicture
  split
  · exact hs
  · exact .ite hs.updStream.vidEntry.vidHeader.vidEvent hs.updStream.vidEntry.vidHeader

theorem State.Canonical.outputPicture {s : State} {v : Stream} {k : Nat} (hs : s.Canonical) : (s.outputPicture v k).Canonical :=
  .ite hs hs.vidPut.updStream.pghNotify

theorem State.Canonical.takeInput {s : State} {v : Stream} (hs : s.Canonical) : (s.takeInput v).Canonical :=
  .ite hs (.ite hs.pghTake.updStream.vidHeader.encodeEnd.vidEvent hs.pghTake.updStream.vidHeader)

theorem State.Canonical.vidWork {s : State} {n : Nat} {w : VidWork} (hs : s.Canonical) : (s.vidWork n w).Canonical := by
  unfold State.vidWork
  split
  · exact hs
  · refine .ite ?_ ?_
    · split
      · exact hs.takeInput
      · exact hs
    · split
      · exact hs.takeChunk
      · exact hs.seekAccess
      · exact .ite hs.updStream.vidHeader hs
      · exact hs.startPicture
      · exact hs.concealCtus
      · exact hs.putSamples
      · exact hs.finishPicture
      · exact hs.vidMark
      · exact hs.outputPicture
      · exact hs

theorem State.Canonical.drainFrames {s : State} {v : Stream} (hs : s.Canonical) : (s.drainFrames v).Canonical := by
  unfold State.drainFrames
  refine .pghTake (.updStream (hs.foldl fun s f hs₁ => ?_))
  split
  · exact hs₁
  · exact hs₁.vidMark

theorem State.Canonical.drainStream {s : State} {v : Stream} (hs : s.Canonical) : (s.drainStream v).Canonical := by
  unfold State.drainStream
  dsimp only
  split
  · exact .ite hs.updStream.pghTake (.ite (.ite hs.drainFrames hs) (.pghTake (.updStream (.ite hs.drainFrames hs))))
  · refine .ite ?_ ?_
    · exact .vidHeader (.updStream (.ite hs.updStream.pghTake (.ite (.ite hs.drainFrames hs) (.pghTake (.updStream (.ite hs.drainFrames hs))))))
    · exact .ite hs.updStream.pghTake (.ite (.ite hs.drainFrames hs) (.pghTake (.updStream (.ite hs.drainFrames hs))))

theorem State.Canonical.beginVidSlot {s : State} {u : VidId} {p : PartId} {work : List (Fin 36 × VidWork)}
    (hs : s.Canonical) : (s.beginVidSlot u p work).Canonical := by
  unfold State.beginVidSlot
  dsimp only
  split
  · exact hs
  · exact hs.updVid

theorem State.Canonical.vidTurnWork {s : State} {u : VidId} {work : List (Fin 36 × VidWork)}
    (hs : s.Canonical) : (s.vidTurnWork u work).Canonical := by
  unfold State.vidTurnWork
  split
  · exact hs
  · exact .ite hs.drainStream (hs.drainStream.foldl fun _ _ hs₁ => hs₁.vidWork)

theorem execVideoSlot_kept {t : Nat} {u : VidId} {work : List (Fin 36 × VidWork)} {s : State}
    (hs : s.Canonical) : Kept (execVideoSlot t u work s) := by
  unfold Machine.execVideoSlot
  dsimp only
  refine .next (.ite hs.advance (.ite hs.advance.vidTurnWork (.ite hs.advance ?_)))
  split
  · exact hs.advance.updVid
  · exact hs.advance.updVid.beginVidSlot

theorem execAccessUnitWrite_kept {t : Nat} {stream : Fin 36} {bs : List Byte} {s : State}
    (hs : s.Canonical) : Kept (execAccessUnitWrite t stream bs s) := by
  unfold Machine.execAccessUnitWrite
  refine .next ?_
  split
  · exact hs.advance
  · refine .ite hs.advance (.ite hs.advance.encodeEnd.vidEvent ?_)
    exact .ite hs.advance.endPicture (.ite hs.advance.updStream.vidHeader hs.advance.vidPut.updStream.encodeEnd)

/-- Every command keeps the memories canonical. -/
theorem exec_kept {c : Instr} {s : State} (hs : s.Canonical) : Kept (exec c s) := by
  unfold exec
  split
  · exact execEcho_kept hs
  · exact execFuncReset_kept hs
  · exact execFuncResetQuiesce_kept hs
  · exact execModelLoad_kept hs
  · exact execDwinBind_kept hs
  · exact execDwinRelease_kept hs
  · exact execHistoryRead_kept hs
  · exact execCkptConfig_kept hs
  · exact execCkptRestore_kept hs
  · exact execPartitionCreate_kept hs
  · exact execPartitionDissolve_kept hs
  · exact execPartitionLayout_kept hs
  · exact execKeyInstall_kept hs
  · exact execAttest_kept hs
  · exact execLifecycleAdvance_kept hs
  · exact execOwnerCmd_kept hs
  · exact execCountersRead_kept hs
  · exact execPartnerOpen_kept hs
  · exact execPartnerClose_kept hs
  · exact execWindowGrant_kept hs
  · exact execPlanLoad_kept hs
  · exact execEnvOpen_kept hs
  · exact execEnvCommit_kept hs
  · exact execEnvAbort_kept hs
  · exact execEnvStatus_kept hs
  · exact execScheduleArm_kept hs
  · exact execScheduleDisarm_kept hs
  · exact execKvPoolConfig_kept hs
  · exact execKvBind_kept hs
  · exact execKvSeqOpen_kept hs
  · exact execKvSeqTruncate_kept hs
  · exact execKvSeqFree_kept hs
  · exact execKvSeqQuery_kept hs
  · exact execVideoDecOpen_kept hs
  · exact execVideoEncOpen_kept hs
  · exact execVideoClose_kept hs
  · exact execVideoQuery_kept hs
  · exact execSmsStatus_kept hs
  · exact execSmsFrank_kept hs
  · exact execSmsZero_kept hs
  · exact execSmsTare_kept hs
  · exact execSmsPresetTare_kept hs
  · exact execSmsTareClear_kept hs
  · exact execSmsRecords_kept hs
  · exact execSmsCheckpoint_kept hs
  · exact execSmsSwid_kept hs
  · exact execSmsParamLoad_kept hs
  · exact execSmStage_kept hs
  · exact execSmVerify_kept hs
  · exact execSmActivate_kept hs
  · exact execCvuSubmit_kept hs
  · exact execTestKat_kept hs
  · exact execBistSlice_kept hs
  · exact execMarginSweep_kept hs
  · exact execScanRun_kept hs
  · exact execFenceLift_kept hs
  · exact execMaintGrant_kept hs
  · exact execTwinPair_kept hs
  · exact execTwinResync_kept hs
  · exact execTwinPermit_kept hs
  · exact execTwinGiveup_kept hs
  · exact execFwStage_kept hs
  · exact execFwVerify_kept hs
  · exact execFwActivate_kept hs
  · exact execFwStatus_kept hs
  · exact execFwRestart_kept hs
  · exact execSettingsSave_kept hs
  · exact execRecInfo_kept hs
  · exact execRecStage_kept hs
  · exact execRecInstall_kept hs
  · exact execRecRestart_kept hs
  · exact execCommandWaitStart_kept hs
  · exact execMailboxResponse_kept hs
  · exact execPut_kept hs
  · exact execPutNotify_kept hs
  · exact execGet_kept hs
  · exact execFetchAdd_kept hs
  · exact execCas_kept hs
  · exact execNotify_kept hs
  · exact execEnvOpenOp_kept hs
  · exact execEnvCommitOp_kept hs
  · exact execEnvAbortOp_kept hs
  · exact execEnvStatusOp_kept hs
  · exact execFrame_kept hs
  · exact execResponse_kept hs
  · exact execIdent_kept hs
  · exact execIdle_kept hs
  · exact execCredit_kept hs
  · exact execDepart_kept hs
  · exact execBlockLockLoss_kept hs
  · exact execUncorrectableCodeword_kept hs
  · exact execNoBlockTimeout_kept hs
  · exact execRetrainComplete_kept hs
  · exact execIdentSend_kept hs
  · exact execIdleSend_kept hs
  · exact execEgressPacketStart_kept hs
  · exact execRemoteTimeout_kept hs
  · exact execTokenPeriod_kept hs
  · exact execDwinQuotaPeriod_kept hs
  · exact execRefusalCapPeriod_kept hs
  · exact execModeRegisterWrite_kept hs
  · exact execModeRegisterRead_kept hs
  · exact execUnsupportedCommand_kept hs
  · exact execRefresh_kept hs
  · exact execResetN_kept hs
  · exact execHostDataRowWrite_kept hs
  · exact execTriggerRecord_kept hs
  · exact execSealEntry_kept hs
  · exact execBulkWrite_kept hs
  · exact execBulkRead_kept hs
  · exact execBulkFetchDone_kept hs
  · exact execUnmappedWrite_kept hs
  · exact execHstPostmarkLoRead_kept hs
  · exact execRcFieldRead_kept hs
  · exact execHstSafeStopClear_kept hs
  · exact execTwnControlClearStop_kept hs
  · exact execThmControlClearStop_kept hs
  · exact execHstUtcHiWrite_kept hs
  · exact execHstDwinQuotaWrite_kept hs
  · exact execCrrDlqHeadWrite_kept hs
  · exact execRegisterWrite_kept hs
  · exact execJobStart_kept hs
  · exact execLdv_kept hs
  · exact execTld_kept hs
  · exact execKvt_kept hs
  · exact execKva_kept hs
  · exact execMat_kept hs
  · exact execVpld_kept hs
  · exact execReq_kept hs
  · exact execVadd_kept hs
  · exact execVsub_kept hs
  · exact execVmul_kept hs
  · exact execVfma_kept hs
  · exact execVmax_kept hs
  · exact execVmin_kept hs
  · exact execVexp2_kept hs
  · exact execVlog2_kept hs
  · exact execVrcp_kept hs
  · exact execVrsqrt_kept hs
  · exact execVrsum_kept hs
  · exact execVrmax_kept hs
  · exact execVrmin_kept hs
  · exact execVcvt_kept hs
  · exact execVcvtmx_kept hs
  · exact execVext_kept hs
  · exact execIadd_kept hs
  · exact execIsub_kept hs
  · exact execImul_kept hs
  · exact execIshl_kept hs
  · exact execIshr_kept hs
  · exact execIsra_kept hs
  · exact execIand_kept hs
  · exact execIor_kept hs
  · exact execIxor_kept hs
  · exact execImin_kept hs
  · exact execImax_kept hs
  · exact execIcmp_kept hs
  · exact execIadds_kept hs
  · exact execIsubs_kept hs
  · exact execVsel_kept hs
  · exact execVbcast_kept hs
  · exact execVargmax_kept hs
  · exact execVwin_kept hs
  · exact execVs2d_kept hs
  · exact execVd2s_kept hs
  · exact execVkvp_kept hs
  · exact execOut_kept hs
  · exact execOutn_kept hs
  · exact execLdr_kept hs
  · exact execLdw_kept hs
  · exact execWait_kept hs
  · exact execNote_kept hs
  · exact execWaitl_kept hs
  · exact execLoop_kept hs
  · exact execTest_kept hs
  · exact execEndJob_kept hs
  · exact execWaitRelease_kept hs
  · exact execWaitlRelease_kept hs
  · exact execEgressCreditRelease_kept hs
  · exact execWaitTimeout_kept hs
  · exact execLpddrSlot_kept hs
  · exact execLpddrTransferDone_kept hs
  · exact execJobCompletion_kept hs
  · exact execDeadlineMiss_kept hs
  · exact execSafeStopMinExpiry_kept hs
  · exact execCheckpointSeal_kept hs
  · exact execCheckpointMirror_kept hs
  · exact execStoreScrub_kept hs
  · exact execActScrub_kept hs
  · exact execDigestEpoch_kept hs
  · exact execHistoryProgram_kept hs
  · exact execLockstepMismatch_kept hs
  · exact execKvWalkStart_kept hs
  · exact execKvDescriptorEmit_kept hs
  · exact execKvPrefetch_kept hs
  · exact execKvSpillDone_kept hs
  · exact execKvPageReturn_kept hs
  · exact execEnvCommitCycle_kept hs
  · exact execEnvApply_kept hs
  · exact execEnvCopyBack_kept hs
  · exact execEnvLifetimeExpiry_kept hs
  · exact execTwinAdmission_kept hs
  · exact execTwinRelease_kept hs
  · exact execTwinCommand_kept hs
  · exact execTwinPrepare_kept hs
  · exact execTwinAbort_kept hs
  · exact execTwinReport_kept hs
  · exact execTwinDigest_kept hs
  · exact execTwinHeartbeat_kept hs
  · exact execTwinGiveupRecord_kept hs
  · exact execTwinAck_kept hs
  · exact execTwinCopy_kept hs
  · exact execTwinStepLeft_kept hs
  · exact execMirrorExecute_kept hs
  · exact execHeartbeatSend_kept hs
  · exact execReportSend_kept hs
  · exact execClaimWatchdogExpiry_kept hs
  · exact execHeartbeatLoss_kept hs
  · exact execClaimInChange_kept hs
  · exact execTakeover_kept hs
  · exact execResyncCutover_kept hs
  · exact execVideoSlot_kept hs
  · exact execBandWrite_kept hs
  · exact execAccessUnitWrite_kept hs
  · exact execCvuSlot_kept hs
  · exact execCvuJobStart_kept hs
  · exact execCvuJobEnd_kept hs
  · exact execCvuOverrun_kept hs
  · exact execSampleFrame_kept hs
  · exact execChannelFaultTimeout_kept hs
  · exact execZeroTracking_kept hs
  · exact execRecordToken_kept hs
  · exact execSmsCheckpointSign_kept hs
  · exact execAdjEn_kept hs
  · exact execSmsClockFault_kept hs
  · exact execSmsStart_kept hs
  · exact execSlice_kept hs
  · exact execSliceEnd_kept hs
  · exact execMaintGrantExpiry_kept hs
  · exact execPowerUp_kept hs
  · exact execClockSourceSelect_kept hs
  · exact execRomStart_kept hs
  · exact execImagesVerified_kept hs
  · exact execStoreTested_kept hs
  · exact execMemoryTrained_kept hs
  · exact execPortsLocked_kept hs
  · exact execService_kept hs
  · exact execCoolantRecheck_kept hs
  · exact execDomainRamp_kept hs
  · exact execDomainFault_kept hs
  · exact execUvWarn_kept hs
  · exact execEject_kept hs
  · exact execOvervoltage_kept hs
  · exact execEpo_kept hs
  · exact execRefLost_kept hs
  · exact execThermalSample_kept hs
  · exact execThermalLevelExit_kept hs
  · exact execThermalTrip_kept hs
  · exact execKeyDestroy_kept hs
  · exact execSmbusRead_kept hs
  · exact execSmbusWrite_kept hs
  · exact execSmbusTimeout_kept hs
  · exact execTelemetryRefresh_kept hs
  · exact execEngineZeroingDone_kept hs
  · exact execCoolantInletRange_kept hs
  · exact execHostPortTraining_kept hs

theorem Kept.canonical {o : Host.Outcome State Fault Refusal} {s : State} (ho : Kept o) (he : o = .next s) : s.Canonical := by
  subst he
  cases ho
  assumption

/-- A step carries out the front command, which keeps the memories canonical, or idles. -/
theorem step_canonical {s s' : State} (hs : s.Canonical) (he : step s = .next s') : s'.Canonical := by
  unfold step at he
  split at he
  · cases he
    exact hs
  · exact (exec_kept hs.same).canonical he

end Sys2Proof.Machine

namespace Sys2Proof.Proofs
open Sys2Proof Sys2Proof.Machine

/-- Settles O4: nothing is listed in any memory after reset. -/
theorem resetMemoriesReadZero : Obligations.ResetMemoriesReadZero := by
  unfold Obligations.ResetMemoriesReadZero
  refine ⟨(State.canonical_iff _).mp State.canonical_reset, fun a => ⟨?_, ?_, ?_⟩⟩
  · exact forall_getElem_replicate (P := fun g : Engine => memGet g.store a = 0 ∧ memGet g.act a = 0) ⟨rfl, rfl⟩
  · exact forall_getElem_replicate (P := fun w : DWin => memGet w.rows a = 0) rfl
  · exact forall_getElem_set (P := fun q : Partition => memGet q.region a = 0) (i := (0 : PartId))
      (forall_getElem_replicate (P := fun q : Partition => memGet q.region a = 0) rfl) rfl

/-- Settles O3: the invariant is `State.Canonical`, block by block; each function of the model that changes a state keeps it, so each
command does, and a step is the front command or idles. -/
theorem everyStepKeepsTheMemoriesCanonical : Obligations.EveryStepKeepsTheMemoriesCanonical := by
  unfold Obligations.EveryStepKeepsTheMemoriesCanonical
  intro s s' hs he
  exact (State.canonical_iff s').mp (step_canonical ((State.canonical_iff s).mpr hs) he)

end Sys2Proof.Proofs

namespace Sys2Proof.Machine

/-! Tile loads (R83, R90). -/

/-- An effect due now lands at once; the others follow. -/
theorem State.pend_cons_now {s : State} (e : EngId) (j : Job) (vec : Bool) {x : Nat × LandEff} (l : List (Nat × LandEff)) (hx : x.1 ≤ s.now) :
    s.pend e j vec (x :: l) = (s.updEng e fun g => g.land x.1 vec x.2).pend e j vec l := by
  simp only [State.pend, List.foldl_cons, if_pos hx]

/-- The first row of a tile lands in the cycle of its load, each other one a cycle after the row before. -/
theorem tileLandings_succ (store : Mem) (t row : Nat) (reg : Bool) (sh : TileShape) (n : Nat) :
    tileLandings store t row reg sh (n + 1) =
      (t, Cert.tileRow store row reg sh 0) :: (List.range n).map fun r => (t + (r + 1), Cert.tileRow store row reg sh (r + 1)) := by
  rw [tileLandings, List.range_succ_eq_map, List.map_cons, List.map_map]
  rfl

/-- A load changes only its register of an engine; the row that lands keeps the hold of the port. -/
theorem Engine.land_tileRow_hold (g : Engine) (t : TileReg) (n d row : Nat) (store : Mem) (reg : Bool) (sh : TileShape) :
    ({ g.setTile reg t with portFrom := n } : Engine).land d false (Cert.tileRow store row reg sh 0) =
      { (g.setTile reg t).land d false (Cert.tileRow store row reg sh 0) with portFrom := n } := by
  cases reg <;> rfl

/-- A load of rows none of which is uncorrectable. -/
theorem State.loadTile_good {u : State} {e : EngId} {j : Job} {row : Nat} {reg : Bool} {sh : TileShape} {kv : Option KvDesc} {kvRow : Nat}
    (hrows : 0 < tileRows sh) (hgood : ∀ r < tileRows sh, row + r ∉ u.eng[e].mem.storeBad) :
    u.loadTile e j row reg sh kv kvRow {} = Cert.loading u e j row reg sh kv kvRow := by
  have hbad : ((List.range (tileRows sh)).find? fun r =>
      u.eng[e].mem.storeBad.contains (row + r) || (none : Option Nat) == some (row + r)) = none := by
    simpa [List.find?_eq_none] using hgood
  obtain ⟨n, hn⟩ : ∃ n, tileRows sh = n + 1 := ⟨_, (Nat.succ_pred_eq_of_pos hrows).symm⟩
  unfold State.loadTile Cert.loading
  simp only [hbad, Option.getD_none, State.corrected_zero]
  rw [hn, tileLandings_succ, State.pend_cons_now _ _ _ _ le_rfl, State.updEng_updEng, State.pend_later]
  · simp only [State.updEng_now, State.updEng_self, Engine.land_tileRow_hold, List.map_map, Nat.add_sub_cancel]
    simp [State.updEng, Function.comp_def]
  · simp

/-- KVT whose head descriptor's rows are good. -/
theorem State.engineOp_kvt {s : State} {t : Nat} {e : EngId} {row shape : Nat} {reg pop : Bool} {sh : TileShape} {j : Job} {d : KvDesc}
    {q : List KvDesc} (hj : (s.advance t).issuing e = some j) (hsh : (imageOn j e).shapes[shape]? = some sh) (hrows : 0 < tileRows sh)
    (hport : (s.advance t).eng[e].portFrom ≤ (s.advance t).now) (hq : (s.advance t).eng[e].pageQueue = d :: q)
    (hstore : d.pageRow + row + tileRows sh ≤ 8192) (hgood : ∀ r < tileRows sh, d.pageRow + row + r ∉ (s.advance t).eng[e].mem.storeBad) :
    exec (.kvt t e row reg shape pop {}) s = .next (
      let w := Cert.loading (s.advance t) e j (d.pageRow + row) reg sh (some d) row
      if pop then w.updEng e Engine.popPage else w) := by
  have hfree : ¬ (8192 < d.pageRow + row + tileRows sh ∨ (s.advance t).now < (s.advance t).eng[e].portFrom) := by omega
  rw [exec_kvt, execKvt, State.engineOp_issuing hj]
  simp only [hq, hsh, if_neg hfree, State.loadTile_good hrows hgood]

end Sys2Proof.Machine

namespace Sys2Proof.Proofs

open Sys2Proof Sys2Proof.Machine

/-- Settles O14: a load without an uncorrectable row is `Cert.loading` (`State.loadTile_good`), and the conditions rule out every other
branch of TLD and KVT. -/
theorem tileLoadsBringOneRowPerCycle : Obligations.TileLoadsBringOneRowPerCycle := by
  unfold Obligations.TileLoadsBringOneRowPerCycle
  intro s t e row reg shape sh j u g good hj hsh hrows hport
  refine ⟨fun ⟨hstore, hgood⟩ => ?_, fun d q hq ⟨hstore, hgood⟩ => ⟨?_, ?_⟩, fun hq pop => ?_⟩
  · have hfree : ¬ (8192 < row + tileRows sh ∨ u.now < u.eng[e].portFrom) := not_or.mpr ⟨hstore.not_gt, Nat.not_lt.mpr hport⟩
    rw [exec_tld, execTld, State.engineOp_issuing hj]
    simp only [hsh, if_neg hfree, State.loadTile_good hrows hgood, u]
  · exact State.engineOp_kvt hj hsh hrows hport hq hstore hgood
  · exact State.engineOp_kvt hj hsh hrows hport hq hstore hgood
  · have hq : (s.advance t).eng[e].pageQueue = [] := hq
    rw [exec_kvt, execKvt, State.engineOp_issuing hj]
    simp only [hq, State.kvUnderrun, u]

end Sys2Proof.Proofs

namespace Sys2Proof.Machine

/-! The scrubbers (R84, R99-R101, R376). -/

theorem State.live_updEng {w : State} {e : EngId} {f : Engine → Engine} (hf : (f w.eng[e]).fenced = w.eng[e].fenced) (p : PartId) :
    (w.updEng e f).live p = w.live p := by
  refine List.filter_congr fun d _ => ?_
  by_cases hd : d = e
  · subst hd
    simp only [State.owns, State.updEng_part, State.updEng_self, hf]
  · simp only [State.owns, State.updEng_part, State.updEng_ne hd]

/-- Whether a row's digest is taken depends on the KV rows, the digests and the fences of the engines only. -/
theorem State.digestRow_updEng {w : State} {e : EngId} {f : Engine → Engine} (hkv : (f w.eng[e]).kvSteps = w.eng[e].kvSteps)
    (hdig : (f w.eng[e]).digests = w.eng[e].digests) (hfenced : (f w.eng[e]).fenced = w.eng[e].fenced) (row : Nat) :
    (w.updEng e f).digestRow e row = w.digestRow e row := by
  simp only [State.digestRow, State.rowArmed, State.updEng_self, hkv, hdig, State.live_updEng hfenced, State.updEng_scheds]
  rfl

/-! A scrubbed row on its way to the check-value units: one without a digest, one that finds room, one that finds none. -/

theorem State.passRow_other {w : State} {e : EngId} {row : Nat} (h : w.digestRow e row = false) : w.passRow e row = w := by
  simp only [State.passRow, h, Bool.false_eq_true, not_false_eq_true, if_true]

theorem State.passRow_room {w : State} {e : EngId} {row : Nat} (h : w.digestRow e row = true) (hroom : w.cvu.digestRows.length < 64) :
    w.passRow e row = { w with cvu := { w.cvu with digestRows := w.cvu.digestRows ++
      [(e, row, BitVec.ofNat 64 (rowDigest row (memRead w.eng[e].store (16384 * row) 16384)))] } } := by
  simp only [State.passRow, h, not_true_eq_false, if_false, if_neg hroom.not_ge]

theorem State.passRow_full {w : State} {e : EngId} {row : Nat} (h : w.digestRow e row = true) (hfull : 64 ≤ w.cvu.digestRows.length) :
    w.passRow e row = { w with cvu := { w.cvu with event := setBit w.cvu.event 4 } } := by
  simp only [State.passRow, h, not_true_eq_false, if_false, if_pos hfull]

theorem State.corruptRow_none {w : State} {e : EngId} {row : Nat} {f : Flt} (hf : f.mechs = []) : w.corruptRow e row f = w := by
  simp [State.corruptRow, hf]

/-- A row that is known as uncorrectable gives no further event. -/
theorem State.storeUe_known {w : State} {e : EngId} {row : Nat} (hbad : row ∈ w.eng[e].mem.storeBad) (j : Option Job) (bundle : Nat) :
    w.storeUe e row j bundle = w.updEng e fun g => { g with mem := g.mem.storeUncorrectable row } := by
  have hknown : w.eng[e].mem.storeBad.contains row = true := List.contains_iff_mem.mpr hbad
  rw [State.storeUe, hknown]
  rfl

theorem Engine.mayScrub_eq {g : Engine} {now row : Nat} (hclk : g.clkNominal = true) (hrow : row < 8192) (hport : g.portFree now = true)
    (hseen : hasBit g.mem.scrubSeen row = false) : g.mayScrub now row = true := by
  simp [Engine.mayScrub, hclk, hrow, hport, hseen]

theorem Engine.mayScrub_eq_false {g : Engine} {now row : Nat}
    (h : g.portFree now = false ∨ (hasBit g.mem.scrubSeen row = true ∧ g.mem.scrubSeen ≠ BitVec.allOnes 8192)) :
    g.mayScrub now row = false := by
  rcases h with h | ⟨hseen, hall⟩
  · simp only [Engine.mayScrub, h, Bool.and_false, Bool.false_and]
  · simp only [Engine.mayScrub, hseen, hall, decide_false, Bool.not_true, Bool.or_self, Bool.and_false]

/-- The store port and the memory's health after the scrubber has read a good row. -/
def Engine.scrubRead (now row n : Nat) (g : Engine) : Engine :=
  { g with
    portTaken := some (if 0 < n then now + 1 else now)
    mem := (g.mem.corrected false n).scrubbed now row (decide (0 < n)) }

/-- A scrubbed row that is not known as uncorrectable, and of which nothing else is reported. -/
theorem execStoreScrub_good {s : State} {t : Nat} {e : EngId} {row n : Nat} (hmay : (s.advance t).eng[e].mayScrub (s.advance t).now row = true)
    (hbad : row ∉ (s.advance t).eng[e].mem.storeBad) :
    execStoreScrub t e row { corrected := n } s =
      .next (((s.advance t).updEng e (Engine.scrubRead (s.advance t).now row n)).passRow e row) := by
  unfold execStoreScrub
  simp only [hmay, List.contains_iff_mem, hbad, State.corruptRow_none, State.corrected, State.updEng_updEng]
  simp only [not_true_eq_false, if_false, reduceCtorEq, or_self, Engine.takePort, decide_eq_true_eq]
  rfl

/-- A scrubbed row that is known as uncorrectable gives no event but counts in the pass. -/
theorem execStoreScrub_bad {s : State} {t : Nat} {e : EngId} {row : Nat} (hmay : (s.advance t).eng[e].mayScrub (s.advance t).now row = true)
    (hbad : row ∈ (s.advance t).eng[e].mem.storeBad) :
    execStoreScrub t e row {} s = .next ((s.advance t).updEng e fun g =>
      { g with portTaken := some (s.advance t).now, mem := (g.mem.storeUncorrectable row).scrubbed (s.advance t).now row false }) := by
  unfold execStoreScrub
  simp only [hmay, List.contains_iff_mem, hbad, or_true, if_true, not_true_eq_false, if_false, State.storeUe_known, State.updEng_updEng]
  rfl

theorem State.digestRow_scrubRead {w : State} {e : EngId} {row now n : Nat} :
    (w.updEng e (Engine.scrubRead now row n)).digestRow e row = w.digestRow e row := State.digestRow_updEng rfl rfl rfl row

/-- A row corrected in the two passes before, and in this one, is marked for sparing. -/
theorem MemHealth.mem_storeMarked_scrubbed {m : MemHealth} {row : Nat} (now : Nat) (hstreak : assoc row m.storeStreak = some 2) :
    row ∈ (m.scrubbed now row true).storeMarked := by
  simp only [MemHealth.scrubbed, if_true, hstreak, Option.getD_some]
  split
  · exact List.mem_cons_self
  · simp_all

theorem MemHealth.corrected_storeStreak (m : MemHealth) (act : Bool) (n : Nat) : (m.corrected act n).storeStreak = m.storeStreak := by
  unfold MemHealth.corrected
  split
  · rfl
  · split <;> rfl

/-- The scrubber's place among the lines, and its cycle, stand apart from the counts of corrections. -/
theorem MemHealth.corrected_scrubLine (m : MemHealth) (act : Bool) (n line : Nat) (at' : Option Nat) :
    ({ m with scrubLine := line, actScrubAt := at' } : MemHealth).corrected act n =
      { m.corrected act n with scrubLine := line, actScrubAt := at' } := by
  unfold MemHealth.corrected
  split
  · rfl
  · split <;> rfl

/-- The activation scrubber in a cycle of its own. -/
theorem execActScrub_due {s : State} {t : Nat} {e : EngId} (hclk : (s.advance t).eng[e].clkNominal = true)
    (htime : (s.advance t).frameTime % 1024 = 0) (hat : (s.advance t).eng[e].mem.actScrubAt ≠ some (s.advance t).now) (n : Nat) :
    execActScrub t e { corrected := n } s = .next ((s.advance t).updEng e fun g =>
      { g with mem := { (g.mem.corrected true n) with
        scrubLine := ((s.advance t).eng[e].mem.scrubLine + 1) % 6144, actScrubAt := some (s.advance t).now } }) := by
  have hdue : ¬ (¬ (s.advance t).eng[e].clkNominal = true ∨ (s.advance t).frameTime % 1024 ≠ 0
      ∨ (s.advance t).eng[e].mem.actScrubAt = some (s.advance t).now) :=
    not_or.mpr ⟨not_not.mpr hclk, not_or.mpr ⟨not_not.mpr htime, hat⟩⟩
  rw [execActScrub, if_neg hdue]
  simp only [State.corrected, State.updEng_updEng, MemHealth.corrected_scrubLine, Option.filter_none]

/-! Digest epochs (R203, R204). -/

/-- The digests after an epoch in which no row differs from its reference. -/
def Digests.epoch (d : Digests) : Digests := { d with valid := true, value := (d.reading.map Prod.snd).foldl (· ^^^ ·) 0, reading := [] }

/-- An engine whose epoch ends without an event. -/
def Engine.EpochGood (g : Engine) : Prop := g.digests.abandoned = false ∧ g.digests.wrong = []

theorem State.updEng_congr {w : State} {e : EngId} {f g : Engine → Engine} (h : f w.eng[e] = g w.eng[e]) : w.updEng e f = w.updEng e g := by
  unfold State.updEng
  rw [h]

theorem State.endEpoch_good {w : State} {e : EngId} (h : w.eng[e].EpochGood) :
    w.endEpoch e = w.updEng e fun g => { g with digests := g.digests.epoch } := by
  obtain ⟨habandoned, hwrong⟩ := h
  unfold State.endEpoch
  simp only [habandoned, hwrong, Bool.false_eq_true, if_false]
  refine State.updEng_congr ?_
  simp [Digests.epoch, xorAll]

/-- The engines of a list ended one after another. -/
theorem State.foldl_endEpoch_good {l : List EngId} {w : State} (hl : l.Nodup) (h : ∀ e ∈ l, w.eng[e].EpochGood) :
    l.foldl State.endEpoch w =
      { w with eng := Vector.ofFn fun d => if d ∈ l then { w.eng[d] with digests := w.eng[d].digests.epoch } else w.eng[d] } := by
  induction l generalizing w with
  | nil => simp
  | cons e l ih =>
    obtain ⟨he, hl⟩ := List.nodup_cons.mp hl
    have hne : ∀ d ∈ l, d ≠ e := fun d hd h => he (h ▸ hd)
    have hrest : ∀ d ∈ l, (w.updEng e fun g => { g with digests := g.digests.epoch }).eng[d].EpochGood := fun d hd => by
      rw [State.updEng_ne (hne d hd)]
      exact h d (List.mem_cons_of_mem _ hd)
    rw [List.foldl_cons, State.endEpoch_good (h e List.mem_cons_self), ih hl hrest]
    refine congrArg (fun v => { w with eng := v }) (congrArg Vector.ofFn (funext fun d => ?_))
    by_cases hd : d = e
    · subst hd
      simp only [State.updEng_self, he, List.mem_cons_self, if_true, if_false]
    · simp only [State.updEng_ne hd, List.mem_cons, hd, false_or]

/-- Every engine's epoch ends without an event. -/
theorem State.endEpochs_good {w : State} (h : ∀ e : EngId, w.eng[e].EpochGood) :
    engines.foldl State.endEpoch w = { w with eng := w.eng.map fun g => { g with digests := g.digests.epoch } } := by
  have hnodup : engines.Nodup := List.nodup_finRange 6
  rw [State.foldl_endEpoch_good hnodup fun e _ => h e]
  refine congrArg (fun v => { w with eng := v }) (Vector.ext fun i hi => ?_)
  simp [engines]

/-- DIGEST_EPOCH of an unpaired module on which no row differs from its reference. -/
theorem execDigestEpoch_good {s : State} {t : Nat} (hphase : (s.advance t).pwr.phase = .service) (hframe : (s.advance t).frameTime ≠ 0)
    (hepoch : (s.advance t).frameTime % 90000000 = 0) (hrole : (s.advance t).twin.role = .unpaired)
    (hgood : ∀ e : EngId, (s.advance t).eng[e].EpochGood) :
    execDigestEpoch t s = .next { s.advance t with eng := (s.advance t).eng.map fun g => { g with digests := g.digests.epoch } } := by
  have hservice : (s.advance t).inService = true := decide_eq_true hphase
  have hdue : ¬ (¬ (s.advance t).inService = true ∨ (s.advance t).frameTime = 0 ∨ (s.advance t).frameTime % epochCycles ≠ 0) :=
    not_or.mpr ⟨not_not.mpr hservice, not_or.mpr ⟨hframe, not_not.mpr hepoch⟩⟩
  rw [execDigestEpoch, if_neg hdue]
  simp only [State.endEpochs_good hgood, State.forwards, State.isStandby, hrole]
  rfl

/-- A record of TYPE 1 or 4 goes to the ring alone, while that has room. -/
theorem History.program_ring {h : History} {r : HistRec} (hring : h.ring.length < 262144) (hr : r.type = 1 ∨ r.type = 4) :
    h.program r = { h with ring := h.ring ++ [{ r with sequence := h.next.toNat }], next := h.next + 1 } := by
  have hkeep : (r.type = 2 || r.type = 3) = false := by rcases hr with hr | hr <;> simp [hr]
  simp [History.program, hkeep, hring.not_ge]

/-- Records of TYPE 2 to 4 go before those of TYPE 1. -/
theorem History.programNext_fence {h : History} {r : HistRec} {l : List HistRec} (hring : h.ring.length < 262144)
    (hw : h.waitingF = r :: l) (hr : r.type = 4) : h.programNext =
      { h with waitingF := l, ring := h.ring ++ [{ r with sequence := h.next.toNat }], next := h.next + 1 } := by
  simpa only [History.programNext, hw] using History.program_ring (h := { h with waitingF := l }) hring (.inr hr)

theorem History.programNext_event {h : History} {r : HistRec} {l : List HistRec} (hring : h.ring.length < 262144)
    (hF : h.waitingF = []) (hw : h.waiting1 = r :: l) (hr : r.type = 1) : h.programNext =
      { h with waiting1 := l, ring := h.ring ++ [{ r with sequence := h.next.toNat }], next := h.next + 1 } := by
  simpa only [History.programNext, hF, hw] using History.program_ring (h := { h with waiting1 := l }) hring (.inl hr)

end Sys2Proof.Machine

namespace Sys2Proof.Proofs

open Sys2Proof Sys2Proof.Machine

/-- Settles O28, clause by clause: a row that may be scrubbed is read as `execStoreScrub_good` says unless it is known as bad, the engines'
epochs end together by `State.endEpochs_good`, and the history programs by `History.program_ring`. -/
theorem scrubsEpochsAndHistory : Obligations.ScrubsEpochsAndHistory := by
  unfold Obligations.ScrubsEpochsAndHistory
  intro s t u
  refine ⟨?_, ?_, ?_, ?_⟩
  · intro e row n g f base hclk hrow hport hseen
    have hmay : u.eng[e].mayScrub u.now row = true := Engine.mayScrub_eq hclk hrow hport hseen
    refine ⟨fun hbad => ?_, fun hbad hdig => ?_, fun hbad hdig => ?_, fun hn hstreak => ?_, fun htime hat => ?_⟩
    · exact execStoreScrub_bad hmay hbad
    · rw [exec_storeScrub, execStoreScrub_good hmay hbad, State.passRow_other (State.digestRow_scrubRead.trans hdig)]
      rfl
    · rw [exec_storeScrub, execStoreScrub_good hmay hbad]
      by_cases hroom : u.cvu.digestRows.length < 64
      · rw [State.passRow_room (State.digestRow_scrubRead.trans hdig) hroom, if_pos hroom, State.updEng_self]
        rfl
      · rw [State.passRow_full (State.digestRow_scrubRead.trans hdig) (not_lt.mp hroom), if_neg hroom]
        rfl
    · rw [← MemHealth.corrected_storeStreak g.mem false n] at hstreak
      exact MemHealth.mem_storeMarked_scrubbed _ hstreak
    · exact execActScrub_due hclk htime hat n
  · intro e row f h
    have hmay : ¬ u.eng[e].mayScrub u.now row = true := Bool.eq_false_iff.mp (Engine.mayScrub_eq_false h)
    rw [exec_storeScrub, execStoreScrub, if_pos hmay]
  · exact execDigestEpoch_good
  · intro r l hring
    refine ⟨fun hw hr => ?_, fun hwF hw hr => ?_⟩
    · rw [exec_historyProgram, execHistoryProgram, History.programNext_fence hring hw hr]
    · rw [exec_historyProgram, execHistoryProgram, History.programNext_event hring hwF hw hr]

end Sys2Proof.Proofs

namespace Sys2Proof.Machine

/-! Rows written by MODEL_LOAD (R86, R101, R204). -/

/-- A row that is not marked, or is marked while a spare row is free. -/
theorem State.spareRow_good {u : State} {e : EngId} {row : Nat}
    (h : row ∉ u.eng[e].mem.storeMarked ∨ u.eng[e].mem.spared.length < 32) :
    ∃ mem : MemHealth, u.spareRow e row = u.updEng e (fun g => { g with mem := mem }) ∧ row ∉ mem.storeMarked
      ∧ (row ∈ u.eng[e].mem.storeMarked → mem.spared = u.eng[e].mem.spared ++ [row]) := by
  unfold State.spareRow
  by_cases hmarked : row ∈ u.eng[e].mem.storeMarked
  · have hroom : ¬ 32 ≤ u.eng[e].mem.spared.length := not_le.mpr (h.resolve_left (not_not.mpr hmarked))
    rw [if_neg (not_not.mpr (List.contains_iff_mem.mpr hmarked)), if_neg hroom]
    exact ⟨_, rfl, by simp, fun _ => rfl⟩
  · rw [if_pos fun hc => hmarked (List.contains_iff_mem.mp hc)]
    exact ⟨u.eng[e].mem, (State.updEng_same _ _ _ rfl).symm, hmarked, fun hm => absurd hm hmarked⟩

/-- An engine after a row has been written on it, `mem` being the memory's health once the row has been spared where it was marked. -/
def Engine.rowLoaded (g : Engine) (mem : MemHealth) (row : Nat) (bs : List Byte) : Engine :=
  { g with
    rowBuf := memWrite [] 0 bs
    store := memWrite g.store (16384 * row) bs
    mem := mem.rowWritten row
    digests := { g.digests with
      reference := assocSet row (BitVec.ofNat 64 (rowDigest row bs)) g.digests.reference
      reading := assocDel row g.digests.reading
      stale := g.digests.stale.filter (· ≠ row) } }

theorem State.writeRow_good {u : State} {e : EngId} {row : Nat} {bs : List Byte} (hfenced : u.eng[e].fenced = false)
    (h : row ∉ u.eng[e].mem.storeMarked ∨ u.eng[e].mem.spared.length < 32) :
    ∃ mem : MemHealth, (u.writeRow e row bs).eng[e] = u.eng[e].rowLoaded mem row bs ∧ row ∉ mem.storeMarked
      ∧ (row ∈ u.eng[e].mem.storeMarked → mem.spared = u.eng[e].mem.spared ++ [row]) := by
  let v : State := { u with cvu := { u.cvu with digestRows := u.cvu.digestRows.filter fun x => !(x.1 = e && x.2.1 = row) } }
  obtain ⟨mem, hspare, hmarked, hspared⟩ := State.spareRow_good (u := v) h
  refine ⟨mem, ?_, hmarked, hspared⟩
  have hopen : ¬ (v.spareRow e row).eng[e].fenced = true := by
    rw [hspare, State.updEng_self]
    exact Bool.eq_false_iff.mp hfenced
  rw [State.writeRow, if_neg hopen, hspare, State.updEng_self, State.updEng_self]
  rfl

theorem MemHealth.row_notMem_storeBad_rowWritten (m : MemHealth) (row : Nat) : row ∉ (m.rowWritten row).storeBad := by
  simp [MemHealth.rowWritten, MemHealth.rowsWritten]

/-! MODEL_LOAD outside an envelope (R232). -/

theorem bodyModelLoad_refuses {v : State} {r : MbxReq} {st : Status} (m : MbxId) (own : Option PartId) (henv : r.env = 0xFFFF)
    (hgate : v.modelLoadGate r = .error st) : bodyModelLoad v m own r = (v, some (st, [])) := by
  simp only [bodyModelLoad, if_pos henv, State.modelLoad, hgate, ends]

theorem bodyModelLoad_loads {v w : State} {r : MbxReq} {p : PartId} {e : EngId} {bs : List Byte} (m : MbxId) (own : Option PartId)
    (henv : r.env = 0xFFFF) (hgate : v.modelLoadGate r = .ok (p, e))
    (hbytes : v.sourceBytes (r.arg 16 8) (r.arg 8 4 * if r.arg 2 1 = 0 then 16384 else 64) = (w, .ok bs)) :
    bodyModelLoad v m own r =
      if r.arg 2 1 ≠ 0 then gives (w.sideWrite e (lineAddr (r.arg 4 4)) bs).1
      else if (w.writeRows e (r.arg 4 4) (r.arg 8 4) bs).eng[e].fenced then ends (w.writeRows e (r.arg 4 4) (r.arg 8 4) bs) stFenced
      else gives (w.writeRows e (r.arg 4 4) (r.arg 8 4) bs) := by
  simp only [bodyModelLoad, if_pos henv, State.modelLoad, hgate, hbytes]

/-! Checkpoints (R206, R207, R455). -/

/-- The checks of CKPT_CONFIG without a mirror window, but for its interval and its slots' places. -/
structure AsksCkpt (v : State) (r : MbxReq) (p : PartId) : Prop where
  part : v.compOf (r.arg 0 1) = some p
  form : r.form 32 [(20, 12)] = true
  cls : r.arg 1 1 ≤ 15
  mirror : r.arg 2 2 = 0xFFFF
  lines : r.arg 4 4 % 512 = 0
  length : r.arg 4 4 ≤ 67108864

/-- The checkpoint that a CKPT_CONFIG without a mirror window sets up. -/
def ckptAsked (r : MbxReq) (now : Nat) : Ckpt :=
  { cls := BitVec.ofNat 4 (r.arg 1 1), mirror := 0xFFFF, length := r.arg 4 4, offA := r.arg 8 4, offB := r.arg 12 4
    interval := r.arg 16 4, lastSeal := now }

theorem bodyCkptConfig_refuses {v : State} {r : MbxReq} {p : PartId} (m : MbxId) (own : Option PartId) (h : AsksCkpt v r p)
    (hinterval : r.arg 16 4 < 9000000) : bodyCkptConfig v m own r = (v, some (stBadArg, [])) := by
  simp [bodyCkptConfig, h.part, hinterval, ends]

theorem bodyCkptConfig_configures {v : State} {r : MbxReq} {p : PartId} (m : MbxId) (own : Option PartId) (h : AsksCkpt v r p)
    (hinterval : 9000000 ≤ r.arg 16 4)
    (hregion : 512 * (max (r.arg 8 4) (r.arg 12 4) + ceilDiv (r.arg 4 4 + 64) 512) ≤ regionBytes v.part[p])
    (hapart : r.arg 8 4 + ceilDiv (r.arg 4 4 + 64) 512 ≤ r.arg 12 4 ∨ r.arg 12 4 + ceilDiv (r.arg 4 4 + 64) 512 ≤ r.arg 8 4) :
    bodyCkptConfig v m own r = (v.updPart p fun q => { q with ckpt := some (ckptAsked r v.now) }, some (stOk, [])) := by
  obtain ⟨hpart, hform, hcls, hmirror, hlines, hlength⟩ := h
  unfold bodyCkptConfig
  simp only [hpart]
  rw [if_neg]
  · simp [gives, hmirror, ckptAsked]
  · simp only [hform, hmirror, hlines, not_or, not_and, not_lt, not_true_eq_false, not_false_eq_true, decide_true, Bool.true_or, true_and,
      Nat.reducePow, ne_eq]
    exact ⟨hcls, hlength, hinterval, hregion, by omega⟩

/-- A CKPT_RESTORE from the region. -/
structure AsksRestore (v : State) (r : MbxReq) (p : PartId) (c : Ckpt) : Prop where
  part : v.compOf (r.arg 0 1) = some p
  ckpt : v.part[p].ckpt = some c
  form : r.form 4 [(2, 2)] = true
  source : r.arg 1 1 = 0

/-- The bytes of a checkpoint's slot, and the SEQUENCE of a valid one. -/
def Ckpt.slotBytes (c : Ckpt) (q : Partition) (b : Bool) : List Byte := regionRead q (c.base b) (c.length + 64)

def Ckpt.slotSeq (c : Ckpt) (p : PartId) (q : Partition) (b : Bool) : Option Nat := ckptSeq p c.length (c.slotBytes q b)

/-- The checkpoint whose slot `b` of SEQUENCE `n` has been restored. -/
def Ckpt.restored (c : Ckpt) (b : Bool) (n : Nat) : Ckpt := { c with sealedSlot := some b, underB := !b, nextSeq := n + 1, dueJobs := [] }

theorem bodyCkptRestore_fenced {v : State} {r : MbxReq} {p : PartId} {c : Ckpt} (m : MbxId) (own : Option PartId) (h : AsksRestore v r p c)
    (hfenced : ∃ b : Bool, v.lpFenced (c.base b) (c.length + 64) = true) : bodyCkptRestore v m own r = (v, some (stFenced, [])) := by
  obtain ⟨hpart, hckpt, hform, hsource⟩ := h
  have hfenced : v.lpFenced (c.base false) (c.length + 64) = true ∨ v.lpFenced (c.base true) (c.length + 64) = true := by simpa using hfenced
  simp [-Fin.getElem_fin, bodyCkptRestore, hpart, hckpt, hform, hsource, hfenced, ends]

theorem bodyCkptRestore_bad {v : State} {r : MbxReq} {p : PartId} {c : Ckpt} (m : MbxId) (own : Option PartId) (h : AsksRestore v r p c)
    (hopen : ∀ b : Bool, v.lpFenced (c.base b) (c.length + 64) = false) (hnone : ∀ b : Bool, c.slotSeq p v.part[p] b = none) :
    bodyCkptRestore v m own r = (v, some (stCkptBad, [])) := by
  obtain ⟨hpart, hckpt, hform, hsource⟩ := h
  unfold Ckpt.slotSeq Ckpt.slotBytes at hnone
  simp [-Fin.getElem_fin, bodyCkptRestore, hpart, hckpt, hform, hsource, hopen, hnone, ends]

/-- The valid slot of the greater SEQUENCE is taken, slot A where both have the same. -/
theorem bodyCkptRestore_restores {v : State} {r : MbxReq} {p : PartId} {c : Ckpt} {b : Bool} {n : Nat} (m : MbxId) (own : Option PartId)
    (h : AsksRestore v r p c) (hopen : ∀ b : Bool, v.lpFenced (c.base b) (c.length + 64) = false) (hseq : c.slotSeq p v.part[p] b = some n)
    (hother : ∀ k : Nat, c.slotSeq p v.part[p] (!b) = some k → if b then n > k else n ≥ k) :
    bodyCkptRestore v m own r =
      (v.updPart p fun q => { q with ckpt := some (c.restored b n) }, some (stOk, (c.slotBytes v.part[p] b).drop c.length)) := by
  obtain ⟨hpart, hckpt, hform, hsource⟩ := h
  unfold Ckpt.slotSeq Ckpt.slotBytes at hseq hother
  unfold Ckpt.slotBytes
  cases b with
  | false =>
    rcases hB : ckptSeq p c.length (regionRead v.part[p] (c.base true) (c.length + 64)) with _ | k
    · simp [-Fin.getElem_fin, bodyCkptRestore, hpart, hckpt, hform, hsource, hopen, hseq, hB, gives, State.updPart, Ckpt.restored]
    · have hk : ¬ n < k := not_lt.mpr (hother k hB)
      simp [-Fin.getElem_fin, bodyCkptRestore, hpart, hckpt, hform, hsource, hopen, hseq, hB, hk, gives, State.updPart, Ckpt.restored]
  | true =>
    rcases hA : ckptSeq p c.length (regionRead v.part[p] (c.base false) (c.length + 64)) with _ | k
    · simp [-Fin.getElem_fin, bodyCkptRestore, hpart, hckpt, hform, hsource, hopen, hseq, hA, gives, State.updPart, Ckpt.restored]
    · have hk : k < n := hother k hA
      simp [-Fin.getElem_fin, bodyCkptRestore, hpart, hckpt, hform, hsource, hopen, hseq, hA, hk, gives, State.updPart, Ckpt.restored]

section
variable {s u : State} {t : Nat} {p : PartId} {c : Ckpt} (hu : s.advance t = u) (hckpt : u.part[p].ckpt = some c)
include hu hckpt

/-! CHECKPOINT_SEAL: no job is due, the job goes on, a controller is fenced, the slot is sealed. -/

theorem execCheckpointSeal_idle (hdue : c.dueJobs = []) : execCheckpointSeal t p s = .next u := by
  simp only [execCheckpointSeal, hu, hckpt, hdue]

theorem execCheckpointSeal_waits {id : Nat} {rest : List Nat} (hdue : c.dueJobs = id :: rest) (hjob : (u.job? id).isSome = true) :
    execCheckpointSeal t p s = .next u := by
  simp only [execCheckpointSeal, hu, hckpt, hdue, hjob, if_true]

theorem execCheckpointSeal_fenced {id : Nat} {rest : List Nat} (hdue : c.dueJobs = id :: rest) (hjob : u.job? id = none)
    (hfenced : u.lpFenced (c.base c.underB) (c.length + 64) = true) :
    execCheckpointSeal t p s = .next (u.updPart p fun q => { q with ckpt := some { c with dueJobs := [] } }) := by
  simp only [execCheckpointSeal, hu, hckpt, hdue, hjob, Option.isSome_none, Bool.false_eq_true, if_false, hfenced, if_true]

theorem execCheckpointSeal_seals {id : Nat} {rest : List Nat} (hdue : c.dueJobs = id :: rest) (hjob : u.job? id = none)
    (hopen : u.lpFenced (c.base c.underB) (c.length + 64) = false) :
    execCheckpointSeal t p s = .next (u.updPart p fun q =>
      { regionWrite q (c.base c.underB + c.length) (ckptHeader p c.nextSeq u.now u.utc u.part[p].outSeq c.length
          (ckptCrc c.nextSeq (regionRead u.part[p] (c.base c.underB) c.length))) with
        ckpt := some { c with
          sealedSlot := some c.underB, underB := !c.underB, nextSeq := c.nextSeq + 1, lastSeal := u.now, dueJobs := []
          mirrorQueue := if c.mirror = 0xFFFF then [] else c.mirrorQueue ++ [c.underB] } }) := by
  simp only [execCheckpointSeal, hu, hckpt, hdue, hjob, Option.isSome_none, Bool.false_eq_true, if_false, hopen]
  simp [State.updPart]

/-! CHECKPOINT_MIRROR. -/

theorem execCheckpointMirror_idle (hqueue : c.mirrorQueue = []) : execCheckpointMirror t p s = .next u := by
  simp only [execCheckpointMirror, hu, hckpt, hqueue]

section
variable {b : Bool} {rest : List Bool} {w : Win} {x : Ctx} (hqueue : c.mirrorQueue = b :: rest) (hwin : u.win? c.mirror.toNat = some w)
  (hctx : u.ctxNum? w.part w.ctx = some x) (hdone : c.mirroring = [])
include hqueue hwin hctx hdone

theorem execCheckpointMirror_drops (h : u.isStandby = true ∨ u.lpFenced (c.base b) (c.length + 64) = true) :
    execCheckpointMirror t p s = .next (u.updPart p fun q => { q with ckpt := some { c with mirrorQueue := rest } }) := by
  simp only [execCheckpointMirror, hu, hckpt, hqueue, hwin, hctx, hdone, List.any_nil, Bool.false_eq_true, if_false, if_pos h]

theorem execCheckpointMirror_waits (hactive : u.isStandby = false) (hopen : u.lpFenced (c.base b) (c.length + 64) = false)
    (hslot : u.lpServed p 150 = false) : execCheckpointMirror t p s = .next u := by
  simp only [execCheckpointMirror, hu, hckpt, hqueue, hwin, hctx, hdone, List.any_nil, Bool.false_eq_true, if_false, hactive, hopen, or_self,
    hslot, not_false_eq_true, if_true]

theorem execCheckpointMirror_sends (hactive : u.isStandby = false) (hopen : u.lpFenced (c.base b) (c.length + 64) = false)
    (hslot : u.lpServed p 150 = true) (hlen : 0 < c.length) (hshort : c.length ≤ 4096) :
    execCheckpointMirror t p s = .next ((u.queuePuts x w
      [(c.base b, regionRead u.part[p] (c.base b) c.length),
        (c.base b + c.length, regionRead u.part[p] (c.base b + c.length) 64)]).updPart p fun q =>
          { q with ckpt := some { c with mirrorQueue := rest, mirroring := [u.fab.nextTag + 0#32, u.fab.nextTag + 1#32] } }) := by
  have hbody : chopPayload (c.length / 4096 + 1) (c.base b) (regionRead u.part[p] (c.base b) c.length)
      = [(c.base b, regionRead u.part[p] (c.base b) c.length)] := if_pos ((regionRead_length ..).trans_le hshort)
  simp only [execCheckpointMirror, hu, hckpt, hqueue, hwin, hctx, hdone, List.any_nil, Bool.false_eq_true, if_false, hactive, hopen, or_self,
    hslot, not_true_eq_false, hlen.ne', hbody]
  rfl

end

end

/-! The three commands as they ring and start. -/

section
variable {s u : State} {t : Nat} {r : MbxReq} {p : PartId} (hu : s.advance t = u)
include hu

theorem execModelLoad_refuses {st : Status} (hruns : Cert.runs u 0x0003 r) (henv : r.env = 0xFFFF) (hgate : u.modelLoadGate r = .error st) :
    execModelLoad t r s = Cert.refused u 0x0003 r st :=
  congrArg Host.Outcome.next (State.ring_answers hu hruns
    (bodyModelLoad_refuses (v := Cert.accepted u 0x0003 r false) r.mailbox none henv hgate))

section
variable {e : EngId} {v : State} {bs : List Byte} (hruns : Cert.runs u 0x0003 r) (henv : r.env = 0xFFFF)
  (hgate : u.modelLoadGate r = .ok (p, e))
  (hbytes : (Cert.accepted u 0x0003 r false).sourceBytes (r.arg 16 8) (r.arg 8 4 * if r.arg 2 1 = 0 then 16384 else 64) = (v, .ok bs))
include hruns henv hgate hbytes

theorem execModelLoad_lines (hlines : r.arg 2 1 ≠ 0) :
    execModelLoad t r s = .next (Cert.kept (v.sideWrite e (64 * r.arg 4 4) bs).1 0x0003 r stOk []) :=
  congrArg Host.Outcome.next (State.ring_answers hu hruns
    ((bodyModelLoad_loads (v := Cert.accepted u 0x0003 r false) r.mailbox none henv hgate hbytes).trans (if_pos hlines)))

theorem execModelLoad_rows (hrows : r.arg 2 1 = 0) (hopen : (v.writeRows e (r.arg 4 4) (r.arg 8 4) bs).eng[e].fenced = false) :
    execModelLoad t r s = .next (Cert.kept (v.writeRows e (r.arg 4 4) (r.arg 8 4) bs) 0x0003 r stOk []) :=
  congrArg Host.Outcome.next (State.ring_answers hu hruns
    ((bodyModelLoad_loads (v := Cert.accepted u 0x0003 r false) r.mailbox none henv hgate hbytes).trans
      ((if_neg (not_not.mpr hrows)).trans (if_neg (Bool.eq_false_iff.mp hopen)))))

/-- A load whose rows find no spare left fences the engine. -/
theorem execModelLoad_fenced (hrows : r.arg 2 1 = 0) (hfenced : (v.writeRows e (r.arg 4 4) (r.arg 8 4) bs).eng[e].fenced = true) :
    execModelLoad t r s = .next (Cert.kept (v.writeRows e (r.arg 4 4) (r.arg 8 4) bs) 0x0003 r stFenced []) :=
  congrArg Host.Outcome.next (State.ring_answers hu hruns
    ((bodyModelLoad_loads (v := Cert.accepted u 0x0003 r false) r.mailbox none henv hgate hbytes).trans
      ((if_neg (not_not.mpr hrows)).trans (if_pos hfenced))))

end

theorem execCkptConfig_refuses (hruns : Cert.runs u 0x0007 r) (h : AsksCkpt u r p) (hinterval : r.arg 16 4 < 9000000) :
    execCkptConfig t r s = Cert.refused u 0x0007 r stBadArg :=
  congrArg Host.Outcome.next (State.ring_answers hu hruns
    (bodyCkptConfig_refuses (v := Cert.accepted u 0x0007 r false) r.mailbox none ⟨h.1, h.2, h.3, h.4, h.5, h.6⟩ hinterval))

theorem execCkptConfig_configures (hruns : Cert.runs u 0x0007 r) (h : AsksCkpt u r p) (hinterval : 9000000 ≤ r.arg 16 4)
    (hregion : 512 * (max (r.arg 8 4) (r.arg 12 4) + ceilDiv (r.arg 4 4 + 64) 512) ≤ regionBytes u.part[p])
    (hapart : r.arg 8 4 + ceilDiv (r.arg 4 4 + 64) 512 ≤ r.arg 12 4 ∨ r.arg 12 4 + ceilDiv (r.arg 4 4 + 64) 512 ≤ r.arg 8 4) :
    execCkptConfig t r s = Cert.did u 0x0007 r fun w => w.updPart p fun q => { q with ckpt := some (ckptAsked r u.now) } :=
  congrArg Host.Outcome.next (State.ring_answers hu hruns (bodyCkptConfig_configures (v := Cert.accepted u 0x0007 r false) r.mailbox none
    ⟨h.1, h.2, h.3, h.4, h.5, h.6⟩ hinterval hregion hapart))

variable {c : Ckpt} (hruns : Cert.runs u 0x0008 r) (h : AsksRestore u r p c)
include hruns h

theorem execCkptRestore_fenced (hfenced : ∃ b : Bool, u.lpFenced (c.base b) (c.length + 64) = true) :
    execCkptRestore t r s = Cert.refused u 0x0008 r stFenced :=
  congrArg Host.Outcome.next (State.ring_answers hu hruns
    (bodyCkptRestore_fenced (v := Cert.accepted u 0x0008 r false) r.mailbox none ⟨h.1, h.2, h.3, h.4⟩ hfenced))

section
variable (hopen : ∀ b : Bool, u.lpFenced (c.base b) (c.length + 64) = false)
include hopen

theorem execCkptRestore_bad (hnone : ∀ b : Bool, c.slotSeq p u.part[p] b = none) :
    execCkptRestore t r s = Cert.refused u 0x0008 r stCkptBad :=
  congrArg Host.Outcome.next (State.ring_answers hu hruns
    (bodyCkptRestore_bad (v := Cert.accepted u 0x0008 r false) r.mailbox none ⟨h.1, h.2, h.3, h.4⟩ hopen hnone))

theorem execCkptRestore_restores {b : Bool} {n : Nat} (hseq : c.slotSeq p u.part[p] b = some n)
    (hother : ∀ k : Nat, c.slotSeq p u.part[p] (!b) = some k → if b then n > k else n ≥ k) :
    execCkptRestore t r s = Cert.did u 0x0008 r (fun w => w.updPart p fun q => { q with ckpt := some (c.restored b n) })
      ((c.slotBytes u.part[p] b).drop c.length) :=
  congrArg Host.Outcome.next (State.ring_answers hu hruns
    (bodyCkptRestore_restores (v := Cert.accepted u 0x0008 r false) r.mailbox none ⟨h.1, h.2, h.3, h.4⟩ hopen hseq hother))

end

end

end Sys2Proof.Machine

namespace Sys2Proof.Proofs

open Sys2Proof Sys2Proof.Machine

/-- Settles O33. The three mailbox commands that start answer what their bodies do in the state that has accepted them
(`State.ring_answers`); the written row is `State.writeRow_good`; sealing and mirroring go by the branch that the hypotheses leave. -/
theorem loadsAndCheckpoints : Obligations.LoadsAndCheckpoints := by
  unfold Obligations.LoadsAndCheckpoints
  refine ⟨fun s t r => ⟨?_, ?_, ?_⟩, ?_, fun s t p c => ?_⟩
  · intro hruns henv
    refine ⟨fun st hgate => execModelLoad_refuses rfl hruns henv hgate, fun p e v bs hgate hbytes => ⟨fun hrows hfenced => ?_, fun h => ?_⟩⟩
    · simp only [hrows, if_true] at hfenced ⊢
      exact execModelLoad_fenced rfl hruns henv hgate hbytes hrows hfenced
    · by_cases hrows : r.arg 2 1 = 0
      · simp only [hrows, if_true, ne_eq, not_true_eq_false, false_or] at h ⊢
        exact execModelLoad_rows rfl hruns henv hgate hbytes hrows h
      · simp only [hrows, if_false]
        exact execModelLoad_lines rfl hruns henv hgate hbytes hrows
  · intro hruns p hpart hform hcls hmirror hlines hlength
    have hasks : AsksCkpt (s.advance t) r p := ⟨hpart, hform, hcls, hmirror, hlines, hlength⟩
    exact ⟨execCkptConfig_refuses rfl hruns hasks, execCkptConfig_configures rfl hruns hasks⟩
  · intro hruns p c hpart hckpt hform hsource
    have hasks : AsksRestore (s.advance t) r p c := ⟨hpart, hckpt, hform, hsource⟩
    refine ⟨execCkptRestore_fenced rfl hruns hasks, fun hopen hA hB => ?_, fun b n hopen => execCkptRestore_restores rfl hruns hasks hopen⟩
    exact execCkptRestore_bad rfl hruns hasks hopen fun b => by cases b; exacts [hA, hB]
  · intro u e row bs hlen hfenced hspare
    obtain ⟨mem, hrow, hmarked, hspared⟩ := State.writeRow_good (bs := bs) hfenced hspare
    rw [hrow]
    refine ⟨hmarked, hspared, ?_, fun a ha => ?_, mem.row_notMem_storeBad_rowWritten row, if_pos rfl⟩
    · have hread := memRead_memWrite u.eng[e].store (16384 * row) bs
      rwa [hlen] at hread
    · exact memGet_memWrite_out _ _ _ _ (by rwa [hlen])
  · intro u at' body head hckpt
    refine ⟨execCheckpointSeal_idle rfl hckpt, fun id rest hdue => ⟨execCheckpointSeal_waits rfl hckpt hdue,
      execCheckpointSeal_fenced rfl hckpt hdue, execCheckpointSeal_seals rfl hckpt hdue⟩, execCheckpointMirror_idle rfl hckpt,
      fun b rest w x hqueue hwin hctx => ⟨fun h hdone => ?_, fun hactive hopen hdone => ?_, fun hactive hopen hdone => ?_⟩⟩
    · exact execCheckpointMirror_drops rfl hckpt hqueue hwin hctx hdone h
    · exact execCheckpointMirror_waits rfl hckpt hqueue hwin hctx hdone hactive hopen
    · exact execCheckpointMirror_sends rfl hckpt hqueue hwin hctx hdone hactive hopen

end Sys2Proof.Proofs

/-! SUPPORT. Vector operations over their issue cycles (R117-R119, R142), and the fields that end one (Table 05.24). -/

namespace Sys2Proof.Machine

/-- An operation runs for the job that issues, in the state that time has reached. -/
theorem State.engineOp_reached {s u : State} {t : Nat} {e : EngId} {j : Job} (hu : s.advance t = u) (hj : u.issuing e = some j)
    (k : State → Job → State) : s.engineOp t e {} k = k u j := by
  subst hu
  exact State.engineOp_issuing hj k

/-! Vector operations (R117-R119, Tables 05.13 and 05.14). -/

section
variable {op t : Nat} {e : EngId} {v : VecSlot} {s : State} (hop : op ∈ Cert.vecOps)
include hop

/-- The command of an operation code runs the operation of that code. -/
theorem exec_vecCmd : exec (Cert.vecCmd op t e v) s = .next (s.vecOp t e op v {}) := by
  fin_cases hop <;> rfl

/-- The statements' table of results is the model's. -/
theorem Cert.vecRun_eq (x : VecIn) : Cert.vecRun op v x = vecRun op v x := by
  fin_cases hop <;> rfl

theorem vecLatency_pos : 0 < vecLatency op := by
  fin_cases hop <;> decide

end

section
variable {s u : State} {t op : Nat} {e : EngId} {v : VecSlot} {j : Job} (hu : s.advance t = u) (hj : u.issuing e = some j)
include hu hj

theorem State.vecOp_badFields (h : vecFieldsOk op v = false ∨ vecUnusedOk op v = false) :
    s.vecOp t e op v {} = u.endEarly j.id stBadArg := by
  rw [State.vecOp, State.engineOp_reached hu hj]
  dsimp only
  split
  · rfl
  · refine if_pos ?_
    rcases h with h | h
    · exact .inl (by simp [h])
    · exact .inr (.inl (by simp [h]))

end

section
variable {u : State} {e : EngId} {j : Job} {o : VecOpen}

/-- An operation that has read all its bytes and passes its checks leaves its results to land. -/
theorem State.vecFinish_good {got : List Byte} (rest : List Nat) (hop : o.op ∈ Cert.vecOps) (hflt : o.flt = {}) (hdue : u.now < o.due)
    (hgood : Cert.vecGood o got) : u.vecFinish e j { o with got := got, rest := rest } = Cert.vecLanding u e j o got := by
  have hout : vecRun o.op o.v (Cert.vecIn o got) = Cert.vecOut o got := (Cert.vecRun_eq hop _).symm
  have hinput : ({ o with got := got, rest := rest } : VecOpen).input = Cert.vecIn o got := rfl
  obtain ⟨hlegal, hin, hlane, hbanks⟩ := hgood
  unfold State.vecFinish
  simp only [hinput, hout]
  rw [if_neg (by simpa [hlegal, hin] using hbanks)]
  simp only [hflt, hlane, State.corrected_zero, List.filter_nil, List.isEmpty_nil, not_true_eq_false, if_false, List.contains_nil,
    Bool.false_eq_true, false_and]
  rw [State.pend_later]
  · simp [Cert.vecLanding, State.updEng, Function.comp_def]
  · simp only [List.mem_append, List.mem_map, List.mem_singleton]
    rintro x (⟨y, -, rfl⟩ | rfl)
    · exact hdue
    · exact hdue

variable {got : List Byte}

/-- The last issue cycle of an operation. -/
theorem State.vecStep_last (hop : o.op ∈ Cert.vecOps) (hflt : o.flt = {}) (hrest : o.rest.length ≤ 2048) (hdue : u.now < o.due)
    (hplace : badPlace u.eng[e] {} o.rest = none) (hgot : o.got ++ u.eng[e].unitGets u.now o.rest = got) (hgood : Cert.vecGood o got) :
    u.vecStep e j o = Cert.vecLanding u e j o got := by
  rw [← State.vecFinish_good (o.rest.drop 2048) hop hflt hdue hgood]
  unfold State.vecStep
  simp only [List.take_of_length_le hrest, hflt, hplace, hgot]
  rw [if_pos (by simp [hrest])]

/-- An issue cycle of an operation with more than 2,048 bytes to read (R118). -/
theorem State.vecStep_more (hflt : o.flt = {}) (hrest : 2048 < o.rest.length) (hplace : badPlace u.eng[e] {} (o.rest.take 2048) = none)
    (hgot : o.got ++ u.eng[e].unitGets u.now (o.rest.take 2048) = got) :
    u.vecStep e j o = { u with eng := u.eng.set e { u.eng[e] with landings := u.eng[e].landings ++
      [{ due := u.now + 1, job := j.id, vec := true, eff := .vecRead { o with got := got, rest := o.rest.drop 2048 } }] } } := by
  unfold State.vecStep
  simp only [hflt, hplace, hgot]
  rw [if_neg (by simp [hrest]), State.pend_later _ _ _ _ _ (by simp)]
  rfl

end

/-- The sources of an operation in the order in which it reads them. -/
theorem vecSources_eq {op : Nat} {geo : Geo} {v : VecSlot} {as : List Nat} (h : srcAAddrs op geo v = some as) :
    vecSources op geo v = some (Cert.srcAll op v as, as.length, (Cert.srcB op v).length) := by
  rw [vecSources, h]
  rfl

/-- The state in which a vector operation issues: its VEC slot is taken, and a free value drawn where the matrix output register gives one. -/
def State.vecIssued (u : State) (e : EngId) (op : Nat) (v : VecSlot) (as : List Nat) : State := { u with
  free := if Cert.takesFree u.eng[e] op v then u.free + 1 else u.free
  eng := u.eng.set e { u.eng[e] with seq := { u.eng[e].seq with vecFrom := u.now + Cert.vecCycles u.eng[e] op v as } } }

section
variable {s u : State} {t op : Nat} {e : EngId} {v : VecSlot} {j : Job} {as : List Nat} (hu : s.advance t = u) (hj : u.issuing e = some j)
include hu hj

/-- An operation of allowed fields and sources begins its issue cycles (R117, R118). -/
theorem State.vecOp_issues (hslot : u.eng[e].seq.vecFrom ≤ u.now) (hfields : vecFieldsOk op v = true) (hunused : vecUnusedOk op v = true)
    (hwin : winFieldsOk op (Cert.vecGeo u.eng[e] op v) v = true) (has : srcAAddrs op (Cert.vecGeo u.eng[e] op v) v = some as)
    (hin : inAct (Cert.srcAll op v as) = true)
    (hbanks : 0x40 ≤ op → op ≤ 0x43 → chunksApart ((Cert.srcAll op v as).length / 2048 + 1) (Cert.srcAll op v as) = true) :
    s.vecOp t e op v {} = (u.vecIssued e op v as).vecStep e j (Cert.vecOpened u e j op v as) := by
  rw [State.vecOp, State.engineOp_reached hu hj]
  unfold Cert.vecGeo at hwin has
  have hsrc := vecSources_eq has
  simp only [hsrc]
  rw [if_neg (by
    rintro (h | h | h | h | h | ⟨⟨hlo, hhi⟩, h⟩)
    exacts [h hfields, h hunused, h hin, h hwin, hslot.not_gt h, h (hbanks hlo hhi)])]
  have htakes : (v.mo = true ∧ u.eng[e].matOut.fp32 = decide (op = 2)) ↔ Cert.takesFree u.eng[e] op v = true := by
    simp [Cert.takesFree]
  simp only [htakes]
  unfold State.vecIssued Cert.vecOpened Cert.vecHeld
  rcases Bool.eq_false_or_eq_true (Cert.takesFree u.eng[e] op v) with h | h
  · simp only [h, if_true]
    rfl
  · simp only [h, Bool.false_eq_true, if_false]
    rfl

end

section
variable {u : State} {e : EngId} {op : Nat} {v : VecSlot} {j : Job} {as : List Nat} {got : List Byte}
  (hgot : u.eng[e].unitGets u.now ((Cert.srcAll op v as).take 2048) = got)
  (hplace : badPlace u.eng[e] {} ((Cert.srcAll op v as).take 2048) = none)
include hgot hplace

/-- An operation that reads all its bytes in its first cycle. -/
theorem State.vecIssued_lands (hop : op ∈ Cert.vecOps) (hlen : (Cert.srcAll op v as).length ≤ 2048)
    (hgood : Cert.vecGood (Cert.vecOpened u e j op v as) got) :
    (u.vecIssued e op v as).vecStep e j (Cert.vecOpened u e j op v as) =
      Cert.vecLanding (u.vecIssued e op v as) e j (Cert.vecOpened u e j op v as) got := by
  rw [List.take_of_length_le hlen] at hgot hplace
  have hdue : u.now < u.now + Cert.vecCycles u.eng[e] op v as - 1 + vecLatency op := by
    have hlatency := vecLatency_pos hop
    have hcycles : 1 ≤ Cert.vecCycles u.eng[e] op v as := le_max_left ..
    omega
  refine State.vecStep_last hop rfl hlen hdue ?_ ?_ hgood
  · rw [← hplace]
    simp [State.vecIssued, badPlace, Cert.vecOpened]
  · rw [← hgot]
    simp [State.vecIssued, Engine.unitGets, Cert.vecOpened]

/-- An operation that reads on in the next cycle. -/
theorem State.vecIssued_readsOn (hlen : 2048 < (Cert.srcAll op v as).length) :
    (u.vecIssued e op v as).vecStep e j (Cert.vecOpened u e j op v as) = { u.vecIssued e op v as with
      eng := (u.vecIssued e op v as).eng.set e { (u.vecIssued e op v as).eng[e] with
        landings := (u.vecIssued e op v as).eng[e].landings ++ [{
          due := u.now + 1, job := j.id, vec := true
          eff := .vecRead { Cert.vecOpened u e j op v as with got := got, rest := (Cert.srcAll op v as).drop 2048 } }] } } := by
  refine State.vecStep_more rfl hlen ?_ ?_
  · rw [← hplace]
    simp [State.vecIssued, badPlace, Cert.vecOpened]
  · rw [← hgot]
    simp [State.vecIssued, Engine.unitGets, Cert.vecOpened]

end

end Sys2Proof.Machine

namespace Sys2Proof.Proofs

open Sys2Proof Sys2Proof.Machine

/-- Settles O8: a field out of its table is met before anything is read. -/
theorem vectorFieldsOutOfTableEndTheJob : Obligations.VectorFieldsOutOfTableEndTheJob := by
  unfold Obligations.VectorFieldsOutOfTableEndTheJob
  intro op hop s t e v j hj h
  rw [exec_vecCmd hop, State.vecOp_badFields rfl hj h]

/-- Settles O7: the operation issues (`State.vecOp_issues`), and its first issue cycle is its last one or not by the bytes that it reads. -/
theorem vectorOperationsLandTheirResults : Obligations.VectorOperationsLandTheirResults := by
  unfold Obligations.VectorOperationsLandTheirResults
  refine ⟨?_, ?_⟩
  · intro op hop s t e v j as
    generalize hu : s.advance t = u
    intro _ g all o got w hj hslot hfields hunused hwin has hin hbanks hplace
    rw [exec_vecCmd hop, State.vecOp_issues hu hj hslot hfields hunused hwin has hin hbanks]
    refine ⟨fun hlen hgood => ?_, fun hlen => ?_⟩
    · exact congrArg _ (State.vecIssued_lands rfl hplace hop hlen hgood)
    · exact congrArg _ (State.vecIssued_readsOn rfl hplace hlen)
  · intro op hop u e j o got hopo hflt hrest hdue hplace hgood
    exact State.vecStep_last (hopo ▸ hop) hflt hrest hdue hplace rfl hgood

end Sys2Proof.Proofs

/-! SUPPORT. LDV (R115), OUT and OUTN (R120, R125, R255). -/

namespace Sys2Proof.Machine

/-- Where the side port has written nothing in this cycle, a unit reads a run of bytes as the memory holds it (R96). -/
theorem Engine.unitGets_addrsFrom {g : Engine} {now a n : Nat} (hside : g.sideAt ≠ now) (hn : 0 < n) :
    g.unitGets now (addrsFrom a n) = memRead g.act a n := by
  rw [← memGets_addrsFrom _ a n hn]
  simp only [Engine.unitGets, if_neg hside, readOver, List.isEmpty_nil, if_true]

/-! LDV (R115). -/

section
variable {s u : State} {t : Nat} {e : EngId} {j : Job} {line len : Nat} (hu : s.advance t = u) (hj : u.issuing e = some j)
  (hlen : len < 16) (hin : 64 * line + 64 * (len + 1) ≤ actSize)
include hu hj hlen hin

theorem execLdv_loads (hplace : badPlace u.eng[e] {} (addrsFrom (64 * line) (64 * (len + 1))) = none) :
    exec (.ldv t e line len {}) s =
      .next (Cert.landing u e j (u.now + 1) [.bcast (u.eng[e].unitGets u.now (addrsFrom (64 * line) (64 * (len + 1))))]) := by
  have hfields : ¬ (15 < len ∨ ¬ inAct (addrsFrom (64 * line) (64 * (len + 1))) = true) := by
    simp only [inAct_addrsFrom _ _ hin, not_true_eq_false, or_false]
    omega
  rw [exec_ldv, execLdv, State.engineOp_reached hu hj]
  simp only [lineAddr, if_neg hfields, hplace, State.corrected_zero]
  rw [State.pend_later _ _ _ _ _ (by simp)]
  rfl

/-- A word that is uncorrectable fails the job in the cycle of its read (R99). -/
theorem execLdv_fails {i w : Nat} (hplace : badPlace u.eng[e] {} (addrsFrom (64 * line) (64 * (len + 1))) = some (i, w)) :
    exec (.ldv t e line len {}) s = .next (u.failAt e j u.now (actFail {} w)) := by
  have hfields : ¬ (15 < len ∨ ¬ inAct (addrsFrom (64 * line) (64 * (len + 1))) = true) := by
    simp only [inAct_addrsFrom _ _ hin, not_true_eq_false, or_false]
    omega
  rw [exec_ldv, execLdv, State.engineOp_reached hu hj]
  simp only [lineAddr, if_neg hfields, hplace]

end

/-! OUT and OUTN (R120, R125, R255). -/

/-- The state after a beat has been handed over: it reaches the pass-through port one cycle later (R120). -/
def State.handed (u : State) (e : EngId) (j : Job) (route : Nat) (last note : Bool) (bs : List Byte) : State :=
  (Cert.landing u e j (u.now + 1) [.beat route last note bs]).updEng e fun g => { g with pathOut := bs }

/-- OUT or OUTN of one or two lines of activation SRAM on a route of Table 05.6, whose lines no vector operation has landed on in the last
three cycles and hold no uncorrectable word; `bs` are their bytes. -/
structure State.MayBeat (u : State) (e : EngId) (j : Job) (line len route : Nat) (r : RouteEntry) (bs : List Byte) : Prop where
  entry : (imageOn j e).routes[route]? = some r
  kind : r.kind = 1 ∨ r.kind = 2 ∨ r.kind = 3
  lines : len ≤ 1
  inside : 64 * line + 64 * (len + 1) ≤ actSize
  checked : u.eng[e].unchecked u.now (64 * line) (64 * (len + 1)) = false
  place : badPlace u.eng[e] {} (addrsFrom (64 * line) (64 * (len + 1))) = none
  gets : u.eng[e].unitGets u.now (addrsFrom (64 * line) (64 * (len + 1))) = bs

section
variable {u : State} {e : EngId} {j : Job} {line len route : Nat} {last note : Bool} {r : RouteEntry} {bs : List Byte}
  (h : u.MayBeat e j line len route r bs)
include h

theorem State.MayBeat.allowed : ¬ (1 < len ∨ ¬ inAct (addrsFrom (64 * line) (64 * (len + 1))) = true ∨ r.kind = 0 ∨ 3 < r.kind
    ∨ u.eng[e].unchecked u.now (64 * line) (64 * (len + 1)) = true) := by
  simp only [inAct_addrsFrom _ _ h.inside, h.checked, not_true_eq_false, Bool.false_eq_true, false_or, or_false]
  have := h.kind
  have := h.lines
  omega

/-- On a route to a host row or to an engine a beat is handed over at once. -/
theorem State.sendBeat_local (hlocal : r.kind ≠ 1) : u.sendBeat e j line len route last note {} = u.handed e j route last note bs := by
  unfold State.sendBeat
  simp only [lineAddr, h.entry, if_neg h.allowed, if_pos hlocal, h.place, h.gets, State.corrected_zero, List.contains_nil,
    Bool.false_eq_true, if_false]
  simp [State.handed, Cert.landing, State.updEng]

variable (hpartner : r.kind = 1)
include hpartner

theorem State.sendBeat_noWindow (hctx : u.outCtx j r = none) :
    u.sendBeat e j line len route last note {} = u.endEarly j.id stNoWindow := by
  unfold State.sendBeat
  simp only [lineAddr, h.entry, if_neg h.allowed, if_neg (not_not.2 hpartner), hctx]

variable {c : Ctx} (hctx : u.outCtx j r = some c)
include hctx

/-- A bundle that was released from its wait for credit has its credit already. -/
theorem State.sendBeat_granted (hgranted : u.eng[e].seq.granted = some (route, u.beatBlocks e route (64 * (len + 1)))) :
    u.sendBeat e j line len route last note {} =
      (u.updEng e fun g => { g with seq := { g.seq with granted := none } }).handed e j route last note bs := by
  have hplace : badPlace { u.eng[e] with seq := { u.eng[e].seq with granted := none } } {}
      (addrsFrom (64 * line) (64 * (len + 1))) = none := h.place
  have hgets : ({ u.eng[e] with seq := { u.eng[e].seq with granted := none } } : Engine).unitGets u.now
      (addrsFrom (64 * line) (64 * (len + 1))) = bs := h.gets
  unfold State.sendBeat
  simp only [lineAddr, h.entry, if_neg h.allowed, if_neg (not_not.2 hpartner), hctx, if_pos hgranted, State.updEng_self,
    State.updEng_now, hplace, hgets, State.corrected_zero, List.contains_nil, Bool.false_eq_true, if_false]
  simp [State.handed, Cert.landing, State.updEng]

variable (hactive : u.isStandby = false)
  (hgranted : u.eng[e].seq.granted ≠ some (route, u.beatBlocks e route (64 * (len + 1))))
include hactive hgranted

/-- A beat that finds credit at its port takes its blocks (R255). -/
theorem State.sendBeat_credit (hheld : u.portHeld j.part c.port = false)
    (hcredit : u.beatBlocks e route (64 * (len + 1)) ≤ c.outCredit) : u.sendBeat e j line len route last note {} =
      (u.updCtx c.link fun x => { x with outCredit := x.outCredit - u.beatBlocks e route (64 * (len + 1)) }).handed e j route last
        note bs := by
  have hfinds : u.beatCredit j c (u.beatBlocks e route (64 * (len + 1))) = true := by simp [State.beatCredit, hheld, hcredit]
  unfold State.sendBeat State.takeBlocks
  simp only [lineAddr, h.entry, if_neg h.allowed, if_neg (not_not.2 hpartner), hctx, if_neg hgranted, if_pos hfinds, hactive,
    State.updCtx_eng, State.updCtx_now, h.place, h.gets, State.corrected_zero, List.contains_nil, Bool.false_eq_true, if_false]
  simp [State.handed, Cert.landing, State.updEng]

variable (hnone : u.portHeld j.part c.port = true ∨ c.outCredit < u.beatBlocks e route (64 * (len + 1)))
include hnone

omit h hpartner hctx hgranted in
theorem State.beatCredit_none : ¬ u.beatCredit j c (u.beatBlocks e route (64 * (len + 1))) = true := by
  rcases hnone with hheld | hless
  · simp [State.beatCredit, hactive, hheld]
  · simp [State.beatCredit, hactive, hless]

theorem State.sendBeat_endsAtOnce (hbound : r.bound = 0) :
    u.sendBeat e j line len route last note {} = u.endEarly j.id stWaitTimeout := by
  unfold State.sendBeat
  simp only [lineAddr, h.entry, if_neg h.allowed, if_neg (not_not.2 hpartner), hctx, if_neg hgranted,
    if_neg (State.beatCredit_none hactive hnone), if_pos hbound]

theorem State.sendBeat_waits (hbound : r.bound ≠ 0) :
    u.sendBeat e j line len route last note {} = u.updEng e fun g => { g with seq := { g.seq with
      wait := some (.egress c.port.val c.link.toNat route (64 * (len + 1)) u.now (u.now + r.bound)) } } := by
  unfold State.sendBeat
  simp only [lineAddr, h.entry, if_neg h.allowed, if_neg (not_not.2 hpartner), hctx, if_neg hgranted,
    if_neg (State.beatCredit_none hactive hnone), if_neg hbound]

end

/-- OUT and OUTN send a beat for the job that issues, OUTN with an addition. -/
theorem execOut_sends {s u : State} {t : Nat} {e : EngId} {j : Job} (hu : s.advance t = u) (hj : u.issuing e = some j)
    (line len route : Nat) (last : Bool) {x : Bool → State} (h : ∀ note, u.sendBeat e j line len route last note {} = x note) :
    exec (.out t e line len route last {}) s = .next (x false) ∧ exec (.outn t e line len route last {}) s = .next (x true) := by
  rw [exec_out, execOut, exec_outn, execOutn, State.engineOp_reached hu hj, State.engineOp_reached hu hj, h, h]
  exact ⟨rfl, rfl⟩

end Sys2Proof.Machine

namespace Sys2Proof.Proofs

open Sys2Proof Sys2Proof.Machine

/-- Settles O13: the fields are allowed, and the lines hold an uncorrectable word or not. -/
theorem ldvLoadsTheBroadcastRegister : Obligations.LdvLoadsTheBroadcastRegister := by
  unfold Obligations.LdvLoadsTheBroadcastRegister
  intro s t e line len j
  generalize hu : s.advance t = u
  intro _ as hj hlen hin
  exact ⟨execLdv_loads hu hj hlen hin, fun hside => Engine.unitGets_addrsFrom hside (by omega),
    fun i w hplace => execLdv_fails hu hj hlen hin hplace⟩

/-- Settles O19: what `State.sendBeat` does on each kind of route, with credit and without. -/
theorem beatsReachTheirPortOneCycleLater : Obligations.BeatsReachTheirPortOneCycleLater := by
  unfold Obligations.BeatsReachTheirPortOneCycleLater
  intro s t e line len route last j r
  generalize hu : s.advance t = u
  intro _ size bs handed both hj hr hlen hin hplace hactive hchecked
  have hmay : r.kind = 1 ∨ r.kind = 2 ∨ r.kind = 3 → u.MayBeat e j line len route r bs :=
    fun hkind => ⟨hr, hkind, hlen, hin, hchecked, hplace, rfl⟩
  have hsends {x : Bool → State} : (∀ note, u.sendBeat e j line len route last note {} = x note) → both x :=
    execOut_sends hu hj line len route last
  refine ⟨fun hkind => ?_, fun hkind hctx => ?_, fun hkind c hctx => ⟨fun hgranted => ?_, fun hgranted hheld hcredit => ?_,
    fun hgranted hnone => ⟨fun hbound => ?_, fun hbound => ?_⟩⟩⟩
  · exact hsends fun note => State.sendBeat_local (hmay (.inr hkind)) (by omega)
  · exact hsends fun note => State.sendBeat_noWindow (hmay (.inl hkind)) hkind hctx
  · exact hsends fun note => State.sendBeat_granted (hmay (.inl hkind)) hkind hctx hgranted
  · exact hsends fun note => State.sendBeat_credit (hmay (.inl hkind)) hkind hctx hactive hgranted hheld hcredit
  · exact hsends fun note => State.sendBeat_endsAtOnce (hmay (.inl hkind)) hkind hctx hactive hgranted hnone hbound
  · exact hsends fun note => State.sendBeat_waits (hmay (.inl hkind)) hkind hctx hactive hgranted hnone hbound

end Sys2Proof.Proofs

/-! SUPPORT. WAIT, NOTE and the ends of a wait for a pigeonhole (R122, R125, R32). -/

namespace Sys2Proof.Machine

/-! Waits for a pigeonhole (R125, R32). -/

@[simp] theorem State.twinForward_now (u : State) (kind : Nat) : (u.twinForward kind).now = u.now := by
  unfold State.twinForward
  split <;> rfl

section
variable {u : State} {e : EngId} {j : Job} {n count issued limit g : Nat} (hg : u.pghIndex j.part n = some g) (hactive : u.isStandby = false)
include hg hactive

/-- A count that suffices within the bound is taken (R125). -/
theorem State.tryWait_takes (hseen : count ≤ u.pghSeen g) (hlimit : u.now ≤ limit) :
    u.tryWait e j n count issued limit = (Cert.takenDown u g count).updEng e fun x =>
      { x with seq := if issued = u.now then { x.seq with wait := none } else x.seq.released u.now } := by
  have hnow : (Cert.takenDown u g count).now = u.now := State.twinForward_now _ 2
  unfold State.tryWait
  simp only [hg]
  rw [if_pos ⟨ne_true_of_eq_false hactive, hlimit, hseen⟩]
  unfold State.freeWait
  rw [← Cert.takenDown]
  simp only [hnow]

/-- A wait that reaches its bound with a count that does not suffice ends the job (R32). -/
theorem State.tryWait_ends (hseen : u.pghSeen g < count) (hlimit : limit ≤ u.now) :
    u.tryWait e j n count issued limit = u.endEarly j.id stWaitTimeout := by
  unfold State.tryWait
  simp only [hg]
  rw [if_neg (fun h => hseen.not_ge h.2.2), if_pos (hlimit.lt_or_eq.imp_right fun h => ⟨h, ne_true_of_eq_false hactive⟩)]

omit hactive in
/-- Before its bound it stands. -/
theorem State.tryWait_stands (hseen : u.pghSeen g < count) (hlimit : u.now < limit) :
    u.tryWait e j n count issued limit = Cert.waits u e (.pgh n count issued limit) := by
  unfold State.tryWait
  simp only [hg]
  rw [if_neg (fun h => hseen.not_ge h.2.2), if_neg (by omega)]
  rfl

end

section
variable {s u : State} {t : Nat} {e : EngId} {j : Job} {n bound handle count : Nat} (hu : s.advance t = u) (hj : u.issuing e = some j)
  (hhandle : (imageOn j e).pghs[handle]? = some (n, bound)) (hcount : 1 ≤ count ∧ count ≤ 255)
include hu hj hhandle hcount

theorem execNote_adds : exec (.note t e handle count {}) s = .next (Cert.landing u e j (u.now + 1) [.note n count]) := by
  rw [exec_note, execNote, State.engineOp_reached hu hj]
  simp only [hhandle]
  rw [if_neg (by omega)]
  rfl

theorem execWait_tries : exec (.wait t e handle count {}) s = .next (u.tryWait e j n count u.now (u.now + bound)) := by
  rw [exec_wait, execWait, State.engineOp_reached hu hj]
  simp only [hhandle]
  rw [if_neg (by omega)]

end

/-- An engine that waits has its wait in its sequencer. -/
theorem State.wait_of_waiting {u : State} {e : EngId} {j : Job} {w : SeqWait} (h : u.waiting e = some (j, w)) :
    u.eng[e].seq.wait = some w := by
  unfold State.waiting at h
  split at h
  next hwait =>
    split at h
    · exact absurd h (by simp)
    · exact hwait.trans (congrArg (fun x => some x.2) (Option.some.inj h))
  · exact absurd h (by simp)

/-- A wait that is set to itself changes nothing. -/
theorem Cert.waits_self {u : State} {e : EngId} {w : SeqWait} (h : u.eng[e].seq.wait = some w) : Cert.waits u e w = u := by
  refine State.updEng_same u e (fun g => { g with seq := { g.seq with wait := some w } }) ?_
  rw [← h]

section
variable {s u : State} {t : Nat} {e : EngId} (hu : s.advance t = u)
include hu

theorem execWaits_none (h : u.waiting e = none) : exec (.waitRelease t e) s = .next u ∧ exec (.waitTimeout t e) s = .next u := by
  rw [exec_waitRelease, execWaitRelease, exec_waitTimeout, execWaitTimeout, hu]
  simp only [h, and_self]

variable {j : Job} {n count issued limit : Nat} (h : u.waiting e = some (j, .pgh n count issued limit))
include h

theorem execWaitRelease_tries : exec (.waitRelease t e) s = .next (u.tryWait e j n count issued limit) := by
  rw [exec_waitRelease, execWaitRelease, hu]
  simp only [h]

theorem execWaitTimeout_early (hlimit : u.now < limit) : exec (.waitTimeout t e) s = .next u := by
  rw [exec_waitTimeout, execWaitTimeout, hu]
  simp only [h, if_pos hlimit]

theorem execWaitTimeout_tries (hlimit : limit ≤ u.now) :
    exec (.waitTimeout t e) s = .next (u.tryWait e j n count issued limit) := by
  rw [exec_waitTimeout, execWaitTimeout, hu]
  simp only [h, if_neg hlimit.not_gt]

end

end Sys2Proof.Machine

namespace Sys2Proof.Proofs

open Sys2Proof Sys2Proof.Machine

/-- Settles O21: each of the commands tries the wait, or is not due; `State.tryWait` takes the count, ends the job or stands. -/
theorem waitsTakeTheirCount : Obligations.WaitsTakeTheirCount := by
  unfold Obligations.WaitsTakeTheirCount
  intro s t e j u
  refine ⟨fun handle n bound count g hj hhandle hg hlo hhi hactive => ⟨?_, fun hseen => ?_, fun hseen => ?_⟩,
    fun n count issued limit g hwait hg hactive => ⟨fun hseen hissued hlimit => ?_, fun hlimit hseen => ?_,
      fun hlimit hseen hissued => ?_, fun hseen hlimit => ?_, fun hlimit => ?_⟩, execWaits_none rfl⟩
  · exact execNote_adds rfl hj hhandle ⟨hlo, hhi⟩
  · rw [execWait_tries rfl hj hhandle ⟨hlo, hhi⟩, State.tryWait_takes hg hactive hseen (Nat.le_add_right ..)]
    simp only [if_true, u]
  · rw [execWait_tries rfl hj hhandle ⟨hlo, hhi⟩]
    split
    next hbound => rw [State.tryWait_ends hg hactive hseen (le_of_eq (by rw [hbound, Nat.add_zero]))]
    next hbound => rw [State.tryWait_stands hg hseen (Nat.lt_add_of_pos_right (Nat.pos_of_ne_zero hbound))]
  · rw [execWaitRelease_tries rfl hwait, State.tryWait_takes hg hactive hseen hlimit]
    simp only [if_neg hissued.ne, u]
  · rw [execWaitTimeout_tries rfl hwait hlimit, State.tryWait_ends hg hactive hseen hlimit]
  · rw [execWaitTimeout_tries rfl hwait hlimit.le, State.tryWait_takes hg hactive hseen hlimit.ge]
    simp only [if_neg hissued.ne, u]
  · rw [execWaitRelease_tries rfl hwait, State.tryWait_stands hg hseen hlimit,
      Cert.waits_self (State.wait_of_waiting hwait)]
  · exact execWaitTimeout_early rfl hwait hlimit

end Sys2Proof.Proofs

/-! SUPPORT. WAITL, the wait for credit, LOOP, TEST and END (R124, R125, R127, R128, R452). -/

namespace Sys2Proof.Machine

/-! Waits for transfers (R125, R452). -/

section
variable {s u : State} {t : Nat} {e : EngId} {j : Job} (hu : s.advance t = u) (hj : u.issuing e = some j)
include hu hj

theorem execWaitl_passes (hdone : u.eng[e].seq.xfersDone = true) : exec (.waitl t e {}) s =
    .next { u with eng := u.eng.set e { u.eng[e] with seq := { u.eng[e].seq with sinceWaitl := [], xfers := [] } } } := by
  have hdone' : ({ u.eng[e].seq with sinceWaitl := [] } : Sequencer).xfersDone = true := hdone
  rw [exec_waitl, execWaitl, State.engineOp_reached hu hj]
  simp only [State.updEng_self, hdone', if_true, State.updEng_updEng]
  rfl

theorem execWaitl_waits (hdone : u.eng[e].seq.xfersDone = false) (hbound : u.waitlBound e j ≠ 0) : exec (.waitl t e {}) s =
    .next { u with eng := u.eng.set e { u.eng[e] with seq := { u.eng[e].seq with
      sinceWaitl := [], wait := some (.xfers u.now (u.now + u.waitlBound e j)) } } } := by
  have hdone' : ({ u.eng[e].seq with sinceWaitl := [] } : Sequencer).xfersDone = false := hdone
  rw [exec_waitl, execWaitl, State.engineOp_reached hu hj]
  simp only [State.updEng_self, hdone', Bool.false_eq_true, if_false, if_neg hbound, State.updEng_updEng]
  rfl

end

section
variable {s u : State} {t : Nat} {e : EngId} {j : Job} {issued limit : Nat} (hu : s.advance t = u)
  (h : u.waiting e = some (j, .xfers issued limit))
include hu h

theorem execWaitlRelease_late (hlimit : limit < u.now) : exec (.waitlRelease t e) s = .next (u.endEarly j.id stWaitTimeout) := by
  rw [exec_waitlRelease, execWaitlRelease, hu]
  simp only [h, if_pos hlimit]

theorem execWaitlRelease_inTime (hlimit : u.now ≤ limit) : exec (.waitlRelease t e) s = .next (
    if u.eng[e].seq.xfersDone then
      { u with eng := u.eng.set e { u.eng[e] with seq := { u.eng[e].seq.released u.now with xfers := [] } } }
    else u) := by
  rw [exec_waitlRelease, execWaitlRelease, hu]
  simp only [h, if_neg hlimit.not_gt]
  rfl

theorem execWaitTimeout_xfers (hlimit : limit ≤ u.now) (hend : u.eng[e].seq.xfersDone = false ∨ limit < u.now) :
    exec (.waitTimeout t e) s = .next (u.endEarly j.id stWaitTimeout) := by
  have hlate : ¬ (u.now = limit ∧ u.eng[e].seq.xfersDone = true) := by
    rintro ⟨hnow, hdone⟩
    rcases hend with h | h
    · exact absurd hdone (ne_true_of_eq_false h)
    · exact h.ne' hnow
  rw [exec_waitTimeout, execWaitTimeout, hu]
  simp only [h, if_neg hlimit.not_gt, if_neg hlate]

end

/-! Waits for credit (R125, R255). -/

section
variable {s u : State} {t : Nat} {e : EngId} {j : Job} {port link route bytes issued limit : Nat} (hu : s.advance t = u)
  (h : u.waiting e = some (j, .egress port link route bytes issued limit))
include hu h

theorem execEgress_late (hlimit : limit < u.now) : exec (.egressCreditRelease t e) s = .next (u.endEarly j.id stWaitTimeout)
    ∧ exec (.waitTimeout t e) s = .next (u.endEarly j.id stWaitTimeout) := by
  have hpast : ¬ (u.now = limit ∧ u.heldCredit e j link route bytes = true) := fun hnow => hlimit.ne' hnow.1
  rw [exec_egressCreditRelease, execEgressCreditRelease, exec_waitTimeout, execWaitTimeout, hu]
  simp only [h, if_pos hlimit, if_neg hlimit.not_gt, if_neg hpast, and_self]

variable {c : Ctx} (hctx : u.ctx? (BitVec.ofNat 16 link) = some c) (hactive : u.isStandby = false)
include hctx hactive

theorem execEgressCreditRelease_takes (hlimit : u.now ≤ limit) (hheld : u.portHeld j.part c.port = false)
    (hcredit : u.beatBlocks e route bytes ≤ c.outCredit) : exec (.egressCreditRelease t e) s =
      .next (((u.updCtx c.link fun x => { x with outCredit := x.outCredit - u.beatBlocks e route bytes }).twinForward 2).updEng e
        fun g => { g with seq := { g.seq.released u.now with granted := some (route, u.beatBlocks e route bytes) } }) := by
  have hfinds : u.heldCredit e j link route bytes = true := by
    simp only [State.heldCredit, hctx, State.beatCredit, hheld, hcredit, decide_true, Bool.not_false, Bool.and_self, Bool.or_true]
  rw [exec_egressCreditRelease, execEgressCreditRelease, hu]
  simp only [h, if_neg hlimit.not_gt, if_pos hfinds]
  unfold State.freeEgress State.takeBlocks
  simp only [hctx, hactive, Bool.false_eq_true, if_false, State.updCtx_now]

variable (hnone : u.portHeld j.part c.port = true ∨ c.outCredit < u.beatBlocks e route bytes)
include hnone

omit hu h in
theorem State.heldCredit_none : ¬ u.heldCredit e j link route bytes = true := by
  simp only [State.heldCredit, hctx]
  rcases hnone with hheld | hless
  · simp [State.beatCredit, hactive, hheld]
  · simp [State.beatCredit, hactive, hless]

theorem execEgressCreditRelease_stands (hlimit : u.now ≤ limit) : exec (.egressCreditRelease t e) s = .next u := by
  rw [exec_egressCreditRelease, execEgressCreditRelease, hu]
  simp only [h, if_neg hlimit.not_gt, if_neg (State.heldCredit_none hctx hactive hnone)]

theorem execWaitTimeout_egress (hlimit : limit = u.now) : exec (.waitTimeout t e) s = .next (u.endEarly j.id stWaitTimeout) := by
  have hno : ¬ (u.now = limit ∧ u.heldCredit e j link route bytes = true) := fun hboth =>
    State.heldCredit_none hctx hactive hnone hboth.2
  rw [exec_waitTimeout, execWaitTimeout, hu]
  simp only [h, if_neg hlimit.not_gt, if_neg hno]

end

/-! LOOP, TEST and END (R124, R127, R128). -/

/-- An engine in a test window up to a cycle, its registers undefined from free number `n` on (R127). -/
def Engine.tested (g : Engine) (n until' : Nat) : Engine := { g.undefine n with seq := { g.seq with testUntil := until' } }

/-- A test window leaves alone what R127 does not name. -/
theorem Engine.tested_frame (g : Engine) (n until' : Nat) : g.tested n until' = { g with
    tileA := (g.tested n until').tileA, tileB := (g.tested n until').tileB, bcast := (g.tested n until').bcast
    acc := (g.tested n until').acc, matOut := (g.tested n until').matOut, append := (g.tested n until').append
    argmax := (g.tested n until').argmax, seq := { g.seq with testUntil := until' } } := rfl

section
variable {s u : State} {t i : Nat} {e : EngId} {j : Job} (hu : s.advance t = u) (hj : u.issuing e = some j)
include hu hj

theorem execLoop_enters {l : LoopEntry} (hl : (imageOn j e).loops[i]? = some l) : exec (.loop t e i {}) s =
    .next (u.updEng e fun g => { g with seq := { g.seq with loops := loopEnter (imageOn j e) i g.seq.loops } }) := by
  rw [exec_loop, execLoop, State.engineOp_reached hu hj]
  simp only [hl]

theorem execLoop_unknown (hl : (imageOn j e).loops[i]? = none) : exec (.loop t e i {}) s = .next (u.endEarly j.id stBadArg) := by
  rw [exec_loop, execLoop, State.engineOp_reached hu hj]
  simp only [hl, State.badOp]

theorem execTest_holds {steps : Nat} (hw : (imageOn j e).windows[i]? = some steps) : exec (.test t e i {}) s =
    .next { u with free := u.free + 76, eng := u.eng.set e (u.eng[e].tested u.free (u.now + 256 * steps)) } := by
  rw [exec_test, execTest, State.engineOp_reached hu hj]
  simp only [hw]
  rfl

theorem execTest_unknown (hw : (imageOn j e).windows[i]? = none) : exec (.test t e i {}) s = .next (u.endEarly j.id stBadArg) := by
  rw [exec_test, execTest, State.engineOp_reached hu hj]
  simp only [hw, State.badOp]

theorem execEndJob_ends (hends : assoc e j.ends = none) :
    exec (.endJob t e {}) s = .next (u.updJob j.id fun x => { x with ends := assocSet e u.now x.ends }) := by
  rw [exec_endJob, execEndJob, State.engineOp_reached hu hj]
  simp only [hends, Option.isSome_none, Bool.false_eq_true, if_false]

theorem execEndJob_again (hends : (assoc e j.ends).isSome = true) : exec (.endJob t e {}) s = .next u := by
  rw [exec_endJob, execEndJob, State.engineOp_reached hu hj]
  simp only [if_pos hends]

end

/-- Whether a loop in progress encloses LOOP `i`, whose entry is `l` (R124). -/
def Image.encloses (img : Image) (i : Nat) (l : LoopEntry) (x : Nat × Nat) : Bool :=
  let o := img.loops.getD x.1 ⟨0, 0, 0, []⟩
  x.1 ≠ i && decide (o.first ≤ l.first ∧ l.last ≤ o.last)

section
variable {img : Image} {i : Nat} {l : LoopEntry} {q : List (Nat × Nat)} (hl : img.loops[i]? = some l)
include hl

/-- A LOOP that is not in progress begins at iteration 0, innermost. -/
theorem loopEnter_begins (hnone : assoc i q = none) : loopEnter img i q = (i, 0) :: q.filter (img.encloses i l) := by
  have hentry : img.loops.getD i ⟨0, 0, 0, []⟩ = l := by simp [hl]
  simp only [loopEnter, hnone, hentry]
  rfl

/-- A LOOP met again goes to its next iteration, and after the last it begins anew. -/
theorem loopEnter_next {k : Nat} (hk : assoc i q = some k) :
    loopEnter img i q = (i, if k + 1 < l.count then k + 1 else 0) :: q.filter (img.encloses i l) := by
  have hentry : img.loops.getD i ⟨0, 0, 0, []⟩ = l := by simp [hl]
  simp only [loopEnter, hk, hentry]
  rfl

end

/-- The registers of an engine that a test window leaves undefined hold free values, each of its own number (R127, R152). -/
theorem Engine.undefine_seeds (g : Engine) (n : Nat) : (g.undefine n).tileA.image = { seed := some n }
    ∧ (g.undefine n).tileB.image = { seed := some (n + 1) } ∧ (g.undefine n).bcast = { seed := some (n + 2) }
    ∧ (∀ k : Fin 64, (g.undefine n).acc[k] = { seed := some (n + 3 + k.val) }) ∧ (g.undefine n).matOut = { seed := some (n + 67) }
    ∧ (g.undefine n).append = { seed := some (n + 68) } ∧ (g.undefine n).argmax = { seed := some (n + 69) } :=
  ⟨rfl, rfl, rfl, fun k => by simp [Engine.undefine], rfl, rfl, rfl⟩

end Sys2Proof.Machine

namespace Sys2Proof.Proofs

open Sys2Proof Sys2Proof.Machine

/-- Settles O22: the cases of each command by what has moved, by the credit and by the bound. -/
theorem transferAndCreditWaits : Obligations.TransferAndCreditWaits := by
  unfold Obligations.TransferAndCreditWaits
  intro s t e j
  generalize hu : s.advance t = u
  intro u' q
  refine ⟨fun hj => ⟨execWaitl_passes hu hj, execWaitl_waits hu hj⟩, fun issued limit h => ⟨fun hlimit hdone => ?_,
    fun hlimit hdone => ?_, execWaitlRelease_late hu h, execWaitTimeout_xfers hu h⟩,
    fun port link route bytes issued limit h => ⟨fun c hlimit hctx hactive => ⟨fun hheld hcredit => ?_, fun hnone => ⟨?_, ?_⟩⟩,
      execEgress_late hu h⟩⟩
  · rw [execWaitlRelease_inTime hu h hlimit]
    exact congrArg _ (if_pos hdone)
  · rw [execWaitlRelease_inTime hu h hlimit]
    exact congrArg _ (if_neg (ne_true_of_eq_false hdone))
  · exact execEgressCreditRelease_takes hu h hctx hactive hlimit hheld hcredit
  · exact execEgressCreditRelease_stands hu h hctx hactive hnone hlimit
  · exact execWaitTimeout_egress hu h hctx hactive hnone

/-- Settles O23: LOOP and TEST by their entry, END by whether the job has ended on its engine. -/
theorem loopTestEnd : Obligations.LoopTestEnd := by
  unfold Obligations.LoopTestEnd
  intro s t e j i u g hj
  refine ⟨?_, ?_, execLoop_unknown rfl hj, execTest_unknown rfl hj, execEndJob_ends rfl hj, execEndJob_again rfl hj⟩
  · intro l hl encloses goes
    have hgoes (k : Nat) (hk : loopEnter (imageOn j e) i g.seq.loops = (i, k) :: g.seq.loops.filter encloses) : goes k := by
      show exec _ _ = _
      rw [execLoop_enters rfl hj hl, ← hk]
      rfl
    exact ⟨fun hnone => hgoes 0 (loopEnter_begins hl hnone), fun k hk => hgoes _ (loopEnter_next hl hk)⟩
  · intro steps hw
    exact ⟨g.tested u.free (u.now + 256 * steps), execTest_holds rfl hj hw, g.tested_frame _ _, g.undefine_seeds u.free⟩

end Sys2Proof.Proofs

/-! SUPPORT. Time in which one landing is due (R39, R114). -/

namespace Sys2Proof.Machine

/-! ### Engines changed one after another -/

/-- A function of the engines run over a list of them, where to run it twice is to run it once, is run on each engine of the list. -/
theorem State.foldl_updEng_idem {f : EngId → Engine → Engine} (hidem : ∀ x g, f x (f x g) = f x g) (l : List EngId) (s : State) :
    l.foldl (fun s x => s.updEng x (f x)) s = Cert.onEngines s l f := by
  induction l generalizing s with
  | nil => simp [Cert.onEngines]
  | cons x xs ih =>
    have heng (y : EngId) : (if y ∈ xs then f y (s.updEng x (f x)).eng[y] else (s.updEng x (f x)).eng[y]) =
        if y ∈ x :: xs then f y s.eng[y] else s.eng[y] := by
      by_cases hy : y = x
      · subst hy
        rw [State.updEng_self, hidem, ite_self, if_pos (List.mem_cons_self ..)]
      · simp only [State.updEng_ne hy, List.mem_cons, or_iff_right hy]
    rw [List.foldl_cons, ih]
    simp only [Cert.onEngines, heng]
    rfl

/-- A function that leaves every engine but one as it is changes that one. -/
theorem Cert.onEngines_only {s : State} {e : EngId} {l : List EngId} {f : EngId → Engine → Engine} (he : e ∈ l)
    (h : ∀ x, x ≠ e → f x s.eng[x] = s.eng[x]) : Cert.onEngines s l f = s.updEng e (f e) := by
  have heng (y : EngId) : (if y ∈ l then f y s.eng[y] else s.eng[y]) = (s.updEng e (f e)).eng[y] := by
    by_cases hy : y = e
    · subst hy
      rw [State.updEng_self, if_pos he]
    · rw [State.updEng_ne hy, h y hy, ite_self]
  have hvec : (Vector.ofFn fun y : EngId => (s.updEng e (f e)).eng[y]) = (s.updEng e (f e)).eng := by
    ext i hi
    simp
  simp only [Cert.onEngines, heng, hvec]
  rfl

theorem mem_engines (e : EngId) : e ∈ engines := List.mem_finRange e

theorem nodup_engines : engines.Nodup := List.nodup_finRange 6

/-! ### One landing that is due (R114) -/

/-- Lists of which all but one are empty, one after another. -/
theorem flatMap_only {α β : Type} {f : α → List β} {l : List α} {a : α} (hl : l.Nodup) (ha : a ∈ l) (h : ∀ x, x ≠ a → f x = []) :
    l.flatMap f = f a := by
  induction l with
  | nil => exact absurd ha (List.not_mem_nil)
  | cons x xs ih =>
    obtain ⟨hx, hxs⟩ := List.nodup_cons.1 hl
    rw [List.flatMap_cons]
    by_cases hxa : x = a
    · subst hxa
      rw [List.flatMap_eq_nil_iff.2 fun y hy => h y fun he => hx (he ▸ hy), List.append_nil]
    · rw [h x hxa, List.nil_append, ih hxs ((List.mem_cons.1 ha).resolve_left (Ne.symm hxa))]

/-- Engine `e` has one landing, due by cycle `n`, and no other engine has one due by then. -/
structure State.OneDue (s : State) (n : Nat) (e : EngId) (l : Landing) : Prop where
  here : s.eng[e].landings = [l]
  due : l.due ≤ n
  others : ∀ x : EngId, x ≠ e → ∀ k ∈ s.eng[x].landings, n < k.due

section
variable {s : State} {n : Nat} {e : EngId} {l : Landing} (h : s.OneDue n e l)
include h

theorem State.OneDue.mono : s.OneDue l.due e l where
  here := h.here
  due := le_rfl
  others x hx k hk := lt_of_le_of_lt h.due (h.others x hx k hk)

/-- The landings due are this one. -/
theorem State.OneDue.landings : engines.flatMap (fun x => s.eng[x].landings.filter fun k => decide (k.due ≤ n)) = [l] := by
  rw [flatMap_only nodup_engines (mem_engines e) fun x hx => Engine.dueLandings_nil (h.others x hx), h.here]
  simp [h.due]

theorem State.OneDue.dueCount : s.dueCount n = 1 := by
  have hlen := congrArg List.length h.landings
  rw [List.length_flatMap] at hlen
  exact hlen

theorem State.OneDue.dueBy : s.dueBy n = [(e, l)] := by
  have hall : engines.flatMap (fun x => (s.eng[x].landings.filter fun k => decide (k.due ≤ n)).map fun k => (x, k)) = [(e, l)] := by
    rw [flatMap_only nodup_engines (mem_engines e) fun x hx => by rw [Engine.dueLandings_nil (h.others x hx), List.map_nil],
      h.here]
    simp [h.due]
  unfold State.dueBy
  simp only [hall]
  rfl

theorem State.OneDue.nextDue : s.nextDue n = some l.due := by
  have hall : engines.flatMap (fun x => (s.eng[x].landings.map Landing.due).filter (· ≤ n)) = [l.due] := by
    rw [flatMap_only nodup_engines (mem_engines e), h.here]
    · simp [h.due]
    · intro x hx
      rw [List.filter_map]
      exact congrArg _ (Engine.dueLandings_nil (h.others x hx))
  unfold State.nextDue
  rw [hall]
  rfl

/-- The landing taken off, the other engines keep theirs. -/
theorem State.OneDue.takenOff : engines.foldl (fun s x => s.updEng x fun g => { g with landings := g.landings.filter fun k => !decide (k.due ≤ n) }) s =
    s.updEng e fun g => { g with landings := [] } := by
  rw [State.foldl_updEng_idem (f := fun _ g => { g with landings := g.landings.filter fun k => !decide (k.due ≤ n) }),
    Cert.onEngines_only (mem_engines e)]
  · refine State.updEng_congr ?_
    rw [h.here]
    simp [h.due]
  · intro x hx
    rw [Engine.keepsLandings (h.others x hx)]
  · intro _ g
    rw [List.filter_filter]
    simp

end

theorem State.nextDue_none {s : State} {n : Nat} (h : Cert.NothingDue s n) : s.nextDue n = none := by
  unfold State.nextDue
  rw [List.flatMap_eq_nil_iff.2]
  · rfl
  · intro x _
    rw [List.filter_map]
    exact congrArg _ (Engine.dueLandings_nil (h x))

/-- The end of a cycle leaves the landings of every engine. -/
theorem State.moveTo_landings (s : State) (n : Nat) (x : EngId) : (s.moveTo n).eng[x].landings = s.eng[x].landings := by
  unfold State.moveTo
  split
  · exact (congrArg Engine.landings (State.hold_eng s x)).trans (Engine.hold_landings _)
  · rfl

/-- Whether an engine's landings are taken off before its cycle ends or after is one. -/
theorem State.takenOff_moveTo (s : State) (e : EngId) (n : Nat) : (s.updEng e fun g => { g with landings := [] }).moveTo n =
    (s.moveTo n).updEng e fun g => { g with landings := [] } := by
  unfold State.moveTo
  rw [State.updEng_now]
  split
  · simp [State.updEng, State.hold, Vector.map_set, Engine.hold]
  · rfl

/-- The postmark moves on from where it stands. -/
theorem State.moveTo_max_of_le {v : State} {n : Nat} (h : n ≤ v.now) (t : Nat) : v.moveTo (max n t) = v.moveTo t := by
  rcases Nat.le_total n t with ht | ht
  · rw [max_eq_right ht]
  · rw [max_eq_left ht, State.moveTo_past h, State.moveTo_past (ht.trans h)]

/-- An effect on the engine's own registers lands for a job that has not been ended. -/
theorem State.land_inEngine {s : State} {e : EngId} {l : Landing} (heff : Cert.inEngine l.eff = true) (hjobs : ∀ j ∈ s.jobs, j.early = none) :
    s.land e l = (s.moveTo l.due).updEng e fun g => g.land l.due l.vec l.eff := by
  have hjobs' : ∀ j ∈ (s.moveTo l.due).jobs, j.early = none := by
    unfold State.moveTo
    split
    · exact hjobs
    · exact hjobs
  unfold State.land
  extract_lets v dropped
  have hkept : dropped = false := by
    simp only [dropped]
    split
    next j hj => rw [hjobs' j (List.mem_of_find?_eq_some hj)]
    · rfl
  rw [if_neg (ne_true_of_eq_false hkept)]
  obtain ⟨due, job, vec, eff⟩ := l
  cases eff with
  | beat | arrive | note | vecRead | fail => exact absurd heff Bool.false_ne_true
  | _ => rfl

/-! ### Time in which one landing is due -/

theorem State.quiet_updEng {s : State} (h : Cert.Quiet s) (e : EngId) (f : Engine → Engine) : Cert.Quiet (s.updEng e f) := h

theorem State.rewriteStatus_eng (s : State) : s.rewriteStatus.eng = s.eng := by
  rcases s.rewriteStatus_cases with hs | ⟨row, hs⟩
  · rw [hs]
  · rw [hs, State.updPwr_eng]

/-- The landing takes effect in its own cycle, in its engine (R114). -/
theorem State.settle_one {s : State} {n : Nat} {e : EngId} {l : Landing} (hq : Cert.Quiet s) (h : s.OneDue n e l)
    (heff : Cert.inEngine l.eff = true) : s.settle l.due =
      (s.moveTo l.due).updEng e fun g => ({ g with landings := [] } : Engine).land l.due l.vec l.eff := by
  obtain ⟨hjobs, -⟩ := hq
  have hland := State.land_inEngine (s := s.updEng e fun g => { g with landings := [] }) (e := e) heff fun j hj => (hjobs j hj).1
  unfold State.settle
  rw [h.mono.dueBy, h.mono.takenOff, List.foldl_cons, List.foldl_nil, hland, State.takenOff_moveTo, State.updEng_updEng]

theorem State.OneDue.nothingDue {s : State} {n : Nat} {e : EngId} {l : Landing} (h : s.OneDue n e l) (f : Engine → Engine)
    (hf : ∀ g, (f g).landings = []) : Cert.NothingDue ((s.moveTo l.due).updEng e f) n := by
  intro x k hk
  by_cases hx : x = e
  · subst hx
    rw [State.updEng_self, hf] at hk
    exact absurd hk List.not_mem_nil
  · rw [State.updEng_ne hx, State.moveTo_landings] at hk
    exact h.others x hx k hk

/-- An advance of a quiet state in which one landing is due (R39, R114). -/
theorem State.advance_one {s : State} {t : Nat} {e : EngId} {l : Landing} (hq : Cert.Quiet s) (h : s.OneDue (max s.now t) e l)
    (heff : Cert.inEngine l.eff = true) : s.advance t =
      ((s.rewriteStatus.moveTo l.due).updEng e fun g => ({ g with landings := [] } : Engine).land l.due l.vec l.eff).moveTo t := by
  have hq' := State.quiet_rewriteStatus hq
  have h' : s.rewriteStatus.OneDue (max s.now t) e l := by
    obtain ⟨hhere, hdue, hothers⟩ := h
    rw [← State.rewriteStatus_eng] at hhere hothers
    exact ⟨hhere, hdue, hothers⟩
  have hnone := h'.nothingDue (fun g => ({ g with landings := [] } : Engine).land l.due l.vec l.eff) fun g => Engine.land_landings ..
  obtain ⟨-, -, hopens, -, -⟩ := id hq'
  unfold State.advance
  simp only [State.finishAborts_none hopens, h'.dueCount]
  rw [show 40 * 1 = 39 + 1 from rfl, State.settleUpTo, h'.nextDue]
  simp only [State.settle_one hq' h' heff, State.settleUpTo, State.nextDue_none hnone]
  rw [State.pass_quiet (State.quiet_moveTo (State.quiet_updEng (State.quiet_moveTo hq' l.due) e _) _)]
  exact State.moveTo_max_of_le (by simp) t

end Sys2Proof.Machine

namespace Sys2Proof.Proofs

open Sys2Proof Sys2Proof.Machine

/-- Settles O6: the landing is the only one that settles (`State.settle_one`), and after it nothing is due. -/
theorem dueResultsLand : Obligations.DueResultsLand := by
  unfold Obligations.DueResultsLand
  intro s t e l hq hhere heff hdue hothers w
  rw [State.advance_one hq ⟨hhere, hdue, hothers⟩ heff]
  rfl

end Sys2Proof.Proofs

/-! SUPPORT. Transfers between activation SRAM and the region of the partition (R33, R98, R110, R111, R120, R452). -/

namespace Sys2Proof.Machine

/-! LDR and LDW (R110, R111, R120). -/

/-- LDR or LDW of bytes of activation SRAM on an LPDDR or CHECKPOINT route; the lines that an LDW reads were landed on by no vector operation
in the last three cycles (R123). -/
structure State.MayTransfer (u : State) (e : EngId) (j : Job) (line route : Nat) (r : RouteEntry) (isRead : Bool) : Prop where
  entry : (imageOn j e).routes[route]? = some r
  kind : r.kind = 4 ∨ r.kind = 5
  inside : 64 * line + r.bound ≤ actSize
  checked : isRead = false → u.eng[e].unchecked u.now (64 * line) r.bound = false

section
variable {u : State} {e : EngId} {j : Job} {line route : Nat} {r : RouteEntry} {isRead : Bool} (h : u.MayTransfer e j line route r isRead)
include h

theorem State.MayTransfer.allowed : ¬ (r.kind < 4 ∨ 5 < r.kind ∨ actSize < lineAddr line + r.bound ∨
    (¬ isRead = true ∧ u.eng[e].unchecked u.now (lineAddr line) r.bound = true)) := by
  rintro (hkind | hkind | hin | ⟨hwrite, hunchecked⟩)
  · have := h.kind
    omega
  · have := h.kind
    omega
  · exact h.inside.not_gt hin
  · exact Bool.false_ne_true ((h.checked (Bool.eq_false_iff.mpr hwrite)).symm.trans hunchecked)

theorem State.startXfer_noSlot (hrange : u.routeRange j.part r isRead = none) :
    u.startXfer e j line route isRead = u.endEarly j.id stCkptBad := by
  unfold State.startXfer
  simp only [h.entry, if_neg h.allowed, hrange]

variable {a : Nat} {zeros : Bool} (hrange : u.routeRange j.part r isRead = some (a, zeros)) (hregion : a + r.bound ≤ regionBytes u.part[j.part])
include hrange hregion

theorem State.startXfer_fenced (hfenced : u.lpFenced a r.bound = true) :
    u.startXfer e j line route isRead = u.endEarly j.id stFenced := by
  unfold State.startXfer
  simp only [h.entry, if_neg h.allowed, hrange, if_neg hregion.not_gt, if_pos hfenced]

theorem State.startXfer_begins (hopen : u.lpFenced a r.bound = false) :
    u.startXfer e j line route isRead = Cert.transfer u e j isRead line a r.bound zeros := by
  unfold State.startXfer
  simp only [h.entry, if_neg h.allowed, hrange, if_neg hregion.not_gt, if_neg (ne_true_of_eq_false hopen)]
  rfl

end

/-! The bytes of the region that a route names (R110, R111). -/

section
variable {u : State} {p : PartId} {r : RouteEntry}

theorem State.routeRange_lpddr (hkind : r.kind = 4) (isRead : Bool) : u.routeRange p r isRead = some (512 * r.offset, false) := if_pos hkind

variable (hkind : r.kind = 5)
include hkind

theorem State.routeRange_noCkpt (hckpt : u.part[p].ckpt = none) (isRead : Bool) : u.routeRange p r isRead = none := by
  have hne : r.kind ≠ 4 := by omega
  unfold State.routeRange
  simp only [if_neg hne, hckpt]

variable {c : Ckpt} (hckpt : u.part[p].ckpt = some c) (hlen : 512 * r.offset + r.bound ≤ c.length)
include hckpt hlen

/-- An LDW goes to the slot under construction. -/
theorem State.routeRange_write : u.routeRange p r false = some (c.slotAt c.underB + 512 * r.offset, false) := by
  have hne : r.kind ≠ 4 := by omega
  unfold State.routeRange
  simp only [if_neg hne, hckpt, if_neg hlen.not_gt, Bool.false_eq_true, not_false_eq_true, if_true]

/-- An LDR reads zeros where no slot has been sealed. -/
theorem State.routeRange_unsealed (hsealed : c.sealedSlot = none) :
    u.routeRange p r true = some (c.slotAt (!c.underB) + 512 * r.offset, true) := by
  have hne : r.kind ≠ 4 := by omega
  unfold State.routeRange
  simp only [if_neg hne, hckpt, if_neg hlen.not_gt, not_true_eq_false, if_false, hsealed]

/-- An LDR reads the slot sealed last. -/
theorem State.routeRange_sealed {b : Bool} (hsealed : c.sealedSlot = some b) :
    u.routeRange p r true = some (c.slotAt b + 512 * r.offset, false) := by
  have hne : r.kind ≠ 4 := by omega
  unfold State.routeRange
  simp only [if_neg hne, hckpt, if_neg hlen.not_gt, not_true_eq_false, if_false, hsealed]

end

section
variable {s u : State} {t : Nat} {e : EngId} {j : Job} (hu : s.advance t = u) (hj : u.issuing e = some j) (line route : Nat)
include hu hj

theorem execLdr_starts : exec (.ldr t e line route {}) s = .next (u.startXfer e j line route true) := by
  rw [exec_ldr, execLdr, State.engineOp_reached hu hj]

theorem execLdw_starts : exec (.ldw t e line route {}) s = .next (u.startXfer e j line route false) := by
  rw [exec_ldw, execLdw, State.engineOp_reached hu hj]

end

/-! LPDDR_SLOT (R33, R452). -/

section
variable {s u : State} {t : Nat} {slot : Fin 32} {p : PartId} (hu : s.advance t = u) (htrained : u.pwr.trained = true)
  (hslot : u.frameTime % 1024 = 32 * slot.val) (hnew : u.fab.lpSlotAt ≠ some u.now) (howner : u.slotOwner slot = some p)
include hu htrained hslot hnew howner

theorem execLpddrSlot_serves {e : EngId} (hserves : u.slotEngine p = some e) : exec (.lpddrSlot t slot) s = .next { u with
    fab := { u.fab with lpSlotAt := some u.now }
    part := u.part.set p { u.part[p] with lastEngine := e.val }
    eng := u.eng.set e { u.eng[e] with seq := { u.eng[e].seq with xfers := slotXfers u.now u.eng[e].seq.xfers } } } := by
  have hdue : ¬ (¬ u.pwr.trained = true ∨ u.frameTime % 1024 ≠ 32 * slot.val ∨ u.fab.lpSlotAt = some u.now) := by
    simp [htrained, hslot, hnew]
  have howner' : (u.updFab fun b => { b with lpSlotAt := some u.now }).slotOwner slot = some p := howner
  have hserves' : (u.updFab fun b => { b with lpSlotAt := some u.now }).slotEngine p = some e := hserves
  rw [exec_lpddrSlot, execLpddrSlot, hu]
  simp only [if_neg hdue, howner', hserves']
  rfl

/-- A slot in which no transfer is pending goes to the partition's other accesses; here there are none. -/
theorem execLpddrSlot_open (hserves : u.slotEngine p = none) (hheld : ∀ c ∈ u.fab.ctxs, c.held = [])
    (hclean : oldestDirty u.host.bulk[p].frames = none) : exec (.lpddrSlot t slot) s = .next { u with fab := { u.fab with
      lpSlotAt := some u.now, lpFree := (p, u.now) :: u.fab.lpFree.filter fun x => decide (u.now < x.2 + 2300) } } := by
  have hdue : ¬ (¬ u.pwr.trained = true ∨ u.frameTime % 1024 ≠ 32 * slot.val ∨ u.fab.lpSlotAt = some u.now) := by
    simp [htrained, hslot, hnew]
  have howner' : (u.updFab fun b => { b with lpSlotAt := some u.now }).slotOwner slot = some p := howner
  have hserves' : (u.updFab fun b => { b with lpSlotAt := some u.now }).slotEngine p = none := hserves
  rw [exec_lpddrSlot, execLpddrSlot, hu]
  simp only [if_neg hdue, howner', hserves', State.openSlot, State.updFab_host, hclean]
  exact congrArg _ (State.drainHeld_none hheld)

end

/-! LPDDR_TRANSFER_DONE (R33, R98, R120). -/

section
variable {s u : State} {t c : Nat} {e : EngId} {j : Job} {x : Xfer}

/-- The one transfer of an engine, complete by now, is moved for the job that runs. -/
theorem execLpddrTransferDone_moves (hu : s.advance t = u) (hxfers : u.eng[e].seq.xfers = [x]) (hmoved : x.moved = false)
    (hdone : x.doneAt = some c) (hdue : c ≤ u.now) (hrun : u.running e = some j) (hjob : j.id = x.job)
    (hearly : ∀ c st, j.early = some (c, st) → c = u.now) :
    exec (.lpddrTransferDone t e {}) s = .next (u.moveXfer e j x {}) := by
  have hnow : (j.early.all fun (y : Nat × Status) => decide (y.1 = u.now)) = true := by
    cases hj : j.early with
    | none => rfl
    | some y => exact decide_eq_true (hearly y.1 y.2 hj)
  rw [exec_lpddrTransferDone, execLpddrTransferDone, hu]
  simp only [hxfers]
  rw [List.filter_cons_of_pos (by simp [hmoved, hdone, hdue]), List.filter_nil, List.foldl_cons, List.foldl_nil]
  simp only [hrun]
  rw [if_pos ⟨hjob, hnow⟩]

/-- The state in which the one transfer of an engine counts as moved. -/
def State.xferMoved (u : State) (e : EngId) (x : Xfer) : State :=
  u.updEng e fun g => { g with seq := { g.seq with xfers := [{ x with moved := true }] } }

/-- The bytes that a complete LDR brings. -/
def State.xferBytes (u : State) (j : Job) (x : Xfer) : List Byte :=
  if x.zeros then List.replicate x.length 0 else regionRead u.part[j.part] x.regionByte x.length

theorem State.xferBytes_length : (u.xferBytes j x).length = x.length := by
  unfold State.xferBytes
  split
  · exact List.length_replicate
  · exact regionRead_length ..

theorem State.xferMoved_eq (hxfers : u.eng[e].seq.xfers = [x]) : (u.updEng e fun g => { g with seq := { g.seq with
    xfers := updWhere (fun y => decide (y.id = x.id)) (fun y => { y with moved := true }) g.seq.xfers } }) = u.xferMoved e x := by
  refine State.updEng_congr ?_
  rw [hxfers]
  simp [updWhere]

theorem State.moveXfer_read (hxfers : u.eng[e].seq.xfers = [x]) (hread : x.isRead = true) :
    u.moveXfer e j x {} = ((u.xferMoved e x).sideWrite e (64 * x.line) (u.xferBytes j x)).1 := by
  unfold State.moveXfer
  simp only [State.xferMoved_eq hxfers, hread, if_true, List.contains_nil, Bool.false_eq_true, if_false]
  rfl

theorem State.moveXfer_write (hxfers : u.eng[e].seq.xfers = [x]) (hwrite : x.isRead = false)
    (hplace : badPlace u.eng[e] {} ((List.range x.length).map (64 * x.line + ·)) = none) :
    u.moveXfer e j x {} = (u.xferMoved e x).updPart j.part fun q =>
      regionWrite q x.regionByte (u.eng[e].sideGets u.now ((List.range x.length).map (64 * x.line + ·))) := by
  have hplace' : badPlace (u.xferMoved e x).eng[e] {} ((List.range x.length).map (64 * x.line + ·)) = none := by
    rw [State.xferMoved, State.updEng_self]
    exact hplace
  have hgets : (u.xferMoved e x).eng[e].sideGets (u.xferMoved e x).now ((List.range x.length).map (64 * x.line + ·)) =
      u.eng[e].sideGets u.now ((List.range x.length).map (64 * x.line + ·)) := by
    rw [State.xferMoved, State.updEng_self]
    rfl
  unfold State.moveXfer
  simp only [State.xferMoved_eq hxfers, hwrite, Bool.false_eq_true, if_false, State.corrected_zero, hplace', hgets, List.contains_nil]

/-- A side-port write in a memory without uncorrectable words stores its bytes; the words that a unit wrote in the same cycle are counted. -/
theorem State.sideWrite_stores {w : State} (hbad : w.eng[e].mem.actBad = []) (a : Nat) (bs : List Byte) :
    ∃ mem : MemHealth, (w.sideWrite e a bs).1 = w.updEng e fun g => { g.sidePut w.now (cellsFrom a bs) with mem := mem } := by
  have hread : (if (partWords a bs.length).isEmpty = true then w else w.updEng e fun g => { g with mem := g.mem.corrected true 0 }) = w := by
    split
    · rfl
    · exact State.corrected_zero w e true
  have hnone : ((partWords a bs.length).filter fun x => w.eng[e].mem.actBad.contains x) = [] := by
    rw [hbad]
    exact List.filter_eq_nil_iff.2 fun _ _ => Bool.false_ne_true
  unfold State.sideWrite
  simp only [hread, hnone, List.contains_nil, Bool.not_false, List.filter_true]
  exact ⟨_, State.updEng_congr rfl⟩

/-- What a side-port write leaves in the memory: its bytes, and every other byte as before. -/
theorem Engine.sidePut_act (g : Engine) (now a : Nat) (bs : List Byte) :
    memRead (g.sidePut now (cellsFrom a bs)).act a bs.length = bs
      ∧ ∀ b, b < a ∨ a + bs.length ≤ b → memGet (g.sidePut now (cellsFrom a bs)).act b = memGet g.act b := by
  by_cases hbs : bs = []
  · subst hbs
    exact ⟨by simp [memRead_eq], fun b _ => rfl⟩
  · show memRead (memPut g.act (cellsFrom a bs)) a bs.length = bs ∧ _
    simp only [Engine.sidePut, memPut_cellsFrom _ _ hbs]
    exact ⟨memRead_memWrite _ _ _, fun b => memGet_memWrite_out _ _ _ _⟩

end

end Sys2Proof.Machine

namespace Sys2Proof.Proofs
open Sys2Proof Sys2Proof.Machine

section
variable {u : State} {e : EngId} {j : Job} {x : Xfer}

/-- A complete LDR puts its bytes into activation SRAM: no other byte of it changes, and of the state only the side port and the word counts. -/
theorem moveXfer_read_puts (hxfers : u.eng[e].seq.xfers = [x]) (hread : x.isRead = true) (hbad : u.eng[e].mem.actBad = []) :
    u.moveXfer e j x {} = { u with eng := u.eng.set e (u.moveXfer e j x {}).eng[e] }
      ∧ (u.moveXfer e j x {}).eng[e] = { u.eng[e] with
          act := (u.moveXfer e j x {}).eng[e].act, mem := (u.moveXfer e j x {}).eng[e].mem
          sideAt := u.now, sideOld := (u.moveXfer e j x {}).eng[e].sideOld
          seq := { u.eng[e].seq with xfers := [{ x with moved := true }] } }
      ∧ memRead (u.moveXfer e j x {}).eng[e].act (64 * x.line) x.length = u.xferBytes j x
      ∧ ∀ a : Nat, a < 64 * x.line ∨ 64 * x.line + x.length ≤ a → memGet (u.moveXfer e j x {}).eng[e].act a = memGet u.eng[e].act a := by
  have hbad' : (u.xferMoved e x).eng[e].mem.actBad = [] := by
    rw [State.xferMoved, State.updEng_self]
    exact hbad
  obtain ⟨mem, hmem⟩ := State.sideWrite_stores hbad' (64 * x.line) (u.xferBytes j x)
  rw [State.moveXfer_read hxfers hread, hmem, State.xferMoved, State.updEng_updEng, State.updEng_self]
  obtain ⟨hin, hout⟩ := Engine.sidePut_act u.eng[e] u.now (64 * x.line) (u.xferBytes j x)
  rw [State.xferBytes_length] at hin hout
  exact ⟨rfl, rfl, hin, hout⟩

end

/-- Settles O20: the route gives the transfer's bytes or the job's end; a slot moves units; a complete transfer is one side-port write or one region write. -/
theorem transfersMoveTheirBytes : Obligations.TransfersMoveTheirBytes := by
  unfold Obligations.TransfersMoveTheirBytes
  intro s t e j
  generalize hu : s.advance t = u
  intro _
  refine ⟨?_, ?_, ?_⟩
  · intro line route r hj hr hin _ _
    have hldr := execLdr_starts hu hj line route
    have hldw := execLdw_starts hu hj line route
    have hread (hk : r.kind = 4 ∨ r.kind = 5) : u.MayTransfer e j line route r true := ⟨hr, hk, hin, nofun⟩
    have hwrite (hk : r.kind = 4 ∨ r.kind = 5) (hun : u.eng[e].unchecked u.now (64 * line) r.bound = false) :
        u.MayTransfer e j line route r false := ⟨hr, hk, hin, fun _ => hun⟩
    refine ⟨fun hk hregion => ?_, fun hk hckpt => ⟨?_, fun hun => ?_⟩, fun hk c hckpt hlen =>
      ⟨fun ⟨hregion, hopen⟩ hun => ?_, fun hsealed ⟨hregion, hopen⟩ => ?_, fun b hsealed ⟨hregion, hopen⟩ => ?_⟩⟩
    · have hrange := State.routeRange_lpddr (u := u) (p := j.part) hk
      split
      next hfenced =>
        exact ⟨hldr.trans (congrArg _ (State.startXfer_fenced (hread (.inl hk)) (hrange true) hregion hfenced)),
          fun hun => hldw.trans (congrArg _ (State.startXfer_fenced (hwrite (.inl hk) hun) (hrange false) hregion hfenced))⟩
      next hopen =>
        have hopen' := Bool.eq_false_iff.mpr hopen
        exact ⟨hldr.trans (congrArg _ (State.startXfer_begins (hread (.inl hk)) (hrange true) hregion hopen')),
          fun hun => hldw.trans (congrArg _ (State.startXfer_begins (hwrite (.inl hk) hun) (hrange false) hregion hopen'))⟩
    · exact hldr.trans (congrArg _ (State.startXfer_noSlot (hread (.inr hk)) (State.routeRange_noCkpt hk hckpt true)))
    · exact hldw.trans (congrArg _ (State.startXfer_noSlot (hwrite (.inr hk) hun) (State.routeRange_noCkpt hk hckpt false)))
    · exact hldw.trans (congrArg _ (State.startXfer_begins (hwrite (.inr hk) hun) (State.routeRange_write hk hckpt hlen) hregion hopen))
    · exact hldr.trans (congrArg _ (State.startXfer_begins (hread (.inr hk)) (State.routeRange_unsealed hk hckpt hlen hsealed) hregion hopen))
    · exact hldr.trans (congrArg _ (State.startXfer_begins (hread (.inr hk)) (State.routeRange_sealed hk hckpt hlen hsealed) hregion hopen))
  · intro slot p htrained hslot hnew howner
    exact ⟨execLpddrSlot_serves hu htrained hslot hnew howner, execLpddrSlot_open hu htrained hslot hnew howner⟩
  · intro x c hxfers hmoved hdone hdue hrun hjob hearly
    have hmoves := execLpddrTransferDone_moves hu hxfers hmoved hdone hdue hrun hjob hearly
    refine ⟨fun hread hbad => ⟨_, hmoves, moveXfer_read_puts hxfers hread hbad⟩, fun hwrite hplace => ?_⟩
    rw [hmoves, State.moveXfer_write hxfers hwrite hplace]
    rfl

end Sys2Proof.Proofs

/-! SUPPORT. The start and the completion point of a job (R36, R105, R130, R152). -/

namespace Sys2Proof.Machine

/-! The start of a job (R105, R130, R152). -/

/-- Free values drawn for one engine after another of a list in which none stands twice: each engine's number follows those before it. -/
theorem State.foldl_fresh_updEng (f : Nat → Engine → Engine) {l : List EngId} (hl : l.Nodup) (s : State) :
    l.foldl (fun s x => s.fresh.2.updEng x (f s.fresh.1)) s =
      { Cert.onEngines s l fun x => f (s.free + l.idxOf x) with free := s.free + l.length } := by
  induction l generalizing s with
  | nil => simp [Cert.onEngines]
  | cons x xs ih =>
    obtain ⟨hx, hxs⟩ := List.nodup_cons.1 hl
    have heng (y : EngId) : (if y ∈ xs then f (s.free + 1 + xs.idxOf y) (s.fresh.2.updEng x (f s.fresh.1)).eng[y]
        else (s.fresh.2.updEng x (f s.fresh.1)).eng[y]) =
          if y ∈ x :: xs then f (s.free + (x :: xs).idxOf y) s.eng[y] else s.eng[y] := by
      by_cases hy : y = x
      · subst hy
        rw [if_neg hx, State.updEng_self, if_pos (List.mem_cons_self ..), List.idxOf_cons_self]
        rfl
      · rw [State.updEng_ne hy, List.idxOf_cons_ne _ (Ne.symm hy), Nat.add_assoc, Nat.add_comm 1]
        simp only [List.mem_cons, or_iff_right hy]
        rfl
    have hlen : s.free + 1 + xs.length = s.free + (x :: xs).length := by
      rw [List.length_cons]
      omega
    rw [List.foldl_cons, ih hxs, ← hlen]
    simp only [Cert.onEngines, ← heng]
    rfl

/-- Engines after a change of those on a list. -/
theorem Cert.onEngines_eng (s : State) (l : List EngId) (f : EngId → Engine → Engine) (x : EngId) :
    (Cert.onEngines s l f).eng[x] = if x ∈ l then f x s.eng[x] else s.eng[x] := by
  simp [Cert.onEngines]

/-- Steps each of which leaves the state as it is. -/
theorem foldl_unchanged {α : Type} {f : State → α → State} {s : State} (l : List α) (h : ∀ x ∈ l, f s x = s) : l.foldl f s = s := by
  induction l with
  | nil => rfl
  | cons x xs ih => rw [List.foldl_cons, h x (List.mem_cons_self ..), ih fun y hy => h y (List.mem_cons_of_mem _ hy)]

/-- No walk starts where no schedule is bound to KV. -/
theorem State.walkStart_unbound {s : State} (hbinds : ∀ k ∈ s.scheds, k.binds = []) (e : EngId) : s.walkStart e = s := by
  unfold State.walkStart
  split
  · rfl
  · generalize hnext : List.findSome? _ _ = next
    obtain rfl : next = none := by
      rw [← hnext]
      refine List.findSome?_eq_none_iff.2 fun j _ => ?_
      cases hk : s.sched? j.sched with
      | none => rfl
      | some k => simp [hbinds k (List.mem_of_find?_eq_some hk)]
    rfl

/-- Preloads whose rows are not known as uncorrectable do not end the job. -/
theorem failPreload_of_sound {s : State} {e : EngId} {j : Job} (h : ∀ r ∈ preloadRows (imageOn j e), r ∉ s.eng[e].mem.storeBad) :
    s.failPreload e j = s := by
  have hnone : ((preloadRows (imageOn j e)).find? fun r => s.eng[e].mem.storeBad.contains r) = none :=
    List.find?_eq_none.2 fun r hr => by simpa using h r hr
  unfold State.failPreload
  simp only [hnone]

/-- An engine as a job starts on it, its argmax register holding free value `n`. -/
def Engine.seated (j : Job) (n : Nat) (g : Engine) : Engine :=
  { g with argmax := { seed := some n }
           seq := { job := some j.id, freeFrom := g.seq.freeFrom, testUntil := g.seq.testUntil } }

section
variable {s u : State} {t c : Nat} {e : EngId} {j : Job} {rest : List Job} (hu : s.advance t = u) (hqueue : u.queueOf e = j :: rest)
  (hreleased : j.released = some c)
include hu hqueue hreleased

/-- Before two cycles have passed, or with an engine not free, a job does not start. -/
theorem execJobStart_waits (h : u.now < c + 2 ∨ ∃ x ∈ j.engines, u.engineFree j x = false) : exec (.jobStart t e) s = .next u := by
  have hwait : j.started.isSome ∨ j.early.isSome ∨ u.now < c + 2 ∨ ¬ j.engines.all (u.engineFree j) := by
    rcases h with hearly | ⟨x, hx, hbusy⟩
    · exact .inr (.inr (.inl hearly))
    · refine .inr (.inr (.inr fun hall => ?_))
      exact Bool.false_ne_true (hbusy.symm.trans (List.all_eq_true.1 hall x hx))
  rw [exec_jobStart, execJobStart, hu]
  simp only [hqueue, hreleased, if_pos hwait]

theorem execJobStart_starts (hstarted : j.started = none) (hearly : j.early = none) (hbinds : ∀ k ∈ u.scheds, k.binds = [])
    (hjob : u.job? j.id = some j) (hkv : j.kvStatus = none) (hnodup : j.engines.Nodup) (hdue : c + 2 ≤ u.now)
    (hfree : ∀ x ∈ j.engines, u.engineFree j x = true)
    (hsound : ∀ x ∈ j.engines, ∀ r ∈ preloadRows (imageOn j x), r ∉ u.eng[x].mem.storeBad) :
    exec (.jobStart t e) s = .next { Cert.onEngines (u.updJob j.id fun k => { k with started := some u.now }) j.engines
      fun x => Engine.seated j (u.free + j.engines.idxOf x) with free := u.free + j.engines.length } := by
  have hready : ¬ (j.started.isSome ∨ j.early.isSome ∨ u.now < c + 2 ∨ ¬ j.engines.all (u.engineFree j)) := by
    simpa [hstarted, hearly, hdue] using hfree
  have hpreload (w : State) (hw : ∀ x ∈ j.engines, w.eng[x].mem.storeBad = u.eng[x].mem.storeBad) :
      j.engines.foldl (fun s e => s.failPreload e j) w = w :=
    foldl_unchanged _ fun x hx => failPreload_of_sound fun r hr => hw x hx ▸ hsound x hx r hr
  rw [exec_jobStart, execJobStart, hu]
  simp only [hqueue, hreleased, if_neg hready, foldl_unchanged _ fun x _ => State.walkStart_unbound hbinds x, hjob, Option.bind_some, hkv,
    reduceCtorEq, if_false]
  refine congrArg _ ((congrArg (j.engines.foldl fun s e => s.failPreload e j) (State.foldl_fresh_updEng (Engine.seated j) hnodup _)).trans
    (hpreload _ fun x hx => ?_))
  exact (congrArg (fun g : Engine => g.mem.storeBad) ((Cert.onEngines_eng _ _ _ x).trans (if_pos hx))).trans rfl

end

/-! The completion point of a job (R36). -/

/-- What an engine drops of a job that is complete. -/
theorem Engine.forget_complete (g : Engine) (id : Nat) : g.forget id none = { g with
    pageQueue := g.pageQueue.filter fun d => d.job ≠ id
    walk := g.walk.filter fun w => w.job ≠ id
    staging := g.staging.filter fun x => !(g.stagedFor id).contains x.2.1
    seq := if g.seq.job = some id then g.seq.freed 0 else g.seq } := by
  unfold Engine.forget
  simp only
  split <;> rfl

theorem KvWalk.mem_filter_todo {w : Option KvWalk} {p : KvWalk → Bool} {d : KvDesc}
    (h : d ∈ ((w.filter p).map fun x => x.todo.take 1).getD []) : d ∈ (w.map fun x => x.todo.take 1).getD [] := by
  cases w with
  | none => exact h
  | some w =>
    rw [Option.filter_some] at h
    split at h
    · exact h
    · exact absurd h List.not_mem_nil

/-- The staging pages that an engine holds for a job: of the descriptors in its page queue and of the next of its walk (R175). -/
theorem Engine.mem_stagedFor {g : Engine} {id r : Nat} : r ∈ g.stagedFor id ↔
    ∃ d, (d ∈ g.pageQueue ∨ d ∈ (g.walk.map fun x => x.todo.take 1).getD []) ∧
      (d.job = id ∧ d.isStaged) ∧ d.pageRow < 8192 ∧ d.pageRow = r := by
  unfold Engine.stagedFor
  cases g.walk <;> simp [and_assoc, or_and_right, exists_or]

/-- An engine that has dropped a job holds no staging page for it that it did not hold before. -/
theorem Engine.stagedFor_forget (g : Engine) {id r : Nat} (h : r ∈ (g.forget id none).stagedFor id) : r ∈ g.stagedFor id := by
  rw [Engine.mem_stagedFor, Engine.forget_complete] at h
  obtain ⟨d, hd, hmine⟩ := h
  exact Engine.mem_stagedFor.2 ⟨d, hd.imp List.mem_of_mem_filter KvWalk.mem_filter_todo, hmine⟩

/-- What an engine has dropped it need not drop again. -/
theorem Engine.forget_complete_idem (g : Engine) (id : Nat) : (g.forget id none).forget id none = g.forget id none := by
  have hstaging : ((g.forget id none).staging.filter fun x => !((g.forget id none).stagedFor id).contains x.2.1) =
      (g.forget id none).staging := by
    refine List.filter_eq_self.2 fun x hx => ?_
    rw [Engine.forget_complete, List.mem_filter] at hx
    simp only [Bool.not_eq_true', List.contains_eq_mem, decide_eq_false_iff_not] at hx ⊢
    exact fun hmem => hx.2 (g.stagedFor_forget hmem)
  have hqueue : ((g.forget id none).pageQueue.filter fun d => d.job ≠ id) = (g.forget id none).pageQueue := by
    simp only [Engine.forget_complete, List.filter_filter, Bool.and_self]
  have hwalk : ((g.forget id none).walk.filter fun w => w.job ≠ id) = (g.forget id none).walk := by
    simp only [Engine.forget_complete, Option.filter_filter, Bool.and_self]
  have hseq : (if (g.forget id none).seq.job = some id then (g.forget id none).seq.freed 0 else (g.forget id none).seq) =
      (g.forget id none).seq := by
    refine ite_eq_right_iff.2 fun hid => ?_
    rw [Engine.forget_complete] at hid
    simp only at hid
    split at hid
    · cases hid
    next hother => exact absurd hid hother
  rw [Engine.forget_complete (g.forget id none), hqueue, hwalk, hstaging, hseq]

theorem State.isComplete_early {s : State} {j : Job} (h : s.isComplete j = true) : j.early = none := by
  simp only [State.isComplete, Bool.and_eq_true, Option.isNone_iff_eq_none] at h
  obtain ⟨⟨⟨hearly, -⟩, -⟩, -⟩ := h
  exact hearly

theorem Job.status_ok {j : Job} (hearly : j.early = none) (hmissed : j.missed = false) (hkv : j.kvStatus = none) : j.status = stOk := by
  simp [Job.status, hearly, hmissed, hkv]

theorem State.updPart_same {s : State} {p : PartId} {f : Partition → Partition} (h : f s.part[p] = s.part[p]) : s.updPart p f = s := by
  have hset : s.part.set p s.part[p] = s.part := Vector.set_getElem_self ..
  rw [State.updPart, h, hset]

/-- Without a checkpoint no slot becomes due for its seal (R206). -/
theorem State.noteSeal_noCkpt {s : State} {j : Job} (hckpt : s.part[j.part].ckpt = none) : s.noteSeal j = s :=
  State.updPart_same (by simp only [hckpt])

section
variable {s u : State} {t : Nat} {j : Job} (hu : s.advance t = u) (hjob : u.job? j.id = some j)
include hu hjob

theorem execJobCompletion_waits (hopen : u.isComplete j = false) : exec (.jobCompletion t j.id) s = .next u := by
  rw [exec_jobCompletion, execJobCompletion, hu]
  simp only [hjob, if_neg (ne_true_of_eq_false hopen)]

/-- A job complete in time leaves its engines and the list of jobs, and is reported. -/
theorem execJobCompletion_leaves (hkv : j.kvStatus = none) (hckpt : u.part[j.part].ckpt = none)
    (hcomplete : u.isComplete j = true) (htime : j.completion ≤ j.last) : exec (.jobCompletion t j.id) s =
      .next (State.report { Cert.onEngines u j.engines (fun _ g => g.forget j.id none) with jobs := u.jobs.filter fun x => x.id ≠ j.id }
        j j.completion) := by
  have hlate : (decide (j.last < j.completion) && !j.missed) = false := by simp [htime]
  have hforget : j.engines.foldl (fun s e => s.updEng e fun g => g.forget j.id none) u = _ :=
    State.foldl_updEng_idem (f := fun _ g => g.forget j.id none) (fun _ g => g.forget_complete_idem j.id) j.engines u
  have hseal (w : State) (hw : w.part = u.part) : w.noteSeal j = w := State.noteSeal_noCkpt (hw ▸ hckpt)
  rw [exec_jobCompletion, execJobCompletion, hu]
  simp only [hjob, if_pos hcomplete, State.complete, hlate, hkv, Bool.false_eq_true, reduceCtorEq, if_false, hforget]
  exact congrArg (fun w : State => Host.Outcome.next (w.report j j.completion)) (hseal _ rfl)

end

end Sys2Proof.Machine

namespace Sys2Proof.Proofs
open Sys2Proof Sys2Proof.Machine

/-- Settles O24: a due start seats the job on each engine with a free value of its own; a completion forgets it on each of its engines, then reports it. -/
theorem jobsStartTogetherAndComplete : Obligations.JobsStartTogetherAndComplete := by
  unfold Obligations.JobsStartTogetherAndComplete
  intro s t j
  generalize hu : s.advance t = u
  intro _
  refine ⟨?_, ?_⟩
  · intro e rest c hqueue hreleased hstarted hearly hbinds hjob hkv hnodup
    exact ⟨execJobStart_starts hu hqueue hreleased hstarted hearly hbinds hjob hkv hnodup, execJobStart_waits hu hqueue hreleased⟩
  · intro hjob _ hkv hmissed hckpt
    refine ⟨execJobCompletion_waits hu hjob, fun hcomplete htime => ?_⟩
    have hleaves := execJobCompletion_leaves hu hjob hkv hckpt hcomplete htime
    have hstatus : j.status = stOk := Job.status_ok (State.isComplete_early hcomplete) hmissed hkv
    refine ⟨fun hsource => ?_, fun w row tag hsource => ?_⟩
    · rw [hleaves, State.report, hsource]
    · rw [hleaves, State.report, hsource, ← hstatus]

end Sys2Proof.Proofs

/-! SUPPORT. KVA: a row of the page's tile with the append register merged in (R166, R168, R170). -/

namespace Sys2Proof.Machine

/-- Row `r` of the tile that the register's last KVT loaded, with the append register merged in. -/
def Engine.kvaRow (g : Engine) (reg : Bool) (k : KvPool) (d : KvDesc) (p : PageTile) (r : Nat) : List Byte :=
  mergedRow k.fmt k.d d.slot p (fun a => (rfRead (g.tile reg).image 0 (tileBytes p.shape)).getD a 0) g.append.code r

/-- An engine after a KVA of `bs` at store row `row`, in cycle `now`: the store has the row unless the descriptor is DISCARD, and the
register has it one cycle later. -/
def Engine.rowMerged (g : Engine) (now : Nat) (j : Job) (reg discard : Bool) (row : Nat) (bs : List Byte) : Engine :=
  { g.setTile reg { g.tile reg with kvaCount := (g.tile reg).kvaCount + 1 } with
    store := if discard then g.store else memWrite g.store (16384 * row) bs
    mem := if discard then g.mem else g.mem.rowWritten row
    portFrom := now + 1
    landings := g.landings ++ [{ due := now + 1, job := j.id, eff := .tileMerge reg (cellsFrom (16384 * (g.tile reg).kvaCount) bs) }] }

theorem Engine.setTile_landings (g : Engine) (reg : Bool) (t : TileReg) : (g.setTile reg t).landings = g.landings := by
  cases reg <;> rfl

theorem Engine.setTile_store (g : Engine) (reg : Bool) (t : TileReg) : (g.setTile reg t).store = g.store := by
  cases reg <;> rfl

theorem Engine.setTile_mem (g : Engine) (reg : Bool) (t : TileReg) : (g.setTile reg t).mem = g.mem := by
  cases reg <;> rfl

/-- Outside the merged row every byte of the store reads as before. -/
theorem Engine.memGet_rowMerged (g : Engine) (now : Nat) (j : Job) (reg discard : Bool) (row : Nat) (bs : List Byte) {a : Nat}
    (ha : discard = true ∨ a < 16384 * row ∨ 16384 * row + bs.length ≤ a) :
    memGet (g.rowMerged now j reg discard row bs).store a = memGet g.store a := by
  cases discard with
  | true => rfl
  | false => exact memGet_memWrite_out _ _ _ _ (ha.resolve_left Bool.false_ne_true)

section
variable {s u : State} {t : Nat} {e : EngId} {reg : Bool} {j : Job} (hu : s.advance t = u) (hj : u.issuing e = some j)
  (hport : u.eng[e].portFrom ≤ u.now)
include hu hj hport

theorem execKva_underrun (hkv : (u.eng[e].tile reg).kv = none) : execKva t e reg {} s = .next (u.kvUnderrun j) := by
  rw [execKva, State.engineOp_issuing (hu ▸ hj), hu]
  simp only [if_neg hport.not_gt, hkv]

/-- KVA of a register that records a descriptor and a tile of the page with a row left. -/
theorem execKva_merges {d : KvDesc} {p : PageTile} (hkv : (u.eng[e].tile reg).kv = some d)
    (hp : ((pageTiles u.part[j.part].kv.fmt u.part[j.part].kv.d).find? fun p => p.first = (u.eng[e].tile reg).kvRow) = some p)
    (hrow : (u.eng[e].tile reg).kvaCount < tileRows p.shape) (hshape : p.shape = (u.eng[e].tile reg).shape) :
    execKva t e reg {} s = .next (u.updEng e fun g =>
      let tr := g.tile reg
      g.rowMerged u.now j reg d.isDiscard (d.pageRow + tr.kvRow + tr.kvaCount) (g.kvaRow reg u.part[j.part].kv d p tr.kvaCount)) := by
  have hgood : ¬ (tileRows p.shape ≤ (u.eng[e].tile reg).kvaCount ∨ p.shape ≠ (u.eng[e].tile reg).shape) :=
    not_or.mpr ⟨hrow.not_ge, not_not.mpr hshape⟩
  rw [execKva, State.engineOp_issuing (hu ▸ hj), hu]
  simp only [if_neg hport.not_gt, hkv, hp, if_neg hgood]
  rw [State.pend_later]
  · cases d.isDiscard <;>
      simp [State.updEng, Engine.rowMerged, Engine.kvaRow, Engine.setTile_landings, Engine.setTile_store, Engine.setTile_mem]
  · split <;> simp

end

end Sys2Proof.Machine

namespace Sys2Proof.Proofs
open Sys2Proof Sys2Proof.Machine

/-- Settles O15: a KVA with a row left is `Engine.rowMerged` on its engine, and one without a descriptor is an underrun. -/
theorem kvaMergesOneRow : Obligations.KvaMergesOneRow := by
  unfold Obligations.KvaMergesOneRow
  intro s t e reg j
  generalize hu : s.advance t = u
  intro _ g k tr r hj hport
  refine ⟨fun hkv => execKva_underrun hu hj hport hkv, fun d p hkv hp hrow hshape => ?_⟩
  refine ⟨_, execKva_merges hu hj hport hkv hp hrow hshape, ?_, State.updEng_self .., fun a ha => ?_⟩
  · rw [State.updEng_self]
    rfl
  · rw [State.updEng_self]
    exact Engine.memGet_rowMerged _ _ _ _ _ _ _ ha

end Sys2Proof.Proofs

/-! SUPPORT. The walks of the KV cache: capture, groups, emission, prefetch, spill and the return of pages (R161-R166, R174-R176). -/

namespace Sys2Proof.Machine

/-! ### The start of a walk (R163) -/

/-- A change that keeps the numbers of jobs is found under the same number. -/
theorem State.job?_updJob (s : State) (id : Nat) {f : Job → Job} (hf : ∀ x, (f x).id = x.id) :
    (s.updJob id f).job? id = (s.job? id).map f := by
  have hkey : (fun j => decide (j.id = id)) ∘ (fun x => if decide (x.id = id) then f x else x) = fun j : Job => decide (j.id = id) := by
    funext x
    by_cases hx : x.id = id <;> simp [hx, hf]
  unfold State.job?
  rw [State.updJob_jobs, updWhere, List.find?_map, hkey]
  cases hfind : s.jobs.find? fun j => decide (j.id = id) with
  | none => rfl
  | some x =>
    have hx : x.id = id := by simpa using List.find?_some hfind
    simp [hx]

/-- A job whose walks have captured the generation of the pool, and the length and the page lists of its sequence. -/
def Job.captured (k : KvPool) (q : KvSeq) (j : Job) : Job := { j with walkGen := some k.gen.toNat, walkLen := q.length, kvView := q.lists }

section
variable {u : State} {e : EngId} {j : Job} {c : Schedule} {b : KvBind} (hgen : j.walkGen = none)
  (hstate : (u.part[j.part].kv.seq j.kvSeq).state = 1) (hhandle : (u.part[j.part].kv.seq j.kvSeq).handle = c.handle)
  (hwindow : ∀ x ∈ c.binds, (u.part[j.part].kv.seq j.kvSeq).length / 64 + 1 ≤ x.windowPages)
  (hinside : (u.part[j.part].kv.seq j.kvSeq).length % 64 ≠ 0)
include hgen hstate hhandle hwindow hinside

/-- A job's first walk on an open sequence of its schedule that fits the windows, not at a page boundary, captures and allocates nothing. -/
theorem State.captureWalk_within :
    u.captureWalk c j = u.updJob j.id (Job.captured u.part[j.part].kv (u.part[j.part].kv.seq j.kvSeq)) := by
  have hseq : ¬ ((u.part[j.part].kv.seq j.kvSeq).state = 0 ∨ (u.part[j.part].kv.seq j.kvSeq).handle ≠ c.handle) := by
    simp only [hstate, hhandle, ne_eq, not_true_eq_false, one_ne_zero, or_self, not_false_eq_true]
  have hfits : ¬ ((j.engines.zipIdx).any fun (_, i) => c.binds.any fun b =>
      b.logical = i && !b.slide && decide (b.windowPages < (u.part[j.part].kv.seq j.kvSeq).length / 64 + 1)) = true := by
    simp only [List.any_eq_true, Bool.and_eq_true, decide_eq_true_eq, not_exists, not_and]
    exact fun x _ b hb _ => (hwindow b hb).not_gt
  have hnotFrozen : ¬ (u.part[j.part].kv.seq j.kvSeq).state = 2 := by
    rw [hstate]
    decide
  unfold State.captureWalk
  simp only [hgen, Option.isSome_none, Bool.false_eq_true, if_false, if_neg hseq, if_neg hfits, if_neg hnotFrozen, if_pos hinside]
  rfl

/-- KV_WALK_START for the first job of an engine without a walk. -/
theorem execKvWalkStart_starts {s : State} {t : Nat} (hu : s.advance t = u) (hjob : u.job? j.id = some j) (hsched : u.sched? j.sched = some c)
    (hbind : (c.binds.find? fun x => x.logical = logicalOf j e) = some b) (hreset : u.resetting (.kv j.part) = false)
    (hwalk : u.eng[e].walk = none) (hqueue : ∃ rest, u.queueOf e = j :: rest) (hstatus : j.kvStatus = none) (halloc : j.alloc = []) :
    let k := u.part[j.part].kv
    let j' := j.captured k (k.seq j.kvSeq)
    let v := u.updJob j.id (Job.captured k (k.seq j.kvSeq))
    let walk : KvWalk :=
      { job := j.id, gen := k.gen.toNat, seq := j.kvSeq
        todo := (List.range b.passes).flatMap fun _ => b.layers.flatMap fun l => layerGroup v j' b e l k.gen.toNat }
    execKvWalkStart t e s = .next (v.updEng e fun g => { g with walk := some walk }) := by
  intro k j' v walk
  obtain ⟨rest, hqueue⟩ := hqueue
  have hfound : v.job? j.id = some j' := by
    rw [State.job?_updJob u j.id (f := Job.captured k (k.seq j.kvSeq)) (fun _ => rfl), hjob]
    rfl
  have hrun : (j'.kvStatus = some stKvNoSequence || j'.kvStatus = some stKvWindow) = false := by
    simp [j', Job.captured, hstatus]
  have hnone : j'.alloc.isEmpty = true := by simp [j', Job.captured, halloc]
  unfold execKvWalkStart State.walkStart
  simp only [hu, hwalk, Option.isSome_none, Bool.false_eq_true, if_false, hqueue, List.findSome?_cons, hsched, hbind, Option.map_some, hreset,
    State.captureWalk_within hgen hstate hhandle hwindow hinside]
  simp only [show u.updJob j.id (Job.captured u.part[j.part].kv (u.part[j.part].kv.seq j.kvSeq)) = v from rfl, hfound, hrun,
    Bool.false_eq_true, if_false, hnone, if_true]
  rfl

end

/-! ### The group of a layer (R165) -/

/-- Its descriptors: NULL ones, the full pages and the last. -/
theorem layerGroup_length (v : State) (j : Job) (b : KvBind) (e : EngId) (layer gen : Nat) (hpos : 1 ≤ b.windowPages)
    (hfits : b.slide = true ∨ j.walkLen / 64 + 1 ≤ b.windowPages) : (layerGroup v j b e layer gen).length = b.windowPages := by
  simp only [layerGroup, List.length_append, List.length_replicate, List.length_map, List.length_range, List.length_singleton]
  cases hslide : b.slide with
  | true =>
    rw [if_pos rfl]
    omega
  | false =>
    rw [if_neg Bool.false_ne_true]
    have hfits := hfits.resolve_left (by simp [hslide])
    omega

/-- Its last descriptor is the open one, whether it names a page or is a DISCARD. -/
theorem layerGroup_last_isOpen (v : State) (j : Job) (b : KvBind) (e : EngId) (layer gen : Nat) :
    (layerGroup v j b e layer gen).getLast?.map KvDesc.isOpen = some true := by
  simp only [layerGroup, List.getLast?_append, List.getLast?_singleton, Option.some_or, Option.map_some]
  split <;> rfl

/-! ### KV_DESCRIPTOR_EMIT (R166) -/

@[simp] theorem State.sched?_updEng (s : State) (e : EngId) (f : Engine → Engine) (n : Nat) : (s.updEng e f).sched? n = s.sched? n := rfl

section
variable {s u : State} {t : Nat} {e : EngId} {j : Job} {c : Schedule} {b : KvBind} {w : KvWalk} {d : KvDesc} {rest : List KvDesc}
  (hu : s.advance t = u) (hjob : u.job? w.job = some j) (hwalk : u.eng[e].walk = some w) (htodo : w.todo = d :: rest)
include hu hjob hwalk htodo

theorem execKvDescriptorEmit_emits (hsched : u.sched? j.sched = some c) (hbind : (c.binds.find? fun x => x.logical = logicalOf j e) = some b)
    (hroom : u.eng[e].pageQueue.length < 256) (hstaged : d.isStaged = false) :
    execKvDescriptorEmit t e s = .next ((u.updEng e fun g => { g with
      pageQueue := g.pageQueue ++ [d], walk := some { w with todo := rest, emitted := w.emitted + 1 } }).pghNotify j.part b.readyPgh 1 u.now) := by
  have hgoes : ¬ (256 ≤ u.eng[e].pageQueue.length ∨ (d.isStaged = true ∧ 8192 ≤ d.pageRow)) := by
    simp only [hstaged, Bool.false_eq_true, false_and, or_false]
    omega
  unfold execKvDescriptorEmit
  simp only [hu, hwalk, htodo, hjob, if_neg hgoes, State.sched?_updEng, hsched, Option.bind_some, hbind, State.updEng_now]

theorem execKvDescriptorEmit_waits (hfull : u.eng[e].pageQueue.length ≥ 256) : execKvDescriptorEmit t e s = .next u := by
  unfold execKvDescriptorEmit
  simp only [hu, hwalk, htodo, hjob, if_pos (Or.inl hfull : 256 ≤ u.eng[e].pageQueue.length ∨ (d.isStaged = true ∧ 8192 ≤ d.pageRow))]

/-! ### KV_PREFETCH (R175, R176) -/

theorem execKvPrefetch_waits (h : u.lpServed j.part 150 = false ∨ u.eng[e].portShare u.now u.spanStart = false) :
    execKvPrefetch t e s = .next u := by
  unfold execKvPrefetch
  simp only [hu, hwalk, htodo, hjob]
  rw [if_pos]
  rcases h with h | h <;> simp only [h, Bool.false_eq_true, not_false_eq_true, or_true, true_or]

section
variable (hstaged : d.isStaged = true) (hspilled : 8192 ≤ d.pageRow) (hfree : ∀ x ∈ u.eng[e].staging, x.1 ≠ u.eng[e].stagingNext % 8)
  (hserved : u.lpServed j.part 150 = true) (hport : u.eng[e].portShare u.now u.spanStart = true)
include hstaged hspilled hfree hserved hport

/-- A spilled page, a free page of the ring, an owned slot and a cycle of the port: nothing keeps the copy waiting. -/
theorem execKvPrefetch_served :
    let k := u.part[j.part].kv
    let a := slotByte k (d.pageRow - 8192)
    let n := pageRows k.fmt k.d * 16384
    let row := u.stageRow j.part (u.eng[e].stagingNext % 8)
    execKvPrefetch t e s = .next (if u.lpFenced a n then u.endEarly j.id stFenced else u.updEng e fun g => { g with
      store := memWrite g.store (16384 * row) (regionRead u.part[j.part] a n)
      mem := g.mem.rowsWritten row (pageRows k.fmt k.d)
      portTaken := some u.now
      stagingNext := g.stagingNext + 1
      staging := (u.eng[e].stagingNext % 8, row, d.pageRow - 8192) :: g.staging
      walk := some { w with todo := { d with pageRow := row } :: rest } }) := by
  have hring : (u.eng[e].staging.any fun x => decide (x.1 = u.eng[e].stagingNext % 8)) = false := by
    simpa only [List.any_eq_false, decide_eq_true_eq] using hfree
  unfold execKvPrefetch
  simp only [hu, hwalk, htodo, hjob, hstaged, hring, hserved, hport, hspilled.not_gt, not_true_eq_false, Bool.false_eq_true, or_self, if_false]
  rfl

end

end

/-! ### KV_PAGE_RETURN (R161) -/

section
variable {s u : State} {t : Nat} {e : EngId} {p : PartId} {f : Nat} (hu : s.advance t = u) (hp : u.holder e = some p)
include hu hp

theorem execKvPageReturn_other (h : ∀ tag : Nat, assoc (e, f) u.part[p].kv.pages ≠ some (.transit tag)) :
    execKvPageReturn t e f s = .next u := by
  unfold execKvPageReturn
  simp only [hu, hp]

theorem execKvPageReturn_transit {tag : Nat} (h : assoc (e, f) u.part[p].kv.pages = some (.transit tag)) :
    execKvPageReturn t e f s =
      .next (if (u.purgeSlots p).olderWalk p tag then u.purgeSlots p else (u.purgeSlots p).freePage p e f) := by
  unfold execKvPageReturn
  simp only [hu, hp, h]

end

/-! ### KV_SPILL_DONE (R174, R176) -/

/-- The page of an engine that is being spilled, with its slot and the postmark of its last append. -/
def KvPool.spillingOn (k : KvPool) (e : EngId) : Option (Nat × Nat × Nat) := k.pages.findSome? fun x => match x.2 with
  | .spilling slot at' => if x.1.1 = e then some (x.1.2, slot, at') else none
  | _ => none

/-- The state with page `f` copied to its slot in the region, and every list that names the page, those that walks have captured among
them, pointed to the slot. -/
def State.spillCopied (u : State) (p : PartId) (e : EngId) (f slot : Nat) : State :=
  let k := u.part[p].kv
  let bs := memRead u.eng[e].store (16384 * u.pageRow p f) (pageRows k.fmt k.d * 16384)
  let v := (u.updEng e fun g => g.takePort u.now).updPart p fun q => regionWrite q (slotByte k slot) bs
  let v := v.updKv p fun k => { k with seqs := k.seqs.map fun q =>
    { q with lists := q.lists.map fun l => (l.1, l.2.map (movedRef e f slot)) } }
  { v with jobs := u.jobs.map fun x => if x.part = p then x.movedView e f slot else x }

section
variable {s u : State} {t : Nat} {e : EngId} {p : PartId} {f : Nat} (hu : s.advance t = u) (hp : u.holder e = some p)
include hu hp

theorem execKvSpillDone_idle (h : u.part[p].kv.spillingOn e = none) : execKvSpillDone t e {} s = .next u := by
  unfold execKvSpillDone
  simp only [hu, hp]
  split
  · rfl
  · rename_i hfound
    exact nomatch h.symm.trans hfound

section
variable {slot at' : Nat} (h : u.part[p].kv.spillingOn e = some (f, slot, at')) (hserved : u.lpServed p 100 = true)
  (hport : u.eng[e].portShare u.now u.spanStart = true)
include h hserved hport

/-- A spill that an owned slot and the port serve: at a fenced controller, or where a walk or a descriptor has come to name the page, it is
given up; otherwise the page moves unless a row of it is uncorrectable. -/
theorem execKvSpillDone_served : ∃ w : State,
    execKvSpillDone t e {} s = .next (
      if u.lpFenced (slotByte u.part[p].kv slot) (pageRows u.part[p].kv.fmt u.part[p].kv.d * 16384) then u.dropSpill p e f slot at'
      else if u.pinned p e f then (u.dropSpill p e f slot at').refill p e else w)
    ∧ ((∀ r < pageRows u.part[p].kv.fmt u.part[p].kv.d, u.pageRow p f + r ∉ u.eng[e].mem.storeBad) →
      w = ((u.spillCopied p e f slot).freePage p e f).refill p e) := by
  unfold execKvSpillDone
  simp only [hu, hp]
  split
  · rename_i hfound
    exact nomatch h.symm.trans hfound
  · rename_i hfound
    obtain ⟨rfl, rfl, rfl⟩ : _ ∧ _ ∧ _ := by simpa using h.symm.trans hfound
    simp only [hserved, hport, not_true_eq_false, or_self, if_false]
    refine ⟨_, rfl, fun hgood => ?_⟩
    have hbad : ((List.range (pageRows u.part[p].kv.fmt u.part[p].kv.d)).find? fun r =>
        u.eng[e].mem.storeBad.contains (u.pageRow p f + r) || (none : Option Nat) == some (u.pageRow p f + r)) = none := by
      simpa [-Fin.getElem_fin, List.find?_eq_none] using hgood
    simp only [hbad, State.corrected_zero, State.updEng_self]
    rw [updWhere_eq_map]
    rfl

end

end

/-- A spill slot begins a whole number of pages into the spill area (R174). -/
theorem slotByte_eq (k : KvPool) (slot : Nat) : slotByte k slot = 512 * k.spillOffset + slot * (pageRows k.fmt k.d * 16384) :=
  congrArg (512 * k.spillOffset + ·) (Nat.mul_assoc ..)

end Sys2Proof.Machine

namespace Sys2Proof.Proofs
open Sys2Proof Sys2Proof.Machine

/-- Settles O29: a walk starts with what it has captured (`State.captureWalk_within`), its groups have W descriptors of which the last is open
(`layerGroup_length`, `layerGroup_last_isOpen`), and each row that a walk or the pool may give does what its `exec` lemma above says. -/
theorem kvWalksEmitWholeGroups : Obligations.KvWalksEmitWholeGroups := by
  unfold Obligations.KvWalksEmitWholeGroups
  refine ⟨?walk, fun v j b e layer gen hpos hfits => ⟨layerGroup_length v j b e layer gen hpos hfits, layerGroup_last_isOpen v j b e layer gen⟩,
    ?page⟩
  case walk =>
    intro s t e j c b
    generalize hu : s.advance t = u
    intro _ k q hjob hsched hbind hreset
    refine ⟨fun hwalk hqueue hgen hstatus hstate hhandle hwindow hinside halloc => ?_, fun w d rest hwalk hw htodo => ?_⟩
    · exact execKvWalkStart_starts hgen hstate hhandle hwindow hinside hu hjob hsched hbind hreset hwalk hqueue hstatus halloc
    · rw [← hw] at hjob
      refine ⟨execKvDescriptorEmit_emits hu hjob hwalk htodo hsched hbind, execKvDescriptorEmit_waits hu hjob hwalk htodo,
        fun hstaged hspilled hfree => ?_⟩
      intro n a row
      have ha : slotByte k (d.pageRow - 8192) = a := slotByte_eq ..
      refine ⟨execKvPrefetch_waits hu hjob hwalk htodo, fun hserved hport hfenced => ?_, fun hserved hport hopen => ?_⟩
      · rw [exec_kvPrefetch, execKvPrefetch_served hu hjob hwalk htodo hstaged hspilled hfree hserved hport, ha, if_pos hfenced]
      · rw [exec_kvPrefetch, execKvPrefetch_served hu hjob hwalk htodo hstaged hspilled hfree hserved hport, ha,
          if_neg (Bool.eq_false_iff.mp hopen)]
        rfl
  case page =>
    intro s t e p f
    generalize hu : s.advance t = u
    intro _ k hp
    refine ⟨fun tag htag holder => ?_, execKvPageReturn_other hu hp, fun tag htag hnone => ?_, execKvSpillDone_idle hu hp,
      fun slot at' hpages hserved hport => ?_⟩
    · rw [exec_kvPageReturn, execKvPageReturn_transit hu hp htag, if_pos holder]
    · rw [exec_kvPageReturn, execKvPageReturn_transit hu hp htag, if_neg (Bool.eq_false_iff.mp hnone)]
    · intro n a stays now'
      have ha : slotByte k slot = a := slotByte_eq ..
      have hspilling : k.spillingOn e = some (f, slot, at') := by simp [KvPool.spillingOn, hpages]
      obtain ⟨w, hexec, hmoved⟩ := execKvSpillDone_served hu hp hspilling hserved hport
      rw [exec_kvSpillDone, hexec, ha]
      refine ⟨fun hfenced => ?_, fun hopen hpinned => ?_, fun hopen hfree hgood => ?_⟩
      · rw [if_pos hfenced]
        rfl
      · rw [if_neg (Bool.eq_false_iff.mp hopen), if_pos hpinned]
        rfl
      · rw [if_neg (Bool.eq_false_iff.mp hopen), if_neg (Bool.eq_false_iff.mp hfree), hmoved hgood, State.spillCopied, ha]
        rfl

end Sys2Proof.Proofs

/-! SUPPORT. KV_POOL_CONFIG on a pool whose event register holds an event of an earlier cycle: the register keeps it (R13, R153). -/

namespace Sys2Proof.Machine

/-! ### Formatting an engine's pages leaves the partitions (R157) -/

theorem State.formatPool_part (v : State) (p : PartId) (e : EngId) : (v.formatPool p e).part = v.part := rfl

theorem State.formatPools_part (v : State) (p : PartId) : (v.formatPools p).part = v.part := by
  unfold State.formatPools
  induction engines generalizing v with
  | nil => rfl
  | cons e es ih =>
    rw [List.foldl_cons, ih]
    split
    · exact State.formatPool_part v p e
    · rfl

/-! ### KV_POOL_CONFIG and the events that its pool has seen -/

/-- The events of earlier cycles that the pools of two states hold, and the refusals counted in them, are the same (R13). -/
def State.SamePast (v w : State) : Prop :=
  ∀ q : PartId, w.part[q].kv.eventWas = v.part[q].kv.eventWas ∧ w.part[q].kv.fullCountWas = v.part[q].kv.fullCountWas

theorem State.samePast_of_part {v w : State} (h : w.part = v.part) : v.SamePast w := fun q => by
  rw [h]
  exact ⟨rfl, rfl⟩

theorem State.updKv_self (v : State) (p : PartId) (f : KvPool → KvPool) : (v.updKv p f).part[p].kv = f v.part[p].kv :=
  congrArg Partition.kv (Vector.getElem_set_self p.isLt)

theorem State.updKv_ne (v : State) {p q : PartId} (f : KvPool → KvPool) (h : q ≠ p) : (v.updKv p f).part[q] = v.part[q] :=
  Vector.getElem_set_ne p.isLt q.isLt fun hp => h (Fin.ext hp.symm)

/-- A pool set to one with the same past. -/
theorem State.samePast_updKv (v : State) (p : PartId) {f : KvPool → KvPool} (hevent : (f v.part[p].kv).eventWas = v.part[p].kv.eventWas)
    (hcount : (f v.part[p].kv).fullCountWas = v.part[p].kv.fullCountWas) : v.SamePast (v.updKv p f) := fun q => by
  by_cases hq : q = p
  · subst hq
    rw [State.updKv_self]
    exact ⟨hevent, hcount⟩
  · rw [State.updKv_ne v f hq]
    exact ⟨rfl, rfl⟩

/-- Whether KV_POOL_CONFIG is refused or makes a pool, it answers at once, and the register of events keeps what earlier cycles have put there. -/
theorem bodyKvPoolConfig_samePast (v : State) (m : MbxId) (own : Option PartId) (r : MbxReq) :
    ∃ (w : State) (st : Status) (bs : List Byte), bodyKvPoolConfig v m own r = (w, some (st, bs)) ∧ v.SamePast w := by
  have hsame : v.SamePast v := State.samePast_of_part rfl
  unfold bodyKvPoolConfig
  split
  · exact ⟨v, _, _, rfl, hsame⟩
  · rename_i p _
    extract_lets
    split
    · exact ⟨v, _, _, rfl, hsame⟩
    · split
      · exact ⟨v, _, _, rfl, hsame⟩
      · refine ⟨_, _, _, rfl, fun q => ?_⟩
        rw [State.formatPools_part]
        exact State.samePast_updKv v p rfl rfl q

theorem State.twinForward_part (w : State) (kind : Nat) : (w.twinForward kind).part = w.part := by
  unfold State.twinForward
  split <;> rfl

/-- An answer kept for the response leaves the partitions. -/
theorem Cert.kept_part (w : State) (op : Nat) (r : MbxReq) (st : Status) (bs : List Byte) : (Cert.kept w op r st bs).part = w.part := by
  have hanswer (v : State) : ((v.unfence r.mailbox).mbxAnswer r.mailbox st bs).part = v.part := rfl
  rw [Cert.kept, hanswer]
  split
  · exact State.twinForward_part w 3
  · rfl

/-- The state that KV_POOL_CONFIG leaves where it starts. -/
theorem execKvPoolConfig_samePast {s u : State} {t : Nat} {r : MbxReq} (hu : s.advance t = u) (hruns : Cert.runs u 0x0500 r) :
    ∃ w : State, execKvPoolConfig t r s = .next w ∧ u.SamePast w := by
  obtain ⟨w, st, bs, hbody, hpast⟩ := bodyKvPoolConfig_samePast (Cert.accepted u 0x0500 r false) r.mailbox none r
  refine ⟨_, congrArg Host.Outcome.next (State.ring_answers hu hruns hbody), fun q => ?_⟩
  rw [Cert.kept_part]
  exact hpast q

/-! ### A pool with a past -/

/-- A module in SERVICE with partition 1 on engine 0, whose KV manager has noted an underrun in an earlier cycle (KVC_EVENT bit 2). -/
def poolWithPast : State :=
  { host := { hpReady := true }
    pwr := { phase := .service }
    part := (Vector.replicate 7 {}).set 1 { isThere := true, engines := 1, kvSteps := 1, kv := { eventWas := 4 } } }

/-- A KV_POOL_CONFIG of partition 1: MXFP4 elements, 4 layers, dimension 32, 8 sequences, 64 table entries, no spill area. -/
def plainPool : MbxReq :=
  { mailbox := 0, doorbell := 1, argBytes := 48
    args := [1, 9, 4, 0, 32, 0, 8, 0, 64, 0, 0, 0] ++ List.replicate 20 0 ++ [127] ++ List.replicate 15 0 }

/-- Where no command is accepted and unanswered, the next one starts at once. -/
theorem Cert.startsNow_of_accepted_nil {u : State} (h : u.accepted = []) (op : Nat) (r : MbxReq) : Cert.startsNow u op r := by
  simp [Cert.startsNow, Cert.heldUp, h]

/-- The command starts there. -/
theorem plainPool_runs : Cert.runs (poolWithPast.advance 0) 0x0500 plainPool := by
  have hidle : (poolWithPast.advance 0).accepted = [] := by decide +kernel
  have hgate : (poolWithPast.advance 0).preCheck none 0x0500 plainPool (opcodes64.contains 0x0500) false = none := by decide +kernel
  exact ⟨by decide +kernel, by decide +kernel, by decide, by decide +kernel, by decide +kernel, Cert.startsNow_of_accepted_nil hidle _ _, hgate⟩

/-- The underrun stands in the register as the command starts. -/
theorem poolWithPast_eventWas : (poolWithPast.advance 0).part[(1 : PartId)].kv.eventWas = 4 := by decide +kernel

end Sys2Proof.Machine

namespace Sys2Proof.Proofs
open Sys2Proof Sys2Proof.Machine

/-- Refutes O39: the pool that KV_POOL_CONFIG is said to make has no event of an earlier cycle and no refusal counted in one, but KVC_EVENT
and KVC_FULL_COUNT are not the command's to clear: an underrun noted in an earlier cycle still stands in the register. -/
theorem not_kvPoolsAndSequences : ¬ Obligations.KvPoolsAndSequences := by
  unfold Obligations.KvPoolsAndSequences
  intro h
  -- the arguments lie in the ranges of Table 07.1, and the partition has no sequence
  have hmakes := (h.1 poolWithPast 0 plainPool 1 plainPool_runs (by decide +kernel) (by decide) (by decide) (by decide) (by decide)
    (by decide) (by decide) (by decide) (by decide) (by decide) (by decide) (by decide +kernel) (by decide) (by decide)
    (by decide +kernel) (by decide +kernel)).2 (by decide +kernel) (by decide +kernel)
  obtain ⟨w, hexec, hpast⟩ := execKvPoolConfig_samePast rfl plainPool_runs
  have hsaid := Host.Outcome.next.inj (hexec.symm.trans hmakes.1)
  have hkept := (hpast 1).1
  rw [poolWithPast_eventWas, hsaid, Cert.kept_part, State.formatPools_part, State.updPart_part] at hkept
  exact absurd hkept (by decide +kernel)

end Sys2Proof.Proofs

/-! SUPPORT. The checksum column: both sides of its comparison are the exact sum of the same products (R182, R183, R65, R67, R70). -/

namespace Sys2Proof.Machine

/-! ### Numbers in units of a fixed place -/

/-- A magnitude with its sign. -/
def signedMag (neg : Bool) (m : Nat) : Int := if neg then -(m : Int) else m

theorem signedMag_natAbs (i : Int) : signedMag (decide (i < 0)) i.natAbs = i := by
  simp only [signedMag, decide_eq_true_eq]
  split <;> omega

theorem signedMag_mul (a b : Bool) (m n : Nat) : signedMag (a ^^ b) (m * n) = signedMag a m * signedMag b n := by
  cases a <;> cases b <;> simp [signedMag]

/-- A number in units of 2^-p, a special counting as zero. -/
def fixedPoint (p : Nat) : Num → Int
  | .fin neg m e => signedMag neg m * 2 ^ (e + p).toNat
  | _ => 0

/-- A finite number that is a whole number of units of 2^-p. -/
def OnGrid (p : Nat) : Num → Prop
  | .fin _ _ e => -(p : Int) ≤ e
  | _ => False

@[simp] theorem fixedPoint_finOrZero (p : Nat) (x : Num) : fixedPoint p (finOrZero x) = fixedPoint p x := by
  cases x <;> simp [finOrZero, fixedPoint, signedMag]

/-- A number on a grid is no special. -/
theorem finOrZero_of_onGrid {p : Nat} {x : Num} (h : OnGrid p x) : finOrZero x = x := by
  cases x with
  | fin neg m e => rfl
  | inf neg => exact h.elim
  | nan => exact h.elim

theorem onGrid_finOrZero_nan (p : Nat) : OnGrid p (finOrZero .nan) := by simp [finOrZero, OnGrid]

/-- The product of two numbers on a grid is exact in squared units; a special factor makes it count as zero (R70). -/
theorem fixedPoint_mulNum {p : Nat} {x y : Num} (hx : OnGrid p (finOrZero x)) (hy : OnGrid p (finOrZero y)) :
    fixedPoint (p + p) (mulNum x y) = fixedPoint p x * fixedPoint p y := by
  cases x with
  | nan => simp [mulNum, fixedPoint]
  | inf a =>
    cases y with
    | nan => simp [mulNum, fixedPoint]
    | inf b => simp [mulNum, fixedPoint]
    | fin b n f =>
      simp only [mulNum]
      split <;> simp [fixedPoint]
  | fin a m e =>
    cases y with
    | nan => simp [mulNum, fixedPoint]
    | inf b =>
      simp only [mulNum]
      split <;> simp [fixedPoint]
    | fin b n f =>
      have hplace : (e + f + (p + p : Nat)).toNat = (e + p).toNat + (f + p).toNat := by
        simp only [finOrZero, OnGrid] at hx hy
        omega
      simp only [mulNum, fixedPoint, signedMag_mul, hplace, pow_add]
      ring

/-- The sum of two numbers on a grid is exact there. -/
theorem addNum_onGrid {p : Nat} {x y : Num} (hx : OnGrid p x) (hy : OnGrid p y) :
    OnGrid p (addNum 0 x y) ∧ fixedPoint p (addNum 0 x y) = fixedPoint p x + fixedPoint p y := by
  cases x with
  | nan => exact hx.elim
  | inf a => exact hx.elim
  | fin a m e =>
    cases y with
    | nan => exact hy.elim
    | inf b => exact hy.elim
    | fin b n f =>
      simp only [OnGrid] at hx hy
      simp only [addNum]
      generalize hq : (if e ≤ f then e else f) = q
      have hle : q ≤ e ∧ q ≤ f ∧ -(p : Int) ≤ q := by split at hq <;> omega
      have he : (e + p).toNat = (e - q).toNat + (q + p).toNat := by omega
      have hf : (f + p).toNat = (f - q).toNat + (q + p).toNat := by omega
      generalize hs : ((if a = true then -((m : Int) * 2 ^ (e - q).toNat) else m * 2 ^ (e - q).toNat) +
        if b = true then -((n : Int) * 2 ^ (f - q).toNat) else n * 2 ^ (f - q).toNat) = s
      have hsum : s * 2 ^ (q + p).toNat = fixedPoint p (.fin a m e) + fixedPoint p (.fin b n f) := by
        subst hs
        simp only [fixedPoint, he, hf, pow_add, signedMag]
        cases a <;> cases b <;> simp <;> ring
      rw [← hsum]
      split
      next h0 => simp [OnGrid, fixedPoint, hle, h0, signedMag]
      next h0 => simp [OnGrid, fixedPoint, hle, signedMag_natAbs]

/-- The exact sum of numbers on a grid. -/
theorem sumNum_onGrid {p : Nat} {l : List Num} (h : ∀ x ∈ l, OnGrid p x) :
    OnGrid p (sumNum l) ∧ fixedPoint p (sumNum l) = (l.map (fixedPoint p)).sum := by
  have hfold : ∀ a, OnGrid p a →
      OnGrid p (l.foldl (addNum 0) a) ∧ fixedPoint p (l.foldl (addNum 0) a) = fixedPoint p a + (l.map (fixedPoint p)).sum := by
    induction l with
    | nil => simp
    | cons x l ih =>
      intro a ha
      obtain ⟨hgrid, hval⟩ := addNum_onGrid ha (h x (List.mem_cons_self ..))
      obtain ⟨hgrid', hval'⟩ := ih (fun y hy => h y (List.mem_cons_of_mem _ hy)) _ hgrid
      exact ⟨hgrid', by rw [List.foldl_cons, hval', hval, List.map_cons, List.sum_cons, add_assoc]⟩
  obtain ⟨hgrid, hval⟩ := hfold (.fin false 0 0) (by simp [OnGrid])
  exact ⟨hgrid, by rw [sumNum, hval]; simp [fixedPoint, signedMag]⟩

/-! ### Column sums and the checksum column -/

/-- A product taken into a column sum adds what it is in units of the sum's place (R65, R70). -/
theorem colAdd_sum (p : Nat) (c : ColSum) (x : Num) : (colAdd p c x).sum = c.sum + fixedPoint p x := by
  cases x with
  | fin neg m e => cases neg <;> simp [colAdd, fixedPoint, signedMag]
  | inf neg => cases neg <;> simp [colAdd, fixedPoint]
  | nan => simp [colAdd, fixedPoint]

theorem colSum_sum (p : Nat) (x w : Nat → Num) (ks : List Nat) :
    (colSum p x w ks).sum = (ks.map fun k => fixedPoint p (mulNum (x k) (w k))).sum := by
  have hfold : ∀ c : ColSum, (ks.foldl (fun c k => colAdd p c (mulNum (x k) (w k))) c).sum =
      c.sum + (ks.map fun k => fixedPoint p (mulNum (x k) (w k))).sum := by
    induction ks with
    | nil => simp
    | cons k ks ih => intro c; rw [List.foldl_cons, ih, colAdd_sum, List.map_cons, List.sum_cons, add_assoc]
  rw [colSum, hfold, zero_add]

theorem list_sum_comm (js ks : List Nat) (f : Nat → Nat → Int) :
    (js.map fun j => (ks.map (f j)).sum).sum = (ks.map fun k => (js.map fun j => f j k).sum).sum := by
  simpa using Multiset.sum_map_sum_map (js : Multiset Nat) (ks : Multiset Nat) (f := f)

section
variable {p : Nat} {x : Nat → Num} {w : Nat → Nat → Num}

/-- The checksum value of a tile row lies on its weights' grid and is the sum of the weights there, specials left out (R182). -/
theorem rowSum_onGrid (hw : ∀ k j, OnGrid p (finOrZero (w k j))) (t : TileShape) (k : Nat) :
    OnGrid p (rowSum t w k) ∧ fixedPoint p (rowSum t w k) = ((List.range t.nt).map fun j => fixedPoint p (w k j)).sum := by
  obtain ⟨hgrid, hval⟩ := sumNum_onGrid (l := (List.range t.nt).map fun j => finOrZero (w k j)) (p := p) (by
    simp only [List.mem_map]
    rintro y ⟨j, -, rfl⟩
    exact hw k j)
  exact ⟨hgrid, by rw [rowSum, hval]; simp [Function.comp_def]⟩

/-- The columns of any run of rows sum to its checksum (R182, R183): both add up every product whose factors are both numbers. -/
theorem colSums_eq_checksum (hx : ∀ k, OnGrid p (finOrZero (x k))) (hw : ∀ k j, OnGrid p (finOrZero (w k j))) (t : TileShape)
    (ks : List Nat) :
    ((List.range t.nt).map fun j => (colSum (p + p) x (fun k => w k j) ks).sum).sum =
      (colSum (p + p) (fun k => finOrZero (x k)) (rowSum t w) ks).sum := by
  have hx' : ∀ k, OnGrid p (finOrZero (finOrZero (x k))) := fun k => by rw [finOrZero_of_onGrid (hx k)]; exact hx k
  have hrow : ∀ k, OnGrid p (finOrZero (rowSum t w k)) := fun k => by
    rw [finOrZero_of_onGrid (rowSum_onGrid hw t k).1]; exact (rowSum_onGrid hw t k).1
  calc ((List.range t.nt).map fun j => (colSum (p + p) x (fun k => w k j) ks).sum).sum
    _ = ((List.range t.nt).map fun j => (ks.map fun k => fixedPoint p (x k) * fixedPoint p (w k j)).sum).sum := by
      simp only [colSum_sum, fixedPoint_mulNum (hx _) (hw _ _)]
    _ = (ks.map fun k => fixedPoint p (x k) * fixedPoint p (rowSum t w k)).sum := by
      rw [list_sum_comm]
      simp only [List.sum_map_mul_left, (rowSum_onGrid hw t _).2]
    _ = _ := by
      simp only [colSum_sum, fixedPoint_mulNum (hx' _) (hrow _), fixedPoint_finOrZero]

end

/-! ### The grid of a class's operands -/

/-- The binary places after the point that the elements of a format have. -/
def elemPlaces : Elem → Nat
  | .int _ _ frac => frac
  | .flt f => f.bias + f.mbits - 1

theorem numOfInt_onGrid {p frac : Nat} (h : frac ≤ p) (i : Int) : OnGrid p (finOrZero (numOfInt i (-(frac : Int)))) := by
  simpa [numOfInt, finOrZero, OnGrid] using h

/-- The last bit of a subnormal is the finest of a floating-point format. -/
theorem decodeFlt_onGrid {p : Nat} {f : FFmt} (h : f.bias + f.mbits - 1 ≤ p) (code : Nat) : OnGrid p (finOrZero (decodeFlt f code)) := by
  have hvalue : ∀ (neg : Bool) (m e : Nat), OnGrid p (finOrZero (if e = 0 then Num.fin neg m (1 - f.bias - f.mbits)
      else .fin neg (2 ^ f.mbits + m) (e - f.bias - f.mbits))) := by
    intro neg m e
    split <;> simp only [finOrZero, OnGrid] <;> omega
  have hinf : ∀ neg, OnGrid p (finOrZero (.inf neg)) := fun _ => onGrid_finOrZero_nan p
  unfold decodeFlt
  cases f.specials <;> simp only
  case ieee =>
    split
    · split
      · exact hinf _
      · exact onGrid_finOrZero_nan p
    · exact hvalue ..
  case nanOnly =>
    split
    · exact onGrid_finOrZero_nan p
    · exact hvalue ..
  case none => exact hvalue ..

theorem numOf_onGrid {p c : Nat} (h : elemPlaces (elemOf c) ≤ p) (code : Nat) : OnGrid p (finOrZero (numOf c code)) := by
  unfold numOf
  cases he : elemOf c with
  | int w signed frac =>
    rw [he] at h
    cases signed with
    | false => exact numOfInt_onGrid h _
    | true => exact numOfInt_onGrid h _
  | flt f =>
    rw [he] at h
    exact decodeFlt_onGrid h code

theorem tileNum_onGrid {p : Nat} {t : TileShape} (h : elemPlaces (elemOf t.fmt) ≤ p) (b : Nat → Nat) (k j : Nat) :
    OnGrid p (finOrZero (tileNum b t k j)) := by
  unfold tileNum
  split
  · exact onGrid_finOrZero_nan p
  · exact numOf_onGrid h _

theorem vecNum_onGrid {p fmt : Nat} (h : elemPlaces (elemOf fmt) ≤ p) (v : Nat → Nat) (n k : Nat) :
    OnGrid p (finOrZero (vecNum v fmt n k)) := by
  unfold vecNum
  split
  · exact onGrid_finOrZero_nan p
  · exact numOf_onGrid h _

theorem matElem_onGrid {p fmt : Nat} (h : elemPlaces (elemOf fmt) ≤ p) (v : Nat → Nat) (n k : Nat) :
    OnGrid p (finOrZero (matElem v fmt n k)) := by
  rcases Nat.lt_or_ge k n with hk | hk
  · rw [matElem_eq v fmt hk]
    exact vecNum_onGrid h v n k
  · rw [show matElem v fmt n k = .nan by simp [matElem, hk]]
    exact onGrid_finOrZero_nan p

/-- The grid of both operands of an exact class: half the binary places that the class's sums keep (R65, R67). -/
def classPlaces (cls : ChainClass) : Nat := if cls = .int then 0 else 16

theorem pairClass_onGrid {w a : Nat} {cls : ChainClass} (h : pairClass w a = some cls) (hexact : cls ≠ .half) :
    elemPlaces (elemOf w) ≤ classPlaces cls ∧ elemPlaces (elemOf a) ≤ classPlaces cls := by
  have hint : ∀ c ≤ 1, elemPlaces (elemOf c) ≤ 0 := by decide
  have hsmall : ∀ c ≤ 10, elemPlaces (elemOf c) ≤ 16 := by decide
  simp only [pairClass, decide_eq_true_eq] at h
  split at h
  next hc =>
    cases h
    exact ⟨hint w (by omega), hint a (by omega)⟩
  split at h
  next hc =>
    cases h
    exact ⟨hsmall w (by omega), hsmall a (by omega)⟩
  split at h
  next hc =>
    cases h
    exact ⟨hsmall w (by omega), hsmall a (by omega)⟩
  split at h
  · cases h
    exact absurd rfl hexact
  · cases h

/-- The columns of a class of exact products sum to its checksum, over any run of rows. -/
theorem pairClass_colSums {cls : ChainClass} {t : TileShape} {afmt : Nat} (hpair : pairClass t.fmt afmt = some cls) (hexact : cls ≠ .half)
    (b : Nat → Nat) {x : Nat → Num} (hx : ∀ k, OnGrid (classPlaces cls) (finOrZero (x k))) (ks : List Nat) :
    ((List.range t.nt).map fun j => (colSum (classPlaces cls + classPlaces cls) x (fun k => tileNum b t k j) ks).sum).sum =
      (colSum (classPlaces cls + classPlaces cls) (fun k => finOrZero (x k)) (rowSum t (tileNum b t)) ks).sum :=
  colSums_eq_checksum hx (tileNum_onGrid (pairClass_onGrid hpair hexact).1 b) t ks

/-! ### The entry of an exact chain -/

/-- The sum of an entry's columns, modulo 2^96. -/
def colTotal (a : AccEntry) : BitVec 96 := (a.cols.map AccCell.val).sum

/-- The comparison of an exact chain: the columns' sum equals the checksum entry (R183). -/
theorem checkPasses_exact {cls : ChainClass} (hexact : cls = .int ∨ cls = .fp8) (a : AccEntry) :
    checkPasses cls a = true ↔ colTotal a = a.chk := by
  have hcompare : checkPasses cls a = (a.cols.foldl (fun s c => s + c.val) 0 == a.chk) := by rcases hexact with rfl | rfl <;> rfl
  rw [hcompare, beq_iff_eq, colTotal, List.sum_eq_foldl, List.foldl_map]

/-- The exact sum of the products of one column of a MAT. -/
def matColSum (cls : ChainClass) (t : TileShape) (afmt : Nat) (b v : Nat → Nat) (j : Nat) : Int :=
  (colSum (classPlaces cls + classPlaces cls) (matElem v afmt t.kt) (fun k => tileNum b t k j) (List.range t.kt)).sum

/-- A column of an exact chain adds its sum of products modulo 2^96 (R65). -/
theorem accumulate_exact_val {cls : ChainClass} (hexact : cls = .int ∨ cls = .fp8) (start : Bool) (old : AccCell) (kt : Nat)
    (x w : Nat → Num) (ea eb : Nat → Nat) :
    (accumulate cls start old kt x w ea eb).val =
      (if start then 0 else old.val) + BitVec.ofInt 96 (colSum (classPlaces cls + classPlaces cls) x w (List.range kt)).sum := by
  rcases hexact with rfl | rfl <;> rfl

/-- Columns that an entry does not list are zero, unless a test window left it undefined (R127). -/
theorem sum_accCol {old : AccEntry} (hseed : old.seed = none) {n : Nat} (hn : old.cols.length ≤ n) :
    ((List.range n).map fun j => (accCol old j).val).sum = colTotal old := by
  have hzero : ∀ j ≥ old.cols.length, (accCol old j).val = 0 := by
    intro j hj
    simp [accCol, List.getElem?_eq_none hj, hseed]
  have hlisted : ((List.range old.cols.length).map fun j => (accCol old j).val) = old.cols.map AccCell.val := by
    apply List.ext_getElem (by simp)
    intro j hj _
    simp at hj
    simp [accCol, hj]
  rw [colTotal, ← hlisted]
  exact Finset.eventually_constant_sum hzero hn

/-- The columns outside a tile receive nothing from its MAT (R64). -/
theorem sum_tile_columns (f : Nat → BitVec 96) {nt n : Nat} (h : nt ≤ n) :
    ((List.range n).map fun j => if j < nt then f j else 0).sum = ((List.range nt).map f).sum := by
  have hout : ∀ j ≥ nt, (if j < nt then f j else 0) = 0 := fun j hj => if_neg (by omega)
  have hin : ((List.range nt).map fun j => if j < nt then f j else 0) = (List.range nt).map f :=
    List.map_congr_left fun j hj => if_pos (List.mem_range.1 hj)
  rw [← hin]
  exact Finset.eventually_constant_sum hout h

theorem sum_ofInt (l : List Int) : (l.map (BitVec.ofInt 96)).sum = BitVec.ofInt 96 l.sum :=
  List.sum_hom l (Int.castRingHom (BitVec 96))

section
variable {cls : ChainClass} (hexact : cls = .int ∨ cls = .fp8) (start : Bool) (old : AccEntry) (t : TileShape) (afmt : Nat) (b v : Nat → Nat)
include hexact

/-- The checksum entry after a MAT of an exact chain (R182). -/
theorem matEntry_exact_chk : (matEntry cls start old t afmt b v).chk = (if start then 0 else old.chk) + BitVec.ofInt 96
    (colSum (classPlaces cls + classPlaces cls) (fun k => finOrZero (matElem v afmt t.kt k)) (rowSum t (tileNum b t)) (List.range t.kt)).sum := by
  rcases hexact with rfl | rfl <;> rfl

/-- What a MAT of an exact chain adds to the sum of the entry's columns is the sum of its products. -/
theorem matEntry_exact_total (hstart : start = true ∨ old.seed = none) :
    colTotal (matEntry cls start old t afmt b v) = (if start then 0 else colTotal old) + BitVec.ofInt 96
      ((List.range t.nt).map (matColSum cls t afmt b v)).sum := by
  have hcols : (matEntry cls start old t afmt b v).cols.map AccCell.val = (List.range (matWidth start old t)).map fun j =>
      (if start then 0 else (accCol old j).val) + if j < t.nt then BitVec.ofInt 96 (matColSum cls t afmt b v j) else 0 := by
    simp only [matEntry, List.map_map]
    refine List.map_congr_left fun j hj => ?_
    rw [Function.comp_apply]
    split
    · exact accumulate_exact_val hexact ..
    next hout =>
      have hcontinue : start = false := by
        by_contra h
        exact hout (by simpa [matWidth, h] using hj)
      simp [hcontinue]
  have hwidth : t.nt ≤ matWidth start old t := by
    rcases hstart with h | h <;> simp only [matWidth, h]
    · exact le_rfl
    · split
      · exact le_rfl
      · exact le_max_left ..
  have hbase : ((List.range (matWidth start old t)).map fun j => if start then 0 else (accCol old j).val).sum =
      if start then 0 else colTotal old := by
    cases start with
    | true => simp
    | false =>
      have hseed : old.seed = none := by simpa using hstart
      exact sum_accCol hseed (by simp [matWidth, hseed])
  rw [colTotal, hcols, List.sum_map_add, hbase, sum_tile_columns _ hwidth, ← sum_ofInt, List.map_map]
  rfl

/-- The check of an exact chain passes after a MAT that starts it, and after one that continues it where it passed. -/
theorem checkPasses_matEntry (hpair : pairClass t.fmt afmt = some cls)
    (hstart : start = true ∨ old.seed = none ∧ checkPasses cls old = true) :
    checkPasses cls (matEntry cls start old t afmt b v) = true := by
  have hhalf : cls ≠ .half := by rcases hexact with rfl | rfl <;> decide
  rw [checkPasses_exact hexact, matEntry_exact_total hexact start old t afmt b v (hstart.imp_right And.left), matEntry_exact_chk hexact,
    ← pairClass_colSums hpair hhalf b (matElem_onGrid (pairClass_onGrid hpair hhalf).2 v t.kt)]
  cases start with
  | true => rfl
  | false =>
    have hold : colTotal old = old.chk := (checkPasses_exact hexact old).1 (hstart.resolve_left Bool.false_ne_true).2
    rw [hold]
    rfl

end

/-- The block partials of a block-scaled MAT, before scaling, pass the comparison with their checksums (R183). -/
theorem blocksPass_of_pairClass {t : TileShape} {afmt : Nat} (hpair : pairClass t.fmt afmt = some .block) (b v : Nat → Nat) :
    blocksPass t afmt b v = true := by
  simp only [blocksPass, List.all_eq_true, beq_iff_eq]
  intro blk _
  exact pairClass_colSums hpair (by decide) b (vecNum_onGrid (pairClass_onGrid hpair (by decide)).2 v t.kt) _

/-! ### The column sums formed at tile load (R186) -/

/-- No column differs from itself. -/
theorem readbackFails_columnSums (t : TileShape) (b : Nat → Nat) : readbackFails t b (columnSums t b) = none := by
  rw [readbackFails, List.findIdx?_eq_none_iff]
  rintro ⟨x, y⟩ hxy
  obtain ⟨i, hi, hget⟩ := List.mem_iff_getElem.1 hxy
  simp only [List.getElem_zip, Prod.mk.injEq] at hget
  simp [← hget.1, ← hget.2]

/-- What a tile register reads back is what its column sums were formed from. -/
theorem readbackFails_summed (t : TileReg) :
    readbackFails t.summed.shape (fun a => ((rfRead t.summed.image 0 (tileBytes t.summed.shape)).map BitVec.toNat).getD a 0) t.summed.sums
      = none := by
  have hsums : t.summed.sums = columnSums t.shape fun a => ((rfRead t.image 0 (tileBytes t.shape)).map BitVec.toNat).getD a 0 := by
    simp only [TileReg.summed, toArray_getD]
  rw [hsums]
  exact readbackFails_columnSums ..

/-- A tile register that a row has landed in holds column sums formed from its image. -/
theorem Engine.land_tileRow_summed (g : Engine) (d : Nat) (vec reg first : Bool) (sh : TileShape) (ws : List Host.Cell) :
    ∃ t : TileReg, (g.land d vec (.tileRow reg first sh ws)).tile reg = t.summed :=
  ⟨{ g.tile reg with image := rfPut (g.tile reg).image ws, shape := if first then sh else (g.tile reg).shape }, by cases reg <;> rfl⟩

end Sys2Proof.Machine

namespace Sys2Proof.Proofs

open Sys2Proof Sys2Proof.Machine

/-- Settles O18: with every operand on one grid of binary places no sum is rounded, so a row's checksum value times its element is the sum
of the row's products, and the columns and the checksum column add up the same products. -/
theorem undisturbedMatsPassTheirCheck : Obligations.UndisturbedMatsPassTheirCheck := by
  unfold Obligations.UndisturbedMatsPassTheirCheck
  refine ⟨?_, ?_, ?_⟩
  · intro cls start old t afmt b v hexact hpair hstart
    exact checkPasses_matEntry hexact start old t afmt b v hpair hstart
  · intro t afmt b v hpair
    exact blocksPass_of_pairClass hpair b v
  · intro g d reg first sh ws tr
    obtain ⟨t, ht⟩ := Engine.land_tileRow_summed g d false reg first sh ws
    rw [show tr = t.summed from ht]
    exact readbackFails_summed t

end Sys2Proof.Proofs

/-! SUPPORT. A MAT whose check fails: it writes its entry, and its failure alone is left to land (R131, R183-R187). -/

namespace Sys2Proof.Machine

/-- An operation without a fault that the sequencer or the program store finds runs for the job that issues. -/
theorem State.engineOp_undisturbed {s : State} {t : Nat} {e : EngId} {f : Flt} {j : Job} (h : (s.advance t).issuing e = some j)
    (h8 : 8 ∉ f.mechs) (h6 : 6 ∉ f.mechs) (k : State → Job → State) : s.engineOp t e f k = k (s.advance t) j := by
  unfold State.engineOp
  simp [h, h8, h6]

section
variable {e : EngId} {m : MatSlot} {j : Job} {cls : ChainClass} {f : Flt}

/-- The failures of a MAT on engine `g` that carries the operand's fault `f`. -/
def matBad (g : Engine) (m : MatSlot) (cls : ChainClass) (f : Flt) : List (Nat × Nat) :=
  matFailures cls (g.tile m.reg).shape f (matColumnsAgree g m cls) (matReadback g m)

/-- The checks of a MAT pass just where the columns agree and no column reads back otherwise than it was loaded. -/
theorem matPasses_iff (g : Engine) : Cert.matPasses g m cls ↔ matColumnsAgree g m cls = true ∧ matReadback g m = none := by
  simp only [Cert.matPasses, matColumnsAgree, matReadback, Bool.and_eq_true, and_assoc]
  refine and_congr ?_ (and_congr ?_ ?_)
  · simp
  · simp [or_iff_not_imp_left]
  · cases (g.tile m.reg).image.seed <;> simp

/-- Where the checks pass, the mechanisms of a MAT are those of its operand that guard its class. -/
theorem matBad_mechs_of_passes {g : Engine} (h : Cert.matPasses g m cls) :
    (matBad g m cls f).map Prod.fst = f.mechs.filter (matMechs cls).contains := by
  obtain ⟨hcols, hread⟩ := (matPasses_iff g).1 h
  simp [matBad, matFailures, hcols, hread, Function.comp_def]

/-- A guarding mechanism of the operand, a checksum that differs and a column that reads back otherwise are each a failure. -/
theorem matBad_ne_nil {g : Engine} (h : (∃ k ∈ f.mechs, k ∈ matMechs cls) ∨ ¬ Cert.matPasses g m cls) : matBad g m cls f ≠ [] := by
  rw [matPasses_iff] at h
  intro hnil
  simp only [matBad, matFailures, List.append_eq_nil_iff, List.map_eq_nil_iff, List.filter_eq_nil_iff] at hnil
  obtain ⟨⟨hmechs, hcols⟩, hread⟩ := hnil
  rcases h with ⟨k, hk, hguards⟩ | hchecks
  · exact hmechs k hk (by simpa using hguards)
  · refine hchecks ⟨?_, ?_⟩
    · by_contra hdiffer
      simp [hdiffer] at hcols
    · cases hr : matReadback g m with
      | none => rfl
      | some c => simp [hr] at hread

/-- The record of a MAT's failure (R187, R198, Table 08.15). -/
def matFailEvent (g : Engine) (m : MatSlot) (cls : ChainClass) (f : Flt) : FailEvent :=
  let mechs := (matBad g m cls f).map Prod.fst
  let sh := (g.tile m.reg).shape
  { status := stCheckMismatch, unitKind := 0, opClass := matClass cls, mechs := mechs
    detail := detailOf mechs (BitVec.ofNat 32 ((assoc (namedMech mechs) (matBad g m cls f)).getD 0))
    dataClass := dataClassOf g.pathMat (Cert.matBits g m) (Cert.matBits g m ++ rfRead (g.tile m.reg).image 0 (tileBytes sh))
      (matExtreme sh m.afmt.toNat (Cert.matTile g m) (Cert.matVec g m))
    bundle := f.bundle }

/-- Fields that are allowed, and lines that end inside activation SRAM, are not refused (R116). -/
theorem mat_fields_allowed {ok wr : Bool} {a : Nat} (hok : ok = true) (hdest : wr = true → a ≤ actSize) :
    ¬(¬ok = true ∨ wr = true ∧ actSize < a) := by
  simpa [hok] using hdest

section
variable {s u : State} {t : Nat} (hu : s.advance t = u) (hissue : u.issuing e = some j)
    (hpair : pairClass (u.eng[e].tile m.reg).shape.fmt m.afmt.toNat = some cls)
    (hok : matOk m cls u.eng[e].acc[m.entry] (u.eng[e].tile m.reg) = true)
    (hdest : m.wr = true → lineAddr (m.dest.toNat + ceilDiv (4 * (u.eng[e].tile m.reg).shape.nt) 64) ≤ actSize)
include hu hissue hpair hok hdest

/-- While a failure of the job's MATs stands open, a further MAT of the job changes nothing. -/
theorem execMat_failed (hfailed : matFailed u.eng[e] j.id = true) : exec (.mat t e m {}) s = .next u := by
  subst hu
  rw [exec_mat, execMat, State.engineOp_issuing hissue]
  simp only [hpair, if_neg (mat_fields_allowed hok hdest), hfailed, if_true]

/-- A MAT of allowed fields that meets a failure writes its entry and records the failure two cycles before its class's depth. -/
theorem execMat_fails (h8 : 8 ∉ f.mechs) (h6 : 6 ∉ f.mechs) (hfailed : matFailed u.eng[e] j.id = false) (hbad : matBad u.eng[e] m cls f ≠ []) :
    exec (.mat t e m f) s =
      .next ((matWritten u e m cls).failAt e j (u.now + classDepth cls - 2) (matFailEvent u.eng[e] m cls f)) := by
  have hsome : ¬(matBad u.eng[e] m cls f).isEmpty = true := by simpa using hbad
  subst hu
  rw [exec_mat, execMat, State.engineOp_undisturbed hissue h8 h6]
  generalize s.advance t = u at *
  simp only [hpair, if_neg (mat_fields_allowed hok hdest), hfailed, Bool.false_eq_true, if_false, toArray_getD]
  exact congrArg Host.Outcome.next (if_pos hsome)

end

/-- That failure becomes a landing: it is never due at once. -/
theorem matWritten_failAt (u : State) (e : EngId) (m : MatSlot) (j : Job) (cls : ChainClass) (ev : FailEvent) :
    (matWritten u e m cls).failAt e j (u.now + classDepth cls - 2) ev =
    { u with eng := u.eng.set e { u.eng[e] with
        acc := u.eng[e].acc.set m.entry (Cert.matNew u.eng[e] m cls)
        pathMat := Cert.matBits u.eng[e] m
        landings := u.eng[e].landings ++ [{ due := u.now + classDepth cls - 2, job := j.id, eff := .fail ev }] } } := by
  have hdepth : 2 < classDepth cls := by cases cls <;> decide
  have hlater : ¬u.now + classDepth cls - 2 ≤ (matWritten u e m cls).now := by
    rw [show (matWritten u e m cls).now = u.now from rfl]
    omega
  rw [State.failAt, if_neg hlater]
  simp [matWritten, State.updEng]

end

end Sys2Proof.Machine

namespace Sys2Proof.Proofs

open Sys2Proof Sys2Proof.Machine

/-- Settles O27: what fails a MAT is recorded as its one landing, and an open failure stops every later MAT of the job. -/
theorem failedMatHoldsItsResult : Obligations.FailedMatHoldsItsResult := by
  unfold Obligations.FailedMatHoldsItsResult
  intro s t e m j cls u g hissue hpair hok hdest
  refine ⟨execMat_failed (u := u) rfl hissue hpair hok hdest, ?_⟩
  rintro mech f rfl h8 h6 hfailed hfails
  have hbad := matBad_ne_nil hfails
  refine ⟨matFailEvent g m cls f, rfl, rfl, ?_, matBad_mechs_of_passes, ?_⟩
  · simpa [matFailEvent] using hbad
  · rw [execMat_fails (u := u) rfl hissue hpair hok hdest h8 h6 hfailed hbad, matWritten_failAt]

end Sys2Proof.Proofs

/-! SUPPORT. A mailbox command from its doorbell to its response: rung, accepted, waiting, started, answered (R227, R228, R230, R233). -/

namespace Sys2Proof.Machine

/-! ### What a doorbell does (R227) -/

section
variable {u : State} {op : Nat} {r : MbxReq}

/-- A command may start as it is accepted only where none accepted before it stands in its way (R230). -/
theorem State.startsNow_of_mayStart (h : u.host.mbx[r.mailbox].cmd = none)
    (hstart : (Cert.accepted u op r true).mayStart (Cert.newCmd u op r true) = true) : Cert.startsNow u op r := by
  obtain ⟨pre, post, hold, hnew⟩ := State.accepted_of_accepted (op := op) h true
  have hsame : (Cert.accepted u op r true).accepted.filter (fun d => d.order ≠ (Cert.newCmd u op r true).order)
      = u.accepted.filter fun d => d.order ≠ (Cert.newCmd u op r true).order := by
    rw [hold, hnew]
    simp
  have hheld {c : RunCmd} (hc : c.order ≤ u.host.nextOrder) : (Cert.accepted u op r true).heldUp c = true ↔ Cert.heldUp u c := by
    rw [State.heldUp_accepted h hc, State.heldUp_iff]
  unfold State.mayStart at hstart
  simp only [hsame, Bool.and_eq_true, decide_eq_true_eq, Bool.not_eq_true'] at hstart
  obtain ⟨⟨hroom, hfree⟩, hothers⟩ := hstart
  refine ⟨hroom, fun hup => ?_, fun d hd hwaits hbefore => ?_⟩
  · rw [(hheld (c := Cert.newCmd u op r true) (le_refl u.host.nextOrder)).2 hup] at hfree
    cases hfree
  · by_contra hno
    refine List.any_eq_false.1 hothers d hd ?_
    have hnot := (hheld (le_of_lt hbefore)).not.2 hno
    simp [hwaits, hbefore, hnot]

end

section
variable {s u : State} {t op : Nat} {r : MbxReq} {body : Body} (hu : s.advance t = u)
include hu

theorem State.ring_notReady (h : u.host.hpReady = false) : s.ring t op r body = u := by
  simp [State.ring, hu, h]

theorem State.ring_unmapped (hready : u.host.hpReady = true) (hphase : u.pwr.phase = .recovery) (hbox : r.mailbox.val < 64) :
    s.ring t op r body = { u with host := { u.host with err := setBit u.host.err 1 } } := by
  simp [State.ring, State.updHost, hu, hready, hphase, hbox]

section
variable (hready : u.host.hpReady = true) (hserved : r.mailbox.val < 64 → u.pwr.phase ≠ .recovery)
include hready hserved

/-- What a doorbell that reaches its mailbox can do. -/
theorem State.ring_served : s.ring t op r body =
    if r.doorbell = 0 ∨ r.doorbell = u.host.mbx[r.mailbox].lastDoorbell then Cert.asked u op r
    else if u.host.mbx[r.mailbox].cmd.isSome then
      { Cert.asked u op r with host := { (Cert.asked u op r).host with err := setBit u.host.err 2 } }
    else if (Cert.accepted u op r true).mayStart (Cert.newCmd u op r true) then
      (Cert.accepted u op r true).startCmd r.mailbox op r body
    else (Cert.accepted u op r true).fenceAhead r.mailbox op r := by
  have hreach : ¬ (u.pwr.phase = .recovery ∧ r.mailbox.val < 64) := fun h => hserved h.2 h.1
  have hmbx : (u.updMbx r.mailbox fun b => { b with request := some (BitVec.ofNat 16 op, r) }).host.mbx[r.mailbox]
      = { u.host.mbx[r.mailbox] with request := some (BitVec.ofNat 16 op, r) } := Vector.getElem_set_self r.mailbox.isLt
  unfold State.ring
  simp only [hu, hready, not_true, if_false, if_neg hreach, hmbx]
  rw [← State.accepted_eq]
  rfl

theorem State.ring_again (h : r.doorbell = 0 ∨ r.doorbell = u.host.mbx[r.mailbox].lastDoorbell) :
    s.ring t op r body = Cert.asked u op r :=
  (State.ring_served hu hready hserved).trans (if_pos h)

variable (hbell : r.doorbell ≠ 0) (hnew : r.doorbell ≠ u.host.mbx[r.mailbox].lastDoorbell)
include hbell hnew

theorem State.ring_busy (hcmd : u.host.mbx[r.mailbox].cmd.isSome = true) : s.ring t op r body =
    { Cert.asked u op r with host := { (Cert.asked u op r).host with err := setBit u.host.err 2 } } := by
  rw [State.ring_served hu hready hserved, if_neg (not_or.2 ⟨hbell, hnew⟩), if_pos hcmd]

variable (hcmd : u.host.mbx[r.mailbox].cmd = none)
include hcmd

theorem State.ring_waits (hstart : ¬ Cert.startsNow u op r) :
    s.ring t op r body = (Cert.accepted u op r true).fenceAhead r.mailbox op r := by
  rw [State.ring_served hu hready hserved, if_neg (not_or.2 ⟨hbell, hnew⟩), if_neg (by rw [hcmd]; exact Bool.false_ne_true),
    if_neg fun h => hstart (State.startsNow_of_mayStart hcmd h)]

/-- A command that the first checks refuse dooms the envelope that it names, and keeps its status as its answer (R228, R267). -/
theorem State.ring_refused (hstart : Cert.startsNow u op r) {st : Status}
    (hpre : u.preCheck none op r (if r.mailbox.val = 64 then opcodesRecovery.contains op else opcodes64.contains op) false = some st) :
    s.ring t op r body =
      (((Cert.accepted u op r false).doomNamed (u.namedPart op r) r.env st).unfence r.mailbox).mbxAnswer r.mailbox st [] := by
  rw [State.ring_served hu hready hserved, if_neg (not_or.2 ⟨hbell, hnew⟩), if_neg (by rw [hcmd]; exact Bool.false_ne_true),
    if_pos (State.mayStart_accepted hcmd hstart)]
  unfold State.startCmd State.runBody
  rw [State.updMbx_accepted]
  simp only [show ∀ known, (Cert.accepted u op r false).preCheck none op r known false = u.preCheck none op r known false from fun _ => rfl,
    hpre]
  rfl

end

end

/-- Each row of the mailbox commands rings its opcode with its request. -/
theorem mailboxRows_ring : ∀ row ∈ Cert.mailboxRows, ∃ body : Body, ∀ (s : State) (t : Nat) (r : MbxReq),
    exec (row.2.2 t r) s = .next (s.ring t row.1 (row.2.1 r) body) := by
  simp only [Cert.mailboxRows, List.forall_mem_cons, List.not_mem_nil, IsEmpty.forall_iff, implies_true, and_true]
  and_intros
  all_goals exact ⟨_, fun _ _ _ => rfl⟩

/-! ### What waits fenced, and what is fenced no longer (R219, R233, R248, R251) -/

section
variable {u : State} {m : MbxId} {op : Nat} {r : MbxReq}

theorem State.unfence_none (h : Cert.noFence u m) : u.unfence m = u := by
  obtain ⟨hresets, hwins, hreleasing⟩ := h
  have hkeptWins : updWhere (fun (w : Win) => decide (w.revoking = some m)) (fun w => { w with revoking := none }) u.fab.wins = u.fab.wins :=
    updWhere_none fun x hx => decide_eq_false (hwins x hx)
  have hkeptResets : u.host.resets.filter (fun x => !(decide (x.mailbox = m) && !x.started)) = u.host.resets :=
    List.filter_eq_self.2 fun x hx => by
      by_cases hm : x.mailbox = m
      · simp [hm, hresets x hx hm]
      · simp [hm]
  have hkeptWin : (u.host.win.map fun w => if w.releasing = some m then { w with releasing := none } else w) = u.host.win :=
    Vector.ext fun i hi => by
      rw [Vector.getElem_map]
      exact if_neg (hreleasing ⟨i, hi⟩)
  unfold State.unfence
  simp only [State.updFab, State.updHost, hkeptWins, hkeptResets, hkeptWin]

/-- A handle that no open envelope has dooms none. -/
theorem State.doomNamed_unopened {p : Option PartId} {h : Half} (hopens : ∀ v ∈ u.env.opens, v.handle ≠ h) (st : Status) :
    u.doomNamed p h st = u := by
  cases p with
  | none => rfl
  | some p =>
    have henv : u.env? p h = none := by
      rw [State.env?, List.find?_eq_none]
      exact fun v hv => by simp [hopens v hv]
    have hgate : (u.stageGate p h none).isNone = false := by
      simp only [State.stageGate, henv]
      split
      · split_ifs <;> rfl
      · rfl
    simp [State.doomNamed, hgate]

theorem State.fenceAhead_plain (h : op ∉ [0x0002, 0x0005, 0x0201, 0x0202]) : u.fenceAhead m op r = u := by
  simp only [List.mem_cons, List.not_mem_nil, or_false, not_or] at h
  obtain ⟨hreset, hrelease, hclose, hrevoke⟩ := h
  have hnone : u.namedFunc op r = none := by rw [State.namedFunc, if_neg hreset, if_neg hclose]
  rw [State.fenceAhead, if_neg hrelease, if_neg fun h => hrevoke h.1, hnone]

theorem State.fenceAhead_reset {f : FuncId} (h : op = 0x0002 ∨ op = 0x0201) (hfunc : u.namedFunc op r = some f) :
    u.fenceAhead m op r = { u with host := { u.host with
      resets := u.host.resets ++ [{ func := f, mailbox := m, fence := u.now, isClose := decide (op = 0x0201), started := false }] } } := by
  have hrelease : op ≠ 0x0005 := by omega
  have hrevoke : op ≠ 0x0202 := by omega
  rw [State.fenceAhead, if_neg hrelease, if_neg fun h => hrevoke h.1, hfunc]
  rfl

theorem State.fenceAhead_release {w : WinId} (hwin : r.arg 0 1 = w.val) (hbound : u.host.win[w].bound.isSome = true)
    (hfree : u.host.win[w].releasing = none) : u.fenceAhead m 0x0005 r = u.updWin w fun x => { x with releasing := some m } := by
  have hlt : r.arg 0 1 < 16 := hwin ▸ w.isLt
  obtain rfl : w = ⟨r.arg 0 1, hlt⟩ := Fin.ext hwin.symm
  rw [State.fenceAhead, if_pos rfl, dif_pos hlt]
  simp only [State.updWin, State.updHost]
  simp only [hbound, hfree, Option.isNone_none, and_self, if_true]

end

/-! ### Responses (R228) -/

section
variable {s u : State} {t : Nat} {m : MbxId} {c : RunCmd} (hu : s.advance t = u) (hcmd : u.host.mbx[m].cmd = some c)
include hu hcmd

theorem execMailboxResponse_of_cmd :
    execMailboxResponse t m s = .next (if u.abortHeld c then u else (u.poll m c).deliver m) := by
  unfold execMailboxResponse
  simp only [hu, hcmd]

/-- A kept answer that fits the mailbox is delivered, and the mailbox is free. -/
theorem mailboxResponse_delivers {st : Status} {bs : List Byte} (hres : c.result = some (st, bs)) (howner : c.owner = none)
    (hfits : bs.length ≤ 1984) (hheld : u.abortHeld c = false) :
    exec (.mailboxResponse t m) s = .next { u with host := { u.host with
      mbx := u.host.mbx.set m { u.host.mbx[m] with
        cmd := none
        resp := { valid := true, doneSeq := c.req.doorbell, status := st, respBytes := BitVec.ofNat 16 bs.length, tag := c.req.tag
                  postmark := BitVec.ofNat 64 u.now, bytes := bs } }
      mbxDone := if m.val < 64 then setBit u.host.mbxDone m.val else u.host.mbxDone } } := by
  have hpoll : u.poll m c = u := if_pos (.inr (by simp [hres]))
  have hbytes : u.respBytes c bs = bs := by simp only [State.respBytes, howner]
  have hdrop : (bs.drop 1984).isEmpty = true := by simpa using hfits
  rw [exec_mailboxResponse, execMailboxResponse_of_cmd hu hcmd, hheld, if_neg Bool.false_ne_true, hpoll]
  unfold State.deliver
  simp only [hcmd, hres, hbytes, hdrop, if_true, List.take_of_length_le hfits]
  rfl

/-- Without an answer, a command that waits for nothing goes on. -/
theorem mailboxResponse_unanswered (hres : c.result = none) (howner : c.owner = none)
    (hop : c.opcode.toNat ∉ [0x0005, 0x0101, 0x0202, 0x0302, 0x0401, 0x0903, 0x0B02, 0x0F02]) :
    exec (.mailboxResponse t m) s = .next u := by
  simp only [List.mem_cons, List.not_mem_nil, or_false, not_or] at hop
  obtain ⟨hrelease, hdissolve, hrevoke, -, hdisarm, hscan, hactivate, hinstall⟩ := hop
  have hpoll : u.poll m c = u := by
    have hinner : c.inner = (c.opcode.toNat, c.req) := by simp [RunCmd.inner, howner]
    unfold State.poll
    simp only [hinner, if_neg hrelease, if_neg hdissolve, if_neg hdisarm, if_neg hrevoke, if_neg hscan,
      if_neg (not_or.2 ⟨hactivate, hinstall⟩), ite_self]
  have hdeliver : u.deliver m = u := by simp only [State.deliver, hcmd, hres]
  rw [exec_mailboxResponse, execMailboxResponse_of_cmd hu hcmd, hpoll, hdeliver, ite_self]

/-! ### Commands that have waited (R230) -/

theorem commandWaitStart_started (hwaits : c.waiting = false) : exec (.commandWaitStart t m) s = .next u := by
  rw [exec_commandWaitStart]
  simp only [execCommandWaitStart, hu, hcmd]
  exact congrArg Host.Outcome.next (if_pos (.inl (by simp [hwaits])))

/-- The first of the commands that may start is started. -/
theorem commandWaitStart_starts (hwaits : c.waiting = true) (hstart : u.mayStart c = true)
    (hfirst : ∀ d ∈ u.accepted, d.waiting = true → d.order < c.order → u.mayStart d = false) :
    exec (.commandWaitStart t m) s = .next (u.startCmd m c.opcode.toNat c.req (bodyOf c.opcode.toNat)) := by
  have hnone : (u.accepted.any fun d => d.waiting && decide (d.order < c.order) && u.mayStart d) = false :=
    List.any_eq_false.2 fun d hd => by
      by_cases hd' : d.waiting = true ∧ d.order < c.order
      · simp [hfirst d hd hd'.1 hd'.2]
      · simpa using fun h h' => absurd ⟨h, h'⟩ hd'
  rw [exec_commandWaitStart]
  simp only [execCommandWaitStart, hu, hcmd]
  exact congrArg Host.Outcome.next (if_neg (by simp [hwaits, hstart, hnone]))

end

theorem State.updMbx_updMbx (u : State) (m : MbxId) (f g : Mailbox → Mailbox) :
    (u.updMbx m f).updMbx m g = u.updMbx m fun b => g (f b) := by
  simp [State.updMbx, State.updHost]

theorem State.updMbx_congr {u : State} {m : MbxId} {f : Mailbox → Mailbox} {b : Mailbox} (h : f u.host.mbx[m] = b) :
    u.updMbx m f = { u with host := { u.host with mbx := u.host.mbx.set m b } } := by
  rw [← h]
  rfl

/-- An ECHO that has waited answers its bytes (R231). -/
theorem State.startCmd_echo {u : State} {m : MbxId} {c : RunCmd} (hcmd : u.host.mbx[m].cmd = some c) (hfence : Cert.noFence u m)
    (hres : c.result = none) (hbox : c.req.mailbox.val ≠ 64) (hlen : c.req.argBytes.toNat ≤ 1920)
    (hpre : u.preCheck none 1 c.req true false = none) :
    u.startCmd m 1 c.req bodyEcho = { u with host := { u.host with
      mbx := u.host.mbx.set m { u.host.mbx[m] with cmd := some { c with
        waiting := false, result := some (stOk, padTo c.req.argBytes.toNat c.req.args) } } } } := by
  let v : State := u.updMbx m fun b => { b with cmd := b.cmd.map fun c => { c with waiting := false } }
  have hknown : (if c.req.mailbox.val = 64 then opcodesRecovery.contains 1 else opcodes64.contains 1) = true := by
    rw [if_neg hbox]
    decide
  have hrun : v.runBody m none 1 c.req true false bodyEcho = (v, some (stOk, padTo c.req.argBytes.toNat c.req.args)) := by
    have hpre' : v.preCheck none 1 c.req true false = none := hpre
    simp only [State.runBody, hpre', bodyEcho, if_neg (Nat.not_lt.2 hlen), gives]
    rfl
  have hv : v.unfence m = v := State.unfence_none hfence
  unfold State.startCmd
  simp only [hknown]
  rw [hrun]
  simp only [hv]
  refine (State.updMbx_updMbx u m _ _).trans (State.updMbx_congr ?_)
  simp only [hcmd, hres, Option.map_some, Option.isNone_none, if_true]

end Sys2Proof.Machine

namespace Sys2Proof.Proofs

open Sys2Proof Sys2Proof.Machine

/-- Settles O30: every row rings its opcode (`mailboxRows_ring`), a doorbell does one of five things (`State.ring_served`), and an answer
that has been kept is delivered. -/
theorem mailboxCommandsRing : Obligations.MailboxCommandsRing := by
  unfold Obligations.MailboxCommandsRing
  refine ⟨fun row hrow s t r₀ => ?_, fun u m p h st => ⟨State.unfence_none, fun hopens => State.doomNamed_unopened hopens st⟩,
    fun u m op r => ⟨State.fenceAhead_plain, fun f => State.fenceAhead_reset, ?_⟩, fun s t m c => ?_⟩
  · intro op r u b w step
    obtain ⟨body, hring⟩ := mailboxRows_ring row hrow
    have hstep : step = .next (s.ring t op r body) := hring s t r₀
    rw [hstep]
    refine ⟨fun hoff => ?_, fun hready hphase hbox => ?_, fun hready hserved => ⟨fun hbell => ?_, fun hbell hnew hbusy => ?_,
      fun hbell hnew hfree => ⟨fun hwait => ?_, fun st hstart hpre => ?_⟩⟩⟩
    · rw [State.ring_notReady rfl hoff]
    · rw [State.ring_unmapped rfl hready hphase hbox]
    · rw [State.ring_again rfl hready hserved hbell]
    · rw [State.ring_busy rfl hready hserved hbell hnew hbusy]
    · rw [State.ring_waits rfl hready hserved hbell hnew hfree hwait]
    · rw [State.ring_refused rfl hready hserved hbell hnew hfree hstart hpre]
  · rintro w rfl
    exact State.fenceAhead_release
  · intro u b hcmd
    refine ⟨fun st bs => mailboxResponse_delivers rfl hcmd, mailboxResponse_unanswered rfl hcmd, commandWaitStart_started rfl hcmd,
      fun hwaits hstart hfirst hfence hop hres hbox hmbx hlen hpre => ?_⟩
    have hop' : c.opcode.toNat = 1 := congrArg BitVec.toNat hop
    rw [commandWaitStart_starts rfl hcmd hwaits hstart hfirst, hop']
    exact congrArg Host.Outcome.next (State.startCmd_echo hcmd hfence hres (by rw [hmbx]; exact Nat.ne_of_lt hbox) hlen hpre)

end Sys2Proof.Proofs

/-! SUPPORT. What every mailbox command meets before the checks of its own chapter (R218, R228, R229, R280, R292, R312, R317). -/

namespace Sys2Proof.Machine

section
variable {u : State} {op : Nat} {r : MbxReq} {known : Bool}

/-! ### The recovery mailbox (R446) -/

section
variable (hbox : r.mailbox.val = 64)
include hbox

theorem State.preCheck_notRecovering (hphase : u.pwr.phase ≠ .recovery) : u.preCheck none op r known false = some stDenied := by
  rw [State.preCheck, if_pos hbox, if_pos hphase]

theorem State.preCheck_recovery (hphase : u.pwr.phase = .recovery) : u.preCheck none op r known false =
    if known = false ∨ allZero r.reserved = false ∨ r.env ≠ 0xFFFF then some stBadArg else none := by
  rw [State.preCheck, if_pos hbox, if_neg (not_not.2 hphase)]
  simp only [Bool.not_eq_true]

end

/-! ### The 64 mailboxes of the host -/

theorem State.lifecycleBars_iff : u.lifecycleBars op = true ↔
    (op = 0x0104 ∧ (u.sec.lifecycle.toNat ≤ 1 ∨ 5 ≤ u.sec.lifecycle.toNat))
      ∨ (op = 0x0100 ∧ (u.sec.lifecycle.toNat = 0 ∨ u.sec.lifecycle.toNat = 2 ∨ 5 ≤ u.sec.lifecycle.toNat)) := by
  simp [State.lifecycleBars, or_assoc]

theorem respOk_none {addr : Nat} : respOk none addr = false ↔ ∀ b : Nat, bulkAt addr 1 ≠ some (0, b) := by
  unfold respOk
  rcases bulkAt addr 1 with _ | ⟨a, b⟩
  · simp
  · simp

/-- A response that may not fit its mailbox, and no place for the rest (R228). -/
theorem longResponse_lost_iff : (longResponse op r = true ∧ ¬ respOk none r.respAddr.toNat = true) ↔
    (op = 0x0104 ∨ op = 0x0107 ∨ (op = 0x0700 ∧ r.arg 0 1 = 7) ∨ (op = 0x0006 ∧ 30 < r.arg 4 2))
      ∧ ∀ b : Nat, bulkAt r.respAddr.toNat 1 ≠ some (0, b) := by
  rw [Bool.not_eq_true, respOk_none]
  simp [longResponse, or_assoc]

section
variable (hbox : r.mailbox.val < 64)
include hbox

theorem State.preCheck_notService (hphase : u.pwr.phase ≠ .service) (hop : op ≠ 0x0001) :
    u.preCheck none op r known false = some stNotReady := by
  rw [State.preCheck, if_neg (Nat.ne_of_lt hbox), if_pos ⟨hphase, hop⟩]

variable (hphase : u.pwr.phase = .service ∨ op = 0x0001)
include hphase

theorem State.preCheck_formless
    (h : known = false ∨ allZero r.reserved = false ∨ (r.env ≠ 0xFFFF ∧ stageable.contains op = false ∧ op ≠ 0x0106)) :
    u.preCheck none op r known false = some stBadArg := by
  have hserved : ¬ (u.pwr.phase ≠ .service ∧ op ≠ 0x0001) := fun hno => hphase.elim hno.1 hno.2
  rw [State.preCheck, if_neg (Nat.ne_of_lt hbox), if_neg hserved, if_pos]
  simpa only [Bool.not_eq_true] using h

variable (hknown : known = true) (hreserved : allZero r.reserved = true) (henv : r.env = 0xFFFF)
include hknown hreserved henv

/-- A well-formed command outside an envelope: what decides is the twin's role, the lifecycle state, the partition that it names, and its
response. -/
theorem State.preCheck_formed : u.preCheck none op r known false =
    if (u.twin.role = .inStep ∧ standbyRuns op = false) ∨ (u.twin.role = .gaveUp ∧ readingOnly.contains op = false ∧ op ≠ 0x0A00) then
      some stTwinStandby
    else if u.lifecycleBars op then some stDenied
    else if (u.namedPart op r).any (fun p => u.part[p].confidential && exposes op r u.part[p].owner.isSome) then some stDenied
    else if longResponse op r ∧ ¬ respOk none r.respAddr.toNat then some stBadArg else none := by
  have hserved : ¬ (u.pwr.phase ≠ .service ∧ op ≠ 0x0001) := fun hno => hphase.elim hno.1 hno.2
  have hform : ¬ (¬ known = true ∨ ¬ allZero r.reserved = true ∨ (r.env ≠ 0xFFFF ∧ ¬ stageable.contains op = true ∧ op ≠ 0x0106)) := by
    simp [hknown, hreserved, henv]
  rw [State.preCheck, if_neg (Nat.ne_of_lt hbox), if_neg hserved, if_neg hform]
  simp only [State.isStandby, decide_eq_true_eq, Bool.false_eq_true, not_false_eq_true, true_and, and_true, Bool.not_eq_true, ne_eq,
    reduceCtorEq]
  cases u.namedPart op r with
  | none => simp only [Option.any_none, Bool.false_eq_true, if_false]
  | some p => simp only [Option.any_some, Bool.and_eq_true]

theorem State.preCheck_standby (hrole : u.twin.role = .inStep) (hop : standbyRuns op = false) :
    u.preCheck none op r known false = some stTwinStandby := by
  rw [State.preCheck_formed hbox hphase hknown hreserved henv, if_pos (.inl ⟨hrole, hop⟩)]

theorem State.preCheck_gaveUp (hrole : u.twin.role = .gaveUp) (hop : readingOnly.contains op = false) (hpair : op ≠ 0x0A00) :
    u.preCheck none op r known false = some stTwinStandby := by
  rw [State.preCheck_formed hbox hphase hknown hreserved henv, if_pos (.inr ⟨hrole, hop, hpair⟩)]

variable (hstep : u.twin.role ≠ .inStep) (hgave : u.twin.role ≠ .gaveUp)
include hstep hgave

theorem State.preCheck_barred (hbars : u.lifecycleBars op = true) : u.preCheck none op r known false = some stDenied := by
  rw [State.preCheck_formed hbox hphase hknown hreserved henv, if_neg (by simp [hstep, hgave]), if_pos hbars]

variable (hbars : ¬ u.lifecycleBars op = true)
include hbars

theorem State.preCheck_secret {p : PartId} (hpart : u.namedPart op r = some p)
    (hsecret : u.part[p].confidential = true ∧ exposes op r u.part[p].owner.isSome = true) :
    u.preCheck none op r known false = some stDenied := by
  rw [State.preCheck_formed hbox hphase hknown hreserved henv, if_neg (by simp [hstep, hgave]), if_neg hbars, hpart, Option.any_some,
    hsecret.1, hsecret.2]
  rfl

/-- A command that exposes nothing may run, where its response has a place. -/
theorem State.preCheck_open (hopen : ∀ p : PartId, u.namedPart op r = some p →
      ¬ (u.part[p].confidential = true ∧ exposes op r u.part[p].owner.isSome = true)) :
    u.preCheck none op r known false = if longResponse op r ∧ ¬ respOk none r.respAddr.toNat then some stBadArg else none := by
  rw [State.preCheck_formed hbox hphase hknown hreserved henv, if_neg (by simp [hstep, hgave]), if_neg hbars, if_neg]
  rw [Option.any_eq_true]
  rintro ⟨p, hpart, hsecret⟩
  exact hopen p hpart (Bool.and_eq_true_iff.1 hsecret)

end

end

end Sys2Proof.Machine

namespace Sys2Proof.Proofs

open Sys2Proof Sys2Proof.Machine

/-- Settles O31: each check by its own lemma, in the order in which they are met. -/
theorem checksComeFirst : Obligations.ChecksComeFirst := by
  unfold Obligations.ChecksComeFirst
  intro u op r known got secret
  refine ⟨fun hbox => ⟨State.preCheck_notRecovering hbox, fun hphase hbad => ?_, fun hphase hknown hreserved henv => ?_⟩,
    fun hbox => ⟨State.preCheck_notService hbox, fun hphase => ⟨fun hbad => ?_, fun hknown hreserved henv hop => ?_,
      fun hknown hreserved henv => ⟨fun hrole hreads hresync howner => ?_, fun hrole hreads hpair => ?_, fun hstep hgave => ?_⟩⟩⟩⟩
  · exact (State.preCheck_recovery hbox hphase).trans (if_pos hbad)
  · exact (State.preCheck_recovery hbox hphase).trans (if_neg (by simp [hknown, hreserved, henv]))
  · exact State.preCheck_formless hbox hphase (hbad.imp_right .inl)
  · refine State.preCheck_formless hbox hphase (.inr (.inr ⟨henv, ?_, ?_⟩))
    · simp only [stageable, List.contains_eq_mem, decide_eq_false_iff_not]
      exact fun hin => hop (List.mem_append_left [0x0106] hin)
    · rintro rfl
      exact hop (by decide)
  · exact State.preCheck_standby hbox hphase hknown hreserved henv hrole (by simpa [standbyRuns, hresync, howner, readingOnly] using hreads)
  · exact State.preCheck_gaveUp hbox hphase hknown hreserved henv hrole (by simpa [readingOnly] using hreads) hpair
  · intro bars far
    have hbars : u.lifecycleBars op = true ↔ bars := State.lifecycleBars_iff
    have hfar : (longResponse op r = true ∧ ¬ respOk none r.respAddr.toNat = true) ↔ far := longResponse_lost_iff
    refine ⟨fun h => State.preCheck_barred hbox hphase hknown hreserved henv hstep hgave (hbars.2 h), fun h p hpart hsecret => ?_,
      fun h hopen => ?_⟩
    · exact State.preCheck_secret hbox hphase hknown hreserved henv hstep hgave (hbars.not.2 h) hpart hsecret
    · have hrest := State.preCheck_open hbox hphase hknown hreserved henv hstep hgave (hbars.not.2 h) hopen
      exact ⟨fun hlost => hrest.trans (if_pos (hfar.2 hlost)), fun hkept => hrest.trans (if_neg (hfar.not.2 hkept))⟩

end Sys2Proof.Proofs

/-! SUPPORT. The commands of the host port: ECHO, FUNC_RESET and its quiescence, the binding of direct windows, HISTORY_READ (R199, R219,
R231, R233, R305). -/

namespace Sys2Proof.Machine

/-! ### FUNC_RESET (R233) -/

section
variable {v : State} {r : MbxReq} (m : MbxId) (own : Option PartId)

/-- A FUNC_RESET of a well-formed argument block. -/
structure AsksReset (r : MbxReq) : Prop where
  form : r.form 8 [(4, 4)] = true
  module : r.arg 0 1 < 4 → r.arg 1 1 = 0

theorem bodyFuncReset_asked (h : AsksReset r) : bodyFuncReset v m own r =
    (v.funcOf (r.arg 0 1) (r.arg 1 1) (r.arg 2 2)).elim (ends v stBadArg) fun f =>
      if v.host.resets.any fun x => x.func = f && x.started then ends v stBusy else (v.fence f m false, none) := by
  have hno : ¬ (¬ r.form 8 [(4, 4)] = true ∨ (r.arg 0 1 < 4 ∧ r.arg 1 1 ≠ 0)) := by
    rintro (hform | ⟨hkind, hpart⟩)
    · exact hform h.form
    · exact hpart (h.module hkind)
  refine (if_neg hno).trans ?_
  cases v.funcOf (r.arg 0 1) (r.arg 1 1) (r.arg 2 2) <;> rfl

theorem bodyFuncReset_unknown (h : AsksReset r) (hfunc : v.funcOf (r.arg 0 1) (r.arg 1 1) (r.arg 2 2) = none) :
    bodyFuncReset v m own r = (v, some (stBadArg, [])) := by
  rw [bodyFuncReset_asked m own h, hfunc]
  rfl

theorem bodyFuncReset_busy {f : FuncId} (h : AsksReset r) (hfunc : v.funcOf (r.arg 0 1) (r.arg 1 1) (r.arg 2 2) = some f)
    (hbusy : ∃ x ∈ v.host.resets, x.func = f ∧ x.started = true) : bodyFuncReset v m own r = (v, some (stBusy, [])) := by
  rw [bodyFuncReset_asked m own h, hfunc]
  exact if_pos (by simpa using hbusy)

/-- Where nothing is fenced yet for its mailbox, a function is fenced from the present cycle on. -/
theorem State.fence_fresh (hfence : Cert.noFence v m) (f : FuncId) (isClose : Bool) : v.fence f m isClose = Cert.fenced v f m isClose := by
  have hnone : v.host.resets.find? (fun x => decide (x.mailbox = m) && !x.started) = none := by
    rw [List.find?_eq_none]
    intro x hx
    by_cases hm : x.mailbox = m
    · simp [hm, hfence.1 x hx hm]
    · simp [hm]
  unfold State.fence
  simp only [hnone, State.unfence_none hfence]
  rfl

theorem bodyFuncReset_fences {f : FuncId} (h : AsksReset r) (hfunc : v.funcOf (r.arg 0 1) (r.arg 1 1) (r.arg 2 2) = some f)
    (hfree : ∀ x ∈ v.host.resets, x.func = f → x.started = false) (hfence : Cert.noFence v m) :
    bodyFuncReset v m own r = (Cert.fenced v f m false, none) := by
  have hno : ¬ (v.host.resets.any fun x => decide (x.func = f) && x.started) = true := by simpa using hfree
  rw [bodyFuncReset_asked m own h, hfunc, ← State.fence_fresh m hfence]
  exact if_neg hno

end

/-! ### FUNC_RESET_QUIESCE (R233, Table 09.15) -/

section
variable {s u : State} {t : Nat} {f : FuncId} {q : ResetRun} (hu : s.advance t = u)
  (hfind : (u.host.resets.find? fun x => x.func = f && x.started) = some q)
include hu hfind

theorem funcResetQuiesce_early (hquiet : u.quiescent f = false) (hearly : u.now < q.fence + 90000) :
    exec (.funcResetQuiesce t f) s = .next u := by
  rw [exec_funcResetQuiesce]
  simp only [execFuncResetQuiesce, hu, hfind, hquiet, hearly, Bool.false_and, Bool.false_eq_true, not_false_eq_true, and_self, if_true]

/-- At quiescence the function is discarded and scrubbed, its fence ends, and the command reports. -/
theorem funcResetQuiesce_quiet (hquiet : u.quiescent f = true) (hintime : u.now ≤ q.fence + 90000) (hreset : q.isClose = false) :
    exec (.funcResetQuiesce t f) s = .next
      (((u.discard f).1.updHost fun h => { h with resets := h.resets.filter fun x => !(x.func = f && x.started) }).mbxAnswer q.mailbox stOk
        ([1, 0, 0, 0] ++ natLe (u.discard f).2 4 ++ natLe q.fence 8 ++ natLe (u.discard f).1.now 8 ++ natLe ((u.discard f).1.now + 1) 8)) := by
  rw [exec_funcResetQuiesce]
  simp only [execFuncResetQuiesce, hu, hfind, hquiet, hintime, hreset, Bool.true_and, decide_true, not_true_eq_false, false_and, if_false,
    if_true, Bool.false_eq_true]
  rfl

end

/-- An idle engine without schedules has nothing to discard: its registers are scrubbed. -/
theorem State.discard_idleEngine {u : State} {e : EngId} (hidle : u.queueOf e = []) (hscheds : u.scheds = []) :
    u.discard (.engine e) = (u.updEng e Engine.scrub, 0) := by
  have hpre (v : State) (hv : v.scheds = []) : v.loadPreloads e = v := by
    unfold State.loadPreloads
    split
    · rfl
    · rw [hv]
      rfl
  have hnone : (u.jobs.filter fun j => (openJobs []).contains j.id) = [] := by simp [openJobs]
  unfold State.discard
  simp only [hidle, hnone]
  exact congrArg (·, 0) (hpre (u.updEng e Engine.scrub) hscheds)

/-! ### Direct windows (R219, Table 09.7) -/

section
variable {v : State} {r : MbxReq} {w : WinId} (m : MbxId) (own : Option PartId)

/-- The argument block of a DWIN_BIND. -/
structure AsksDwinBind (v : State) (r : MbxReq) (w : WinId) (e : EngId) (p : PartId) (sealedWin : Bool) : Prop where
  win : r.arg 0 1 = w.val
  engine : r.arg 2 1 = e.val
  part : v.compOf (r.arg 1 1) = some p
  flags : r.arg 3 1 = sealedWin.toNat
  form : r.form 16 [(10, 6)] = true

/-- What binds a window: the partition's engine, its input lines, and whether it is sealed. -/
def DWin.boundTo (x : DWin) (p : PartId) (e : EngId) (sealedWin : Bool) (line rows : Nat) : DWin :=
  { rate := x.rate, burst := x.burst, tokens := x.tokens, bound := some p, engine := e, isSealed := sealedWin
    inputLine := line, inputRows := rows }

section
variable {e : EngId} {p : PartId} {sealedWin : Bool}

theorem bodyDwinBind_asked (h : AsksDwinBind v r w e p sealedWin) : bodyDwinBind v m own r =
    if v.paired = true ∨ v.host.win[w].bound.isSome = true
        ∨ (sealedWin = true ∧ (v.host.win.toList.any fun x => x.bound = some p && x.isSealed) = true) then ends v stBusy
    else if ¬ v.owns p e = true ∨ v.eng[e].fenced = true ∨ 960 < r.arg 8 2 ∨ (r.arg 8 2 ≠ 0 ∧ 393216 < r.arg 4 4 + r.arg 8 2)
        ∨ (sealedWin = true ∧ ¬ v.part[p].confidential = true) ∨ (sealedWin = true ∧ 928 < r.arg 8 2) then ends v stBadArg
    else if ¬ sealedWin = true ∧ v.part[p].confidential = true then ends v stDenied
    else gives (v.updWin w fun x => x.boundTo p e sealedWin (r.arg 4 4) (r.arg 8 2)) := by
  obtain ⟨hwin, hengine, hpart, hflags, hform⟩ := h
  have hlt : r.arg 0 1 < 16 ∧ r.arg 2 1 < 6 := ⟨hwin ▸ w.isLt, hengine ▸ e.isLt⟩
  obtain rfl : w = ⟨r.arg 0 1, hlt.1⟩ := Fin.ext hwin.symm
  obtain rfl : e = ⟨r.arg 2 1, hlt.2⟩ := Fin.ext hengine.symm
  have hsealed : bitAt (r.arg 3 1) 0 = sealedWin := by rw [hflags]; cases sealedWin <;> rfl
  have hno : ¬ (¬ r.form 16 [(10, 6)] = true ∨ 2 ≤ r.arg 3 1) := by
    rw [hflags, hform]
    cases sealedWin <;> decide
  unfold bodyDwinBind
  simp only [dif_pos hlt, hpart, if_neg hno, hsealed]
  rfl

theorem bodyDwinBind_busy (h : AsksDwinBind v r w e p sealedWin) (hbusy : v.paired = true ∨ v.host.win[w].bound.isSome = true
      ∨ (sealedWin = true ∧ ∃ x : WinId, v.host.win[x].bound = some p ∧ v.host.win[x].isSealed = true)) :
    bodyDwinBind v m own r = (v, some (stBusy, [])) := by
  rw [bodyDwinBind_asked m own h]
  refine if_pos (hbusy.imp_right (Or.imp_right (And.imp_right fun ⟨x, hx⟩ => ?_)))
  rw [List.any_eq_true]
  exact ⟨v.host.win[x], by simp, by simpa using hx⟩

/-- The limits that a window's rows keep, and what its partition and engine must be. -/
structure MayBind (v : State) (r : MbxReq) (w : WinId) (e : EngId) (p : PartId) (sealedWin : Bool) : Prop where
  unpaired : v.paired = false
  unbound : v.host.win[w].bound = none
  oneSealed : sealedWin = true → ∀ x : WinId, v.host.win[x].bound = some p → v.host.win[x].isSealed = false
  owns : v.owns p e = true
  unfenced : v.eng[e].fenced = false
  rows : r.arg 8 2 ≤ 960
  lines : r.arg 8 2 ≠ 0 → r.arg 4 4 + r.arg 8 2 ≤ 393216
  secret : sealedWin = true → v.part[p].confidential = true ∧ r.arg 8 2 ≤ 928

theorem bodyDwinBind_allowed (h : AsksDwinBind v r w e p sealedWin) (hmay : MayBind v r w e p sealedWin) : bodyDwinBind v m own r =
    if sealedWin = false ∧ v.part[p].confidential = true then (v, some (stDenied, []))
    else (v.updWin w fun x => x.boundTo p e sealedWin (r.arg 4 4) (r.arg 8 2), some (stOk, [])) := by
  obtain ⟨hpaired, hbound, hone, howns, hfenced, hrows, hlines, hsecret⟩ := hmay
  have hfree : ¬ (v.paired = true ∨ v.host.win[w].bound.isSome = true
      ∨ (sealedWin = true ∧ (v.host.win.toList.any fun x => x.bound = some p && x.isSealed) = true)) := by
    rintro (h | h | ⟨hs, h⟩)
    · simp [hpaired] at h
    · rw [hbound] at h
      cases h
    · obtain ⟨x, hx, hmine⟩ := List.any_eq_true.1 h
      obtain ⟨i, hi, rfl⟩ := Vector.getElem_of_mem (Vector.mem_toList_iff.1 hx)
      simp only [Bool.and_eq_true, decide_eq_true_eq] at hmine
      have := hone hs ⟨i, hi⟩ hmine.1
      exact Bool.false_ne_true (this.symm.trans hmine.2)
  have hlimits : ¬ (¬ v.owns p e = true ∨ v.eng[e].fenced = true ∨ 960 < r.arg 8 2 ∨ (r.arg 8 2 ≠ 0 ∧ 393216 < r.arg 4 4 + r.arg 8 2)
      ∨ (sealedWin = true ∧ ¬ v.part[p].confidential = true) ∨ (sealedWin = true ∧ 928 < r.arg 8 2)) := by
    rintro (h | h | h | ⟨h, h'⟩ | ⟨h, h'⟩ | ⟨h, h'⟩)
    · exact h howns
    · exact Bool.false_ne_true (hfenced.symm.trans h)
    · omega
    · exact absurd (hlines h) (Nat.not_le.2 h')
    · exact h' (hsecret h).1
    · exact absurd (hsecret h).2 (Nat.not_le.2 h')
  rw [bodyDwinBind_asked m own h, if_neg hfree, if_neg hlimits]
  simp only [Bool.not_eq_true]
  rfl

end

theorem bodyDwinRelease_unbound (hwin : r.arg 0 1 = w.val) (hbound : v.host.win[w].bound = none) : bodyDwinRelease v m own r = (v, some (stBadArg, [])) := by
  have hlt : r.arg 0 1 < 16 := hwin ▸ w.isLt
  obtain rfl : w = ⟨r.arg 0 1, hlt⟩ := Fin.ext hwin.symm
  rw [bodyDwinRelease, dif_pos hlt]
  exact if_pos (.inr (.inl (by simp only [hbound, Option.isNone_none])))

/-- A bound window that nothing else releases is released once no job of it is left. -/
theorem bodyDwinRelease_bound (hwin : r.arg 0 1 = w.val) (hform : r.form 4 [(1, 3)] = true)
    (hbound : v.host.win[w].bound.isSome = true) (hfree : v.host.win[w].releasing = none) :
    bodyDwinRelease v m own r =
      if v.windowBusy w = true then (v.updWin w fun x => { x with releasing := some m }, none)
      else (v.updWin w DWin.unbind, some (stOk, [])) := by
  have hlt : r.arg 0 1 < 16 := hwin ▸ w.isLt
  obtain rfl : w = ⟨r.arg 0 1, hlt⟩ := Fin.ext hwin.symm
  have hno : ¬ (¬ r.form 4 [(1, 3)] = true ∨ v.host.win[(⟨r.arg 0 1, hlt⟩ : WinId)].bound.isNone = true
      ∨ v.host.win[(⟨r.arg 0 1, hlt⟩ : WinId)].releasing.any (fun x => decide (x ≠ m)) = true) := by
    rintro (h | h | h)
    · exact h hform
    · rw [Option.isNone_iff_eq_none.1 h] at hbound
      cases hbound
    · rw [hfree] at h
      cases h
  rw [bodyDwinRelease, dif_pos hlt]
  exact if_neg hno

end

/-! ### ECHO and HISTORY_READ (R199, R231) -/

section
variable {v : State} {r : MbxReq} (m : MbxId) (own : Option PartId)

/-- The answer to a HISTORY_READ: a header of 16 bytes, and the records from START on (Table 08.16). -/
def State.historyBytes (v : State) (r : MbxReq) : List Byte :=
  let l := ((if r.arg 6 1 = 0 then v.hist.ring else v.hist.fenceTable).filter fun x => decide (r.arg 0 4 ≤ x.sequence)).take (r.arg 4 2)
  let oldest := (v.hist.ring.head?.map HistRec.sequence).getD v.hist.next.toNat
  natLe oldest 4 ++ natLe v.hist.next.toNat 4 ++ natLe v.hist.displaced.toNat 4
    ++ [BitVec.ofNat 8 v.hist.fenceTable.length, BitVec.ofNat 8 l.length] ++ natLe v.hist.uncopied.toNat 2
    ++ l.flatMap fun x => (v.hostView x).bytes

theorem bodyHistoryRead_refuses (h : r.arg 4 2 = 0 ∨ 64 < r.arg 4 2) : bodyHistoryRead v m own r = (v, some (stBadArg, [])) :=
  if_pos (.inr (or_assoc.1 (.inl h)))

theorem bodyHistoryRead_answers (hform : r.form 8 [(7, 1)] = true) (hsource : r.arg 6 1 ≤ 1) (hlo : 1 ≤ r.arg 4 2) (hhi : r.arg 4 2 ≤ 64) :
    bodyHistoryRead v m own r = (v, some (stOk, v.historyBytes r)) := by
  have hno : ¬ (¬ r.form 8 [(7, 1)] = true ∨ r.arg 4 2 = 0 ∨ 64 < r.arg 4 2 ∨ 1 < r.arg 6 1) := by
    simp only [hform, not_true_eq_false, false_or]
    omega
  unfold bodyHistoryRead State.historyBytes
  rw [if_neg hno]
  cases hring : v.hist.ring with
  | nil => simp only [hring, List.head?_nil, Option.map_none, Option.getD_none, gives]
  | cons x l => simp only [hring, List.head?_cons, Option.map_some, Option.getD_some, gives]

theorem bodyEcho_eq : bodyEcho v m own r =
    if r.argBytes.toNat ≤ 1920 then (v, some (stOk, padTo r.argBytes.toNat r.args)) else (v, some (stBadArg, [])) := by
  unfold bodyEcho
  split_ifs
  · omega
  · rfl
  · rfl
  · omega

end

/-! ### The commands as they ring and start -/

section
variable {s u : State} {t op : Nat} {r : MbxReq} {body : Body} (hu : s.advance t = u) (hruns : Cert.runs u op r)
include hu hruns

/-- A command that its own chapter refuses. -/
theorem State.ring_refuses {st : Status} (hbody : body (Cert.accepted u op r false) r.mailbox none r = (Cert.accepted u op r false, some (st, []))) :
    .next (s.ring t op r body) = Cert.refused u op r st :=
  congrArg Host.Outcome.next (State.ring_answers hu hruns hbody)

theorem State.ring_did {f : State → State} {bs : List Byte}
    (hbody : body (Cert.accepted u op r false) r.mailbox none r = (f (Cert.accepted u op r false), some (stOk, bs))) :
    .next (s.ring t op r body) = Cert.did u op r f bs :=
  congrArg Host.Outcome.next (State.ring_answers hu hruns hbody)

theorem State.ring_continues {f : State → State}
    (hbody : body (Cert.accepted u op r false) r.mailbox none r = (f (Cert.accepted u op r false), none)) :
    .next (s.ring t op r body) = Cert.goesOn u op r f := by
  rw [State.ring_goesOn hu hruns hbody, Cert.goesOn]

end

section
variable {s u : State} {t : Nat} {r : MbxReq} (hu : s.advance t = u)
include hu

theorem execEcho_answers (hruns : Cert.runs u 0x0001 r) : execEcho t r s =
    if r.argBytes.toNat ≤ 1920 then Cert.did u 0x0001 r id (padTo r.argBytes.toNat r.args) else Cert.refused u 0x0001 r stBadArg := by
  have hbody := bodyEcho_eq (v := Cert.accepted u 0x0001 r false) (r := r) r.mailbox none
  unfold execEcho
  split_ifs at hbody ⊢
  · exact State.ring_did (f := id) hu hruns hbody
  · exact State.ring_refuses hu hruns hbody

section
variable (hruns : Cert.runs u 0x0002 r) (h : AsksReset r)
include hruns h

theorem execFuncReset_unknown (hfunc : u.funcOf (r.arg 0 1) (r.arg 1 1) (r.arg 2 2) = none) :
    execFuncReset t r s = Cert.refused u 0x0002 r stBadArg :=
  State.ring_refuses hu hruns (bodyFuncReset_unknown (v := Cert.accepted u 0x0002 r false) r.mailbox none h hfunc)

variable {f : FuncId} (hfunc : u.funcOf (r.arg 0 1) (r.arg 1 1) (r.arg 2 2) = some f)
include hfunc

theorem execFuncReset_busy (hbusy : ∃ x ∈ u.host.resets, x.func = f ∧ x.started = true) :
    execFuncReset t r s = Cert.refused u 0x0002 r stBusy :=
  State.ring_refuses hu hruns (bodyFuncReset_busy (v := Cert.accepted u 0x0002 r false) r.mailbox none h hfunc hbusy)

theorem execFuncReset_fences (hfree : ∀ x ∈ u.host.resets, x.func = f → x.started = false) (hfence : Cert.noFence u r.mailbox) :
    execFuncReset t r s = Cert.goesOn u 0x0002 r fun w => Cert.fenced w f r.mailbox false :=
  State.ring_continues (f := fun w => Cert.fenced w f r.mailbox false) hu hruns
    (bodyFuncReset_fences (v := Cert.accepted u 0x0002 r false) r.mailbox none h hfunc hfree hfence)

end

section
variable {w : WinId} {e : EngId} {p : PartId} {sealedWin : Bool} (hruns : Cert.runs u 0x0004 r) (h : AsksDwinBind u r w e p sealedWin)
include hruns h

theorem execDwinBind_busy (hbusy : u.paired = true ∨ u.host.win[w].bound.isSome = true
      ∨ (sealedWin = true ∧ ∃ x : WinId, u.host.win[x].bound = some p ∧ u.host.win[x].isSealed = true)) :
    execDwinBind t r s = Cert.refused u 0x0004 r stBusy :=
  State.ring_refuses hu hruns
    (bodyDwinBind_busy (v := Cert.accepted u 0x0004 r false) r.mailbox none ⟨h.1, h.2, h.3, h.4, h.5⟩ hbusy)

theorem execDwinBind_binds (hmay : MayBind u r w e p sealedWin) : execDwinBind t r s =
    if sealedWin = false ∧ u.part[p].confidential = true then Cert.refused u 0x0004 r stDenied
    else Cert.did u 0x0004 r fun v => v.updWin w fun x => x.boundTo p e sealedWin (r.arg 4 4) (r.arg 8 2) := by
  have hbody := bodyDwinBind_allowed (v := Cert.accepted u 0x0004 r false) r.mailbox none ⟨h.1, h.2, h.3, h.4, h.5⟩
    ⟨hmay.1, hmay.2, hmay.3, hmay.4, hmay.5, hmay.6, hmay.7, hmay.8⟩
  split_ifs with hdenied
  · exact State.ring_refuses hu hruns (hbody.trans (if_pos hdenied))
  · exact State.ring_did (f := fun v => v.updWin w fun x => x.boundTo p e sealedWin (r.arg 4 4) (r.arg 8 2)) hu hruns
      (hbody.trans (if_neg hdenied))

end

section
variable {w : WinId} (hruns : Cert.runs u 0x0005 r) (hwin : r.arg 0 1 = w.val)
include hruns hwin

theorem execDwinRelease_unbound (hbound : u.host.win[w].bound = none) : execDwinRelease t r s = Cert.refused u 0x0005 r stBadArg :=
  State.ring_refuses hu hruns (bodyDwinRelease_unbound (v := Cert.accepted u 0x0005 r false) r.mailbox none hwin hbound)

variable (hform : r.form 4 [(1, 3)] = true) (hbound : u.host.win[w].bound.isSome = true) (hfree : u.host.win[w].releasing = none)
include hform hbound hfree

theorem execDwinRelease_waits (hbusy : u.windowBusy w = true) :
    execDwinRelease t r s = Cert.goesOn u 0x0005 r fun v => v.updWin w fun x => { x with releasing := some r.mailbox } :=
  State.ring_continues (f := fun v => v.updWin w fun x => { x with releasing := some r.mailbox }) hu hruns
    ((bodyDwinRelease_bound (v := Cert.accepted u 0x0005 r false) r.mailbox none hwin hform hbound hfree).trans (if_pos hbusy))

theorem execDwinRelease_unbinds (hidle : u.windowBusy w = false) :
    execDwinRelease t r s = Cert.did u 0x0005 r fun v => v.updWin w DWin.unbind :=
  State.ring_did (f := fun v => v.updWin w DWin.unbind) hu hruns
    ((bodyDwinRelease_bound (v := Cert.accepted u 0x0005 r false) r.mailbox none hwin hform hbound hfree).trans
      (if_neg (Bool.eq_false_iff.1 hidle)))

end

section
variable (hruns : Cert.runs u 0x0006 r)
include hruns

theorem execHistoryRead_refuses (h : r.arg 4 2 = 0 ∨ 64 < r.arg 4 2) : execHistoryRead t r s = Cert.refused u 0x0006 r stBadArg :=
  State.ring_refuses hu hruns (bodyHistoryRead_refuses (v := Cert.accepted u 0x0006 r false) r.mailbox none h)

theorem execHistoryRead_answers (hform : r.form 8 [(7, 1)] = true) (hsource : r.arg 6 1 ≤ 1) (hlo : 1 ≤ r.arg 4 2) (hhi : r.arg 4 2 ≤ 64) :
    execHistoryRead t r s = Cert.did u 0x0006 r id (u.historyBytes r) :=
  State.ring_did (f := id) hu hruns
    (bodyHistoryRead_answers (v := Cert.accepted u 0x0006 r false) r.mailbox none hform hsource hlo hhi)

end

end

end Sys2Proof.Machine

namespace Sys2Proof.Proofs

open Sys2Proof Sys2Proof.Machine

/-- Settles O32: what each command's body answers in the state that has accepted it is what the command does; a reset ends as
`funcResetQuiesce_quiet` says. -/
theorem hostCommandsDoTheirWork : Obligations.HostCommandsDoTheirWork := by
  unfold Obligations.HostCommandsDoTheirWork
  refine ⟨fun s t r => ⟨execEcho_answers rfl, fun hruns hform hmodule => ⟨?_, fun f hfunc => ⟨?_, ?_⟩⟩,
    fun hruns w e p sealedWin hwin hengine hpart hflags hform => ⟨fun hbusy => ?_, fun hsealed hwant => ?_,
      fun hpaired hbound hone howns hfenced hrows hlines hsecret => ?_⟩,
    fun hruns w hwin hform => ⟨execDwinRelease_unbound rfl hruns hwin, fun hbound hfree => ⟨?_, ?_⟩⟩,
    fun hruns hform hsource => ⟨execHistoryRead_refuses rfl hruns, execHistoryRead_answers rfl hruns hform hsource⟩⟩, fun s t f q => ?_⟩
  · exact execFuncReset_unknown rfl hruns ⟨hform, hmodule⟩
  · exact execFuncReset_busy rfl hruns ⟨hform, hmodule⟩ hfunc
  · exact execFuncReset_fences rfl hruns ⟨hform, hmodule⟩ hfunc
  · exact execDwinBind_busy rfl hruns ⟨hwin, hengine, hpart, hflags, hform⟩ (or_assoc.1 (.inl hbusy))
  · exact execDwinBind_busy rfl hruns ⟨hwin, hengine, hpart, hflags, hform⟩ (.inr (.inr ⟨hwant, hsealed⟩))
  · exact execDwinBind_binds rfl hruns ⟨hwin, hengine, hpart, hflags, hform⟩
      ⟨hpaired, hbound, hone, howns, hfenced, hrows, hlines, hsecret⟩
  · exact execDwinRelease_waits rfl hruns hwin hform hbound hfree
  · exact execDwinRelease_unbinds rfl hruns hwin hform hbound hfree
  · intro u d hfind
    refine ⟨funcResetQuiesce_early rfl hfind, funcResetQuiesce_quiet rfl hfind, ?_⟩
    rintro e rfl hidle hscheds
    have hdiscard : d = (u.updEng e Engine.scrub, 0) := State.discard_idleEngine hidle hscheds
    rw [hdiscard]
    exact ⟨rfl, rfl⟩

end Sys2Proof.Proofs

/-! SUPPORT. The LPDDR5 device that the host sees: what its mode registers read after a write (R209, R210). -/

namespace Sys2Proof.Machine

/-! ### Association lists -/

section
variable {α β : Type} [DecidableEq α] {k k' : α} {l : List (α × β)}

theorem assoc_filter_ne (h : k' ≠ k) : assoc k' (l.filter fun x => x.1 ≠ k) = assoc k' l := by
  induction l with
  | nil => rfl
  | cons x l ih =>
    obtain ⟨a, b⟩ := x
    by_cases ha : a = k
    · subst ha
      rw [List.filter_cons_of_neg (by simp), ih, assoc, if_neg (Ne.symm h)]
    · rw [List.filter_cons_of_pos (by simpa using ha), assoc, assoc, ih]

theorem assoc_assocSet_self (v : β) : assoc k (assocSet k v l) = some v := if_pos rfl

theorem assoc_assocSet_ne (h : k' ≠ k) (v : β) : assoc k' (assocSet k v l) = assoc k' l :=
  (if_neg (Ne.symm h)).trans (assoc_filter_ne h)

end

/-! ### Mode registers -/

/-- The registers that read the same whatever is written to them (Table 09.2). -/
def fixedModeReg (r : Byte) : Bool := r = 5 ∨ r = 6 ∨ r = 7 ∨ r = 8

/-- A mode register written on one channel. -/
def State.modeRegWritten (u : State) (ch : Fin 2) (mr v : Byte) : State :=
  { u with host := { u.host with modeRegs := u.host.modeRegs.set ch (assocSet mr v u.host.modeRegs[ch]) } }

section
variable {u w : State} {ch c : Fin 2} {mr r v : Byte}

theorem State.modeReg_fixed (h : fixedModeReg r = true) : u.modeReg ch r = w.modeReg c r := by
  have hcases : r = 5 ∨ r = 6 ∨ r = 7 ∨ r = 8 := by simpa [fixedModeReg] using h
  rcases hcases with rfl | rfl | rfl | rfl <;> rfl

theorem State.modeReg_plain (h : fixedModeReg r = false) :
    u.modeReg ch r = (assoc r u.host.modeRegs[ch]).getD (Config.partByte 31 r.toNat) := by
  have hcases : ¬ r = 5 ∧ ¬ r = 6 ∧ ¬ r = 7 ∧ ¬ r = 8 := by simpa [fixedModeReg] using h
  obtain ⟨h5, h6, h7, h8⟩ := hcases
  rw [State.modeReg, if_neg h5, if_neg h6, if_neg h7, if_neg h8]

/-- A write changes what one register of one channel reads, unless that register is fixed. -/
theorem State.modeReg_modeRegWritten : (u.modeRegWritten ch mr v).modeReg c r =
    if c = ch ∧ r = mr ∧ fixedModeReg mr = false then v else u.modeReg c r := by
  cases hfixed : fixedModeReg r with
  | true =>
    rw [State.modeReg_fixed hfixed, if_neg]
    rintro ⟨-, rfl, hplain⟩
    rw [hfixed] at hplain
    cases hplain
  | false =>
    rw [State.modeReg_plain hfixed, State.modeReg_plain hfixed]
    by_cases hc : c = ch
    · subst hc
      rw [show (u.modeRegWritten c mr v).host.modeRegs[c] = assocSet mr v u.host.modeRegs[c] from Vector.getElem_set_self c.isLt]
      by_cases hr : r = mr
      · subst hr
        rw [assoc_assocSet_self, if_pos ⟨rfl, rfl, hfixed⟩, Option.getD_some]
      · rw [assoc_assocSet_ne hr, if_neg fun h => hr h.2.1]
    · rw [show (u.modeRegWritten ch mr v).host.modeRegs[c] = u.host.modeRegs[c] from
          Vector.getElem_set_ne ch.isLt c.isLt fun h => hc (Fin.ext h.symm), if_neg fun h => hc h.1]

end

theorem hasBit_setBit_zero (v : BitVec 5) : hasBit (setBit v 0) 0 = true := by
  simp [hasBit, setBit]

end Sys2Proof.Machine

namespace Sys2Proof.Proofs

open Sys2Proof Sys2Proof.Machine

/-- Settles O54: each command by whether HP_READY is active, and a read after a write by `State.modeReg_modeRegWritten`. -/
theorem hostPortIsAnLpddr5Device : Obligations.HostPortIsAnLpddr5Device := by
  unfold Obligations.HostPortIsAnLpddr5Device
  intro s t ch mr v u unsupported fixed
  have hfixed : ¬ fixed ↔ fixedModeReg mr = false := by simp [fixed, fixedModeReg]
  refine ⟨fun hready => ?_, rfl, rfl, fun hoff => ?_⟩
  · refine ⟨congrArg Host.Outcome.next (if_neg (not_not.2 hready)), congrArg Host.Outcome.next (if_pos hready),
      hasBit_setBit_zero _, fun c r => rfl, ⟨u.modeRegWritten ch mr v, congrArg Host.Outcome.next (if_neg (not_not.2 hready)), rfl, fun c r => ?_⟩,
      congrArg Host.Outcome.next (if_pos hready), ?_, ?_, ?_, ?_, fun hplain hnone => ?_, congrArg Host.Outcome.next (if_pos hready)⟩
    · simp only [State.modeReg_modeRegWritten, hfixed]
    · rintro rfl; rfl
    · rintro rfl; rfl
    · rintro rfl; rfl
    · rintro rfl; rfl
    · rw [State.modeReg_plain (hfixed.1 hplain), hnone]
      rfl
  · have hno : ¬ u.host.hpReady = true := by simp [hoff]
    exact ⟨congrArg Host.Outcome.next (if_pos hno), congrArg Host.Outcome.next (if_pos hno), congrArg Host.Outcome.next (if_neg hno),
      congrArg Host.Outcome.next (if_neg hno), congrArg Host.Outcome.next (if_neg hno)⟩

end Sys2Proof.Proofs

/-! SUPPORT. A store of the side port without memory errors: the engine that it leaves (R96, R97, R99). -/

namespace Sys2Proof.Machine

/-- Two changes of one window are one. -/
theorem State.updWin_updWin (u : State) (w : WinId) (f g : DWin → DWin) : (u.updWin w f).updWin w g = u.updWin w fun x => g (f x) := by
  simp [State.updWin, State.updHost]

theorem State.updWin_self (u : State) (w : WinId) (f : DWin → DWin) : (u.updWin w f).host.win[w] = f u.host.win[w] :=
  Vector.getElem_set_self w.isLt

/-- An engine whose side port has stored bytes in cycle `now` without a memory error: no byte goes to a word that is uncorrectable and only
partly covered. -/
def Engine.sideTaken (g : Engine) (now a : Nat) (bs : List Byte) : Engine :=
  let bad := (partWords a bs.length).filter fun w => g.mem.actBad.contains w
  let hits := if g.unitAt = now then (g.unitWords.filter fun w => decide (a < w + 8 ∧ w < a + bs.length)).length else 0
  { g.sidePut now ((cellsFrom a bs).filter fun c => !bad.contains (c.1 / 8 * 8)) with
    mem := { g.mem.actWritten a bs.length with collisions := bump 32 g.mem.collisions hits } }

theorem State.sideWrite_taken (u : State) (e : EngId) (a : Nat) (bs : List Byte) :
    (u.sideWrite e a bs).1 = u.updEng e fun g => g.sideTaken u.now a bs := by
  have hread : (if (partWords a bs.length).isEmpty = true then u else u.updEng e fun g => { g with mem := g.mem.corrected true 0 }) = u := by
    split
    · rfl
    · exact State.corrected_zero u e true
  unfold State.sideWrite
  simp only [hread]
  exact State.updEng_congr rfl

section
variable {g : Engine} (hbad : g.mem.actBad = [])
include hbad

/-- Where no word is uncorrectable, the bytes are stored and nothing else changes but what the side port notes of its cycle. -/
theorem Engine.sideTaken_clean (now a : Nat) (bs : List Byte) : ∃ collisions : Word,
    g.sideTaken now a bs = { g.sidePut now (cellsFrom a bs) with mem := { g.mem with collisions := collisions } } := by
  have hnone : ((partWords a bs.length).filter fun x => g.mem.actBad.contains x) = [] := by
    rw [hbad]
    exact List.filter_eq_nil_iff.2 fun _ _ => Bool.false_ne_true
  have hwritten : g.mem.actWritten a bs.length = g.mem := by
    rw [MemHealth.actWritten, hbad, List.filter_nil, ← hbad]
  unfold Engine.sideTaken
  simp only [hnone, hwritten, List.contains_nil, Bool.not_false, List.filter_true]
  exact ⟨_, rfl⟩

theorem Engine.sideTaken_frame (now a : Nat) (bs : List Byte) : g.sideTaken now a bs = { g with
    act := (g.sideTaken now a bs).act, sideAt := now, sideOld := (g.sideTaken now a bs).sideOld
    mem := { g.mem with collisions := (g.sideTaken now a bs).mem.collisions } } := by
  obtain ⟨n, h⟩ := Engine.sideTaken_clean hbad now a bs
  rw [h]
  rfl

theorem Engine.sideTaken_actBad (now a : Nat) (bs : List Byte) : (g.sideTaken now a bs).mem.actBad = [] := by
  rw [Engine.sideTaken_frame hbad]
  exact hbad

theorem Engine.memRead_sideTaken (now a : Nat) (bs : List Byte) : memRead (g.sideTaken now a bs).act a bs.length = bs := by
  obtain ⟨n, h⟩ := Engine.sideTaken_clean hbad now a bs
  rw [h]
  exact (Engine.sidePut_act g now a bs).1

theorem Engine.memGet_sideTaken {now a b : Nat} {bs : List Byte} (hb : b < a ∨ a + bs.length ≤ b) :
    memGet (g.sideTaken now a bs).act b = memGet g.act b := by
  obtain ⟨n, h⟩ := Engine.sideTaken_clean hbad now a bs
  rw [h]
  exact (Engine.sidePut_act g now a bs).2 b hb

end

/-! ### Bytes read in two runs -/

theorem memRead_add (m : Mem) (a j k : Nat) : memRead m a (j + k) = memRead m a j ++ memRead m (a + j) k := by
  simp only [memRead_eq, List.range_add, List.map_append, List.map_map]
  congr 1
  exact List.map_congr_left fun i _ => congrArg (memGet m) (Nat.add_assoc a j i).symm

theorem memRead_congr {m m' : Mem} {a n : Nat} (h : ∀ i < n, memGet m (a + i) = memGet m' (a + i)) : memRead m a n = memRead m' a n := by
  simp only [memRead_eq]
  exact List.map_congr_left fun i hi => h i (List.mem_range.1 hi)

end Sys2Proof.Machine

/-! SUPPORT. Data rows of a direct window, and the rows that a seal entry opens (R97, R220, R223, R224, R233, R289). -/

namespace Sys2Proof.Machine

section
variable {u : State} {d : DWin} {row off n : Nat} {bs : List Byte}

theorem DWin.ready_one (x : DWin) (row : Nat) : x.ready [row] = { x with notReady := x.notReady.filter fun y => y.1 ≠ row } := by
  simp [DWin.ready]

theorem DWin.unready_one (x : DWin) (row : Nat) (c : Option Nat) :
    x.unready [row] c = { x with notReady := (row, c) :: x.notReady.filter fun y => y.1 ≠ row } := by
  simp [DWin.unready]

theorem State.recovering_eq_false (h : u.pwr.phase ≠ .recovery) : u.recovering = false := decide_eq_false h

/-! ### Rows sent on to the engine -/

/-- A row that lies past the input rows, or that the engine does not take, is not forwarded. -/
theorem State.forwardRow_kept (h : d.inputRows ≤ row ∨ u.eng[d.engine].fenced = true ∨ u.resetting (.engine d.engine) = true) (f : Flt) :
    u.forwardRow d row off bs f = u := if_pos h

theorem State.forwardRow_taken (h : ¬ (d.inputRows ≤ row ∨ u.eng[d.engine].fenced = true ∨ u.resetting (.engine d.engine) = true)) :
    u.forwardRow d row off bs {} = u.updEng d.engine fun g => g.sideTaken u.now (64 * (d.inputLine + row) + off) bs :=
  (if_neg h).trans (State.sideWrite_taken u d.engine _ bs)

theorem State.forwardRows_kept (h : d.inputRows ≤ row ∨ u.eng[d.engine].fenced = true) : u.forwardRows d row n bs = u := by
  induction n generalizing row bs with
  | zero => rfl
  | succ n ih =>
    rw [State.forwardRows, State.forwardRow_kept (h.imp_right .inl)]
    exact ih (h.imp_left Nat.le_succ_of_le)

/-- Rows that the engine takes lie one after another in its activation SRAM, and nothing else changes in it. -/
theorem State.forwardRows_taken (hfenced : u.eng[d.engine].fenced = false) (hreset : u.resetting (.engine d.engine) = false)
    (hrows : row + n ≤ d.inputRows) (hbad : u.eng[d.engine].mem.actBad = []) (hlen : bs.length = 64 * n) :
    ∃ g : Vector Engine 6, u.forwardRows d row n bs = { u with eng := g }
      ∧ memRead g[d.engine].act (64 * (d.inputLine + row)) (64 * n) = bs
      ∧ (∀ b : Nat, b < 64 * (d.inputLine + row) ∨ 64 * (d.inputLine + row) + 64 * n ≤ b →
        memGet g[d.engine].act b = memGet u.eng[d.engine].act b)
      ∧ ∀ k : EngId, k ≠ d.engine → g[k] = u.eng[k] := by
  induction n generalizing u row bs with
  | zero =>
    obtain rfl : bs = [] := List.length_eq_zero_iff.1 hlen
    exact ⟨u.eng, rfl, by simp [memRead_eq], fun _ _ => rfl, fun _ _ => rfl⟩
  | succ n ih =>
    have hopen : ¬ (d.inputRows ≤ row ∨ u.eng[d.engine].fenced = true ∨ u.resetting (.engine d.engine) = true) := by
      rw [hfenced, hreset]
      simp
      omega
    let a := 64 * (d.inputLine + row)
    let v := u.updEng d.engine fun g => g.sideTaken u.now a (bs.take 64)
    have htake : (bs.take 64).length = 64 := by rw [List.length_take]; omega
    have hself : v.eng[d.engine] = u.eng[d.engine].sideTaken u.now a (bs.take 64) := State.updEng_self
    have hframe := Engine.sideTaken_frame hbad u.now a (bs.take 64)
    have hfenced' : v.eng[d.engine].fenced = false := by rw [hself, hframe]; exact hfenced
    have hbad' : v.eng[d.engine].mem.actBad = [] := by rw [hself]; exact Engine.sideTaken_actBad hbad _ _ _
    obtain ⟨g, hgo, hread, hout, hother⟩ := ih (u := v) (row := row + 1) (bs := bs.drop 64) hfenced' hreset (by omega) hbad'
      (by rw [List.length_drop]; omega)
    have hnext : 64 * (d.inputLine + (row + 1)) = a + 64 := by show _ = 64 * (d.inputLine + row) + 64; omega
    rw [hnext] at hread hout
    refine ⟨g, ?_, ?_, fun b hb => ?_, fun k hk => (hother k hk).trans (State.updEng_ne hk)⟩
    · rw [State.forwardRows, State.forwardRow_taken hopen]
      exact hgo
    · have hfirst : memRead g[d.engine].act a 64 = bs.take 64 := by
        rw [memRead_congr fun i hi => hout (a + i) (.inl (by omega)), hself]
        have := Engine.memRead_sideTaken hbad u.now a (bs.take 64)
        rwa [htake] at this
      rw [show 64 * (n + 1) = 64 + 64 * n by omega, memRead_add, hfirst, hread, List.take_append_drop]
    · rw [hout b (by omega), hself]
      exact Engine.memGet_sideTaken hbad (by rw [htake]; omega)

end

/-! ### HOST_DATA_ROW_WRITE -/

section
variable {s u : State} {t : Nat} {w : WinId} {row off : Nat} {bs : List Byte} (hu : s.advance t = u) (hready : u.host.hpReady = true)
include hu hready

theorem hostDataRowWrite_recovery (hphase : u.pwr.phase = .recovery) (f : Flt) :
    exec (.hostDataRowWrite t w row off bs f) s = .next (Cert.hostErr u 1) := by
  rw [exec_hostDataRowWrite]
  simp only [execHostDataRowWrite, hu]
  exact congrArg Host.Outcome.next (if_pos ⟨hready, decide_eq_true hphase⟩)

/-- The window with bytes of a row stored, the row valid. -/
def State.rowStored (u : State) (w : WinId) (row off : Nat) (bs : List Byte) : State :=
  Cert.winTo u w fun x => { x with rows := memWrite x.rows (64 * row + off) bs, notReady := x.notReady.filter fun y => y.1 ≠ row }

/-- A row written to a bound window is stored; that of a plain window is then sent on. -/
theorem hostDataRowWrite_stores (hphase : u.pwr.phase ≠ .recovery) (hbound : u.host.win[w].bound.isSome = true) (hrow : row < 960)
    (hfits : off + bs.length ≤ 64) (f : Flt) : exec (.hostDataRowWrite t w row off bs f) s =
      .next (if u.host.win[w].isSealed then u.rowStored w row off bs
        else (u.rowStored w row off bs).forwardRow u.host.win[w] row off bs f) := by
  have hserved : ¬ (u.host.hpReady = true ∧ u.recovering = true) := by simp [State.recovering_eq_false hphase]
  have hstores : ¬ (¬ u.host.hpReady = true ∨ u.host.win[w].bound.isNone = true ∨ 960 ≤ row ∨ 64 < off + bs.length) := by
    rintro (h | h | h | h)
    · exact h hready
    · rw [Option.isNone_iff_eq_none.1 h] at hbound
      cases hbound
    · omega
    · omega
  rw [exec_hostDataRowWrite]
  simp only [execHostDataRowWrite, hu, if_neg hserved, if_neg hstores, DWin.ready_one, DWin.store]
  rfl

end

/-! ### Seal entries (R289, Table 12.5) -/

section
variable {s u : State} {t : Nat} {w : WinId} {entry : Nat} {p : PartId} {bs : List Byte}

/-- What the tag of a seal entry opens: the ciphertext of its rows under the key of its epoch. -/
def State.sealOpened (v : State) (w : WinId) (p : PartId) (b : List Byte) : Option (List Byte) :=
  (assoc (field b 12 2) v.part[p].host.installed).bind fun key =>
    gcmOpen key (sealNonce 0 w.val (field b 0 8)) (b.take 16)
      (memRead v.host.win[w].rows (64 * field b 8 2) (64 * field b 10 2)) ((b.drop 16).take 16)

/-- A seal entry that forwards its rows: rows of the input part, no reserved bit, a fresh MSG_SEQ, and a tag that holds. -/
structure State.GoodEntry (v : State) (w : WinId) (p : PartId) (b : List Byte) : Prop where
  first : field b 8 2 ≤ 927
  rows : 1 ≤ field b 10 2
  inside : field b 8 2 + field b 10 2 ≤ 928
  reserved : field b 14 2 = 0
  fresh : ((assoc (w.val, 0, field b 12 2) v.part[p].series).getD 0).toNat < field b 0 8
  opens : (v.sealOpened w p b).isSome = true

/-- The MSG_SEQ of an entry accepted. -/
def State.seqTaken (v : State) (w : WinId) (p : PartId) (b : List Byte) : State :=
  v.updPart p fun q => { q with series := assocSet (w.val, 0, field b 12 2) (BitVec.ofNat 64 (field b 0 8)) q.series }

theorem any_key_of_assoc {α β : Type} [DecidableEq α] {k : α} {l : List (α × β)} (h : (assoc k l).isSome = true) :
    (l.any fun x => decide (x.1 = k)) = true := by
  induction l with
  | nil => cases h
  | cons x l ih =>
    obtain ⟨a, b⟩ := x
    rw [List.any_cons]
    by_cases ha : a = k
    · simp [ha]
    · rw [assoc, if_neg ha] at h
      rw [ih h, Bool.or_true]

theorem State.openEntry_eq (v : State) (w : WinId) (p : PartId) (b : List Byte) : v.openEntry w p b =
    if 927 < field b 8 2 ∨ field b 10 2 = 0 ∨ 928 < field b 8 2 + field b 10 2 ∨ field b 14 2 ≠ 0
        ∨ ¬ recordFresh v.part[p] w.val (field b 12 2) (field b 0 8) = true then none
    else (v.sealOpened w p b).map fun plain => (v.seqTaken w p b, plain) := by
  unfold State.openEntry
  cases hkey : assoc (field b 12 2) v.part[p].host.installed with
  | none => simp only [State.sealOpened, hkey, Option.bind_none, Option.map_none]
  | some key =>
    simp only [State.sealOpened, hkey, Option.bind_some]
    rfl

theorem State.GoodEntry.openEntry {v : State} {b plain : List Byte} (h : v.GoodEntry w p b) (hplain : v.sealOpened w p b = some plain) :
    v.openEntry w p b = some (v.seqTaken w p b, plain) := by
  obtain ⟨hfirst, hrows, hinside, hreserved, hfresh, hopens⟩ := h
  have hkey : (assoc (field b 12 2) v.part[p].host.installed).isSome = true := by
    unfold State.sealOpened at hopens
    cases hassoc : assoc (field b 12 2) v.part[p].host.installed with
    | none =>
      rw [hassoc] at hopens
      cases hopens
    | some key => rfl
  have hrecord : recordFresh v.part[p] w.val (field b 12 2) (field b 0 8) = true := by
    rw [recordFresh, any_key_of_assoc hkey, Bool.true_and]
    exact decide_eq_true hfresh
  have hform : ¬ (927 < field b 8 2 ∨ field b 10 2 = 0 ∨ 928 < field b 8 2 + field b 10 2 ∨ field b 14 2 ≠ 0
      ∨ ¬ recordFresh v.part[p] w.val (field b 12 2) (field b 0 8) = true) := by
    rintro (h | h | h | h | h)
    · omega
    · omega
    · omega
    · exact h hreserved
    · exact h hrecord
  rw [State.openEntry_eq, if_neg hform, hplain]
  rfl

theorem State.openEntry_bad {v : State} {b : List Byte} (h : ¬ v.GoodEntry w p b) : v.openEntry w p b = none := by
  rw [State.openEntry_eq]
  split
  · rfl
  · rename_i hform
    simp only [not_or, not_not, recordFresh, Bool.and_eq_true, decide_eq_true_eq] at hform
    obtain ⟨hfirst, hrows, hinside, hreserved, -, hfresh⟩ := hform
    cases hopens : v.sealOpened w p b with
    | none => rfl
    | some plain =>
      exact absurd ⟨by omega, by omega, by omega, hreserved, hfresh, by rw [hopens]; rfl⟩ h

theorem State.sealOpened_length {v : State} {b plain : List Byte} (h : v.sealOpened w p b = some plain) :
    plain.length = 64 * field b 10 2 := by
  obtain ⟨key, -, hkey⟩ := Option.bind_eq_some_iff.1 h
  rw [gcmOpen_eq] at hkey
  split at hkey
  · cases hkey
    rw [counterMode_length, memRead_length]
  · cases hkey

/-- The window with a seal entry stored, its row valid. -/
def State.entryStored (u : State) (w : WinId) (entry : Nat) (b : List Byte) : State :=
  Cert.winTo u w fun x =>
    { x with rows := memWrite x.rows (64 * 928 + 32 * entry) b, notReady := x.notReady.filter fun y => y.1 ≠ 928 + entry / 2 }

variable (hu : s.advance t = u) (hready : u.host.hpReady = true)
include hu hready

theorem sealEntry_recovery (hphase : u.pwr.phase = .recovery) : exec (.sealEntry t w entry bs) s = .next (Cert.hostErr u 1) := by
  rw [exec_sealEntry]
  simp only [execSealEntry, hu]
  exact congrArg Host.Outcome.next (if_pos ⟨hready, decide_eq_true hphase⟩)

variable (hphase : u.pwr.phase ≠ .recovery) (hbound : u.host.win[w].bound = some p) (hsealed : u.host.win[w].isSealed = true)
  (hentry : entry < 32)
include hphase hbound hsealed hentry

/-- A seal entry is stored, and opens its rows or fails the next trigger. -/
theorem sealEntry_answered : exec (.sealEntry t w entry bs) s =
    .next (((u.entryStored w entry (padTo 32 bs)).openEntry w p (padTo 32 bs)).elim
      { (Cert.winTo (u.entryStored w entry (padTo 32 bs)) w fun x => { x with failedEntry := true }) with
        sec := { u.sec with event := setBit u.sec.event 2 } }
      fun x => x.1.forwardRows u.host.win[w] (field (padTo 32 bs) 8 2) (field (padTo 32 bs) 10 2) x.2) := by
  have hserved : ¬ (u.host.hpReady = true ∧ u.recovering = true) := by simp [State.recovering_eq_false hphase]
  have hstores : ¬ (¬ u.host.hpReady = true ∨ ¬ u.host.win[w].isSealed = true ∨ 32 ≤ entry) := by
    simp [-Fin.getElem_fin, hready, hsealed, hentry]
  have hkept : (u.updWin w fun x => (x.store (64 * 928 + 32 * entry) (padTo 32 bs)).ready [928 + entry / 2])
      = u.entryStored w entry (padTo 32 bs) := by
    simp only [DWin.ready_one, DWin.store]
    rfl
  rw [exec_sealEntry]
  simp only [execSealEntry, hu, if_neg hserved, hbound, if_neg hstores, hkept]
  cases (u.entryStored w entry (padTo 32 bs)).openEntry w p (padTo 32 bs) <;> rfl

end

end Sys2Proof.Machine

/-! SUPPORT. The triggers of direct windows: refused in their status row, or admitted (R49-R51, R221, R222, R236, R289). -/

namespace Sys2Proof.Machine

/-! ### The window of a trigger -/

/-- A window whose trigger has been noted: its status row is not ready, and a failed seal entry denies no further trigger. -/
def DWin.noted (x : DWin) (row : Nat) : DWin := { x.unready [row] with failedEntry := false }

/-- A window that has given a token to a trigger, where its triggers are counted (R236). -/
def DWin.pay (x : DWin) : DWin := if x.rate = 0 then x else { x with tokens := x.tokens - 1 }

theorem DWin.noted_eq (x : DWin) (row : Nat) :
    x.noted row = { x with failedEntry := false, notReady := (row, none) :: x.notReady.filter fun y => y.1 ≠ row } := by
  rw [DWin.noted, DWin.unready_one]

theorem DWin.pay_bound (x : DWin) : x.pay.bound = x.bound := by
  unfold DWin.pay
  split <;> rfl

/-- A window in which a failed seal entry denies no further trigger. -/
def DWin.cleared (x : DWin) : DWin := { x with failedEntry := false }

/-- A window with the bytes of a status row, which the host reads from cycle `seen` on. -/
def DWin.told (x : DWin) (row : Nat) (bs : List Byte) (seen : Nat) : DWin := (x.store (64 * row) bs).unready [row] (some seen)

theorem DWin.told_eq (x : DWin) (row : Nat) (bs : List Byte) (seen : Nat) : x.told row bs seen =
    { x with rows := memWrite x.rows (64 * row) bs, notReady := (row, some seen) :: x.notReady.filter fun y => y.1 ≠ row } := by
  rw [DWin.told, DWin.unready_one]
  rfl

/-- A row that has been told is readable in its time whether or not its trigger was noted before. -/
theorem DWin.told_noted (x : DWin) (row : Nat) (bs : List Byte) (seen : Nat) :
    (x.noted row).told row bs seen = x.cleared.told row bs seen := by
  simp [DWin.noted_eq, DWin.told_eq, DWin.cleared]

section
variable {u : State} {w : WinId} {row : Nat} {tag : Word}

theorem State.updWin_congr {f g : DWin → DWin} (h : f u.host.win[w] = g u.host.win[w]) : u.updWin w f = u.updWin w g := by
  have hwin : u.host.win.set w (f u.host.win[w]) = u.host.win.set w (g u.host.win[w]) := by rw [h]
  exact congrArg (fun x => ({ u with host := { u.host with win := x } } : State)) hwin

theorem State.updWin_same {f : DWin → DWin} (h : f u.host.win[w] = u.host.win[w]) : u.updWin w f = u := by
  have hset : u.host.win.set w u.host.win[w] = u.host.win := Vector.ext fun i hi => by simp
  rw [State.updWin_congr (g := id) h]
  exact congrArg (fun x => ({ u with host := { u.host with win := x } } : State)) hset

theorem State.updWin_pay (u : State) (w : WinId) : u.updWin w DWin.pay =
    if u.host.win[w].rate = 0 then u else Cert.winTo u w fun x => { x with tokens := x.tokens - 1 } := by
  split
  · exact State.updWin_same (if_pos ‹_›)
  · exact State.updWin_congr (g := fun x => { x with tokens := x.tokens - 1 }) (if_neg ‹_›)

/-! ### Status rows -/

theorem statusPlain_padded (st : Status) (tag : Word) (c k : Nat) :
    padTo 64 (statusPlain st tag c k) = Cert.statusBytes st tag c k ++ List.replicate 32 0 := by
  have hlen : (statusPlain st tag c k).length = 32 := by simp [statusPlain]
  rw [padTo, hlen, List.take_of_length_le (by simp [hlen])]
  rfl

/-- The bytes of a status row in a sealed window (R289). -/
def State.sealedRow (u : State) (w : WinId) (p : PartId) (st : Status) (tag : Word) (c k entry : Nat) : List Byte :=
  let ep := u.part[p].host.newest
  let n := (u.msgSeq p w.val ep.1).1
  let aad := natLe n 8 ++ [BitVec.ofNat 8 entry] ++ List.replicate 7 0
  let x := sealBytes ep.2 (sealNonce 1 w.val n) aad (statusPlain st tag c k)
  x.take 32 ++ aad ++ x.drop 32

theorem State.jobRow_sealed {p : PartId} (hsealed : u.host.win[w].isSealed = true) (hbound : u.host.win[w].bound = some p) (st : Status)
    (c k entry seen : Nat) : u.jobRow w row st tag c k entry seen =
      (u.msgSeq p w.val u.part[p].host.newest.1).2.updWin w fun d =>
        d.told row (u.sealedRow w p st tag c k entry) seen := by
  unfold State.jobRow
  simp only [hsealed, hbound]
  rfl

theorem State.jobRow_plain (hsealed : u.host.win[w].isSealed = false) (st : Status) (c k entry seen : Nat) :
    u.jobRow w row st tag c k entry seen = u.updWin w fun d =>
      d.told row (padTo 64 (statusPlain st tag c k)) seen := by
  unfold State.jobRow
  simp only [hsealed]
  rfl

/-- The window that a trigger has reached, noted or not, tells the same status row. -/
theorem State.jobRow_noted {p : PartId} (hbound : u.host.win[w].bound = some p) (st : Status) (c k entry seen : Nat) :
    (u.updWin w fun x => x.noted row).jobRow w row st tag c k entry seen = (u.updWin w DWin.cleared).jobRow w row st tag c k entry seen := by
  have hnoted := State.updWin_self u w fun x => x.noted row
  have hcleared := State.updWin_self u w DWin.cleared
  cases hsealed : u.host.win[w].isSealed with
  | true =>
    let v := (u.msgSeq p w.val u.part[p].host.newest.1).2
    let bs := u.sealedRow w p st tag c k entry
    rw [State.jobRow_sealed (p := p) (by rw [hnoted]; exact hsealed) (by rw [hnoted]; exact hbound),
      State.jobRow_sealed (p := p) (by rw [hcleared]; exact hsealed) (by rw [hcleared]; exact hbound)]
    calc (v.updWin w fun x => x.noted row).updWin w (fun d => d.told row bs seen)
        = v.updWin w fun x => (x.noted row).told row bs seen := State.updWin_updWin ..
      _ = v.updWin w fun x => x.cleared.told row bs seen := State.updWin_congr (DWin.told_noted ..)
      _ = (v.updWin w DWin.cleared).updWin w fun d => d.told row bs seen := (State.updWin_updWin v w DWin.cleared fun d => d.told row bs seen).symm
  | false =>
    rw [State.jobRow_plain (by rw [hnoted]; exact hsealed), State.jobRow_plain (by rw [hcleared]; exact hsealed), State.updWin_updWin,
      State.updWin_updWin]
    exact State.updWin_congr (DWin.told_noted ..)

/-- The refusal of a noted trigger is the status row that tells it. -/
theorem State.refuseRow_noted {p : PartId} (hbound : u.host.win[w].bound = some p) (st : Status) (k : Nat) :
    (u.updWin w fun x => x.noted row).refuseRow w row tag st k = Cert.rowRefused u w row tag st k := by
  have hseal : ((u.updWin w fun x => x.noted row).host.win[w]).isSealed = u.host.win[w].isSealed := by
    rw [State.updWin_self]
    rfl
  unfold State.refuseRow Cert.rowRefused
  simp only [hseal, State.jobRow_noted hbound]
  cases hsealed : u.host.win[w].isSealed with
  | true => rfl
  | false =>
    rw [State.jobRow_plain (by rw [State.updWin_self]; exact hsealed), statusPlain_padded]
    simp only [DWin.told_eq]
    rfl

end

/-! ### TRIGGER_RECORD -/

section
variable {s u : State} {t : Nat} {w : WinId} {bs : List Byte} (hu : s.advance t = u) (hready : u.host.hpReady = true)
include hu hready

theorem triggerRecord_recovery (hphase : u.pwr.phase = .recovery) : exec (.triggerRecord t w bs) s = .next (Cert.hostErr u 1) := by
  have hserved : ¬ ¬ u.host.hpReady = true := not_not.2 hready
  have hrec : u.recovering = true := decide_eq_true hphase
  rw [exec_triggerRecord]
  simp only [execTriggerRecord, hu, if_neg hserved, if_pos hrec]
  rfl

variable (hphase : u.pwr.phase ≠ .recovery)
include hphase

/-- A trigger that no window can answer (R221). -/
theorem triggerRecord_bad (h : u.host.win[w].bound = none ∨ u.host.win[w].releasing.isSome = true ∨ field bs 12 2 < 960 ∨ 1007 < field bs 12 2) :
    exec (.triggerRecord t w bs) s = .next (Cert.hostErr u 3) := by
  have hserved : ¬ ¬ u.host.hpReady = true := not_not.2 hready
  have hrec : ¬ u.recovering = true := by simp [State.recovering_eq_false hphase]
  rw [exec_triggerRecord]
  simp only [execTriggerRecord, hu, if_neg hserved, if_neg hrec]
  cases hbound : u.host.win[w].bound with
  | none => rfl
  | some p => exact congrArg Host.Outcome.next (if_pos (h.resolve_left (by rw [hbound]; exact Option.some_ne_none p)))

/-- The tag that a trigger record gives. -/
def triggerTag (bs : List Byte) : Word := BitVec.ofNat 32 (field bs 8 4)

/-- How a trigger of a bound window with a status row is answered (R222, R289). -/
def State.answerTrigger (u : State) (w : WinId) (p : PartId) (bs : List Byte) : State :=
  let v := u.updWin w fun x => x.noted (field bs 12 2)
  (u.trigger? p (field bs 0 2)).elim (v.refuseRow w (field bs 12 2) (triggerTag bs) stBadArg) fun c =>
    if ¬ allZero (bs.drop 14) then v.refuseRow w (field bs 12 2) (triggerTag bs) stBadArg
    else if u.host.win[w].failedEntry then v.refuseRow w (field bs 12 2) (triggerTag bs) stDenied
    else v.windowTrigger w (field bs 12 2) (triggerTag bs) c (field bs 2 2) (field bs 4 4)

theorem triggerRecord_answered {p : PartId} (hbound : u.host.win[w].bound = some p) (hfree : u.host.win[w].releasing = none)
    (hlo : 960 ≤ field bs 12 2) (hhi : field bs 12 2 ≤ 1007) : exec (.triggerRecord t w bs) s = .next (u.answerTrigger w p bs) := by
  have hserved : ¬ ¬ u.host.hpReady = true := not_not.2 hready
  have hrec : ¬ u.recovering = true := by simp [State.recovering_eq_false hphase]
  have htaken : ¬ (u.host.win[w].releasing.isSome = true ∨ field bs 12 2 < 960 ∨ 1007 < field bs 12 2) := by
    simp only [hfree, Option.isSome_none, Bool.false_eq_true, false_or]
    omega
  have hsame : (u.updWin w fun x => { x.unready [field bs 12 2] with failedEntry := false }).trigger? p (field bs 0 2)
      = u.trigger? p (field bs 0 2) := rfl
  rw [exec_triggerRecord]
  simp only [execTriggerRecord, hu, if_neg hserved, if_neg hrec, hbound, if_neg htaken, hsame]
  unfold State.answerTrigger
  cases u.trigger? p (field bs 0 2) <;> rfl

end

section
variable {u : State} {w : WinId} {p : PartId} {bs : List Byte} {c : Schedule} (hbound : u.host.win[w].bound = some p)
include hbound

theorem State.answerTrigger_unknown (h : u.trigger? p (field bs 0 2) = none) :
    u.answerTrigger w p bs = Cert.rowRefused u w (field bs 12 2) (triggerTag bs) stBadArg 0 := by
  simp only [State.answerTrigger, h, Option.elim_none, State.refuseRow_noted hbound]

/-- A record with a reserved bit triggers nothing, whatever its pigeonhole. -/
theorem State.answerTrigger_reserved (h : allZero (bs.drop 14) = false) :
    u.answerTrigger w p bs = Cert.rowRefused u w (field bs 12 2) (triggerTag bs) stBadArg 0 := by
  cases htrig : u.trigger? p (field bs 0 2) with
  | none => exact State.answerTrigger_unknown hbound htrig
  | some c => simp only [State.answerTrigger, htrig, Option.elim_some, h, Bool.false_eq_true, not_false_eq_true, if_true,
      State.refuseRow_noted hbound]

variable (htrig : u.trigger? p (field bs 0 2) = some c) (hzero : allZero (bs.drop 14) = true)
include htrig hzero

theorem State.answerTrigger_denied (h : u.host.win[w].failedEntry = true) :
    u.answerTrigger w p bs = Cert.rowRefused u w (field bs 12 2) (triggerTag bs) stDenied 0 := by
  simp only [State.answerTrigger, htrig, Option.elim_some, hzero, not_true_eq_false, if_false, h, if_true, State.refuseRow_noted hbound]

omit hbound in
theorem State.answerTrigger_offers (h : u.host.win[w].failedEntry = false) : u.answerTrigger w p bs =
    (u.updWin w fun x => x.noted (field bs 12 2)).windowTrigger w (field bs 12 2) (triggerTag bs) c (field bs 2 2) (field bs 4 4) := by
  simp only [State.answerTrigger, htrig, Option.elim_some, hzero, not_true_eq_false, if_false, h, Bool.false_eq_true]

end

/-! ### Quota and admission (R49, R51, R236) -/

/-- An admitted offer is the last of the jobs, and on its engines nothing changes but their busy-until. -/
theorem State.placeJob_onEngines (s : State) (o : Offer) (finish : Nat) (rel : Option Nat) : s.placeJob o finish rel =
    ({ Cert.onEngines s o.engines (fun _ g => { g with busyUntil := finish }) with
        jobs := s.jobs ++ [o.job s.nextJob finish rel], nextJob := s.nextJob + 1 }, s.nextJob) := by
  have hbusy : o.engines.foldl (fun s e => s.updEng e fun g => { g with busyUntil := finish }) s =
      Cert.onEngines s o.engines fun _ g => { g with busyUntil := finish } :=
    State.foldl_updEng_idem (f := fun _ g => { g with busyUntil := finish }) (fun _ _ => rfl) o.engines s
  unfold State.placeJob
  simp only [hbusy]
  rfl

/-- What a sealed window's input takes longer (R28). -/
def DWin.late (d : DWin) : Nat := if d.isSealed then 20 else 0

/-- The budget of a trigger: the schedule's where its record has none. -/
def triggerBudget (c : Schedule) (budget : Nat) : Nat := if budget = 0 then c.budget.toNat else budget

/-- The predicted start of a window's job. -/
def State.triggerStart (u : State) (w : WinId) (c : Schedule) : Nat :=
  (u.live c.part).foldl (fun m e => max m u.eng[e].busyUntil) (u.now + 16 + u.host.win[w].late)

/-- The offer that a window's trigger makes. -/
def State.triggerOffer (u : State) (w : WinId) (row : Nat) (tag : Word) (c : Schedule) (seq budget : Nat) : Offer :=
  u.offerOf c u.now (16 + u.host.win[w].late) budget seq (.window w row tag)

/-- The job of a window's trigger. -/
def State.triggerJob (u : State) (w : WinId) (row : Nat) (tag : Word) (c : Schedule) (seq budget : Nat) : Job :=
  { id := u.nextJob, sched := c.handle, part := c.part, cls := some c.cls, engines := u.live c.part, w := c.w
    t0 := u.now, last := u.now + triggerBudget c budget, finish := u.triggerStart w c + c.w, source := .window w row tag, kvSeq := seq
    counting := u.live c.part, released := some (u.now + 14 + u.host.win[w].late), image := c.images }

section
variable {u : State} {w : WinId} {row : Nat} {tag : Word} {c : Schedule} {seq budget : Nat}

theorem State.offerStart_trigger : u.offerStart (u.triggerOffer w row tag c seq budget) = u.triggerStart w c := by
  unfold State.offerStart State.triggerOffer State.offerOf State.triggerStart
  simp only [Nat.add_assoc]

theorem State.windowTrigger_noQuota {p : PartId} (hbound : u.host.win[w].bound = some p) (hrate : u.host.win[w].rate ≠ 0)
    (hnone : u.host.win[w].tokens = 0) : (u.updWin w fun x => x.noted row).windowTrigger w row tag c seq budget =
      Cert.rowRefused u w row tag stRefusedQuota 0 := by
  have hrefuses : ((u.updWin w fun x => x.noted row).host.win[w]).rate ≠ 0 ∧ ((u.updWin w fun x => x.noted row).host.win[w]).tokens = 0 := by
    rw [State.updWin_self]
    exact ⟨hrate, hnone⟩
  unfold State.windowTrigger
  rw [if_pos hrefuses, State.refuseRow_noted hbound]

/-- To note a trigger and to give it its token are independent. -/
theorem State.noted_pay : (if ((u.updWin w fun x => x.noted row).host.win[w]).rate = 0 then u.updWin w fun x => x.noted row
      else (u.updWin w fun x => x.noted row).updWin w fun x => { x with tokens := x.tokens - 1 })
    = (u.updWin w DWin.pay).updWin w fun x => x.noted row := by
  have hrate : ((u.updWin w fun x => x.noted row).host.win[w]).rate = u.host.win[w].rate := by
    rw [State.updWin_self]
    rfl
  rw [hrate, State.updWin_updWin, State.updWin_updWin]
  split
  · exact State.updWin_congr (congrArg (DWin.noted · row) (if_pos ‹_›).symm)
  · refine State.updWin_congr ?_
    rw [DWin.pay, if_neg ‹_›]
    rfl

section
variable {p : PartId} (hbound : u.host.win[w].bound = some p) (hquota : u.host.win[w].rate = 0 ∨ u.host.win[w].tokens ≠ 0)
include hquota

theorem State.windowTrigger_passes : ¬ (((u.updWin w fun x => x.noted row).host.win[w]).rate ≠ 0
    ∧ ((u.updWin w fun x => x.noted row).host.win[w]).tokens = 0) := by
  rw [State.updWin_self]
  exact fun h => hquota.elim h.1 fun hsome => hsome h.2

section
include hbound

theorem State.windowTrigger_gated {st : Status} (hgate : u.triggerGate c = some st) :
    (u.updWin w fun x => x.noted row).windowTrigger w row tag c seq budget = Cert.rowRefused (u.updWin w DWin.pay) w row tag st 0 := by
  have hgate' : ((u.updWin w DWin.pay).updWin w fun x => x.noted row).triggerGate c = some st := hgate
  have hbound' : (u.updWin w DWin.pay).host.win[w].bound = some p := by rw [State.updWin_self, DWin.pay_bound, hbound]
  unfold State.windowTrigger
  rw [if_neg (State.windowTrigger_passes hquota)]
  simp only [State.noted_pay, hgate', State.refuseRow_noted hbound']

end

variable (hgate : u.triggerGate c = none)
include hgate

/-- A trigger that nothing stands against is decided by the admission unit, in the state in which it is noted and has its token. -/
theorem State.windowTrigger_decided : (u.updWin w fun x => x.noted row).windowTrigger w row tag c seq budget =
    (((u.updWin w DWin.pay).updWin w fun x => x.noted row).takeJob (u.triggerOffer w row tag c seq budget)
      (some (u.now + 14 + u.host.win[w].late))).elim (fun x => x.1.refuseRow w row tag x.2.1 x.2.2) Prod.fst := by
  have hgate' : ((u.updWin w DWin.pay).updWin w fun x => x.noted row).triggerGate c = none := hgate
  have hlate : (if ((u.updWin w fun x => x.noted row).host.win[w]).isSealed = true then 20 else 0) = u.host.win[w].late := by
    rw [State.updWin_self]
    rfl
  unfold State.windowTrigger
  rw [if_neg (State.windowTrigger_passes hquota)]
  simp only [State.noted_pay, hgate', hlate]
  split <;>
    · rename_i htake
      exact (congrArg (Sum.elim (fun x => x.1.refuseRow w row tag x.2.1 x.2.2) Prod.fst) htake).symm

variable (hroom : ∀ e ∈ u.live c.part, (u.queueOf e).length < 64)
include hroom

section
include hbound

theorem State.windowTrigger_late (hlate : u.now + triggerBudget c budget < u.triggerStart w c + c.w) :
    (u.updWin w fun x => x.noted row).windowTrigger w row tag c seq budget =
      Cert.rowRefused (u.updWin w DWin.pay) w row tag stRefusedDeadline (u.triggerStart w c + c.w - u.now) := by
  have hbound' : (u.updWin w DWin.pay).host.win[w].bound = some p := by rw [State.updWin_self, DWin.pay_bound, hbound]
  rw [← State.offerStart_trigger (row := row) (tag := tag) (seq := seq) (budget := budget)] at hlate ⊢
  rw [State.windowTrigger_decided hquota hgate,
    State.takeJob_late (s := (u.updWin w DWin.pay).updWin w fun x => x.noted row) hroom hlate]
  exact State.refuseRow_noted hbound' ..

end

theorem State.windowTrigger_fits (hfits : u.triggerStart w c + c.w ≤ u.now + triggerBudget c budget) :
    (u.updWin w fun x => x.noted row).windowTrigger w row tag c seq budget =
      { Cert.onEngines ((u.updWin w DWin.pay).updWin w fun x => x.noted row) (u.live c.part) (fun _ g =>
          { g with busyUntil := u.triggerStart w c + c.w }) with
        jobs := u.jobs ++ [u.triggerJob w row tag c seq budget], nextJob := u.nextJob + 1 } := by
  have hstart : ((u.updWin w DWin.pay).updWin w fun x => x.noted row).offerStart (u.triggerOffer w row tag c seq budget)
      = u.triggerStart w c := State.offerStart_trigger (u := u)
  have htake := State.takeJob_fits (s := (u.updWin w DWin.pay).updWin w fun x => x.noted row) (o := u.triggerOffer w row tag c seq budget)
    (rel := some (u.now + 14 + u.host.win[w].late)) hroom (by rw [hstart]; exact hfits)
  rw [State.windowTrigger_decided hquota hgate, htake, hstart, State.placeJob_onEngines]
  rfl

end

end

end Sys2Proof.Machine

/-! SUPPORT. The quota of direct windows (R236), and what its commands and the windows' own do together. -/

namespace Sys2Proof.Machine

/-! ### The quota (R236, Table 09.20) -/

section
variable {s u : State} {t : Nat}

theorem hostRegs_quota (u : State) (w : WinId) : ∃ v, assoc (0x300 + 4 * w.val) u.hostRegs = some v := by
  fin_cases w <;> exact ⟨_, rfl⟩

/-- The window with RATE and BURST of a word written, its bucket full; a BURST of 0 leaves the one that is. -/
theorem State.setQuota_toNat (u : State) (w : WinId) (v : Word) : u.setQuota w v.toNat = Cert.winTo u w fun x =>
    let burst : Byte := if v.extractLsb' 16 8 = 0 then x.burst else v.extractLsb' 16 8
    { x with rate := v.extractLsb' 0 16, burst := burst, tokens := burst } := by
  have hbyte : BitVec.ofNat 8 (v.toNat / 65536) = v.extractLsb' 16 8 := by
    rw [BitVec.extractLsb', Nat.shiftRight_eq_div_pow]
  have hzero : v.toNat / 65536 % 256 = 0 ↔ v.extractLsb' 16 8 = 0 := by
    rw [← hbyte, ← BitVec.toNat_inj]
    rfl
  unfold State.setQuota
  simp only [hbyte, hzero, ofNat_toNat_low]
  rfl

theorem hstDwinQuotaWrite_sets (hu : s.advance t = u) (hready : u.host.hpReady = true) (hphase : u.pwr.phase ≠ .recovery) (w : WinId)
    (v : Word) : exec (.hstDwinQuotaWrite t w v) s = .next (u.setQuota w v.toNat) := by
  obtain ⟨x, hx⟩ := hostRegs_quota u w
  have hlt := w.isLt
  have hat : regAt (0x10300 + 4 * w.val) = some (.host, 0x300 + 4 * w.val) := regAt_host (by omega) (by omega) (by omega)
  have hin : 0x300 ≤ 0x300 + 4 * w.val ∧ 0x300 + 4 * w.val < 0x340 := by omega
  have hw : (0x300 + 4 * w.val - 0x300) / 4 = w.val := by omega
  rw [exec_hstDwinQuotaWrite, execHstDwinQuotaWrite, hu,
    State.hostWrite_register hready (State.recovering_eq_false hphase) hat hx]
  show Host.Outcome.next (u.hostRegWrite (0x300 + 4 * w.val) v.toNat) = _
  rw [State.hostRegWrite, dif_pos hin]
  simp only [hw]

theorem dwinQuotaPeriod_none (hu : s.advance t = u) (h : u.now % 65536 ≠ 0 ∨ u.host.quotaAt = some u.now) :
    exec (.dwinQuotaPeriod t) s = .next u := by
  rw [exec_dwinQuotaPeriod]
  simp only [execDwinQuotaPeriod, hu, if_pos h]

theorem dwinQuotaPeriod_refills (hu : s.advance t = u) (hstart : u.now % 65536 = 0) (hnew : u.host.quotaAt ≠ some u.now) :
    exec (.dwinQuotaPeriod t) s =
      .next { u with host := { u.host with win := u.host.win.map DWin.refill, quotaAt := some u.now } } := by
  rw [exec_dwinQuotaPeriod]
  simp only [execDwinQuotaPeriod, hu, if_neg (not_or.2 ⟨not_not.2 hstart, hnew⟩)]
  rfl

/-- A period changes nothing of a window but its tokens. -/
theorem DWin.refill_eq (x : DWin) : x.refill = { x with tokens := x.refill.tokens } := by
  unfold DWin.refill
  split <;> rfl

theorem DWin.refill_tokens (x : DWin) : x.refill.tokens.toNat =
    if x.rate = 0 then x.tokens.toNat else min x.burst.toNat (x.tokens.toNat + x.rate.toNat) := by
  unfold DWin.refill
  split
  · rfl
  · show (BitVec.ofNat 8 (min x.burst.toNat (x.tokens.toNat + x.rate.toNat))).toNat = _
    rw [BitVec.toNat_ofNat, Nat.mod_eq_of_lt (lt_of_le_of_lt (Nat.min_le_left ..) x.burst.isLt)]

/-- A tray that powers up has its windows as at reset (R398). -/
theorem powerUp_windows (hu : s.advance t = u) {c : PowerUpCond} (hoff : u.pwr.phase = .unpowered) (hlatch : u.pwr.latchedOpen = false)
    (hpresent : c.present = true) (hepo : c.epo = false) (hheld : c.heldOneSecond = true) (hlo : 4800 ≤ c.vin.toNat)
    (hhi : c.vin.toNat ≤ 6000) : ∃ v : State, exec (.powerUp t c) s = .next v ∧ ∀ k : WinId, v.host.win[k] = {} := by
  have hpowered : ¬ u.powerOn = true := by simp [State.powerOn, hoff]
  have hthere : ¬ (c.epo = true ∨ ¬ c.present = true) := by simp [hepo, hpresent]
  have hstarts : ¬ (u.pwr.latchedOpen = true ∨ ¬ c.heldOneSecond = true ∨ c.vin.toNat < 4800 ∨ 6000 < c.vin.toNat) := by
    simp only [hlatch, hheld, not_true_eq_false, false_or, Bool.false_eq_true]
    omega
  rw [exec_powerUp]
  simp only [execPowerUp, hu, if_neg hpowered, if_neg hthere, if_neg hstarts]
  exact ⟨_, rfl, fun k => Vector.getElem_replicate k.isLt⟩

end

end Sys2Proof.Machine

namespace Sys2Proof.Proofs

open Sys2Proof Sys2Proof.Machine

theorem windowRows (s : State) (t : Nat) (w : WinId) (bs : List Byte) : Cert.WindowRows s t w bs := by
  unfold Cert.WindowRows
  intro u d
  have hu : s.advance t = u := rfl
  clear_value u
  refine ⟨fun hready hphase row off f => hostDataRowWrite_recovery hu hready hphase f, ?_⟩
  rintro row off e rfl hready hphase hbound hrow hfits
  have hstores := hostDataRowWrite_stores (off := off) (bs := bs) (s := s) (t := t) hu hready hphase hbound hrow hfits
  intro kept still
  refine ⟨fun hstill f => ?_, fun hgo => ?_⟩
  · rw [hstores]
    split
    · rfl
    · rename_i hplain
      exact congrArg Host.Outcome.next (State.forwardRow_kept (u := u.rowStored w row off bs) (hstill.resolve_left hplain) f)
  · obtain ⟨hplain, hopen⟩ := not_or.1 hgo
    rw [hstores, if_neg hplain, State.forwardRow_taken (u := u.rowStored w row off bs) hopen]
    refine ⟨_, rfl, rfl, fun k hk => State.updEng_ne (w := u.rowStored w row off bs) hk, fun _ hbad => ?_⟩
    rw [State.updEng_self]
    exact ⟨Engine.sideTaken_frame hbad .., Engine.memRead_sideTaken hbad .., fun b hb => Engine.memGet_sideTaken hbad hb⟩

theorem windowTriggers (s : State) (t : Nat) (w : WinId) (bs : List Byte) : Cert.WindowTriggers s t w bs := by
  unfold Cert.WindowTriggers
  intro u d late row tag refused hready
  have hu : s.advance t = u := rfl
  clear_value u
  refine ⟨triggerRecord_recovery hu hready, fun hphase => ⟨triggerRecord_bad hu hready hphase, fun p hbound hfree hlo hhi => ?_⟩⟩
  have hanswer : exec (.triggerRecord t w bs) s = .next (u.answerTrigger w p bs) :=
    triggerRecord_answered hu hready hphase hbound hfree hlo hhi
  rw [hanswer]
  refine ⟨fun hnone => ?_, fun hreserved => ?_, fun c htrig hzero => ⟨fun hfailed => ?_, fun hfailed hrate htokens => ?_, fun hfailed hquota => ?_⟩⟩
  · refine congrArg Host.Outcome.next (State.answerTrigger_unknown hbound ?_)
    rw [State.trigger?, List.find?_eq_none]
    intro c hc hmine
    simp only [Bool.and_eq_true, decide_eq_true_eq, Bool.not_eq_true'] at hmine
    exact hnone c hc ⟨hmine.1.1, hmine.1.2, hmine.2⟩
  · exact congrArg Host.Outcome.next (State.answerTrigger_reserved hbound hreserved)
  · exact congrArg Host.Outcome.next (State.answerTrigger_denied hbound htrig hzero hfailed)
  · rw [State.answerTrigger_offers htrig hzero hfailed, State.windowTrigger_noQuota hbound hrate htokens]
    rfl
  · rw [State.answerTrigger_offers htrig hzero hfailed]
    intro paid start budget
    have hpaid : paid = u.updWin w DWin.pay := (State.updWin_pay u w).symm
    rw [hpaid]
    refine ⟨fun st hgate => ?_, fun hgate hroom => ⟨fun hlate => ?_, fun hfits => ?_⟩⟩
    · exact congrArg Host.Outcome.next (State.windowTrigger_gated hbound hquota hgate)
    · exact congrArg Host.Outcome.next (State.windowTrigger_late hbound hquota hgate hroom hlate)
    · rw [State.windowTrigger_fits hquota hgate hroom hfits]
      refine ⟨_, rfl, ?_, Cert.onEngines_eng ((u.updWin w DWin.pay).updWin w fun x => x.noted row) (u.live c.part) fun _ g =>
        { g with busyUntil := start + c.w }⟩
      simp only [DWin.noted_eq]
      rfl

theorem windowSeals (s : State) (t : Nat) (w : WinId) (bs : List Byte) : Cert.WindowSeals s t w bs := by
  unfold Cert.WindowSeals
  intro u d
  have hu : s.advance t = u := rfl
  clear_value u
  rintro entry p e rfl hready hbound hsealed hentry
  refine ⟨sealEntry_recovery hu hready, fun hphase => ?_⟩
  intro b seq first rows ep kept nonce opened good
  have hgood : good ↔ (u.entryStored w entry b).GoodEntry w p b :=
    ⟨fun ⟨hfirst, hrows, hinside, hreserved, hfresh, hopens⟩ => ⟨hfirst, hrows, hinside, hreserved, hfresh, hopens⟩,
      fun ⟨hfirst, hrows, hinside, hreserved, hfresh, hopens⟩ => ⟨hfirst, hrows, hinside, hreserved, hfresh, hopens⟩⟩
  rw [sealEntry_answered hu hready hphase hbound hsealed hentry]
  refine ⟨fun hbad => by rw [State.openEntry_bad (hgood.not.1 hbad)]; rfl, fun hok plain hplain => ?_⟩
  rw [(hgood.1 hok).openEntry hplain]
  intro noted
  refine ⟨fun hkept => ?_, fun hfenced hreset hrows _ hbad => ?_⟩
  · exact congrArg Host.Outcome.next (State.forwardRows_kept (u := noted) hkept.symm)
  · have hlen : plain.length = 64 * rows := State.sealOpened_length (v := u.entryStored w entry b) (w := w) (p := p) (b := b) hplain
    obtain ⟨g, hgo, hread, hout, hother⟩ := State.forwardRows_taken (u := noted) (d := d) hfenced hreset hrows hbad hlen
    exact ⟨_, congrArg Host.Outcome.next hgo, rfl, hread, hout, hother⟩

/-- Settles O55: rows, triggers and seal entries by the three theorems above, the quota by its register, its period and the power-up. -/
theorem directWindowsTakeRowsAndTriggers : Obligations.DirectWindowsTakeRowsAndTriggers := by
  unfold Obligations.DirectWindowsTakeRowsAndTriggers
  intro s t w bs u
  refine ⟨windowRows s t w bs, windowTriggers s t w bs, windowSeals s t w bs, fun v hready hphase => ?_, dwinQuotaPeriod_none rfl,
    fun hstart hnew => ?_, fun c hoff hlatch hpresent hepo hheld hlo hhi => ?_⟩
  · rw [hstDwinQuotaWrite_sets rfl hready hphase, State.setQuota_toNat]
  · refine ⟨_, dwinQuotaPeriod_refills rfl hstart hnew, rfl, fun k => ?_⟩
    have hwin : (u.host.win.map DWin.refill)[k] = u.host.win[k].refill := Vector.getElem_map ..
    rw [hwin]
    exact ⟨DWin.refill_eq _, DWin.refill_tokens _⟩
  · obtain ⟨v, hv, hwin⟩ := powerUp_windows rfl hoff hlatch hpresent hepo hheld hlo hhi
    exact ⟨v, hv, fun k => by rw [hwin k]; exact ⟨rfl, rfl⟩⟩

end Sys2Proof.Proofs

/-! SUPPORT. Partner contexts, their windows, and cabinet plans: PARTNER_OPEN, PARTNER_CLOSE, WINDOW_GRANT and PLAN_LOAD (R240, R245-R251,
R414, Tables 10.3, 10.6, 10.7). -/

namespace Sys2Proof.Machine

/-- The lowest free place is the first that a search from 0 up finds. -/
theorem Cert.lowest_firstFree {taken : Nat → Prop} {free : Nat → Bool} {n h : Nat} (hlow : Cert.lowest taken h) (hlt : h < n)
    (hfree : ∀ k, free k = true ↔ ¬ taken k) : firstFree free n = some h :=
  firstFree_eq hlt ((hfree h).2 hlow.1) fun k hk => by
    rw [← Bool.not_eq_true, hfree]
    exact not_not.2 (hlow.2 k hk)

/-! ### PARTNER_OPEN (R245, R246) -/

/-- The argument block of a PARTNER_OPEN, its fields in their ranges (Table 10.6). -/
structure AsksPartner (v : State) (r : MbxReq) (p : PartId) (n : PortId) (clear filter : Bool) : Prop where
  part : v.partOf (r.arg 0 1) = some p
  port : r.arg 1 1 = n.val
  form : r.form 32 [(24, 8)] = true
  clearFlag : r.arg 2 1 = clear.toNat
  filterFlag : r.arg 3 1 = filter.toNat
  kind : clear = true → filter = true ∧ p = 0
  least : 8 ≤ r.arg 6 2
  most : r.arg 6 2 ≤ 512
  ops : r.arg 8 2 ≠ 0
  bytes : 64 ≤ r.arg 12 4

/-- The context that a PARTNER_OPEN asks for, with full buckets and credit, under the numbers given it (R246). -/
def partnerAsked (r : MbxReq) (p : PartId) (n : PortId) (clear filter : Bool) (link num serial : Nat) : Ctx :=
  { part := p, num := num, port := n, clear := clear, filter := filter, link := BitVec.ofNat 16 link
    remoteLink := BitVec.ofNat 16 (r.arg 4 2), creditBlocks := r.arg 6 2, opsBurst := r.arg 8 2, opsRate := r.arg 10 2
    bytesBurst := r.arg 12 4, bytesRate := r.arg 16 4, timeout := if r.arg 20 4 = 0 then 90000 else r.arg 20 4
    opsTok := r.arg 8 2, bytesTok := r.arg 12 4, outCredit := r.arg 6 2, serial := serial }

/-- A module with a context added, and the context's port given to its partition (R245). -/
def State.withPartner (v : State) (c : Ctx) : State :=
  { v with fab := { v.fab with
    ctxs := v.fab.ctxs ++ [c], nextCtx := v.fab.nextCtx + 1
    ports := v.fab.ports.set (portLink c.port) { v.fab.ports[portLink c.port] with serves := some c.part } } }

/-- There is room for the context that a PARTNER_OPEN asks for, under the lowest free LINK and CONTEXT numbers (R245, R246; log
entry 10). -/
structure RoomForPartner (v : State) (r : MbxReq) (p : PartId) (n : PortId) (link num : Nat) : Prop where
  serves : v.fab.ports[portLink n].serves = none ∨ v.fab.ports[portLink n].serves = some p
  unpaired : v.twin.twinPaired = false
  contexts : (v.fab.ctxs.filter fun c => c.part = p).length < v.part[p].ctxMax
  blocks : ((v.fab.ctxs.filter fun c => c.port = n).map Ctx.creditBlocks).sum + r.arg 6 2 ≤ 1792
  linkLt : link < 4096
  numLt : num < 65536
  link : Cert.lowest (fun k => (v.ctx? (BitVec.ofNat 16 k)).isSome = true) link
  num : Cert.lowest (fun k => (v.ctxNum? p k).isSome = true) num

section
variable {v : State} {r : MbxReq} {p : PartId} {n : PortId} {clear filter : Bool} (m : MbxId) (own : Option PartId)
  (h : AsksPartner v r p n clear filter)
include h

theorem bodyPartnerOpen_unplanned (hmode : (v.planPort n.val).mode = 0 ∨ (v.planPort n.val).mode = 3) :
    bodyPartnerOpen v m own r = (v, some (stBadArg, [])) := by
  have hlt : r.arg 1 1 < 8 := h.port ▸ n.isLt
  obtain rfl : n = ⟨r.arg 1 1, hlt⟩ := Fin.ext h.port.symm
  unfold bodyPartnerOpen
  simp only [h.part, dif_pos hlt]
  exact if_pos (by rcases hmode with hmode | hmode <;> simp [hmode])

variable (hmode : (v.planPort n.val).mode = 1 ∨ (v.planPort n.val).mode = 2)
include hmode

/-- On a port that the plan gives to partners nothing is amiss with the arguments. -/
theorem AsksPartner.args : ¬ (¬ r.form 32 [(24, 8)] = true ∨ 1 < r.arg 2 1 ∨ 2 ≤ r.arg 3 1 ∨ r.arg 6 2 < 8 ∨ 512 < r.arg 6 2 ∨ r.arg 8 2 = 0
    ∨ r.arg 12 4 < 64 ∨ (v.planPort n.val).mode = 0 ∨ (v.planPort n.val).mode = 3
    ∨ (decide (r.arg 2 1 = 1) = true ∧ (r.arg 3 1 = 0 ∨ p ≠ 0))) := by
  have hflags : r.arg 2 1 ≤ 1 ∧ r.arg 3 1 ≤ 1 := by
    rw [h.clearFlag, h.filterFlag]
    exact ⟨Bool.toNat_le clear, Bool.toNat_le filter⟩
  have hkind : ¬ (decide (r.arg 2 1 = 1) = true ∧ (r.arg 3 1 = 0 ∨ p ≠ 0)) := by
    rw [h.clearFlag, h.filterFlag]
    cases clear
    · simp
    · obtain ⟨hfilter, hpart⟩ := h.kind rfl
      simp [hfilter, hpart]
  have := h.least; have := h.most; have := h.ops; have := h.bytes
  simp only [h.form, hkind, not_true_eq_false, false_or, or_false]
  omega

theorem bodyPartnerOpen_served {q : PartId} (hq : q ≠ p) (hserves : v.fab.ports[portLink n].serves = some q) :
    bodyPartnerOpen v m own r = (v, some (stBusy, [])) := by
  have hargs := h.args hmode
  have hlt : r.arg 1 1 < 8 := h.port ▸ n.isLt
  obtain rfl : n = ⟨r.arg 1 1, hlt⟩ := Fin.ext h.port.symm
  unfold bodyPartnerOpen
  simp only [h.part, dif_pos hlt, if_neg hargs]
  split
  · exact if_pos (.inl ⟨by rw [hserves]; rfl, by rw [hserves]; exact fun hp => hq (Option.some.inj hp)⟩)
  · rfl

theorem bodyPartnerOpen_opens {link num : Nat} (hroom : RoomForPartner v r p n link num) : bodyPartnerOpen v m own r =
    (v.withPartner (partnerAsked r p n clear filter link num v.fab.nextCtx), some (stOk, natLe num 2 ++ natLe link 2)) := by
  have hargs := h.args hmode
  have hlt : r.arg 1 1 < 8 := h.port ▸ n.isLt
  obtain rfl : n = ⟨r.arg 1 1, hlt⟩ := Fin.ext h.port.symm
  have hlink : firstFree (fun k => (v.ctx? (BitVec.ofNat 16 k)).isNone) 4096 = some link :=
    Cert.lowest_firstFree hroom.link hroom.linkLt fun k => by simp
  have hnum : firstFree (fun k => (v.ctxNum? p k).isNone) 65536 = some num := Cert.lowest_firstFree hroom.num hroom.numLt fun k => by simp
  have hclear : decide (r.arg 2 1 = 1) = clear := by rw [h.clearFlag]; cases clear <;> rfl
  have hfilter : decide (r.arg 3 1 = 1) = filter := by rw [h.filterFlag]; cases filter <;> rfl
  unfold bodyPartnerOpen
  simp only [h.part, dif_pos hlt, if_neg hargs, hlink, hnum]
  simp only [hclear, hfilter]
  refine if_neg ?_
  rintro (⟨hsome, hother⟩ | hmany | hblocks | ⟨hpaired, -⟩)
  · rcases hroom.serves with hs | hs
    · rw [hs] at hsome
      cases hsome
    · exact hother hs
  · exact absurd hroom.contexts (Nat.not_lt.2 hmany)
  · exact absurd hroom.blocks (Nat.not_le.2 hblocks)
  · exact Bool.false_ne_true (hroom.unpaired.symm.trans hpaired)

end

/-! ### PARTNER_CLOSE (R248) -/

section
variable {v : State} {r : MbxReq} {p : PartId} {c : Ctx} (m : MbxId) (own : Option PartId) (hpart : v.partOf (r.arg 0 1) = some p)
  (hform : r.form 4 [(1, 1)] = true) (hctx : v.ctxNum? p (r.arg 2 2) = some c)
include hpart hform hctx

theorem bodyPartnerClose_known : bodyPartnerClose v m own r =
    if v.host.resets.any fun x => decide (x.func = .context p (r.arg 2 2)) && x.started then (v, some (stBusy, []))
    else (v.fence (.context p (r.arg 2 2)) m true, none) := by
  have hknown : ¬ (¬ r.form 4 [(1, 1)] = true ∨ (v.ctxNum? p (r.arg 2 2)).isNone = true) := by simp [hform, hctx]
  unfold bodyPartnerClose
  simp only [hpart, if_neg hknown]
  rfl

theorem bodyPartnerClose_busy (hbusy : ∃ x ∈ v.host.resets, x.func = .context p (r.arg 2 2) ∧ x.started = true) :
    bodyPartnerClose v m own r = (v, some (stBusy, [])) := by
  rw [bodyPartnerClose_known m own hpart hform hctx]
  exact if_pos (by simpa using hbusy)

theorem bodyPartnerClose_fences (hfree : ∀ x ∈ v.host.resets, x.func = .context p (r.arg 2 2) → x.started = false)
    (hfence : Cert.noFence v m) : bodyPartnerClose v m own r = (Cert.fenced v (.context p (r.arg 2 2)) m true, none) := by
  rw [bodyPartnerClose_known m own hpart hform hctx, ← State.fence_fresh m hfence]
  exact if_neg (by simpa using hfree)

end

/-! ### WINDOW_GRANT (R249, R251, Table 10.7) -/

/-- The argument block of a WINDOW_GRANT on a context. -/
structure AsksWindow (v : State) (r : MbxReq) (p : PartId) (c : Ctx) (k : WinKind) : Prop where
  part : v.partOf (r.arg 0 1) = some p
  ctx : v.ctxNum? p (r.arg 2 2) = some c
  kind : winKindOf (r.arg 4 1) = some k
  form : r.form 32 [(9, 7)] = true
  flags : r.arg 1 1 < 2
  rights : r.arg 5 1 < 8

/-- The range of a grant lies in what its kind names, and a grant of pigeonholes or on a remote window carries no right (Table 10.7). -/
structure GrantFits (v : State) (r : MbxReq) (p : PartId) (c : Ctx) (k : WinKind) : Prop where
  act : k = .act → r.arg 24 8 % 64 = 0 ∧ 64 * r.arg 16 8 + r.arg 24 8 ≤ 25165824 ∧ r.arg 8 1 < 6
  lpddr : k = .lpddr → r.arg 16 8 % 512 = 0 ∧ r.arg 24 8 % 512 = 0 ∧ r.arg 16 8 + r.arg 24 8 ≤ regionBytes v.part[p] ∧ r.arg 8 1 = 0
  pgh : k = .pgh → r.arg 16 8 + r.arg 24 8 ≤ v.part[p].pghCount ∧ r.arg 8 1 = 0 ∧ r.arg 5 1 = 0
  remote : k = .remote → c.remoteLink ≠ 0xFFFF ∧ r.arg 16 8 < 65536 ∧ r.arg 8 1 = 0 ∧ r.arg 5 1 = 0

/-- The descriptor that a WINDOW_GRANT asks for, under number `n`. -/
def windowAsked (r : MbxReq) (p : PartId) (c : Ctx) (k : WinKind) (n : Nat) : Win :=
  { num := n, part := p, ctx := c.num, kind := k, rights := BitVec.ofNat 3 (r.arg 5 1), logical := r.arg 8 1
    base := r.arg 16 8, length := r.arg 24 8 }

/-- A module with a window descriptor added. -/
def State.withWindow (v : State) (w : Win) : State := { v with fab := { v.fab with wins := v.fab.wins ++ [w] } }

/-- A module with the window descriptor of a number taken away. -/
def State.withoutWindow (v : State) (n : Nat) : State :=
  { v with fab := { v.fab with wins := v.fab.wins.filter fun x => x.num ≠ n } }

section
variable {v : State} {r : MbxReq} {p : PartId} {c : Ctx} {k : WinKind}

theorem GrantFits.grantRange (h : GrantFits v r p c k) : v.grantRange p c k (r.arg 8 1) (r.arg 16 8) (r.arg 24 8) = true := by
  cases k with
  | act =>
    simp only [State.grantRange, Bool.and_eq_true, decide_eq_true_eq, and_assoc]
    exact h.act rfl
  | lpddr =>
    simp only [State.grantRange, Bool.and_eq_true, decide_eq_true_eq, and_assoc]
    exact h.lpddr rfl
  | pgh =>
    obtain ⟨hrange, hlogical, -⟩ := h.pgh rfl
    simp only [State.grantRange, Bool.and_eq_true, decide_eq_true_eq]
    exact ⟨hrange, hlogical⟩
  | remote =>
    obtain ⟨hremote, hbase, hlogical, -⟩ := h.remote rfl
    simp only [State.grantRange, Bool.and_eq_true, decide_eq_true_eq]
    exact ⟨⟨hremote, hbase⟩, hlogical⟩

theorem GrantFits.noRight (h : GrantFits v r p c k) : ¬ ((k = .pgh ∨ k = .remote) ∧ r.arg 5 1 ≠ 0) := by
  rintro ⟨rfl | rfl, hright⟩
  · exact hright (h.pgh rfl).2.2
  · exact hright (h.remote rfl).2.2.2

variable (h : AsksWindow v r p c k)
include h

theorem changeWindow_clear (hclear : c.clear = true) : changeWindow v r [] none = .error stBadArg := by
  unfold changeWindow
  simp only [h.part, h.ctx, h.kind]
  exact if_pos (.inr (.inr (.inl hclear)))

variable (hclear : c.clear = false)
include hclear

/-- A keyed context may have windows. -/
theorem AsksWindow.args : ¬ (¬ r.form 32 [(9, 7)] = true ∨ 2 ≤ r.arg 1 1 ∨ c.clear = true ∨ 8 ≤ r.arg 5 1) := by
  have := h.flags; have := h.rights
  simp only [h.form, hclear, not_true_eq_false, false_or, Bool.false_eq_true]
  omega

theorem changeWindow_unknown (hremove : r.arg 1 1 = 1) (hnone : ∀ w ∈ v.fab.wins, w.num ≠ r.arg 6 2) :
    changeWindow v r [] none = .error stBadArg := by
  have hfind : (v.fab.wins.find? fun w => decide (w.num = r.arg 6 2)) = none :=
    List.find?_eq_none.2 fun w hw => by simpa using hnone w hw
  unfold changeWindow
  simp only [h.part, h.ctx, h.kind, if_neg (h.args hclear), if_pos hremove, hfind]

theorem changeWindow_removes {w : Win} (hremove : r.arg 1 1 = 1) (hfind : (v.fab.wins.find? fun w => decide (w.num = r.arg 6 2)) = some w)
    (hpart : w.part = p) (hctx : w.ctx = c.num) : changeWindow v r [] none = .ok (v.withoutWindow w.num, natLe w.num 2, w.num) := by
  have hmine : ¬ (w.part ≠ p ∨ w.ctx ≠ c.num) := by simp [hpart, hctx]
  unfold changeWindow
  simp only [h.part, h.ctx, h.kind, if_neg (h.args hclear), if_pos hremove, hfind, if_neg hmine]
  rfl

variable (hgrant : r.arg 1 1 = 0) (hnum : r.arg 6 2 = 0) (hfits : GrantFits v r p c k) (hopens : v.env.opens = [])
include hgrant hnum hfits hopens

/-- A grant outside every envelope takes the lowest free number, where its partition may have a window more. -/
theorem changeWindow_granted : changeWindow v r [] none =
    (firstFree (fun n => v.fab.wins.all fun w => decide (w.num ≠ n)) 8192).elim (.error stBusy) fun n =>
      if v.part[p].winMax ≤ (v.fab.wins.filter fun w => w.part = p).length then .error stBusy
      else .ok (v.withWindow (windowAsked r p c k n), natLe n 2, n) := by
  have hrange : ¬ (r.arg 6 2 ≠ 0 ∨ ((k = .pgh ∨ k = .remote) ∧ r.arg 5 1 ≠ 0)
      ∨ ¬ v.grantRange p c k (r.arg 8 1) (r.arg 16 8) (r.arg 24 8) = true) := by
    simp only [hnum, hfits.grantRange, hfits.noRight, ne_eq, not_true_eq_false, or_self, not_false_eq_true]
  have hkeeps : ¬ r.arg 1 1 = 1 := by rw [hgrant]; exact Nat.zero_ne_one
  have hreserved : v.reservedWins p = 0 := by simp [State.reservedWins, hopens]
  unfold changeWindow
  simp only [h.part, h.ctx, h.kind, if_neg (h.args hclear), if_neg hkeeps, if_neg hrange, Option.isSome_none,
    Bool.false_eq_true, if_false, hreserved, Nat.add_zero, State.reservedNum_none hopens, Bool.not_false, Bool.and_true]
  cases firstFree (fun n => v.fab.wins.all fun w => decide (w.num ≠ n)) 8192 <;> rfl

theorem changeWindow_full (hfull : v.part[p].winMax ≤ (v.fab.wins.filter fun w => w.part = p).length) :
    changeWindow v r [] none = .error stBusy := by
  rw [changeWindow_granted h hclear hgrant hnum hfits hopens]
  cases firstFree (fun n => v.fab.wins.all fun w => decide (w.num ≠ n)) 8192 with
  | none => rfl
  | some n => exact if_pos hfull

theorem changeWindow_adds {n : Nat} (hroom : (v.fab.wins.filter fun w => w.part = p).length < v.part[p].winMax) (hlt : n < 8192)
    (hlow : Cert.lowest (fun n => ∃ w ∈ v.fab.wins, w.num = n) n) :
    changeWindow v r [] none = .ok (v.withWindow (windowAsked r p c k n), natLe n 2, n) := by
  have hfree : firstFree (fun n => v.fab.wins.all fun w => decide (w.num ≠ n)) 8192 = some n :=
    Cert.lowest_firstFree hlow hlt fun k => by simp
  rw [changeWindow_granted h hclear hgrant hnum hfits hopens, hfree]
  exact if_neg (Nat.not_le.2 hroom)

end

theorem State.windowHeld_eq {v : State} {p : PartId} {c : Ctx} {k : Nat} (hctx : v.ctxNum? p k = some c) (num : Nat) :
    v.windowHeld p k num = c.held.any fun x => decide (x.pkt.window.toNat = num) := by
  unfold State.windowHeld
  simp only [hctx]

section
variable {v : State} {r : MbxReq} (m : MbxId) (own : Option PartId) (henv : r.env = 0xFFFF)
include henv

theorem bodyWindowGrant_refuses {st : Status} (hchange : changeWindow v r [] none = .error st) (hst : st ≠ stOk) :
    bodyWindowGrant v m own r = (v, some (st, [])) := by
  have hanswer : v.changeOrStage 0x0202 r [] changeWindow = ends v st := by simp [State.changeOrStage, henv, hchange]
  unfold bodyWindowGrant
  rw [hanswer]
  simp [ends, hst]

/-- A change that is in force at once completes, unless it is a removal for which operations that passed its check still wait (R251). -/
theorem bodyWindowGrant_changes {w : State} {bs : List Byte} {n : Nat} (hchange : changeWindow v r [] none = .ok (w, bs, n)) :
    bodyWindowGrant v m own r =
      if r.arg 1 1 = 1 ∧ ((w.partOf (r.arg 0 1)).any fun p => w.windowHeld p (r.arg 2 2) (r.arg 6 2)) = true then (w, none)
      else (w, some (stOk, bs)) := by
  have hanswer : v.changeOrStage 0x0202 r [] changeWindow = gives w bs := by simp [State.changeOrStage, henv, hchange]
  unfold bodyWindowGrant
  rw [hanswer]
  simp [gives, henv]

/-- A removal completes at once where no operation that passed the check of its window waits. -/
theorem bodyWindowGrant_removes {p : PartId} {c : Ctx} {k : WinKind} {w : Win} (h : AsksWindow v r p c k) (hclear : c.clear = false)
    (hremove : r.arg 1 1 = 1) (hfind : (v.fab.wins.find? fun w => decide (w.num = r.arg 6 2)) = some w) (hpart : w.part = p)
    (hctx : w.ctx = c.num) : bodyWindowGrant v m own r =
      if c.held.any fun x => decide (x.pkt.window.toNat = w.num) then (v.withoutWindow w.num, none)
      else (v.withoutWindow w.num, some (stOk, natLe w.num 2)) := by
  have hnum : w.num = r.arg 6 2 := by simpa using List.find?_some hfind
  have hpart' : (v.withoutWindow w.num).partOf (r.arg 0 1) = some p := h.part
  have hheld := State.windowHeld_eq (v := v.withoutWindow w.num) h.ctx (r.arg 6 2)
  rw [bodyWindowGrant_changes m own henv (changeWindow_removes h hclear hremove hfind hpart hctx), hpart', Option.any_some, hheld, ← hnum]
  simp only [hremove, true_and]

end

/-! ### PLAN_LOAD (R240, R414) -/

theorem State.residePage_fw (s : State) (a : PartId) (page : Nat) : (s.residePage a page).fw = s.fw := by
  unfold State.residePage
  split
  · rfl
  · split <;> rfl

theorem State.bulkRead_fw (s : State) (a : PartId) (b n : Nat) : (s.bulkRead a b n).1.fw = s.fw := by
  unfold State.bulkRead
  generalize List.range _ = l
  generalize ([] : List Byte) = bs
  induction l generalizing s bs with
  | nil => rfl
  | cons i l ih =>
    rw [List.foldl_cons]
    exact (ih _ _).trans (s.residePage_fw a _)

/-- A plan put into the copy of the boot NOR that is not in use, under the next WRITE_COUNT (R414). -/
def State.keepPlan (v : State) (bs : List Byte) : State :=
  let use := nextCopy v.fw.planCopy
  { v with fw := { v.fw with
    nor := memWrite v.fw.nor (0x40000 + 0x8000 * use.1) (natLe use.2 4 ++ natLe (crc32c (natLe use.2 4)) 4 ++ bs) } }

/-- A plan from the bulk area of the system partition is kept where it passes the checks of R240. -/
theorem bodyPlanLoad_reads {v : State} {r : MbxReq} {b : Nat} (m : MbxId) (own : Option PartId) (hlen : r.argBytes = 12)
    (halign : r.arg 0 8 % 64 = 0) (hsize : r.arg 8 4 ≤ 8192) (hat : bulkAt (r.arg 0 8) (r.arg 8 4) = some (0, b)) :
    bodyPlanLoad v m own r =
      (let x := v.bulkRead 0 b (r.arg 8 4)
       if (parsePlan x.2).isNone then (x.1, some (stBadArg, [])) else (x.1.keepPlan x.2, some (stOk, []))) := by
  have hargs : ¬ (r.argBytes ≠ 12 ∨ r.arg 0 8 % 64 ≠ 0 ∨ 8192 < r.arg 8 4) := by
    simp only [hlen, halign, ne_eq, not_true_eq_false, false_or]
    omega
  unfold bodyPlanLoad
  simp only [if_neg hargs, hat, ne_eq, not_true_eq_false, if_false]
  rfl

end Sys2Proof.Machine

namespace Sys2Proof.Proofs

open Sys2Proof Sys2Proof.Machine

/-- Settles O36: what each command's body answers in the state that has accepted it is what the command does. -/
theorem partnersWindowsAndPlans : Obligations.PartnersWindowsAndPlans := by
  unfold Obligations.PartnersWindowsAndPlans
  intro s t r u
  have hu : s.advance t = u := rfl
  clear_value u
  refine ⟨fun hruns p port clear filter num link hpart hport hform hclear hfilter hkind hleast hmost hops hbytes => ?_,
    fun hruns p c hpart hform hctx => ⟨fun hbusy => ?_, fun hfree hfence => ?_⟩,
    fun hruns henv p c k hpart hctx hkind hform hflags hrights => ?_, fun hruns hlen halign hsize b hat => ?_⟩
  · have h : AsksPartner (Cert.accepted u 0x0200 r false) r p port clear filter :=
      ⟨hpart, hport, hform, hclear, hfilter, hkind, hleast, hmost, hops, hbytes⟩
    refine ⟨fun hmode => ?_, fun hmode ⟨q, hq, hserves⟩ => ?_, fun hmode hserves hpaired hcount hblocks hlink hnum hlowLink hlowNum => ?_⟩
    · exact State.ring_refuses hu hruns (bodyPartnerOpen_unplanned r.mailbox none h hmode)
    · exact State.ring_refuses hu hruns (bodyPartnerOpen_served r.mailbox none h hmode hq hserves)
    · exact State.ring_did (f := fun w => w.withPartner (partnerAsked r p port clear filter link num u.fab.nextCtx)) hu hruns
        (bodyPartnerOpen_opens r.mailbox none h hmode ⟨hserves, hpaired, hcount, hblocks, hlink, hnum, hlowLink, hlowNum⟩)
  · exact State.ring_refuses hu hruns (bodyPartnerClose_busy (v := Cert.accepted u 0x0201 r false) r.mailbox none hpart hform hctx hbusy)
  · exact State.ring_continues (f := fun w => Cert.fenced w (.context p (r.arg 2 2)) r.mailbox true) hu hruns
      (bodyPartnerClose_fences (v := Cert.accepted u 0x0201 r false) r.mailbox none hpart hform hctx hfree hfence)
  · have h : AsksWindow (Cert.accepted u 0x0202 r false) r p c k := ⟨hpart, hctx, hkind, hform, hflags, hrights⟩
    have hrefuses {st : Status} (hchange : changeWindow (Cert.accepted u 0x0202 r false) r [] none = .error st) (hst : st ≠ stOk) :
        exec (.windowGrant t r) s = Cert.refused u 0x0202 r st :=
      State.ring_refuses hu hruns (bodyWindowGrant_refuses r.mailbox none henv hchange hst)
    refine ⟨fun hclear => ?_, fun hclear hremove => ⟨fun hnone => ?_, fun w hfind hmine hctxNum => ?_⟩,
      fun hclear hgrant hnum hact hlpddr hpgh hremote hopens => ⟨fun hroom n hn hlow => ?_, fun hfull => ?_⟩⟩
    · exact hrefuses (changeWindow_clear h hclear) (by decide)
    · exact hrefuses (changeWindow_unknown h hclear hremove hnone) (by decide)
    · have hbody := bodyWindowGrant_removes r.mailbox none henv h hclear hremove hfind hmine hctxNum
      refine ⟨fun hnone => ?_, fun hwait => ?_⟩
      · exact State.ring_did (f := fun v => v.withoutWindow w.num) hu hruns (hbody.trans (if_neg (by simpa using hnone)))
      · exact State.ring_continues (f := fun v => v.withoutWindow w.num) hu hruns (hbody.trans (if_pos (by simpa using hwait)))
    · have hfits : GrantFits (Cert.accepted u 0x0202 r false) r p c k := ⟨hact, hlpddr, hpgh, hremote⟩
      have hbody := bodyWindowGrant_changes r.mailbox none henv
        (changeWindow_adds h hclear hgrant hnum hfits hopens hroom hn hlow)
      exact State.ring_did (f := fun v => v.withWindow (windowAsked r p c k n)) hu hruns
        (hbody.trans (if_neg fun hw => absurd (hgrant.symm.trans hw.1) Nat.zero_ne_one))
    · exact hrefuses (changeWindow_full h hclear hgrant hnum ⟨hact, hlpddr, hpgh, hremote⟩ hopens hfull) (by decide)
  · intro x use
    have hbody := bodyPlanLoad_reads (v := Cert.accepted u 0x0203 r false) r.mailbox none hlen halign hsize hat
    refine ⟨fun hbad => ?_, fun hgood => ?_⟩
    · exact congrArg Host.Outcome.next (State.ring_answers hu hruns (hbody.trans (if_pos (Option.isNone_iff_eq_none.2 hbad))))
    · have hfw : x.1.fw = u.fw := State.bulkRead_fw _ _ _ _
      refine congrArg Host.Outcome.next ((State.ring_answers hu hruns (hbody.trans (if_neg ?_))).trans ?_)
      · rw [Bool.not_eq_true, ← Option.not_isSome, hgood]
        rfl
      · show Cert.kept (x.1.keepPlan x.2) 0x0203 r stOk [] = _
        unfold State.keepPlan
        rw [hfw]
        rfl

end Sys2Proof.Proofs

/-! SUPPORT. A packet that a check stops: the drops, the clear responses and the refusals of checks 1 to 13, in their order (R242, R243,
R247-R257, R260, Table 10.8). -/

namespace Sys2Proof

/-- A packet with the memory errors that its operation meets. -/
def Packet.withFlt (p : Packet) (f : Flt) : Packet := { p with flt := f }

end Sys2Proof

namespace Sys2Proof.Machine

/-! ### From a row of the partner operations to its packet -/

/-- Each partner operation takes its packet in under the OP of its row; a GET takes it with the memory errors of the row. -/
theorem packetRows_packetIn : ∀ row ∈ Cert.packetRows, ∀ (s : State) (t : Nat) (n : PortId) (p : Packet), ∃ f : Flt,
    exec (row.2 t n p) s = .next (s.packetIn t n row.1 (p.withFlt f)) := by
  simp only [Cert.packetRows, List.forall_mem_cons, List.not_mem_nil, IsEmpty.forall_iff, implies_true, and_true]
  and_intros
  all_goals exact fun _ _ _ _ => ⟨_, rfl⟩

/-! No check looks at the memory errors of a packet, and no answer does. -/

section
variable {u v : State} {n : PortId} {c : Ctx} {op : Byte} {p p' : Packet} {f : Flt}

theorem Cert.known_withFlt (h : Cert.known u n op p c) : Cert.known u n op (p.withFlt f) c := h

theorem Cert.turnedAway_withFlt {st : Status} : Cert.turnedAway v n op (p.withFlt f) st = Cert.turnedAway v n op p st := rfl

theorem Cert.rejected_withFlt {st : Status} {dead : Bool} :
    Cert.rejected v n c op (p.withFlt f) st dead = Cert.rejected v n c op p st dead := rfl

theorem Cert.opened_withFlt : Cert.opened c op (p.withFlt f) = (Cert.opened c op p).map fun q => q.withFlt f := by
  unfold Cert.opened
  rw [Option.map_map]
  rfl

theorem Cert.authentic_withFlt (h : Cert.authentic op p p' c) : Cert.authentic op (p.withFlt f) (p'.withFlt f) c := by
  obtain ⟨hsecure, hepoch, hopened, hnew, hcredit⟩ := h
  exact ⟨hsecure, hepoch, by rw [Cert.opened_withFlt, hopened]; rfl, hnew, hcredit⟩

end

/-! ### Ports changed -/

theorem State.updPort_eq (u : State) (n : LinkId) (f : Port → Port) : u.updPort n f = Cert.portTo u n f := rfl

/-- Two changes of one port are one. -/
theorem Cert.portTo_portTo (u : State) (n : LinkId) (f g : Port → Port) :
    Cert.portTo (Cert.portTo u n f) n g = Cert.portTo u n fun q => g (f q) := by
  simp [Cert.portTo]

theorem Cert.portTo_congr {u : State} {n : LinkId} {f g : Port → Port} (h : f u.fab.ports[n] = g u.fab.ports[n]) : Cert.portTo u n f = Cert.portTo u n g := by
  unfold Cert.portTo
  rw [h]

/-! ### Checks 1 and 2 -/

section
variable {v : State} {n : PortId} {op : Byte} {p : Packet}

theorem State.openPkt_down (hlocked : v.fab.ports[portLink n].state ≠ .locked) (hopen : v.fab.ports[portLink n].state ≠ .openPort)
    (hfenced : v.fab.ports[portLink n].state ≠ .fencedId) : v.openPkt n op p = .error v :=
  if_pos ⟨hlocked, hopen, hfenced⟩

section
variable (heject : v.pwr.ejectAt = none)
include heject

/-- The clear response of check 2 under the refusal rate cap; a FRAME gets none (R53, R243). -/
theorem State.clearAnswer_eq (st : Status) : v.clearAnswer n op p st = if op = 0x20 then v else Cert.turnedAway v n op p st := by
  unfold State.clearAnswer
  by_cases hframe : op = 0x20
  · rw [if_pos hframe, if_pos hframe]
  rw [if_neg hframe, if_neg hframe]
  unfold State.clearResponse State.queueRefusal State.queueTx Cert.turnedAway
  simp only [State.updPort_eq, Cert.portTo_port, Cert.portTo_portTo]
  by_cases hleft : v.fab.ports[portLink n].clearLeft = 0
  · rw [if_pos hleft]
    exact Cert.portTo_congr (if_pos hleft).symm
  rw [if_neg hleft]
  by_cases hfull : 64 ≤ (v.fab.ports[portLink n].queue.filter fun y => y.cls = .refusal).length
  · rw [if_pos hfull]
    exact Cert.portTo_congr ((if_neg hleft).trans (if_pos hfull)).symm
  · have hstays : ¬ v.pwr.ejectAt.isSome = true := by
      rw [heject]
      exact Bool.false_ne_true
    rw [if_neg hfull]
    refine (if_neg hstays).trans ?_
    exact Cert.portTo_congr ((if_neg hleft).trans (if_neg hfull)).symm

theorem State.openPkt_badCrc (hopen : v.fab.ports[portLink n].state = .openPort) (hcrc : p.crc.toNat ≠ packetCrc op p) :
    v.openPkt n op p = .error (v.dropPkt n 1) := by
  simp only [State.openPkt, hopen, heject, if_pos hcrc]
  simp

variable (hcrc : p.crc.toNat = packetCrc op p)
include hcrc

theorem State.openPkt_fenced (hfenced : v.fab.ports[portLink n].state = .fencedId) :
    v.openPkt n op p = .error (v.clearAnswer n op p stFenced) := by
  simp only [State.openPkt, hfenced, heject, if_neg (not_not.2 hcrc)]
  simp

theorem State.openPkt_locked (hlocked : v.fab.ports[portLink n].state = .locked) :
    v.openPkt n op p = .error (v.clearAnswer n op p stNotReady) := by
  simp only [State.openPkt, hlocked, heject, if_neg (not_not.2 hcrc)]
  simp

theorem State.openPkt_unknown (hopen : v.fab.ports[portLink n].state = .openPort) (hreset : v.resetting (.port n) = false)
    (hctx : v.ctx? p.link = none) : v.openPkt n op p = .error (v.clearAnswer n op p stNotReady) := by
  simp only [State.openPkt, hopen, heject, if_neg (not_not.2 hcrc), hreset, State.linkCtx_none hctx]
  simp

end

end

/-! ### Check 6 (R255) -/

theorem State.authPkt_overrun {u : State} {n : PortId} {c : Ctx} {op : Byte} {p p' : Packet} (hsecure : c.clear = false)
    (hepoch : c.key.retired = 0 ∨ c.key.retired < p.epoch.toNat) (hopened : Cert.opened c op p = some p')
    (hnew : c.lastRx p.epoch < p.pktSeq.toNat) (hfull : c.creditBlocks < c.heldBlocks + creditBlocks p'.payload.length) :
    u.authPkt n c op p false = .error (u.dropPkt n 6) := by
  have hlive : ¬ (¬ c.clear = true ∧ c.key.retired ≠ 0 ∧ p.epoch.toNat ≤ c.key.retired) := by omega
  have hseq : ¬ (¬ c.clear = true ∧ p'.pktSeq.toNat ≤ c.lastRx p'.epoch) := by
    obtain ⟨bs, rfl⟩ := Cert.opened_payload hopened
    exact fun hx => absurd hnew (Nat.not_lt.2 hx.2)
  simp only [State.authPkt, if_neg hlive, authentic_secure hsecure, hopened, if_neg hseq]
  exact if_pos ⟨Bool.false_ne_true, hfull⟩

/-! ### The packet on its way -/

section
variable {s u v : State} {t : Nat} {n : PortId} {op : Byte} {p : Packet} (hu : s.advance t = u) (hheld : ∀ d ∈ u.fab.ctxs, d.held = [])
include hu hheld

theorem State.packetIn_stopped (hopen : (Cert.heard u n).openPkt n (p.opCode.getD op) p = .error v) : s.packetIn t n op p = v := by
  unfold State.packetIn
  rw [hu, State.heard_eq]
  simp only [State.drainHeld_none (s := Cert.heard u n) hheld, hopen]

variable {c : Ctx} (hopen : (Cert.heard u n).openPkt n (p.opCode.getD op) p = .ok c)
include hopen

theorem State.packetIn_dropped (hauth : (Cert.heard u n).authPkt n c (p.opCode.getD op) p false = .error v) : s.packetIn t n op p = v := by
  unfold State.packetIn
  rw [hu, State.heard_eq]
  simp only [State.drainHeld_none (s := Cert.heard u n) hheld, hopen, hauth]

/-- A secure packet that passes checks 1 to 6 goes on to the check of its form, its PKT_SEQ noted in its context (R247). -/
theorem State.packetIn_numbered {p' : Packet} (hauth : Cert.authentic (p.opCode.getD op) p p' c) : s.packetIn t n op p =
    ((Cert.heard u n).updCtx c.link fun _ => c.numbered p).filterPkt n (c.numbered p) (p.opCode.getD op) p' := by
  obtain ⟨hsecure, hepoch, hopened, hnew, hcredit⟩ := hauth
  unfold State.packetIn
  rw [hu, State.heard_eq]
  simp only [State.drainHeld_none (s := Cert.heard u n) hheld, hopen,
    State.authPkt_passed hsecure hepoch hopened hnew (.inr hcredit)]
  rfl

end

/-! ### Refusals at checks 7 to 13 (R51, R243, R260) -/

section
variable {v : State} {n : PortId} {c : Ctx} {op : Byte} {p : Packet}

/-- Outside an envelope a refusal is its answer, its dead letter and its credit. -/
theorem State.rejectPkt_eq (henv : p.env = 0xFFFF) (st : Status) (dead : Bool) :
    v.rejectPkt n c op p st dead = Cert.rejected v n c op p st dead := by
  have hstages : stages op p = false := by simp [stages, henv]
  unfold State.rejectPkt State.doomPkt Cert.rejected State.refuseOp responseOp
  simp only [hstages, Bool.false_eq_true, false_and, if_false]

theorem State.filterPkt_malformed (hform : formOk c op p = false) : v.filterPkt n c op p = v.rejectPkt n c op p stBadArg true :=
  if_pos (by simp [hform])

theorem State.filterPkt_serves (hform : formOk c op p = true) (hfilter : c.filter = false) : v.filterPkt n c op p = v.servePkt n c op p :=
  (if_neg (not_not.2 hform)).trans (if_pos (by simp [hfilter]))

theorem State.servePkt_notReady (hphase : v.pwr.phase ≠ .service) (hstep : v.twin.role ≠ .inStep) (hgave : v.twin.role ≠ .gaveUp) :
    v.servePkt n c op p = v.rejectPkt n c op p stNotReady false := by
  have hstandby : ¬ (v.isStandby = true ∨ v.twin.role = .gaveUp) := by simp [State.isStandby, hstep, hgave]
  exact (if_neg hstandby).trans (if_pos (.inl (by simp [State.inService, hphase])))

/-- A module that serves a partition is no standby in step and has not given up. -/
theorem Cert.serves_active (h : Cert.serves v c) : ¬ (v.isStandby = true ∨ v.twin.role = .gaveUp) := by
  obtain ⟨-, hrole, -, -, -⟩ := h
  simp [State.isStandby, hrole]

theorem Cert.serves_ready (h : Cert.serves v c) : ¬ (¬ v.inService = true ∨ v.part[c.part].dissolving.isSome = true
    ∨ v.resetting (.context c.part c.num) = true ∨ hasBit v.twin.lost c.part.val = true) := by
  obtain ⟨hphase, -, hdissolving, hreset, hlost⟩ := h
  rw [hdissolving, hreset, hlost]
  simp [State.inService, hphase]

/-- A bucket with a rate that holds too little (R257). -/
theorem Ctx.takeTokens_none {bytes : Nat} (hbytes : byteTokens op p = ceilDiv bytes 64)
    (hfew : (c.opsRate ≠ 0 ∧ c.opsTok = 0) ∨ (c.bytesRate ≠ 0 ∧ c.bytesTok < ceilDiv bytes 64)) : c.takeTokens op p = none := by
  simp only [Ctx.takeTokens, hbytes, if_pos hfew]

end

/-- An OP of an operation on memory up to CAS is no NOTIFY. -/
theorem ne_six_of_le {op : Byte} (h : op.toNat ≤ 5) : op ≠ 6 := by
  rintro rfl
  exact absurd h (by decide)

/-! ### Checks 8 to 11 on an operation on memory (R250, Table 10.8) -/

section
variable {v : State} {c : Ctx} {op : Byte} {p : Packet}

theorem State.target_noWindow (hwin : v.win? p.window.toNat = none) : v.target c op p = .error (stNoWindow, true) := by
  simp only [State.target, hwin]

variable {x : Win} (hwin : v.win? p.window.toNat = some x)
include hwin

theorem State.target_otherWindow (hother : x.part ≠ c.part ∨ x.ctx ≠ c.num) : v.target c op p = .error (stNoWindow, true) := by
  simp only [State.target, hwin, if_pos hother]

variable (hpart : x.part = c.part) (hctx : x.ctx = c.num) (hnotify : op ≠ 2) (hadd : op ≠ 6)
include hpart hctx hnotify hadd

theorem State.target_noRight (hright : hasBit x.rights (rightOf op) = false) : v.target c op p = .error (stDenied, true) := by
  have hmine : ¬ (x.part ≠ c.part ∨ x.ctx ≠ c.num) := by simp [hpart, hctx]
  have hquiet : ¬ ((op = 2 ∨ op = 6) ∧ ¬ v.pghGranted c p.notifyPgh.toNat = true) := fun h => h.1.elim hnotify hadd
  simp only [State.target, hwin, if_neg hmine, if_neg hquiet, if_neg hadd, hright]
  rfl

theorem State.target_tooLong (hright : hasBit x.rights (rightOf op) = true) (hlong : x.length < p.offset.toNat + opSpan op p) :
    v.target c op p = .error (stOutOfBounds, true) := by
  have hmine : ¬ (x.part ≠ c.part ∨ x.ctx ≠ c.num) := by simp [hpart, hctx]
  have hquiet : ¬ ((op = 2 ∨ op = 6) ∧ ¬ v.pghGranted c p.notifyPgh.toNat = true) := fun h => h.1.elim hnotify hadd
  simp only [State.target, hwin, if_neg hmine, if_neg hquiet, if_neg hadd, if_neg (not_not.2 hright), if_pos hlong]

end

/-! ### An operation on memory that is refused (R250, R257, R260) -/

section
variable {v : State} {n : PortId} {c : Ctx} {op : Byte} {p : Packet} (hserves : Cert.serves v c) (hmem : op.toNat ≤ 5)
include hserves hmem

theorem State.servePkt_refused {st : Status} {dead : Bool} (htgt : v.target c op p = .error (st, dead)) :
    v.servePkt n c op p = v.rejectPkt n c op p st dead := by
  have hmem' : op.toNat ≤ 6 := Nat.le_succ_of_le hmem
  unfold State.servePkt
  rw [if_neg (Cert.serves_active hserves), if_neg (Cert.serves_ready hserves)]
  simp only [hmem', decide_true, if_true, htgt]

theorem State.servePkt_noWindow (hwin : v.win? p.window.toNat = none) : v.servePkt n c op p = v.rejectPkt n c op p stNoWindow true :=
  State.servePkt_refused hserves hmem (State.target_noWindow hwin)

variable {x : Win} (hwin : v.win? p.window.toNat = some x)
include hwin

theorem State.servePkt_otherWindow (hother : x.part ≠ c.part ∨ x.ctx ≠ c.num) :
    v.servePkt n c op p = v.rejectPkt n c op p stNoWindow true :=
  State.servePkt_refused hserves hmem (State.target_otherWindow hwin hother)

variable (hpart : x.part = c.part) (hctx : x.ctx = c.num) (hnotify : op ≠ 2)
include hpart hctx hnotify

theorem State.servePkt_noRight (hright : hasBit x.rights (rightOf op) = false) :
    v.servePkt n c op p = v.rejectPkt n c op p stDenied true :=
  State.servePkt_refused hserves hmem (State.target_noRight hwin hpart hctx hnotify (ne_six_of_le hmem) hright)

variable (hright : hasBit x.rights (rightOf op) = true)
include hright

theorem State.servePkt_tooLong (hlong : x.length < p.offset.toNat + opSpan op p) :
    v.servePkt n c op p = v.rejectPkt n c op p stOutOfBounds true :=
  State.servePkt_refused hserves hmem (State.target_tooLong hwin hpart hctx hnotify (ne_six_of_le hmem) hright hlong)

/-- In the region, with no controller fenced, an operation within its window has but its tokens to find. -/
theorem State.servePkt_noTokens {bytes : Nat} (hfits : p.offset.toNat + opSpan op p ≤ x.length) (hkind : x.kind = .lpddr)
    (hunits : v.units = []) (hbytes : byteTokens op p = ceilDiv bytes 64)
    (hfew : (c.opsRate ≠ 0 ∧ c.opsTok = 0) ∨ (c.bytesRate ≠ 0 ∧ c.bytesTok < ceilDiv bytes 64)) :
    v.servePkt n c op p = v.rejectPkt n c op p stRefusedQuota false := by
  have hmem' : op.toNat ≤ 6 := Nat.le_succ_of_le hmem
  have hbar : v.targetBar c.part (x.target p) (opSpan op p) = none := by
    rw [Win.target, if_neg (by rw [hkind]; decide)]
    exact State.targetBar_region hunits
  have htgt := State.target_memory hwin hpart hctx (ne_six_of_le hmem) (fun h => absurd h hnotify) hright hfits hbar
  unfold State.servePkt
  rw [if_neg (Cert.serves_active hserves), if_neg (Cert.serves_ready hserves)]
  simp only [hmem', decide_true, if_true, htgt, Ctx.takeTokens_none hbytes hfew]

end

end Sys2Proof.Machine

namespace Sys2Proof.Proofs

open Sys2Proof Sys2Proof.Machine

/-- Settles O49: a packet goes no further than the check that stops it, and what becomes of it there is the outcome of that check's lemma. The
rows differ in their OP alone, but for a GET, whose packet takes the row's memory errors: no check looks at them. -/
theorem packetsMeetTheirChecksInOrder : Obligations.PacketsMeetTheirChecksInOrder := by
  unfold Obligations.PacketsMeetTheirChecksInOrder
  intro row hrow s t n p op u
  have hu : s.advance t = u := rfl
  clear_value u
  intro h q step turned hheld heject
  obtain ⟨f, hrun⟩ := packetRows_packetIn row hrow s t n p
  have hstep : step = .next (s.packetIn t n row.1 (p.withFlt f)) := hrun
  clear_value step
  subst hstep
  have hstate : h.fab.ports[portLink n].state = q.state := Cert.heard_state u n
  have heject' : h.pwr.ejectAt = none := heject
  have hstopped {v : State} (hopen : h.openPkt n op (p.withFlt f) = .error v) : s.packetIn t n row.1 (p.withFlt f) = v :=
    State.packetIn_stopped hu hheld hopen
  have hturned {st : Status} (hopen : h.openPkt n op (p.withFlt f) = .error (h.clearAnswer n op (p.withFlt f) st)) :
      .next (s.packetIn t n row.1 (p.withFlt f)) = turned st := by
    rw [hstopped hopen, State.clearAnswer_eq heject', Cert.turnedAway_withFlt]
  refine ⟨fun hlocked hopen hfenced => ?_, fun hopen hcrc => ?_, fun hfenced hcrc => ?_, fun hlocked hcrc => ?_,
    fun hopen hreset hcrc hctx => ?_, fun c hknown hsecure hepoch => ?_⟩
  · rw [hstopped (State.openPkt_down (hstate ▸ hlocked) (hstate ▸ hopen) (hstate ▸ hfenced))]
  · rw [hstopped (State.openPkt_badCrc heject' (hstate.trans hopen) hcrc)]
    rfl
  · exact hturned (State.openPkt_fenced heject' hcrc (hstate.trans hfenced))
  · exact hturned (State.openPkt_locked heject' hcrc (hstate.trans hlocked))
  · exact hturned (State.openPkt_unknown heject' hcrc (hstate.trans hopen) hreset hctx)
  · intro drop
    have hopen : h.openPkt n op (p.withFlt f) = .ok c := State.openPkt_known (Cert.known_withFlt hknown)
    have hdropped {v : State} (hauth : h.authPkt n c op (p.withFlt f) false = .error v) : s.packetIn t n row.1 (p.withFlt f) = v :=
      State.packetIn_dropped hu hheld hopen hauth
    refine ⟨fun hforged => ?_, fun p' hplain => ?_⟩
    · rw [hdropped (State.authPkt_forged hsecure hepoch (by rw [Cert.opened_withFlt, hforged]; rfl))]
      rfl
    have hplain' : Cert.opened c op (p.withFlt f) = some (p'.withFlt f) := by
      rw [Cert.opened_withFlt, hplain]
      rfl
    refine ⟨fun hold => ?_, fun hnew hfull => ?_, fun hauth henv => ?_⟩
    · rw [hdropped (State.authPkt_replayed hsecure hepoch hplain' hold)]
      rfl
    · rw [hdropped (State.authPkt_overrun hsecure hepoch hplain' hnew hfull)]
      rfl
    · intro c' w no
      have hfilter : s.packetIn t n row.1 (p.withFlt f) = w.filterPkt n c' op (p'.withFlt f) :=
        State.packetIn_numbered hu hheld hopen (Cert.authentic_withFlt hauth)
      have hfields : p'.env = p.env ∧ p'.window = p.window ∧ p'.offset = p.offset ∧ p'.arg = p.arg ∧ p'.length = p.length := by
        obtain ⟨bs, rfl⟩ := Cert.opened_payload hplain
        exact ⟨rfl, rfl, rfl, rfl, rfl⟩
      obtain ⟨henv', hwindow, hoffset, harg, hlength⟩ := hfields
      have hno {st : Status} {dead : Bool} (hreject : s.packetIn t n row.1 (p.withFlt f) = w.rejectPkt n c' op (p'.withFlt f) st dead) :
          .next (s.packetIn t n row.1 (p.withFlt f)) = no st dead := by
        rw [hreject, State.rejectPkt_eq (p := p'.withFlt f) (henv'.trans henv), Cert.rejected_withFlt]
      refine ⟨fun hform => hno (hfilter.trans (State.filterPkt_malformed hform)), fun hform hplainCtx => ?_⟩
      have hserve : s.packetIn t n row.1 (p.withFlt f) = w.servePkt n c' op (p'.withFlt f) :=
        hfilter.trans (State.filterPkt_serves hform hplainCtx)
      refine ⟨fun hphase hstep hgave => hno (hserve.trans (State.servePkt_notReady hphase hstep hgave)), fun hserves hmem hnotify => ?_⟩
      intro win span bytes
      have hserves' : Cert.serves w c' := hserves
      have hwin {x : Option Win} (h : win = x) : w.win? (p'.withFlt f).window.toNat = x := by
        rw [← h]
        exact congrArg (fun k : Half => u.win? k.toNat) hwindow
      have hspan : (p'.withFlt f).offset.toNat + opSpan op (p'.withFlt f) = p.offset.toNat + span := by
        show p'.offset.toNat + opSpan op p' = _
        rw [hoffset, opSpan, if_neg (ne_six_of_le hmem), harg]
      have hbytes : byteTokens op (p'.withFlt f) = ceilDiv bytes 64 := by
        show byteTokens op p' = _
        rw [byteTokens, harg, hlength]
      refine ⟨fun hnone => hno (hserve.trans (State.servePkt_noWindow hserves' hmem (hwin hnone))),
        fun x hx => ⟨fun hother => hno (hserve.trans (State.servePkt_otherWindow hserves' hmem (hwin hx) hother)), fun hpart hctx => ?_⟩⟩
      intro right
      refine ⟨fun hright => hno (hserve.trans ?_), fun hright hlong => hno (hserve.trans ?_),
        fun hright hfits hkind hunits hfew => hno (hserve.trans ?_)⟩
      · exact State.servePkt_noRight hserves' hmem (hwin hx) hpart hctx hnotify hright
      · exact State.servePkt_tooLong hserves' hmem (hwin hx) hpart hctx hnotify hright (hspan ▸ hlong)
      · exact State.servePkt_noTokens hserves' hmem (hwin hx) hpart hctx hnotify hright (hspan ▸ hfits) hkind hunits hbytes hfew

end Sys2Proof.Proofs

/-! SUPPORT. The links: what is heard on one, how one is lost and retrained, and the control blocks that leave it (R237-R239, R255, R256, R318,
Tables 10.1, 10.12, 10.13). -/

namespace Sys2Proof.Machine

/-! ### Ports -/

theorem Port.used_iff (q : Port) : q.used = true ↔ q.state ≠ .unused := by simp [Port.used]

/-! ### What is heard (R237-R239, R255) -/

section
variable {s u : State} {t : Nat} {n : LinkId} (hu : s.advance t = u)
include hu

/-- An unused link hears nothing, and locks to nothing. -/
theorem link_unused (h : u.fab.ports[n].state = .unused) (id : Dword) (far : Byte) (pairs : List (Half × Half)) :
    exec (.ident t n id far) s = .next u ∧ exec (.idle t n) s = .next u ∧ exec (.credit t n pairs) s = .next u
      ∧ exec (.depart t n) s = .next u ∧ exec (.retrainComplete t n) s = .next u := by
  have hno : ¬ u.fab.ports[n].used = true := by rw [Port.used_iff, h]; exact not_not.2 rfl
  rw [exec_ident, exec_idle, exec_credit, exec_depart, exec_retrainComplete]
  simp only [execIdent, execIdle, execCredit, execDepart, execRetrainComplete, State.lockPort, hu, hno, not_false_eq_true, if_true,
    if_false, true_or, and_self, Bool.false_eq_true]

variable (hused : u.fab.ports[n].state ≠ .unused)
include hused

theorem idle_heard : exec (.idle t n) s = .next (Cert.heardOn u n) := by
  rw [exec_idle, execIdle, hu]
  exact congrArg Host.Outcome.next (if_pos ((Port.used_iff _).2 hused))

theorem depart_noted : exec (.depart t n) s = .next (Cert.portTo (Cert.heardOn u n) n fun x => { x with departSeen := true }) := by
  rw [exec_depart, execDepart, hu]
  exact congrArg Host.Outcome.next (if_pos ((Port.used_iff _).2 hused))

/-- A port that has heard what its far end says it is. -/
def State.told (u : State) (n : LinkId) (id : Dword) (far : Byte) : State :=
  Cert.portTo (Cert.heardOn u n) n fun x => { x with farId := id, farPort := far, identSeen := true }

theorem ident_checks (id : Dword) (far : Byte) : exec (.ident t n id far) s = .next ((State.told u n id far).checkFarEnd n) := by
  rw [exec_ident, execIdent, hu]
  exact congrArg Host.Outcome.next (if_neg (not_not.2 ((Port.used_iff _).2 hused)))

theorem credit_taken (pairs : List (Half × Half)) : exec (.credit t n pairs) s =
    .next ((pairs.take 5).foldl (fun v x => v.takeCredit n x.1 x.2) (Cert.heardOn u n)) := by
  rw [exec_credit, execCredit, hu]
  exact congrArg Host.Outcome.next (if_neg (not_not.2 ((Port.used_iff _).2 hused)))

/-- A link in use that is not in lock locks, where the host port is ready: it is fenced if it was, and an IDENT is due (R238). -/
theorem retrainComplete_locks (hlock : u.fab.ports[n].lock = false) (hready : u.host.hpReady = true) :
    exec (.retrainComplete t n) s = .next (Cert.portTo u n fun x => { x with
      lock := true, lastBlock := u.now, identSeen := false, departSeen := false
      state := if x.state = .fencedId then .fencedId else .locked
      blocks := [.ident u.sec.identity (BitVec.ofNat 8 n.val)], identAt := some u.now }) := by
  have hgo : ¬ (¬ u.fab.ports[n].used = true ∨ u.fab.ports[n].lock = true ∨ ¬ u.host.hpReady = true) := by
    rw [Port.used_iff, hlock, hready]
    simp only [ne_eq, hused, not_false_eq_true, not_true_eq_false, Bool.false_eq_true, or_self]
  rw [exec_retrainComplete, execRetrainComplete, hu]
  exact congrArg Host.Outcome.next (if_neg hgo)

end

/-- The far end is checked on a locked port in SERVICE, in a slot that the plan is for (R239). -/
def State.checksFarEnd (u : State) (n : LinkId) : Prop :=
  u.pwr.phase = .service ∧ u.fab.ports[n].lock = true ∧ u.fab.ports[n].state = .locked ∧ u.pwr.slotId ≠ 0xFFFF
    ∧ ∃ pl : Plan, u.fab.plan = some pl ∧ pl.slot = u.pwr.slotId

theorem State.planFits_iff (u : State) :
    u.planFits = true ↔ u.pwr.slotId ≠ 0xFFFF ∧ ∃ pl : Plan, u.fab.plan = some pl ∧ pl.slot = u.pwr.slotId := by
  unfold State.planFits
  cases u.fab.plan with
  | none => simp
  | some pl => simp [and_comm]

section
variable {u : State} {n : LinkId} {id : Dword} {far : Byte}

theorem State.told_port (u : State) (n : LinkId) (id : Dword) (far : Byte) : (State.told u n id far).fab.ports[n] =
    { u.fab.ports[n] with lastBlock := u.now, uncorrRun := 0, farId := id, farPort := far, identSeen := true } := by
  rw [State.told, Cert.portTo_port, Cert.heardOn, Cert.portTo_port]

theorem State.planPort_of_plan {pl : Plan} (hplan : u.fab.plan = some pl) (i : Nat) : u.planPort i = pl.ports.getD i {} := by
  simp only [State.planPort, hplan]

/-- Once its far end has been heard, a port is checked unless one of the conditions fails. -/
theorem State.checksFarEnd_iff (id : Dword) (far : Byte) : u.checksFarEnd n ↔
    ¬ (¬ (u.told n id far).inService = true ∨ ¬ (u.told n id far).planFits = true ∨ ¬ (u.told n id far).fab.ports[n].lock = true
      ∨ ¬ (u.told n id far).fab.ports[n].identSeen = true ∨ (u.told n id far).fab.ports[n].state ≠ .locked) := by
  have hservice : (u.told n id far).inService = true ↔ u.pwr.phase = .service := decide_eq_true_iff
  have hplan : (u.told n id far).planFits = u.planFits := rfl
  rw [State.told_port, hservice, hplan, State.planFits_iff]
  simp only [State.checksFarEnd, not_or, not_not, true_and]
  tauto

theorem State.checkFarEnd_unchecked (h : ¬ u.checksFarEnd n) : (u.told n id far).checkFarEnd n = u.told n id far :=
  if_pos (not_not.1 ((State.checksFarEnd_iff id far).not.1 h))

theorem State.checkFarEnd_checked (h : u.checksFarEnd n) {pl : Plan} (hplan : u.fab.plan = some pl) :
    (u.told n id far).checkFarEnd n = Cert.portTo (u.told n id far) n fun x =>
      { x with state := if id = (pl.ports.getD n.val {}).farId ∧ far = (pl.ports.getD n.val {}).farPort then .openPort else .fencedId } := by
  refine (if_neg ((State.checksFarEnd_iff id far).1 h)).trans ?_
  rw [State.updPort_eq]
  refine Cert.portTo_congr ?_
  rw [State.told_port, State.planPort_of_plan (u := u.told n id far) hplan]

end

/-! ### CREDIT (R255) -/

/-- A context that its far end has returned blocks to. -/
def Ctx.credited (c : Ctx) (blocks : Nat) : Ctx := { c with outCredit := c.outCredit + blocks }

/-- No two contexts share a link number, or the link number of a far end on a port. -/
def State.linksApart (v : State) : Prop :=
  ∀ c ∈ v.fab.ctxs, ∀ d ∈ v.fab.ctxs, c.link = d.link ∨ (c.port = d.port ∧ c.remoteLink = d.remoteLink) → c = d

/-- The blocks that some pairs return for a link number of the far end. -/
def returnedFor (pairs : List (Half × Half)) (link : Half) : Nat := ((pairs.filter fun x => x.1 = link).map fun x => x.2.toNat).sum

theorem returnedFor_cons (x : Half × Half) (pairs : List (Half × Half)) (link : Half) :
    returnedFor (x :: pairs) link = (if x.1 = link then x.2.toNat else 0) + returnedFor pairs link := by
  unfold returnedFor
  by_cases h : x.1 = link <;> simp [h]

/-- A context of a port with what it gets back for its far end's link; any other as it is. -/
def Ctx.getsBack (c : Ctx) (n : LinkId) (get : Half → Nat) : Ctx :=
  if decide (c.port.val = n.val) then c.credited (get c.remoteLink) else c

/-- The contexts of a port with what each gets back. -/
def State.credited (v : State) (n : LinkId) (get : Half → Nat) : State :=
  { v with fab := { v.fab with ctxs := v.fab.ctxs.map fun c => c.getsBack n get } }

section
variable {n : LinkId} {c : Ctx} {get : Half → Nat}

theorem Ctx.getsBack_here (h : c.port.val = n.val) : c.getsBack n get = c.credited (get c.remoteLink) := if_pos (decide_eq_true h)

theorem Ctx.getsBack_elsewhere (h : c.port.val ≠ n.val) : c.getsBack n get = c := if_neg (by simpa using h)

theorem Ctx.getsBack_nothing (h : c.port.val = n.val → get c.remoteLink = 0) : c.getsBack n get = c := by
  by_cases hport : c.port.val = n.val
  · rw [Ctx.getsBack_here hport, h hport]
    rfl
  · exact Ctx.getsBack_elsewhere hport

@[simp] theorem Ctx.getsBack_link : (c.getsBack n get).link = c.link := by unfold Ctx.getsBack; split <;> rfl
@[simp] theorem Ctx.getsBack_port : (c.getsBack n get).port = c.port := by unfold Ctx.getsBack; split <;> rfl
@[simp] theorem Ctx.getsBack_remoteLink : (c.getsBack n get).remoteLink = c.remoteLink := by unfold Ctx.getsBack; split <;> rfl

theorem Ctx.getsBack_getsBack (more : Half → Nat) : (c.getsBack n get).getsBack n more = c.getsBack n fun l => get l + more l := by
  by_cases hport : c.port.val = n.val
  · have hport' : (c.getsBack n get).port.val = n.val := by rw [Ctx.getsBack_port, hport]
    rw [Ctx.getsBack_here hport', Ctx.getsBack_remoteLink, Ctx.getsBack_here hport, Ctx.getsBack_here hport]
    simp only [Ctx.credited, Nat.add_assoc]
  · simp only [Ctx.getsBack_elsewhere hport]

end

section
variable {v : State} {n : LinkId}

/-- A pair credits the one context of the port that sends under its link. -/
theorem State.takeCredit_apart (hapart : v.linksApart) (link blocks : Half) :
    v.takeCredit n link blocks = v.credited n fun l => if link = l then blocks.toNat else 0 := by
  unfold State.takeCredit State.credited
  cases hfind : v.fab.ctxs.find? fun c => decide (c.port.val = n.val) && decide (c.remoteLink = link) with
  | none =>
    have hnone : ∀ c ∈ v.fab.ctxs, c.getsBack n (fun l => if link = l then blocks.toNat else 0) = c := fun c hc =>
      Ctx.getsBack_nothing fun hport => if_neg fun hlink => by simpa [hport, hlink] using List.find?_eq_none.1 hfind c hc
    rw [List.map_congr_left hnone, List.map_id']
  | some c =>
    obtain ⟨hport, rfl⟩ : c.port.val = n.val ∧ c.remoteLink = link := by simpa using List.find?_some hfind
    have hc : c ∈ v.fab.ctxs := List.mem_of_find?_eq_some hfind
    have hctxs : updWhere (fun d => decide (d.link = c.link)) (fun d => d.credited blocks.toNat) v.fab.ctxs
        = v.fab.ctxs.map fun d => d.getsBack n fun l => if c.remoteLink = l then blocks.toNat else 0 := by
      refine List.map_congr_left fun d hd => ?_
      by_cases hlink : d.link = c.link
      · obtain rfl : d = c := hapart d hd c hc (.inl hlink)
        rw [Ctx.getsBack_here hport, if_pos rfl, if_pos (decide_eq_true rfl)]
      · rw [if_neg (by simpa using hlink), Ctx.getsBack_nothing]
        exact fun hport' => if_neg fun hremote =>
          hlink (congrArg Ctx.link (hapart d hd c hc (.inr ⟨Fin.ext (hport'.trans hport.symm), hremote.symm⟩)))
    rw [← hctxs]
    rfl

theorem State.linksApart_credited (hapart : v.linksApart) (get : Half → Nat) : (v.credited n get).linksApart := by
  intro c hc d hd hsame
  obtain ⟨c₀, hc₀, rfl⟩ := List.mem_map.1 hc
  obtain ⟨d₀, hd₀, rfl⟩ := List.mem_map.1 hd
  simp only [Ctx.getsBack_link, Ctx.getsBack_port, Ctx.getsBack_remoteLink] at hsame
  rw [hapart c₀ hc₀ d₀ hd₀ hsame]

theorem State.credited_credited (get more : Half → Nat) :
    (v.credited n get).credited n more = v.credited n fun l => get l + more l := by
  unfold State.credited
  simp only [List.map_map, Function.comp_def, Ctx.getsBack_getsBack]

/-- Pairs credit each context of the port with all that they return for its link. -/
theorem State.takeCredits_apart (hapart : v.linksApart) (pairs : List (Half × Half)) :
    pairs.foldl (fun v x => v.takeCredit n x.1 x.2) v = v.credited n (returnedFor pairs) := by
  induction pairs generalizing v with
  | nil =>
    have hsame : ∀ c ∈ v.fab.ctxs, c.getsBack n (returnedFor []) = c := fun c _ => Ctx.getsBack_nothing fun _ => rfl
    rw [State.credited, List.map_congr_left hsame, List.map_id']
    rfl
  | cons x pairs ih =>
    rw [List.foldl_cons, State.takeCredit_apart hapart, ih (State.linksApart_credited hapart _), State.credited_credited]
    exact congrArg (v.credited n) (funext fun l => (returnedFor_cons x pairs l).symm)

end

/-! ### A link lost (R238, R256, R318) -/

/-- A change of the fabric that neither reads nor writes the dead-letter rings. -/
def Fabric.KeepsRings (f : Fabric → Fabric) : Prop := ∀ (b : Fabric) (d : Vector Dlq 7), f { b with dlq := d } = { f b with dlq := d }

/-- A dead letter goes to its ring alone: it may as well be written after a change of the rest of the fabric. -/
theorem State.deadLetter_updFab {f : Fabric → Fabric} (hf : Fabric.KeepsRings f) (v : State) (part : PartId) (header : List Byte) (st : Status)
    (n : Nat) (sent : Bool) :
    (v.deadLetter part header st n sent).updFab f = (v.updFab f).deadLetter part header st n sent := by
  have hset (d : Vector Dlq 7) : f { v.fab with dlq := d } = { f v.fab with dlq := d } := hf v.fab d
  have hrings : (f v.fab).dlq = v.fab.dlq := (congrArg Fabric.dlq (hset v.fab.dlq) :)
  unfold State.deadLetter State.updFab
  dsimp only
  rw [hset, hrings]

/-- Every operation of a list ended with a status, each with its dead letter (R256, R260). -/
def State.deadLetters (v : State) (gone : List OutOp) (st : Status) (n : Nat) : State :=
  gone.foldl (fun x o => x.deadLetter o.part (headerBytes o.op o.pkt) st n true) v

theorem State.deadLetters_updFab {f : Fabric → Fabric} (hf : Fabric.KeepsRings f) (v : State) (gone : List OutOp) (st : Status) (n : Nat) :
    (v.deadLetters gone st n).updFab f = (v.updFab f).deadLetters gone st n := by
  induction gone generalizing v with
  | nil => rfl
  | cons o gone ih =>
    rw [State.deadLetters, State.deadLetters, List.foldl_cons, List.foldl_cons, ← State.deadLetter_updFab hf]
    exact ih _

theorem State.deadLetters_twin (v : State) (gone : List OutOp) (st : Status) (n : Nat) : (v.deadLetters gone st n).twin = v.twin := by
  induction gone generalizing v with
  | nil => rfl
  | cons o gone ih => exact ih _

theorem State.deadLetters_updPort (v : State) (gone : List OutOp) (st : Status) (n : Nat) (k : LinkId) (f : Port → Port) :
    (v.deadLetters gone st n).updPort k f = (v.updPort k f).deadLetters gone st n :=
  State.deadLetters_updFab (fun _ _ => rfl) v gone st n

theorem State.endOutstanding_eq (v : State) (n : PortId) (st : Status) : v.endOutstanding n st =
    (v.updFab fun b => { b with outstanding := b.outstanding.filter fun o => o.port ≠ n }).deadLetters
      (v.fab.outstanding.filter fun o => o.port = n) st n.val := rfl

/-- A port that retrains, with nothing queued. -/
def Port.fallen (q : Port) : Port :=
  { q with
    state := if q.state = .unused ∨ q.state = .fencedId then q.state else .training
    lock := false, identSeen := false, departSeen := false, queue := [], blocks := [], wire := none, uncorrRun := 0 }

/-- A module whose link has just been lost, its dead letters still to be written. -/
def State.retrains (u : State) (n : LinkId) : State :=
  { u with fab := { u.fab with
    ports := u.fab.ports.set n u.fab.ports[n].fallen
    outstanding := u.fab.outstanding.filter fun o => o.port.val ≠ n.val
    ctxs := updWhere (fun c => c.port.val = n.val) Ctx.linkLost u.fab.ctxs } }

/-- A port out of lock, with nothing heard and nothing queued (R237). -/
def Port.down (q : Port) : Port :=
  { q with
    state := if q.state = .unused ∨ q.state = .fencedId then q.state else .down
    lock := false, identSeen := false, departSeen := false, queue := [], blocks := [], wire := none, uncorrRun := 0 }

/-- A port that is down trains again (R238). -/
def Port.retrain (q : Port) : Port := { q with state := if q.state = .down then .training else q.state }

/-- A port taken down and then retraining has fallen. -/
theorem Port.retrain_down (q : Port) : q.down.retrain = q.fallen := by
  unfold Port.retrain Port.down Port.fallen
  by_cases h : q.state = .unused ∨ q.state = .fencedId
  · have hup : q.state ≠ .down := by rcases h with h | h <;> simp [h]
    simp only [if_pos h, if_neg hup]
  · simp only [if_neg h, if_true]

/-- A port that goes down and retrains: what was awaited on it ends with dead letters (R238, R255, R256). -/
theorem State.portDown_retrains (u : State) (n : LinkId) : (u.portDown n).updPort n Port.retrain =
    (u.retrains n).deadLetters (u.fab.outstanding.filter fun o => o.port.val = n.val) stLinkDown n.val := by
  have hports : (u.updPort n Port.down).updPort n Port.retrain =
      { u with fab := { u.fab with ports := u.fab.ports.set n u.fab.ports[n].fallen } } := by
    rw [State.updPort_eq, State.updPort_eq, Cert.portTo_portTo, Cert.portTo, Port.retrain_down]
  have hdown : u.portDown n = if h : n.val < 8 then
      ((u.updPort n Port.down).endOutstanding ⟨n.val, h⟩ stLinkDown).updFab fun b =>
        { b with ctxs := b.ctxs.map fun c => if c.port.val = n.val then c.linkLost else c }
      else u.updPort n Port.down := rfl
  rw [hdown]
  by_cases hn : n.val < 8
  · have hmine (k : PortId) : k = ⟨n.val, hn⟩ ↔ k.val = n.val := Fin.ext_iff
    have hgone : (u.fab.outstanding.filter fun o => decide (o.port = ⟨n.val, hn⟩)) =
        u.fab.outstanding.filter fun o => decide (o.port.val = n.val) :=
      List.filter_congr fun o _ => decide_eq_decide.2 (hmine o.port)
    have hout : (u.fab.outstanding.filter fun o => decide (o.port ≠ ⟨n.val, hn⟩)) =
        u.fab.outstanding.filter fun o => decide (o.port.val ≠ n.val) :=
      List.filter_congr fun o _ => decide_eq_decide.2 (hmine o.port).not
    have hctxs : (u.fab.ctxs.map fun c => if c.port.val = n.val then c.linkLost else c) =
        updWhere (fun c => decide (c.port.val = n.val)) Ctx.linkLost u.fab.ctxs :=
      List.map_congr_left fun c _ => if_congr decide_eq_true_iff.symm rfl rfl
    rw [dif_pos hn, State.endOutstanding_eq, State.deadLetters_updFab fun _ _ => rfl, State.deadLetters_updPort, ← hgone]
    refine congrArg (fun v : State => v.deadLetters _ stLinkDown n.val) ?_
    rw [State.retrains, ← hout, ← hctxs]
    exact congrArg (fun v : State => (v.updFab fun b => { b with outstanding := b.outstanding.filter fun o => o.port ≠ ⟨n.val, hn⟩ }).updFab
      fun b => { b with ctxs := b.ctxs.map fun c => if c.port.val = n.val then c.linkLost else c }) hports
  · have hother (k : PortId) : k.val ≠ n.val := fun h => hn (h ▸ k.isLt)
    have hout : (u.fab.outstanding.filter fun o => decide (o.port.val ≠ n.val)) = u.fab.outstanding :=
      List.filter_eq_self.2 fun o _ => decide_eq_true (hother o.port)
    have hgone : (u.fab.outstanding.filter fun o => decide (o.port.val = n.val)) = [] :=
      List.filter_eq_nil_iff.2 fun o _ => by simpa using hother o.port
    have hctxs : updWhere (fun c : Ctx => decide (c.port.val = n.val)) Ctx.linkLost u.fab.ctxs = u.fab.ctxs :=
      updWhere_none fun c _ => decide_eq_false (hother c.port)
    rw [dif_neg hn, hports, State.retrains, hout, hctxs, hgone]
    rfl

theorem State.linkLost_eq (u : State) (n : LinkId) : u.linkLost n = Cert.fallen u n := by
  have hlost : u.linkLost n =
      if n = twinLink ∧ ((u.portDown n).updPort n Port.retrain).twin.claimIn = true then ((u.portDown n).updPort n Port.retrain).leaveStep
      else (u.portDown n).updPort n Port.retrain := rfl
  rw [hlost, State.portDown_retrains]
  set v := (u.retrains n).deadLetters (u.fab.outstanding.filter fun o => o.port.val = n.val) stLinkDown n.val
  have htwin : v.twin = u.twin := State.deadLetters_twin ..
  have hstandby : v.isStandby = true ↔ u.twin.role = .inStep := by rw [State.isStandby, htwin, decide_eq_true_iff]
  show (if n = twinLink ∧ v.twin.claimIn = true then v.leaveStep else v) = if n = twinLink ∧ u.twin.claimIn = true ∧ u.twin.role = .inStep then
    { v with twin := { v.twin with
      role := .outOfStep, event := setBit v.twin.event 5, txSeq := v.twin.txSeq + 1, outbox := v.twin.outbox ++ [(12, v.twin.txSeq)] } } else v
  by_cases hclaim : n = twinLink ∧ u.twin.claimIn = true
  · rw [htwin, if_pos hclaim]
    by_cases hstep : u.twin.role = .inStep
    · rw [if_pos ⟨hclaim.1, hclaim.2, hstep⟩, State.leaveStep, if_pos (hstandby.2 hstep), ← htwin]
      rfl
    · rw [if_neg fun h => hstep h.2.2, State.leaveStep, if_neg (hstandby.not.2 hstep)]
  · rw [htwin, if_neg hclaim, if_neg fun h => hclaim ⟨h.1, h.2.1⟩]

/-- A port that has counted an uncorrectable codeword (R238). -/
def State.counted (u : State) (n : LinkId) : State :=
  Cert.portTo u n fun x => { x with fecUncorr := bump 32 x.fecUncorr 1, uncorrRun := x.uncorrRun + 1 }

section
variable {s u : State} {t : Nat} {n : LinkId} (hu : s.advance t = u)
include hu

/-- Out of lock no link is lost, and nothing is sent. -/
theorem link_unlocked (h : u.fab.ports[n].lock = false) :
    exec (.blockLockLoss t n) s = .next u ∧ exec (.uncorrectableCodeword t n) s = .next u ∧ exec (.noBlockTimeout t n) s = .next u
      ∧ exec (.identSend t n) s = .next u ∧ exec (.idleSend t n) s = .next u := by
  rw [exec_blockLockLoss, exec_uncorrectableCodeword, exec_noBlockTimeout, exec_identSend, exec_idleSend]
  simp only [execBlockLockLoss, execUncorrectableCodeword, execNoBlockTimeout, execIdentSend, execIdleSend, hu, h, Bool.false_eq_true,
    not_false_eq_true, if_true, if_false, false_and, true_or, and_self]

variable (hlock : u.fab.ports[n].lock = true)
include hlock

theorem blockLockLoss_falls : exec (.blockLockLoss t n) s = .next (Cert.fallen u n) := by
  rw [exec_blockLockLoss, execBlockLockLoss, hu]
  simp only [hlock, if_true, State.linkLost_eq]

/-- The eighth uncorrectable codeword in a row takes the link down, and no earlier one (R238). -/
theorem uncorrectableCodeword_counts : exec (.uncorrectableCodeword t n) s =
    .next (if 7 ≤ u.fab.ports[n].uncorrRun then Cert.fallen (u.counted n) n else u.counted n) := by
  have hrun : 8 ≤ (u.counted n).fab.ports[n].uncorrRun ↔ 7 ≤ u.fab.ports[n].uncorrRun := by
    rw [State.counted, Cert.portTo_port]
    exact Nat.succ_le_succ_iff
  rw [exec_uncorrectableCodeword, execUncorrectableCodeword, hu]
  simp only [hlock, not_true_eq_false, if_false, State.linkLost_eq]
  exact congrArg Host.Outcome.next (if_congr hrun rfl rfl)

theorem noBlockTimeout_waits : exec (.noBlockTimeout t n) s =
    .next (if u.fab.ports[n].lastBlock + 9000 ≤ u.now then Cert.fallen u n else u) := by
  rw [exec_noBlockTimeout, execNoBlockTimeout, hu]
  simp only [hlock, true_and, State.linkLost_eq]

theorem retrainComplete_locked : exec (.retrainComplete t n) s = .next u := by
  rw [exec_retrainComplete, execRetrainComplete, hu]
  exact congrArg Host.Outcome.next (if_pos (.inr (.inl hlock)))

end

/-! ### IDENT_SEND and IDLE_SEND (R237) -/

/-- A port whose waiting control blocks have left, with more after them. -/
def State.blocksSent (u : State) (n : LinkId) (more : List TxBlock) : State :=
  Cert.portTo u n fun x => { x with blocks := [], lastSent := u.now, sentBlocks := x.blocks ++ more }

/-- What a module says it is on a port. -/
def State.identOn (u : State) (n : LinkId) : TxBlock := .ident u.sec.identity (BitVec.ofNat 8 n.val)

section
variable {s u : State} {t : Nat} {n : LinkId} (hu : s.advance t = u) (hlock : u.fab.ports[n].lock = true)
include hu hlock

theorem identSend_waiting (h : u.identOn n ∈ u.fab.ports[n].blocks) : exec (.identSend t n) s = .next (State.blocksSent u n []) := by
  rw [exec_identSend, execIdentSend, hu]
  refine congrArg Host.Outcome.next ((if_neg (not_not.2 hlock)).trans (if_pos ?_))
  exact List.contains_iff_mem.2 h

variable (hnone : u.identOn n ∉ u.fab.ports[n].blocks)
include hnone

theorem identSend_checked : exec (.identSend t n) s = .next (if u.fab.ports[n].identAt.all fun c => decide (c + 90000000 ≤ u.now) then
    Cert.portTo (u.blocksSent n [u.identOn n]) n fun x => { x with identAt := some u.now } else u) := by
  rw [exec_identSend, execIdentSend, hu]
  refine congrArg Host.Outcome.next ((if_neg (not_not.2 hlock)).trans (if_neg ?_))
  exact fun h => hnone (List.contains_iff_mem.1 h)

/-- With no IDENT waiting one is sent where none has been for 90,000,000 cycles. -/
theorem identSend_due (h : u.fab.ports[n].identAt = none ∨ ∃ c : Nat, u.fab.ports[n].identAt = some c ∧ c + 90000000 ≤ u.now) :
    exec (.identSend t n) s = .next (Cert.portTo (u.blocksSent n [u.identOn n]) n fun x => { x with identAt := some u.now }) := by
  have hdue : (u.fab.ports[n].identAt.all fun c => decide (c + 90000000 ≤ u.now)) = true := by
    rcases h with h | ⟨c, hat, hdue⟩
    · rw [h, Option.all_none]
    · rw [hat, Option.all_some, decide_eq_true_iff]
      exact hdue
  rw [identSend_checked hu hlock hnone, if_pos hdue]

theorem identSend_early {c : Nat} (hat : u.fab.ports[n].identAt = some c) (hearly : u.now < c + 90000000) :
    exec (.identSend t n) s = .next u := by
  have hnot : ¬ (u.fab.ports[n].identAt.all fun c => decide (c + 90000000 ≤ u.now)) = true := by
    rw [hat, Option.all_some, decide_eq_true_iff]
    exact Nat.not_le.2 hearly
  rw [identSend_checked hu hlock hnone, if_neg hnot]

end

section
variable {u : State} {q : Port}

theorem State.nextTx_mem {x : TxPkt} (h : u.nextTx q = some x) : x ∈ q.queue ∧ Cert.mayLeave u x := by
  obtain ⟨k, -, hk⟩ := List.exists_of_findSome?_eq_some h
  obtain ⟨hmem, hmay⟩ := List.mem_filter.1 (List.mem_of_find?_eq_some hk)
  exact ⟨hmem, (State.maySend_iff u x).1 hmay⟩

/-- A refusal that may leave leaves before all else (R256). -/
theorem State.nextTx_refusal {y : TxPkt} (hy : y ∈ q.queue) (hmay : Cert.mayLeave u y) (hcls : y.cls = .refusal) :
    ∃ x, u.nextTx q = some x ∧ x.cls = .refusal := by
  have hable : y ∈ q.queue.filter u.maySend := List.mem_filter.2 ⟨hy, (State.maySend_iff u y).2 hmay⟩
  have hsome : ((q.queue.filter u.maySend).find? fun x => decide (x.cls.rank = 0)).isSome = true :=
    List.find?_isSome.2 ⟨y, hable, by rw [hcls]; rfl⟩
  obtain ⟨x, hx⟩ := Option.isSome_iff_exists.1 hsome
  refine ⟨x, findSome?_range (by decide) hx fun j hj => absurd hj (Nat.not_lt_zero j), ?_⟩
  have hrank : x.cls.rank = 0 := by simpa using List.find?_some hx
  exact TxClass.rank_inj.1 (hrank.trans rfl)

theorem State.nextTx_some {y : TxPkt} (hy : y ∈ q.queue) (hmay : Cert.mayLeave u y) : ∃ x, u.nextTx q = some x := by
  refine Option.ne_none_iff_exists'.1 fun hnone => ?_
  have hrank := List.findSome?_eq_none_iff.1 hnone y.cls.rank (List.mem_range.2 (TxClass.rank_lt y.cls))
  have hno := List.find?_eq_none.1 hrank y (List.mem_filter.2 ⟨hy, (State.maySend_iff u y).2 hmay⟩)
  exact hno (decide_eq_true rfl)

/-- The packet that leaves next may leave the port as it is exactly where some packet may: any on an open port, a refusal on every other. -/
theorem State.nextTx_able : ((u.nextTx q).any fun x => q.state = .openPort || x.cls = .refusal) = true ↔
    ∃ y ∈ q.queue, Cert.mayLeave u y ∧ (q.state = .openPort ∨ y.cls = .refusal) := by
  constructor
  · intro h
    obtain ⟨x, hx, hable⟩ := (Option.any_eq_true ..).1 h
    obtain ⟨hmem, hmay⟩ := State.nextTx_mem hx
    exact ⟨x, hmem, hmay, by simpa using hable⟩
  · rintro ⟨y, hy, hmay, hopen | hcls⟩
    · obtain ⟨x, hx⟩ := State.nextTx_some hy hmay
      simp [hx, hopen]
    · obtain ⟨x, hx, hrefusal⟩ := State.nextTx_refusal hy hmay hcls
      simp [hx, hrefusal]

end

section
variable {s u : State} {t : Nat} {n : LinkId} (hu : s.advance t = u)
include hu

theorem idleSend_busy (hbusy : ∃ y e, u.fab.ports[n].wire = some (y, e) ∧ u.now < e) : exec (.idleSend t n) s = .next u := by
  rw [exec_idleSend, execIdleSend, hu]
  exact congrArg Host.Outcome.next (if_pos (.inr (State.wireBusy_iff.2 hbusy)))

variable (hlock : u.fab.ports[n].lock = true)
include hlock

/-- On a free wire the control blocks that wait leave; where none waits and no packet may leave, IDLE. -/
theorem idleSend_free (hwire : ∀ y e, u.fab.ports[n].wire = some (y, e) → e ≤ u.now) : exec (.idleSend t n) s = .next
    (if u.fab.ports[n].blocks ≠ [] then State.blocksSent u n []
     else if (u.nextTx u.fab.ports[n]).any fun x => u.fab.ports[n].state = .openPort || x.cls = .refusal then u
     else State.blocksSent u n [.idle]) := by
  have hfree : ¬ (¬ u.fab.ports[n].lock = true ∨ u.wireBusy u.fab.ports[n] = true) := by
    rw [State.wireBusy_iff]
    rintro (h | ⟨y, e, hy, he⟩)
    · exact h hlock
    · exact absurd (hwire y e hy) (Nat.not_le.2 he)
  rw [exec_idleSend, execIdleSend, hu]
  simp only [if_neg hfree, List.isEmpty_iff]
  rfl

end

end Sys2Proof.Machine

namespace Sys2Proof.Proofs

open Sys2Proof Sys2Proof.Machine

/-- Settles O52: what is heard on a link changes its port and the credit of its contexts; a link that is lost falls in one way, whatever loses
it (`State.linkLost_eq`); and the control blocks leave as `identSend_due` and `idleSend_free` say. -/
theorem linksAreHeardLostAndRetrained : Obligations.LinksAreHeardLostAndRetrained := by
  unfold Obligations.LinksAreHeardLostAndRetrained
  intro s t n id far pairs u
  have hu : s.advance t = u := rfl
  clear_value u
  intro q h sent me
  refine ⟨fun hunused => link_unused hu hunused id far pairs,
    fun hused => ⟨⟨fun hno => ?_, fun hchecked pl hplan => ?_⟩, idle_heard hu hused, depart_noted hu hused, fun hapart => ?_,
      retrainComplete_locks hu hused⟩,
    fun hlock => ⟨blockLockLoss_falls hu hlock, ⟨fun hfew => ?_, fun hmany => ?_⟩, fun hearly => ?_, fun hlate => ?_,
      retrainComplete_locked hu hlock, identSend_waiting hu hlock, identSend_due hu hlock, fun hnone c => identSend_early hu hlock hnone,
      idleSend_busy hu, fun hwire => ⟨fun hblocks => ?_, fun hblocks hable => ?_, fun hblocks hno => ?_⟩⟩,
    link_unlocked hu⟩
  · rw [ident_checks hu hused, State.checkFarEnd_unchecked hno]
    rfl
  · rw [ident_checks hu hused, State.checkFarEnd_checked hchecked hplan]
    rfl
  · rw [credit_taken hu hused, State.takeCredits_apart (v := Cert.heardOn u n) hapart]
    rfl
  · rw [uncorrectableCodeword_counts hu hlock, if_neg (Nat.not_le.2 hfew)]
    rfl
  · rw [uncorrectableCodeword_counts hu hlock, if_pos hmany]
    rfl
  · rw [noBlockTimeout_waits hu hlock, if_neg (Nat.not_le.2 hearly)]
  · rw [noBlockTimeout_waits hu hlock, if_pos hlate]
  · rw [idleSend_free hu hlock hwire, if_pos hblocks]
    rfl
  · rw [idleSend_free hu hlock hwire, if_neg (not_not.2 hblocks), if_pos (State.nextTx_able.2 hable)]
  · rw [idleSend_free hu hlock hwire, if_neg (not_not.2 hblocks), if_neg (State.nextTx_able.not.2 hno)]
    rfl

end Sys2Proof.Proofs
